-- ==== Sys2Proof/Word.lean ====
section
/-! DEFINITION. The word types of the Y4 and the keyed list that holds every sparse collection of the model. -/

namespace Sys2Proof

/-- A byte. -/
abbrev Byte := BitVec 8
/-- A 16-bit halfword. -/
abbrev Half := BitVec 16
/-- A 32-bit word. -/
abbrev Word := BitVec 32
/-- A 64-bit doubleword, the width of a general register (R72). -/
abbrev DWord := BitVec 64
/-- A vector register (R72). -/
abbrev VReg := BitVec 512
/-- A W96 accumulator word (R147). -/
abbrev W96 := BitVec 96

/-- A keyed collection: entries with strictly rising keys. -/
abbrev KMap (α : Type) := List (Nat × α)

end Sys2Proof
end

