-- ==== Sys2Proof/Syntax.lean ====
section
/-! DEFINITION. The instructions of the Y4 as syntax: one constructor for every row of spec/opcode_table.json. A Porlek
constructor carries the fields of its encoding (R80). The four fields every Roszon slot has (R109) stand beside its op in
RoszonWord (Sys2Proof/WellFormed.lean), and what a step of the part's own agents or of the outside acts on stands in the
event in hand (Sys2Proof/Machine/Event.lean). -/

namespace Sys2Proof

/-- One row of the opcode table a constructor. -/
inductive Instr where
  /-- ADD. Writes the 64-bit wrapping sum of g[a] and g[b] to g[d]. (R165) -/
  | add (w : Bool) (d a b : BitVec 5)
  /-- SUB. Writes the 64-bit wrapping difference g[a] minus g[b] to g[d]. (R165) -/
  | sub (w : Bool) (d a b : BitVec 5)
  /-- MUL. Writes the low 64 bits of the product of g[a] and g[b] to g[d]. (R165) -/
  | mul (w : Bool) (d a b : BitVec 5)
  /-- MULH. Writes the high 64 bits of the signed 128-bit product to g[d]. (R165) -/
  | mulh (w : Bool) (d a b : BitVec 5)
  /-- MULHU. Writes the high 64 bits of the unsigned 128-bit product to g[d]. (R165) -/
  | mulhu (w : Bool) (d a b : BitVec 5)
  /-- DIV. Long operation that writes the signed quotient, truncated toward zero, to g[d]. (R165) -/
  | div (w : Bool) (d a b : BitVec 5)
  /-- DIVU. Long operation that writes the unsigned quotient to g[d]. (R165) -/
  | divu (w : Bool) (d a b : BitVec 5)
  /-- REM. Long operation that writes the signed remainder, with the sign of the dividend, to g[d]. (R165) -/
  | rem (w : Bool) (d a b : BitVec 5)
  /-- REMU. Long operation that writes the unsigned remainder to g[d]. (R165) -/
  | remu (w : Bool) (d a b : BitVec 5)
  /-- AND. Writes the bitwise AND of g[a] and g[b] to g[d]. (R165) -/
  | and (w : Bool) (d a b : BitVec 5)
  /-- OR. Writes the bitwise OR of g[a] and g[b] to g[d]. (R165) -/
  | or (w : Bool) (d a b : BitVec 5)
  /-- XOR. Writes the bitwise XOR of g[a] and g[b] to g[d]. (R165) -/
  | xor (w : Bool) (d a b : BitVec 5)
  /-- ANDN. Writes g[a] AND NOT g[b] to g[d]. (R165) -/
  | andn (w : Bool) (d a b : BitVec 5)
  /-- ORN. Writes g[a] OR NOT g[b] to g[d]. (R165) -/
  | orn (w : Bool) (d a b : BitVec 5)
  /-- SLL. Shifts g[a] left by g[b][5:0] with zero fill into g[d]. (R165) -/
  | sll (w : Bool) (d a b : BitVec 5)
  /-- SRL. Shifts g[a] right by g[b][5:0] with zero fill into g[d]. (R165) -/
  | srl (w : Bool) (d a b : BitVec 5)
  /-- SRA. Shifts g[a] right by g[b][5:0] with sign fill into g[d]. (R165) -/
  | sra (w : Bool) (d a b : BitVec 5)
  /-- ROL. Rotates g[a] left by g[b][5:0] into g[d]. (R165) -/
  | rol (w : Bool) (d a b : BitVec 5)
  /-- ROR. Rotates g[a] right by g[b][5:0] into g[d]. (R165) -/
  | ror (w : Bool) (d a b : BitVec 5)
  /-- MIN. Writes the signed minimum of g[a] and g[b] to g[d]. (R165) -/
  | min (w : Bool) (d a b : BitVec 5)
  /-- MAX. Writes the signed maximum of g[a] and g[b] to g[d]. (R165) -/
  | max (w : Bool) (d a b : BitVec 5)
  /-- MINU. Writes the unsigned minimum of g[a] and g[b] to g[d]. (R165) -/
  | minu (w : Bool) (d a b : BitVec 5)
  /-- MAXU. Writes the unsigned maximum of g[a] and g[b] to g[d]. (R165) -/
  | maxu (w : Bool) (d a b : BitVec 5)
  /-- SLT. Writes 1 to g[d] if g[a] is below g[b] signed, otherwise 0. (R165) -/
  | slt (w : Bool) (d a b : BitVec 5)
  /-- SLTU. Writes 1 to g[d] if g[a] is below g[b] unsigned, otherwise 0. (R165) -/
  | sltu (w : Bool) (d a b : BitVec 5)
  /-- CLZ. Writes the number of leading zero bits of g[a] to g[d]. (R165) -/
  | clz (w : Bool) (d a : BitVec 5)
  /-- CTZ. Writes the number of trailing zero bits of g[a] to g[d]. (R165) -/
  | ctz (w : Bool) (d a : BitVec 5)
  /-- POPC. Writes the number of set bits of g[a] to g[d]. (R165) -/
  | popc (w : Bool) (d a : BitVec 5)
  /-- BREV. Writes the bit-reversal of g[a] to g[d]. (R165) -/
  | brev (w : Bool) (d a : BitVec 5)
  /-- SEXT_B. Sign-extends g[a][7:0] to 64 bits into g[d]. (R165) -/
  | sextB (w : Bool) (d a : BitVec 5)
  /-- SEXT_H. Sign-extends g[a][15:0] to 64 bits into g[d]. (R165) -/
  | sextH (w : Bool) (d a : BitVec 5)
  /-- SEXT_W. Sign-extends g[a][31:0] to 64 bits into g[d]. (R165) -/
  | sextW (w : Bool) (d a : BitVec 5)
  /-- ADDI. Adds the sign-extended 15-bit immediate to g[a] into g[d]. (R166) -/
  | addi (w : Bool) (d a : BitVec 5) (i : BitVec 15)
  /-- ANDI. ANDs g[a] with the sign-extended immediate into g[d]. (R166) -/
  | andi (w : Bool) (d a : BitVec 5) (i : BitVec 15)
  /-- ORI. ORs g[a] with the sign-extended immediate into g[d]. (R166) -/
  | ori (w : Bool) (d a : BitVec 5) (i : BitVec 15)
  /-- XORI. XORs g[a] with the sign-extended immediate into g[d]. (R166) -/
  | xori (w : Bool) (d a : BitVec 5) (i : BitVec 15)
  /-- SLLI. Shifts g[a] left by the immediate amount into g[d]. (R167) -/
  | slli (w : Bool) (d a : BitVec 5) (h : BitVec 6)
  /-- SRLI. Shifts g[a] right logically by the immediate amount into g[d]. (R167) -/
  | srli (w : Bool) (d a : BitVec 5) (h : BitVec 6)
  /-- SRAI. Shifts g[a] right arithmetically by the immediate amount into g[d]. (R167) -/
  | srai (w : Bool) (d a : BitVec 5) (h : BitVec 6)
  /-- RORI. Rotates g[a] right by the immediate amount into g[d]. (R167) -/
  | rori (w : Bool) (d a : BitVec 5) (h : BitVec 6)
  /-- SLTI. Writes 1 if g[a] is below the immediate signed, otherwise 0. (R166) -/
  | slti (w : Bool) (d a : BitVec 5) (i : BitVec 15)
  /-- SLTIU. Writes 1 if g[a] is below the sign-extended immediate unsigned, otherwise 0. (R166) -/
  | sltiu (w : Bool) (d a : BitVec 5) (i : BitVec 15)
  /-- LUI. Writes the sign-extended 20-bit immediate shifted left by 15 to g[d]. (R168) -/
  | lui (w : Bool) (d : BitVec 5) (i : BitVec 20)
  /-- ADDPC. Writes pc plus four times the sign-extended immediate to g[d]. (R168) -/
  | addpc (w : Bool) (d : BitVec 5) (i : BitVec 20)
  /-- FADD. Writes the rounded sum of two scalar floats of precision P. (R171) -/
  | fadd (w : Bool) (d a b : BitVec 5) (p : BitVec 2) (r : BitVec 3)
  /-- FSUB. Writes the rounded difference of two scalar floats. (R171) -/
  | fsub (w : Bool) (d a b : BitVec 5) (p : BitVec 2) (r : BitVec 3)
  /-- FMUL. Writes the rounded product of two scalar floats. (R171) -/
  | fmul (w : Bool) (d a b : BitVec 5) (p : BitVec 2) (r : BitVec 3)
  /-- FDIV. Long operation that writes the rounded quotient of two scalar floats. (R171) -/
  | fdiv (w : Bool) (d a b : BitVec 5) (p : BitVec 2) (r : BitVec 3)
  /-- FSQRT. Long operation that writes the rounded square root of a scalar float. (R171) -/
  | fsqrt (w : Bool) (d a : BitVec 5) (p : BitVec 2) (r : BitVec 3)
  /-- FMIN. Writes the lesser of two scalar floats under the NaN rules. (R172) -/
  | fmin (w : Bool) (d a b : BitVec 5) (p : BitVec 2)
  /-- FMAX. Writes the greater of two scalar floats under the NaN rules. (R172) -/
  | fmax (w : Bool) (d a b : BitVec 5) (p : BitVec 2)
  /-- FEQ. Quiet equality comparison writing 1 or 0. (R173) -/
  | feq (w : Bool) (d a b : BitVec 5) (p : BitVec 2)
  /-- FLT. Signalling less-than comparison writing 1 or 0. (R173) -/
  | flt (w : Bool) (d a b : BitVec 5) (p : BitVec 2)
  /-- FLE. Signalling less-or-equal comparison writing 1 or 0. (R173) -/
  | fle (w : Bool) (d a b : BitVec 5) (p : BitVec 2)
  /-- FCLASS. Writes a one-hot class mask of a scalar float. (R173) -/
  | fclass (w : Bool) (d a : BitVec 5) (p : BitVec 2)
  /-- FCVT_I. Converts a scalar float to an integer type with saturation. (R174) -/
  | fcvtI (w : Bool) (d a : BitVec 5) (t p : BitVec 2) (r : BitVec 3)
  /-- FCVT_F. Converts a float or integer source into float precision P. (R175) -/
  | fcvtF (w : Bool) (d a : BitVec 5) (t : BitVec 3) (p : BitVec 2) (r : BitVec 3)
  /-- FMVB. Copies the low w bits of g[a] zero-extended into g[d]. (R176) -/
  | fmvb (w : Bool) (d a : BitVec 5) (p : BitVec 2)
  /-- FFMA. Writes a·b + c rounded once. (R177) -/
  | ffma (w : Bool) (d a b c : BitVec 5) (p : BitVec 2)
  /-- FFMS. Writes a·b − c rounded once. (R177) -/
  | ffms (w : Bool) (d a b c : BitVec 5) (p : BitVec 2)
  /-- FNMA. Writes −(a·b + c) rounded once. (R177) -/
  | fnma (w : Bool) (d a b c : BitVec 5) (p : BitVec 2)
  /-- FNMS. Writes −(a·b − c) rounded once. (R177) -/
  | fnms (w : Bool) (d a b c : BitVec 5) (p : BitVec 2)
  /-- BEQ. Branches when g[a] equals g[b]. (R178) -/
  | beq (w : Bool) (a b : BitVec 5) (o : BitVec 15)
  /-- BNE. Branches when g[a] differs from g[b]. (R178) -/
  | bne (w : Bool) (a b : BitVec 5) (o : BitVec 15)
  /-- BLT. Branches when g[a] is below g[b] signed. (R178) -/
  | blt (w : Bool) (a b : BitVec 5) (o : BitVec 15)
  /-- BGE. Branches when g[a] is at least g[b] signed. (R178) -/
  | bge (w : Bool) (a b : BitVec 5) (o : BitVec 15)
  /-- BLTU. Branches when g[a] is below g[b] unsigned. (R178) -/
  | bltu (w : Bool) (a b : BitVec 5) (o : BitVec 15)
  /-- BGEU. Branches when g[a] is at least g[b] unsigned. (R178) -/
  | bgeu (w : Bool) (a b : BitVec 5) (o : BitVec 15)
  /-- JAL. Writes pc + 4 to g[d] and jumps pc-relative. (R179) -/
  | jal (w : Bool) (d : BitVec 5) (o : BitVec 20)
  /-- JALR. Jumps to g[a] plus immediate linking in g[d]; target 0 ends the thread. (R180) -/
  | jalr (w : Bool) (d a : BitVec 5) (i : BitVec 15)
  /-- CALLT. Calls through a tagged pointer: a Porlek jump or a Roszon graph call through a frame. (R182) -/
  | callt (w : Bool) (a : BitVec 5)
  /-- MKFP_P. Builds a Porlek-tagged function pointer from a seg0 offset. (R183) -/
  | mkfpP (w : Bool) (d a : BitVec 5)
  /-- MKFP_R. Builds a Roszon-tagged function pointer from a segment offset. (R183) -/
  | mkfpR (w : Bool) (d a : BitVec 5) (s : BitVec 3)
  /-- LDB. Loads a byte on path T, sign-extended. (R360) -/
  | ldb (w : Bool) (d a : BitVec 5) (g : BitVec 3) (i : BitVec 12)
  /-- LDH. Loads a halfword on path T, sign-extended. (R360) -/
  | ldh (w : Bool) (d a : BitVec 5) (g : BitVec 3) (i : BitVec 12)
  /-- LDW. Loads a word on path T, sign-extended. (R360) -/
  | ldw (w : Bool) (d a : BitVec 5) (g : BitVec 3) (i : BitVec 12)
  /-- LDD. Loads a doubleword on path T. (R360) -/
  | ldd (w : Bool) (d a : BitVec 5) (g : BitVec 3) (i : BitVec 12)
  /-- LDBU. Loads a byte on path T, zero-extended. (R360) -/
  | ldbu (w : Bool) (d a : BitVec 5) (g : BitVec 3) (i : BitVec 12)
  /-- LDHU. Loads a halfword on path T, zero-extended. (R360) -/
  | ldhu (w : Bool) (d a : BitVec 5) (g : BitVec 3) (i : BitVec 12)
  /-- LDWU. Loads a word on path T, zero-extended. (R360) -/
  | ldwu (w : Bool) (d a : BitVec 5) (g : BitVec 3) (i : BitVec 12)
  /-- STB. Stores a byte on path T. (R360) -/
  | stb (w : Bool) (r a : BitVec 5) (g : BitVec 3) (i : BitVec 12)
  /-- STH. Stores a halfword on path T. (R360) -/
  | sth (w : Bool) (r a : BitVec 5) (g : BitVec 3) (i : BitVec 12)
  /-- STW. Stores a word on path T. (R360) -/
  | stw (w : Bool) (r a : BitVec 5) (g : BitVec 3) (i : BitVec 12)
  /-- STD. Stores a doubleword on path T. (R360) -/
  | std (w : Bool) (r a : BitVec 5) (g : BitVec 3) (i : BitVec 12)
  /-- LDG. Loads 8 bytes on path H at the home slice, combinable in routers. (R362) -/
  | ldg (w : Bool) (d a : BitVec 5) (g : BitVec 3) (i : BitVec 12)
  /-- TAKE. Waits until a presence word is full, reads it and tags it empty. (R366) -/
  | take (w : Bool) (d a : BitVec 5) (g : BitVec 3)
  /-- PUT. Waits until a presence word is empty, writes it and tags it full. (R366) -/
  | put (w : Bool) (a b : BitVec 5) (g : BitVec 3)
  /-- READF. Waits until a presence word is full and reads it, leaving it full. (R366) -/
  | readf (w : Bool) (d a : BitVec 5) (g : BitVec 3)
  /-- PSET. Supervisor sets a presence tag full without changing the value. (R366) -/
  | pset (w : Bool) (a : BitVec 5) (g : BitVec 3)
  /-- PCLR. Supervisor sets a presence tag empty without changing the value. (R366) -/
  | pclr (w : Bool) (a : BitVec 5) (g : BitVec 3)
  /-- RSV. Queues a reservation of a word at its home and returns its value on grant. (R370) -/
  | rsv (w : Bool) (d a : BitVec 5) (z : Bool) (g : BitVec 3)
  /-- RLS. Writes a reserved word, releases it and grants the next waiter. (R370) -/
  | rls (w : Bool) (a b : BitVec 5) (z : Bool) (g : BitVec 3)
  /-- AMO_ADD. Atomic wrapping add returning the old word. (R372) -/
  | amoAdd (w : Bool) (d a b : BitVec 5) (z : Bool) (g : BitVec 3)
  /-- AMO_AND. Atomic bitwise AND returning the old word. (R372) -/
  | amoAnd (w : Bool) (d a b : BitVec 5) (z : Bool) (g : BitVec 3)
  /-- AMO_OR. Atomic bitwise OR returning the old word. (R372) -/
  | amoOr (w : Bool) (d a b : BitVec 5) (z : Bool) (g : BitVec 3)
  /-- AMO_XOR. Atomic bitwise XOR returning the old word. (R372) -/
  | amoXor (w : Bool) (d a b : BitVec 5) (z : Bool) (g : BitVec 3)
  /-- AMO_MIN. Atomic signed minimum returning the old word. (R372) -/
  | amoMin (w : Bool) (d a b : BitVec 5) (z : Bool) (g : BitVec 3)
  /-- AMO_MAX. Atomic signed maximum returning the old word. (R372) -/
  | amoMax (w : Bool) (d a b : BitVec 5) (z : Bool) (g : BitVec 3)
  /-- AMO_MINU. Atomic unsigned minimum returning the old word. (R372) -/
  | amoMinu (w : Bool) (d a b : BitVec 5) (z : Bool) (g : BitVec 3)
  /-- AMO_MAXU. Atomic unsigned maximum returning the old word. (R372) -/
  | amoMaxu (w : Bool) (d a b : BitVec 5) (z : Bool) (g : BitVec 3)
  /-- AMO_SWAP. Atomic exchange returning the old word. (R372) -/
  | amoSwap (w : Bool) (d a b : BitVec 5) (z : Bool) (g : BitVec 3)
  /-- AMO_CAS. Atomic compare-and-swap returning the old word. (R372) -/
  | amoCas (w : Bool) (d a b : BitVec 5) (z : Bool) (g : BitVec 3)
  /-- VLD. Loads enabled vector lanes from consecutive offsets on path T. (R364) -/
  | vld (w : Bool) (d : BitVec 4) (i : BitVec 8) (k : BitVec 2) (l : Bool) (b : BitVec 5) (g : BitVec 3)
  /-- VST. Stores enabled vector lanes to consecutive offsets on path T. (R364) -/
  | vst (w : Bool) (d : BitVec 4) (i : BitVec 8) (k : BitVec 2) (l : Bool) (b : BitVec 5) (g : BitVec 3)
  /-- VLDX. Gathers enabled vector lanes from indexed offsets. (R364) -/
  | vldx (w : Bool) (d x : BitVec 4) (k : BitVec 2) (l : Bool) (b : BitVec 5) (g : BitVec 3) (h : BitVec 2)
  /-- VSTX. Scatters enabled vector lanes to indexed offsets. (R364) -/
  | vstx (w : Bool) (d x : BitVec 4) (k : BitVec 2) (l : Bool) (b : BitVec 5) (g : BitVec 3) (h : BitVec 2)
  /-- FENCE_ACQ. Waits as a marker and invalidates unsealed L1 lines for an acquire at a scope. (R336) -/
  | fenceAcq (w : Bool) (a : BitVec 5)
  /-- FENCE_REL. Waits as a marker, drains dirty sectors and waits for stores to be performed. (R335) -/
  | fenceRel (w : Bool) (a : BitVec 5)
  /-- FENCE_AR. Performs a release and then an acquire at one scope. (R336) -/
  | fenceAr (w : Bool) (a : BitVec 5)
  /-- FENCEX. Makes observed writes of path PA visible to readers on path PB. (R344) -/
  | fencex (w : Bool) (p q : BitVec 3)
  /-- SEAL. Starts sealing the buffer of a sealable segment. (R347) -/
  | seal (w : Bool) (g : BitVec 3)
  /-- UNSEAL. Starts unsealing a buffer and parks until its count is zero. (R348) -/
  | unseal (w : Bool) (g : BitVec 3)
  /-- VADD. Lane-wise integer add, optionally saturating. (R186) -/
  | vadd (w : Bool) (d a b : BitVec 4) (k : BitVec 2) (l s u : Bool)
  /-- VSUB. Lane-wise integer subtract, optionally saturating. (R186) -/
  | vsub (w : Bool) (d a b : BitVec 4) (k : BitVec 2) (l s u : Bool)
  /-- VMUL. Lane-wise integer multiply, optionally saturating. (R186) -/
  | vmul (w : Bool) (d a b : BitVec 4) (k : BitVec 2) (l s u : Bool)
  /-- VMIN. Lane-wise integer minimum. (R186) -/
  | vmin (w : Bool) (d a b : BitVec 4) (k : BitVec 2) (l u : Bool)
  /-- VMAX. Lane-wise integer maximum. (R186) -/
  | vmax (w : Bool) (d a b : BitVec 4) (k : BitVec 2) (l u : Bool)
  /-- VAND. Lane-wise bitwise AND. (R186) -/
  | vand (w : Bool) (d a b : BitVec 4) (k : BitVec 2) (l : Bool)
  /-- VOR. Lane-wise bitwise OR. (R186) -/
  | vor (w : Bool) (d a b : BitVec 4) (k : BitVec 2) (l : Bool)
  /-- VXOR. Lane-wise bitwise XOR. (R186) -/
  | vxor (w : Bool) (d a b : BitVec 4) (k : BitVec 2) (l : Bool)
  /-- VSLL. Lane-wise left shift. (R186) -/
  | vsll (w : Bool) (d a b : BitVec 4) (k : BitVec 2) (l : Bool)
  /-- VSRL. Lane-wise logical right shift. (R186) -/
  | vsrl (w : Bool) (d a b : BitVec 4) (k : BitVec 2) (l : Bool)
  /-- VSRA. Lane-wise arithmetic right shift. (R186) -/
  | vsra (w : Bool) (d a b : BitVec 4) (k : BitVec 2) (l : Bool)
  /-- VCMP. Lane-wise integer comparison writing a mask register. (R187) -/
  | vcmp (w : Bool) (m : BitVec 2) (a b : BitVec 4) (k : BitVec 2) (c : BitVec 3) (u : Bool)
  /-- VFADD. Lane-wise floating add. (R188) -/
  | vfadd (w : Bool) (d a b : BitVec 4) (k : BitVec 2) (l f : Bool) (r : BitVec 3)
  /-- VFSUB. Lane-wise floating subtract. (R188) -/
  | vfsub (w : Bool) (d a b : BitVec 4) (k : BitVec 2) (l f : Bool) (r : BitVec 3)
  /-- VFMUL. Lane-wise floating multiply. (R188) -/
  | vfmul (w : Bool) (d a b : BitVec 4) (k : BitVec 2) (l f : Bool) (r : BitVec 3)
  /-- VFFMA. Lane-wise fused multiply-add into vd. (R188) -/
  | vffma (w : Bool) (d a b : BitVec 4) (k : BitVec 2) (l f : Bool) (r : BitVec 3)
  /-- VFMIN. Lane-wise floating minimum. (R188) -/
  | vfmin (w : Bool) (d a b : BitVec 4) (k : BitVec 2) (l f : Bool)
  /-- VFMAX. Lane-wise floating maximum. (R188) -/
  | vfmax (w : Bool) (d a b : BitVec 4) (k : BitVec 2) (l f : Bool)
  /-- VFCMP. Lane-wise floating comparison writing a mask register. (R189) -/
  | vfcmp (w : Bool) (m : BitVec 2) (a b : BitVec 4) (k : BitVec 2) (c : BitVec 3)
  /-- VFDIV. Long operation: lane-wise floating divide. (R188) -/
  | vfdiv (w : Bool) (d a b : BitVec 4) (k : BitVec 2) (l f : Bool) (r : BitVec 3)
  /-- VSEL. Selects each lane from va or vb by the mask. (R191) -/
  | vsel (w : Bool) (d a b : BitVec 4) (k : BitVec 2) (l : Bool)
  /-- VPERM. Permutes lanes of va by indices in vb. (R191) -/
  | vperm (w : Bool) (d a b : BitVec 4) (k : BitVec 2) (l : Bool)
  /-- VBCAST. Broadcasts a general register into enabled lanes. (R192) -/
  | vbcast (w : Bool) (d g : BitVec 4) (k : BitVec 2) (l h : Bool)
  /-- VEXTR. Extracts one lane into a general register. (R192) -/
  | vextr (w : Bool) (g a n : BitVec 4) (l h m x : Bool)
  /-- VINS. Inserts a general register into one lane. (R192) -/
  | vins (w : Bool) (d g n : BitVec 4) (l h m : Bool)
  /-- VRED. Reduces enabled lanes in ascending lane order. (R193) -/
  | vred (w : Bool) (d a : BitVec 4) (k : BitVec 2) (l : Bool) (c : BitVec 5)
  /-- VCVT. Converts 16 elements between lane types and narrow formats. (R195) -/
  | vcvt (w : Bool) (d a t : BitVec 4) (k : BitVec 2) (s : BitVec 4) (r : BitVec 2)
  /-- VSFU. Long operation computing a special function on f32 lanes. (R196) -/
  | vsfu (w : Bool) (d a : BitVec 4) (k : BitVec 2) (f : BitVec 3)
  /-- VIOTA. Writes each lane with the count of lower lanes whose mask bit is set. (R198) -/
  | viota (w : Bool) (d : BitVec 4) (k : BitVec 2) (l : Bool)
  /-- KAND. ANDs two masks. (R199) -/
  | kand (w : Bool) (d a b : BitVec 2)
  /-- KOR. ORs two masks. (R199) -/
  | kor (w : Bool) (d a b : BitVec 2)
  /-- KXOR. XORs two masks. (R199) -/
  | kxor (w : Bool) (d a b : BitVec 2)
  /-- KNOT. Complements a mask. (R199) -/
  | knot (w : Bool) (d a : BitVec 2)
  /-- KMOV_KK. Copies a mask to a mask. (R199) -/
  | kmovKk (w : Bool) (d a : BitVec 2)
  /-- KMOV_KG. Copies g[a][15:0] into a mask. (R199) -/
  | kmovKg (w : Bool) (d : BitVec 2) (a : BitVec 5)
  /-- KMOV_GK. Copies a mask zero-extended into a general register. (R199) -/
  | kmovGk (w : Bool) (d : BitVec 5) (a : BitVec 2)
  /-- KPOPC. Counts the set bits of a mask. (R199) -/
  | kpopc (w : Bool) (d : BitVec 5) (a : BitVec 2)
  /-- KMOV_GPW. Copies the predicate word into a general register. (R199) -/
  | kmovGpw (w : Bool) (d : BitVec 5)
  /-- KMOV_PWG. Writes k1–k3 of the predicate word from a general register. (R199) -/
  | kmovPwg (w : Bool) (a : BitVec 5)
  /-- SPAWN. Reads a spawn block and asks the target core to create a thread. (R402) -/
  | spawn (w : Bool) (d a b : BitVec 5) (t : Bool) (g : BitVec 3)
  /-- MIGR. Sends the thread as a migration packet to the home of an address. (R405) -/
  | migr (w : Bool) (a : BitVec 5) (g : BitVec 3)
  /-- EXIT. Ends the thread with an exit code. (R406) -/
  | exit (w : Bool) (a : BitVec 5)
  /-- JOIN. Waits for a thread to end and reads its outcome. (R408) -/
  | join (w : Bool) (d a : BitVec 5)
  /-- YIELD. Moves the thread to the tail of its priority and frees its slot. (R407) -/
  | yield (w : Bool)
  /-- SETPRIO. Sets base and current priority. (R409) -/
  | setprio (w : Bool) (a : BitVec 5)
  /-- RKNEW. Creates a rake, optionally joining the caller. (R411) -/
  | rknew (w : Bool) (d : BitVec 5) (j : Bool)
  /-- RKJOIN. Adds a thread to a rake. (R411) -/
  | rkjoin (w : Bool) (a b : BitVec 5)
  /-- RKLEAVE. Removes the caller from a rake. (R411) -/
  | rkleave (w : Bool) (a : BitVec 5)
  /-- RKFREE. Frees a rake, releasing parked members as BROKEN. (R411) -/
  | rkfree (w : Bool) (a : BitVec 5)
  /-- BAR. Arrives at a rake barrier with a path mask. (R412) -/
  | bar (w : Bool) (d a : BitVec 5) (m : BitVec 6)
  /-- BARSTAT. Reads a rake's state. (R413) -/
  | barstat (w : Bool) (d a : BitVec 5) (k : Bool)
  /-- RKFIX. Reads a rake's state and clears its broken mark and lost-member id. (R413) -/
  | rkfix (w : Bool) (d a : BitVec 5) (k : Bool)
  /-- MONARM. Arms a monitor on a line and registers it at the home slice. (R416) -/
  | monarm (w : Bool) (a : BitVec 5) (g : BitVec 3) (n : BitVec 2)
  /-- MONCLR. Disarms one or all monitors. (R417) -/
  | monclr (w x : Bool) (n : BitVec 2)
  /-- MONWAIT. Waits for a triggered monitor, a message or a timeout. (R418) -/
  | monwait (w : Bool) (d a : BitVec 5)
  /-- SEND. Sends a message to a thread's mailbox. (R419) -/
  | send (w : Bool) (d a b : BitVec 5) (n : BitVec 2)
  /-- SEND_HOST. Sends a message to a host agent as a YXT MSG frame. (R419) -/
  | sendHost (w : Bool) (d a b : BitVec 5) (n : BitVec 2)
  /-- RECV. Takes the oldest message from the thread's mailbox. (R420) -/
  | recv (w : Bool) (d : BitVec 5) (n : Bool)
  /-- MXCFG. Writes or clears a matrix step template. (R232) -/
  | mxcfg (w : Bool) (a b : BitVec 5)
  /-- MXCFG_FD. Writes a format register after checking it. (R233) -/
  | mxcfgFd (w : Bool) (b : BitVec 5) (n : BitVec 3)
  /-- MXSCL. Sets the per-tensor scales of a template. (R234) -/
  | mxscl (w : Bool) (a b c : BitVec 5)
  /-- TFULL. Tags a tile slot FULL with given tags. (R235) -/
  | tfull (w : Bool) (d a : BitVec 5) (s : BitVec 4)
  /-- TEMPTY. Drains or empties a tile slot. (R235) -/
  | tempty (w : Bool) (d : BitVec 5) (s : BitVec 4)
  /-- TSTAT. Reads slot, group, template or overflow state, optionally clearing overflow bits. (R236) -/
  | tstat (w : Bool) (d a : BitVec 5) (c : Bool) (k : BitVec 2)
  /-- CPY. Checks and queues an affine copy command on a channel. (R382) -/
  | cpy (w : Bool) (d a : BitVec 5) (c : BitVec 3)
  /-- CPYX. Checks and queues an indexed gather or scatter on a channel. (R382) -/
  | cpyx (w : Bool) (d a : BitVec 5) (c : BitVec 3)
  /-- CPYWP. Reads the state and write pointer of a copy command. (R385) -/
  | cpywp (w : Bool) (d a : BitVec 5) (c : BitVec 3)
  /-- STRBIND. Binds the producer and consumer ends of a stream port. (R386) -/
  | strbind (w : Bool) (a : BitVec 5) (p : BitVec 3)
  /-- STRUNB. Discards a stream port's queue and unbinds it. (R388) -/
  | strunb (w : Bool) (p : BitVec 3)
  /-- IGLOAD. Queues a context-image load on an index generator. (R264) -/
  | igload (w : Bool) (a : BitVec 5) (s : BitVec 3) (g : Bool)
  /-- IGSTART. Queues an enumeration start on an index generator. (R265) -/
  | igstart (w : Bool) (a b : BitVec 5) (g : Bool)
  /-- IGSTAT. Reads generator state, cursor, window or line statistics. (R266) -/
  | igstat (w : Bool) (d a : BitVec 5) (k : BitVec 2) (g : Bool)
  /-- SBWR. Writes a word of a staged schedule block. (R431) -/
  | sbwr (w : Bool) (a b : BitVec 5) (n : BitVec 4) (k : BitVec 3)
  /-- SBRD. Reads a committed or staged schedule-block word. (R431) -/
  | sbrd (w : Bool) (d a : BitVec 5) (n : BitVec 4) (k : BitVec 3)
  /-- SBCOMMIT. Checks a staged schedule block and makes it pending or retires the block. (R432) -/
  | sbcommit (w : Bool) (d a : BitVec 5) (k : BitVec 3)
  /-- TGET. Takes the station's prepared tile and a ticket from a schedule block. (R433) -/
  | tget (w : Bool) (a : BitVec 5) (k : BitVec 3)
  /-- TDONE. Marks grains of a ticket done. (R434) -/
  | tdone (w : Bool) (d a b : BitVec 5)
  /-- TRET. Returns grains of a ticket to free. (R434) -/
  | tret (w : Bool) (d a b : BitVec 5)
  /-- COLLRED. Contributes to an all-reduce on the partition's collective unit. (R391) -/
  | collred (w : Bool) (a : BitVec 5)
  /-- COLLBC. Contributes to a broadcast on the collective unit. (R391) -/
  | collbc (w : Bool) (a : BitVec 5)
  /-- COLLSTAT. Reads the state of a collective id. (R393) -/
  | collstat (w : Bool) (d a : BitVec 5)
  /-- TRAP. Takes cause TRAP with a code, resuming after it. (R506) -/
  | trap (w : Bool) (c : BitVec 12)
  /-- ERET. Returns from a handler and re-issues pending accesses. (R484) -/
  | eret (w : Bool)
  /-- CRR. Reads a control register by selector. (R78) -/
  | crr (w : Bool) (d : BitVec 5) (s : BitVec 12)
  /-- CRW. Writes a control register by selector. (R78) -/
  | crw (w : Bool) (a : BitVec 5) (s : BitVec 12)
  /-- SEGSET. Loads a segment descriptor from the segment table into a segment register. (R507) -/
  | segset (w : Bool) (a : BitVec 5) (n : BitVec 3)
  /-- SEGGET. Reads half of a segment register's descriptor. (R507) -/
  | segget (w : Bool) (d : BitVec 5) (h : Bool) (n : BitVec 3)
  /-- TLBINV. Removes translations of a range of pages by drain tokens. (R508) -/
  | tlbinv (w : Bool) (a : BitVec 5) (u : BitVec 2) (c : BitVec 9)
  /-- TLBINV_ALL. Removes every translation of the partition. (R508) -/
  | tlbinvAll (w : Bool)
  /-- REPLAY. Re-issues the faulted access that the fault registers describe. (R487) -/
  | replay (w : Bool) (d : BitVec 5)
  /-- CTXSV. Saves a held thread's 32-register context to a pinned area. (R493) -/
  | ctxsv (w : Bool) (d a b : BitVec 5) (s : BitVec 3)
  /-- CTXLD. Loads a saved context into a held thread. (R494) -/
  | ctxld (w : Bool) (d a b : BitVec 5) (s : BitVec 3)
  /-- RQPUSH. Moves a held thread to READY at a priority. (R495) -/
  | rqpush (w : Bool) (d a b : BitVec 5)
  /-- RQPOP. Holds the head READY thread of a priority. (R495) -/
  | rqpop (w : Bool) (d a : BitVec 5)
  /-- RQPOP_ID. Holds a named thread of the core, pre-empting it if running. (R495) -/
  | rqpopId (w : Bool) (d a : BitVec 5)
  /-- RQPOP_KILL. Kills a named thread of the partition. (R496) -/
  | rqpopKill (w : Bool) (d a : BitVec 5)
  /-- RQPEEK. Reads the head and counts of a run-queue priority. (R497) -/
  | rqpeek (w : Bool) (d a : BitVec 5)
  /-- PFI. Prefetches instruction-cache lines of seg0. (R92) -/
  | pfi (w : Bool) (a b : BitVec 5)
  /-- PFI_RF. Invalidates and then prefetches instruction-cache lines. (R92) -/
  | pfiRf (w : Bool) (a b : BitVec 5)
  /-- PFD. Prefetches data lines into the L1. (R395) -/
  | pfd (w : Bool) (a b : BitVec 5) (s : BitVec 3)
  /-- CLEAN. Sends the station's combining sectors of a range to their homes. (R395) -/
  | clean (w : Bool) (a b : BitVec 5) (s : BitVec 3)
  /-- INVAL. Drains and invalidates L1 lines of a range, resetting poison in supervisor mode. (R395) -/
  | inval (w : Bool) (a b : BitVec 5) (s : BitVec 3)
  /-- CFGLOAD. Sends a configuration-image load command to the loader. (R312) -/
  | cfgload (w : Bool) (a : BitVec 5) (s : BitVec 3)
  /-- CFGFREE. Sends a command to free a consist. (R313) -/
  | cfgfree (w : Bool) (a : BitVec 5)
  /-- CFGFREEZE. Supervisor freezes a consist and reads it out. (R314) -/
  | cfgfreeze (w : Bool) (a b : BitVec 5) (s : BitVec 3)
  /-- CFGFREEZE_THAW. Supervisor releases a frozen consist. (R314) -/
  | cfgfreezeThaw (w : Bool) (a : BitVec 5)
  /-- CFGREAD. Reads consist, counter or occupancy state. (R315) -/
  | cfgread (w : Bool) (d a : BitVec 5) (k : BitVec 2)
  /-- PASS. Graph op forwarding any token unchanged. (R277) -/
  | pass
  /-- IADD. Graph op adding integer elements. (R279) -/
  | iadd
  /-- ISUB. Graph op subtracting integer elements. (R279) -/
  | isub
  /-- IMUL. Graph op multiplying integer elements. (R279) -/
  | imul
  /-- IMIN. Graph op taking integer minima. (R279) -/
  | imin
  /-- IMAX. Graph op taking integer maxima. (R279) -/
  | imax
  /-- GRAPH_AND. Graph op ANDing integer elements. (R279) -/
  | graphAnd
  /-- GRAPH_OR. Graph op ORing integer elements. (R279) -/
  | graphOr
  /-- GRAPH_XOR. Graph op XORing integer elements. (R279) -/
  | graphXor
  /-- SHL. Graph op shifting integer elements left. (R279) -/
  | shl
  /-- SHR. Graph op shifting integer elements right. (R279) -/
  | shr
  /-- ICMP. Graph op comparing integer elements. (R279) -/
  | icmp
  /-- GRAPH_FADD. Graph op adding float elements. (R282) -/
  | graphFadd
  /-- GRAPH_FMUL. Graph op multiplying float elements. (R282) -/
  | graphFmul
  /-- GRAPH_FFMA. Graph op fused multiply-add with a constant addend. (R282) -/
  | graphFfma
  /-- GRAPH_FMIN. Graph op taking float minima. (R282) -/
  | graphFmin
  /-- GRAPH_FMAX. Graph op taking float maxima. (R282) -/
  | graphFmax
  /-- FCMP. Graph op comparing float elements. (R282) -/
  | fcmp
  /-- SFU. Graph op computing a special function on f32 elements. (R283) -/
  | sfu
  /-- CVT. Graph op converting elements, with control tokens changing mode and rule. (R285) -/
  | cvt
  /-- SCALE. Graph op quantising to block-scaled codes or dequantising them. (R287) -/
  | scale
  /-- STEER. Graph op splitting a token by a predicate. (R288) -/
  | steer
  /-- MERGE. Graph op forwarding a token from either port. (R289) -/
  | merge
  /-- CARRY. Graph op starting or advancing a loop iteration tag. (R289) -/
  | carry
  /-- SETTAG. Graph op setting a token's iteration tag. (R290) -/
  | settag
  /-- GETTAG. Graph op emitting a token's ITER, ACT and SEQ as data. (R291) -/
  | gettag
  /-- CONST. Graph op emitting a constant register as a token. (R292) -/
  | const
  /-- SEQ. Graph op renumbering tokens in firing order. (R293) -/
  | seq
  /-- FILTER. Graph op compacting valid lanes. (R294) -/
  | filter
  /-- COALESCE. Graph op packing valid lanes into full tokens. (R271) -/
  | coalesce
  /-- REDUCE. Graph op reducing each group in ascending SEQ. (R296) -/
  | reduce
  /-- ROWSTAT. Graph op computing softmax statistics of a group. (R297) -/
  | rowstat
  /-- DELAY. Graph op holding a group until its release token. (R298) -/
  | delay
  /-- GRAPH_LOAD. Graph memory node issuing lane loads on path T. (R300) -/
  | graphLoad
  /-- GRAPH_STORE. Graph memory node issuing lane stores and counting acknowledgements. (R300) -/
  | graphStore
  /-- GRAPH_TAKE. Graph node taking a presence word. (R302) -/
  | graphTake
  /-- GRAPH_PUT. Graph node putting a presence word. (R302) -/
  | graphPut
  /-- STREAM. Graph op moving element groups between tokens and a stream port. (R303) -/
  | stream
  /-- SINK. Graph op storing a stream to memory. (R304) -/
  | sink
  /-- TILEPUT. Graph op filling a tile slot from tokens. (R305) -/
  | tileput
  /-- TILEGET. Graph op draining a FULL tile slot into tokens. (R306) -/
  | tileget
  /-- ARG. Graph op reading argument words from the frame. (R307) -/
  | arg
  /-- RETURN. Graph op writing return values and resuming the caller. (R308) -/
  | ret
  /-- CALLOUT. Graph op calling a function pointer from a graph. (R309) -/
  | callout
  /-- EMIT. Graph op emitting a control token of a given kind. (R310) -/
  | emit
  /-- SLOT_REFILL. An empty slot's turn takes the head thread of the highest non-empty priority. (R38) -/
  | slotRefill
  /-- LONG_OP_COMPLETE. A long operation's result or performed report arrives and the thread may become READY. (R35) -/
  | longOpComplete
  /-- TIMER_PREEMPT. The core timer's quantum expires and pre-empts a thread with TE = 1. (R40) -/
  | timerPreempt
  /-- PRIORITY_AGING. A thread READY for 2^20 cycles has its priority raised. (R39) -/
  | priorityAging
  /-- PRIORITY_PREEMPT. A waiting higher-priority thread displaces the lowest-priority running thread. (R398) -/
  | priorityPreempt
  /-- ICACHE_FILL. An instruction-cache miss fill completes. (R88) -/
  | icacheFill
  /-- PREFETCH_FILL. A PFI or PFD prefetch fill completes and frees its buffer. (R93) -/
  | prefetchFill
  /-- TRAP_ENTRY. At the thread's turn a pending fault writes the fault registers and enters the handler or faults the thread. (R483) -/
  | trapEntry
  /-- MIGRATION_ARRIVAL. A migration packet reaches a core and takes a hardware entry or the spill ring. (R47) -/
  | migrationArrival
  /-- RUN_QUEUE_ENTRY. The head of the arrival queue enters the run queue when a context entry is free. (R514) -/
  | runQueueEntry
  /-- SPAWN_DELIVERY. A kind-2 packet reaches its target core, which accepts or refuses the spawn. (R404) -/
  | spawnDelivery
  /-- FOOTPRINT_READY. The footprint ranges are brought in and pinned, or fault, and the thread becomes READY or FAULTED. (R50) -/
  | footprintReady
  /-- LAUNCH_FRAME. A YXT LAUNCH frame creates a host-launched thread, subject to admission. (R51) -/
  | launchFrame
  /-- LAUNCH_START. A queue starts its next accepted launch after its predecessor finished, starting its budget. (R444) -/
  | launchStart
  /-- BUDGET_EXPIRY. A launch's budget expires and its threads are killed with BUDGET_OVERRUN. (R444) -/
  | budgetExpiry
  /-- ACCESS_PERFORMED. A request reaches its home bank and is performed in the word's write order. (R325) -/
  | accessPerformed
  /-- RECALL_ACK. A holder's recall acknowledgement arrives and the waiting request is performed. (R351) -/
  | recallAck
  /-- PRESENCE_RESEND. A presence request held in its core for a full deferral list is resent every 256 cycles. (R367) -/
  | presenceResend
  /-- WAIT_LIMIT_EXPIRY. A thread's cr.wlimit expires and its wait is withdrawn with WAIT_LIMIT. (R368) -/
  | waitLimitExpiry
  /-- RESERVATION_HOLD_EXPIRY. A reservation held 4,096 cycles is released unchanged and the next waiter granted. (R370) -/
  | reservationHoldExpiry
  /-- SECTOR_DRAIN. A combining sector is sent to its home 64 cycles after its first store. (R327) -/
  | sectorDrain
  /-- LINE_EXPIRY. An unsealed L1 line is invalidated 16,384 cycles after its fill. (R327) -/
  | lineExpiry
  /-- TRANSLATION_WALK. A page-table walk completes with a translation or a fault. (R457) -/
  | translationWalk
  /-- MEM_TIMEOUT_EXPIRY. In a timed partition an access not complete within its WCL ends with MEM_TIMEOUT. (R359) -/
  | memTimeoutExpiry
  /-- MONWAIT_TIMEOUT. A MONWAIT's timeout expires and it returns with the timeout bit. (R418) -/
  | monwaitTimeout
  /-- MESSAGE_DELIVERY. A message reaches a home mailbox, is delivered or refused, and wakes a parked receiver. (R419) -/
  | messageDelivery
  /-- DEVICE_REPORT. A device report reaches a mailbox or waits in the report queue. (R421) -/
  | deviceReport
  /-- STREAM_WAKE. A stream port gains data or room and a parked end proceeds. (R387) -/
  | streamWake
  /-- STEP_FIRE. A ready matrix step, the lowest template index, fires and starts its stream. (R218) -/
  | stepFire
  /-- NM_META_SCAN. The sparse-block unit scans a PAT-3 step's metadata before it fires. (R261) -/
  | nmMetaScan
  /-- STEP_STREAM_END. A step's last stream cycle passes and a releasing step empties its A slot. (R215) -/
  | stepStreamEnd
  /-- STEP_ACCUMULATION_COMPLETE. A step's last addition into its accumulators completes. (R218) -/
  | stepAccumulationComplete
  /-- WRITEBACK_START. A DONE set starts write-back once the unit and output slot are free. (R223) -/
  | writebackStart
  /-- WRITEBACK_COMPLETE. Write-back ends; the output slot goes FULL and the set EMPTY. (R223) -/
  | writebackComplete
  /-- GENERATOR_LOAD. A queued IGLOAD takes effect and the generator starts reading its image. (R251) -/
  | generatorLoad
  /-- GENERATOR_LOAD_COMPLETE. The image read ends; the generator goes LOADED, or EMPTY on a failed read. (R250) -/
  | generatorLoadComplete
  /-- ENUMERATION_START. A queued IGSTART takes effect, checks the program and begins building. (R243) -/
  | enumerationStart
  /-- ENUMERATION_END. An enumeration ends READY, DONE or FAULTED. (R250) -/
  | enumerationEnd
  /-- GENERATOR_RECORD_PUSH. The generator pushes records to a stream port as room allows. (R252) -/
  | generatorRecordPush
  /-- COPY_COMMAND_START. A channel starts its next queued command, after tile waits. (R383) -/
  | copyCommandStart
  /-- COPY_COMMAND_END. A copy command's writes are all performed; tags are set and a completion sent. (R384) -/
  | copyCommandEnd
  /-- COPY_COMMAND_STOP. A copy command stops FAULTED at its first element that cannot complete. (R384) -/
  | copyCommandStop
  /-- COLLECTIVE_CONTRIBUTION. A contribution registers at the collective unit and the operation runs once NPART have arrived. (R391) -/
  | collectiveContribution
  /-- COLLECTIVE_DONE. A collective's writes on a device are performed, or it fails. (R392) -/
  | collectiveDone
  /-- COLLECTIVE_TOKEN_COMBINE. Tokens of one tag from every device are combined at a collective unit. (R394) -/
  | collectiveTokenCombine
  /-- MAP_WRITE_FAIL. A coverage-map write fails and the unit sends a report. (R423) -/
  | mapWriteFail
  /-- CONSIST_LOAD. The loader validates an image, claims tiles and routes, and reports the outcome. (R122) -/
  | consistLoad
  /-- CONSIST_FREE_COMPLETE. A pending free completes once the last activation ends and releases resources. (R313) -/
  | consistFreeComplete
  /-- FREEZE_COMPLETE. A freeze and its readout complete and the frozen message is sent. (R314) -/
  | freezeComplete
  /-- WATCHDOG_EXPIRY. A consist's stall counter reaches 2^WD; it freezes and is read out. (R437) -/
  | watchdogExpiry
  /-- TOKEN_ARRIVAL. A token reaches an element's matching store by local destination or route. (R106) -/
  | tokenArrival
  /-- GRAPH_LOAD_REPLY. A graph LOAD reply arrives, releasing any hold it caused. (R300) -/
  | graphLoadReply
  /-- GRAPH_STORE_ACK. All lanes of a STORE firing are performed and its acknowledgement count falls. (R300) -/
  | graphStoreAck
  /-- RETURN_TOKEN_ARRIVAL. A return token reaches the CALLOUT's tile and goes to its dest0. (R308) -/
  | returnTokenArrival
  /-- GRAPH_FAULT_RETRY. A page-faulted graph lane is re-issued after a TLBINV or 65,536 cycles. (R301) -/
  | graphFaultRetry
  /-- CALL_WAIT_RESUME. A call waiting for an activation id or frame proceeds as one frees. (R57) -/
  | callWaitResume
  /-- CONVERTER_TOKEN. A converter packs a token into a packet, or restores it to its mesh in order. (R19) -/
  | converterToken
  /-- CONVERTER_ACK. An acknowledgement frees a place in a route's 64-token window. (R19) -/
  | converterAck
  /-- SEAL_COMPLETE. A seal's broadcast and invalidations end and the buffer becomes SEALED. (R347) -/
  | sealComplete
  /-- UNSEAL_COMPLETE. The seal count reaches zero and the buffer is unsealed. (R348) -/
  | unsealComplete
  /-- DRAIN_TOKEN_ARRIVAL. A drain token reaches the memory edge; the last completes the TLBINV. (R460) -/
  | drainTokenArrival
  /-- EVICTION_SCHEDULE_ENTRY. At its frame cycle an eviction-schedule entry fills or evicts a line. (R355) -/
  | evictionScheduleEntry
  /-- HEARTBEAT. An agent's heartbeat arrives. (R500) -/
  | heartbeat
  /-- AGENT_SUSPECT. A transaction exceeds four times its class or a heartbeat is missed, and a probe starts. (R500) -/
  | agentSuspect
  /-- PROBE_EXPIRY. A suspected agent fails to answer its probe in time. (R500) -/
  | probeExpiry
  /-- SELFTEST_COMPLETE. A targeted self-test ends, marking the error transient or lasting. (R503) -/
  | selftestComplete
  /-- SLICE_EXPIRY. A time-share slice ends and the next partition is swapped in. (R452) -/
  | sliceExpiry
  /-- SWAP_COMPLETE. The swap's state move completes and the incoming partition runs. (R498) -/
  | swapComplete
  /-- COMMIT. The command word's COMMIT checks a record and starts a partition. (R448) -/
  | commit
  /-- STOP. The command word's STOP kills, frees and answers everything of a partition. (R448) -/
  | stop
  /-- DESTROY. The command word's DESTROY makes a STOPPED partition ABSENT. (R448) -/
  | destroy
  /-- CONFIG_OP_COMPLETE. A configuration operation completes and clears BUSY in the status word. (R451) -/
  | configOpComplete
  /-- DOMAIN_TABLE_WRITE. An admin write to the domain table, refused while any partition runs. (R542) -/
  | domainTableWrite
  /-- REGISTER_WRITE. A write to a configuration-window register that has no row of its own. (R451) -/
  | registerWrite
  /-- WRITE. A YXT WRITE frame performs path T stores within a window. (R470) -/
  | write
  /-- READ. A YXT READ frame performs loads and is answered by READRESP. (R470) -/
  | read
  /-- READRESP. A host's read response answers a device access to host memory. (R470) -/
  | readresp
  /-- ACQ. A host acquires a sector as a coherent holder. (R470) -/
  | acq
  /-- RELEASE. A host releases a sector or answers a RECALL. (R470) -/
  | release
  /-- MSG. A YXT MSG frame delivers a message to a thread's mailbox. (R470) -/
  | msg
  /-- ATTEST. A host asks for a signed report of the measurements. (R474) -/
  | attest
  /-- LEASE_OPEN. A LEASE OP 1 frame opens an authenticated session. (R469) -/
  | leaseOpen
  /-- LEASE_RENEW. A LEASE OP 2 frame renews a session's lease. (R469) -/
  | leaseRenew
  /-- LEASE_CLOSE. A LEASE OP 3 frame closes a session. (R469) -/
  | leaseClose
  /-- ACKNOWLEDGEMENT. A TYPE 0 frame carrying only ACK and SACK. (R468) -/
  | acknowledgement
  /-- FRAME_RESEND. A frame unacknowledged for 20 µs is resent. (R468) -/
  | frameResend
  /-- LEASE_LAPSE. An agent silent for 400 µs lapses and is dead for its partitions. (R469) -/
  | leaseLapse
  /-- LOCKSTEP_INPUT_FORWARD. An input forwarded by the primary reaches the secondary with its delivery cycle. (R464) -/
  | lockstepInputForward
  /-- LOCKSTEP_INPUT_INJECT. At its delivery cycle both devices inject an input. (R464) -/
  | lockstepInputInject
  /-- DIGEST_WINDOW_END. A digest window ends and each device sends its digest. (R465) -/
  | digestWindowEnd
  /-- DIGEST_ARRIVAL. A partner's digest arrives, and matching digests release the window's output. (R465) -/
  | digestArrival
  /-- PWRGOOD. The board asserts all rails within tolerance. (R535) -/
  | pwrgood
  /-- RESET_RELEASE. RESET_N goes high and the port die leaves reset to verify firmware. (R535) -/
  | resetRelease
  /-- RESET_ASSERT. RESET_N goes low, ending partitions and sessions. (R541) -/
  | resetAssert
  /-- FIRMWARE_VERIFIED. Firmware verification of a slot ends, starting the image or entering FWFAIL. (R535) -/
  | firmwareVerified
  /-- STATION_SELFTEST_DONE. A station's start self-test ends, passing or taking it out of service. (R536) -/
  | stationSelftestDone
  /-- LM_TRAINING_DONE. An LM stack finishes training and test, or the device enters LMFAIL. (R536) -/
  | lmTrainingDone
  /-- LINK_TRAINED. The Ethernet link trains and the device becomes READY. (R538) -/
  | linkTrained
  /-- LINK_LOSS. The Ethernet link is lost after READY. (R541) -/
  | linkLoss
  /-- POWER_SAMPLE. Module power is measured every microsecond. (R539) -/
  | powerSample
  /-- DUTY_STEP. Every 10 µs the non-timed duties fall or rise by one. (R539) -/
  | dutyStep
  /-- THERMAL_TRIP. A junction exceeds 110 °C; THERMTRIP_N goes low and partitions stop. (R540) -/
  | thermalTrip
  /-- ACTIVATION_INTERVAL. In a timed partition, a certified consist's waiting call starts its activation once CINT cycles have passed since the previous start. (R442) -/
  | activationInterval
  /-- GRAPH_PRESENCE_WAIT_LIMIT. A graph TAKE or PUT whose wait passes its imm16 limit is withdrawn and its activation faults with WAIT_LIMIT. (R302) -/
  | graphPresenceWaitLimit
  /-- GRAPH_PRESENCE_REPLY. The reply of a graph TAKE or PUT, performed at its home possibly after deferral, returns to the element, which emits its result token. (R302) -/
  | graphPresenceReply
  /-- LOCKSTEP_ALIGNMENT. The partner's alignment through LSPORT at its COMMIT aligns the partition cycle counters, and both supervisor threads start in one cycle. (R464) -/
  | lockstepAlignment
  /-- INBOUND_LEG_CLAIM. The far consist on a peer becomes resident and claims the matching inbound leg, so the near converter starts accepting tokens on that route. (R116) -/
  | inboundLegClaim
  /-- HOLDER_RECALL. A recall from a remote home reaches this device as holder of a proxied sector, which writes back M data, drops to I or S and acknowledges. (R351) -/
  | holderRecall
  /-- PROBE_ANSWER. A suspected agent answers its probe in time and is no longer suspected. (R500) -/
  | probeAnswer
  /-- PWRGOOD_DEASSERT. PWRGOOD falls because a rail has left its tolerance. (R534) -/
  | pwrgoodDeassert
  deriving DecidableEq, Repr

end Sys2Proof
end

