-- ==== Sys2Proof/WellFormed.lean ====
section
/-! DEFINITION. Which instructions are well formed: every field value that the word alone makes legal (R83), and for Roszon
ops the legal mod, imm16 and destination fields of checks 1 and 2 of R122 that one slot decides by itself. -/

namespace Sys2Proof

/-- The control registers of R78. -/
def crSelectors : List Nat :=
  [0x000, 0x001, 0x002, 0x003, 0x004, 0x005, 0x006, 0x007, 0x008, 0x010, 0x011, 0x012, 0x013, 0x014, 0x015,
   0x020, 0x021, 0x022, 0x030, 0x031]

/-- RMF of R169: 6 is not assigned. -/
def rmfOk (r : BitVec 3) : Bool := r != 6
/-- RM of R130 in a field that has no "current mode" code: 6 and 7 are reserved. -/
def rmOk (r : BitVec 3) : Bool := r.toNat ≤ 5
/-- L and F of VFLT (R188): F must be 0 with 32-bit lanes. -/
def vfltOk (l f : Bool) : Bool := l || !f
/-- VRED codes and the L values each allows (R193). -/
def vredOk (l : Bool) (c : BitVec 5) : Bool :=
  if c.toNat ≤ 4 then true
  else if c.toNat ≤ 7 then !l
  else if c.toNat ≤ 9 then true
  else if c.toNat = 10 then l
  else false
/-- VCVT types and rule (R194, R195): code 7 and rule 3 are not assigned, WRAP has no f32, f16 or bf16 target. -/
def vcvtOk (t s : BitVec 4) (r : BitVec 2) : Bool :=
  t != 7 && s != 7 && r != 3 && !(r == 1 && (t == 0 || t == 3 || t == 4))
/-- First of four registers: 4, 8, …, 28 (R231, R389). -/
def fourRegs (a : BitVec 5) : Bool := a != 0 && a.toNat % 4 == 0
/-- First of eight command registers: 8, 16 or 24 (R377). -/
def eightRegs (a : BitVec 5) : Bool := a != 0 && a.toNat % 8 == 0

/-- A destination field of R110, as far as the field alone decides it. -/
def destOk (d : BitVec 16) : Bool :=
  if d.getLsbD 15 then
    d.extractLsb' 0 4 == 0 && (!d.getLsbD 14 || (d.extractLsb' 5 5 == 0 && !d.getLsbD 4))
  else d == 0
/-- Both destination fields of a slot (R110). -/
def destsOk (d0 d1 : BitVec 16) : Bool :=
  destOk d0 && destOk d1 && (d0 != 0 || d1 == 0) && (d0 != d1 || d0 == 0)

/-- Integer lanes (R278): the ICMP condition, which ops may saturate, and imm16 only under BI. -/
def intModOk (icmp sat : Bool) (mod : BitVec 8) (imm : BitVec 16) : Bool :=
  !mod.getLsbD 7 && (if icmp then decide ((mod.extractLsb' 4 3).toNat ≤ 5) else mod.extractLsb' 4 3 == 0) &&
  (sat || !mod.getLsbD 2) && (mod.getLsbD 3 || imm == 0)
/-- Float lanes (R280): `rmMax` bounds the RM field, `fma` says whether imm16 [1:0] names an addend. -/
def fltModOk (rmMax : Nat) (fma : Bool) (mod : BitVec 8) (imm : BitVec 16) : Bool :=
  !mod.getLsbD 5 && mod.extractLsb' 0 2 != 3 && decide ((mod.extractLsb' 2 3).toNat ≤ rmMax) &&
  imm.extractLsb' 4 12 == 0 && (mod.extractLsb' 6 2 == 1 || imm.extractLsb' 2 2 == 0) &&
  (fma || imm.extractLsb' 0 2 == 0)
/-- A closing level 1–7 alone in imm16 (R295, R297). -/
def levelImm (imm : BitVec 16) : Bool := imm.extractLsb' 3 13 == 0 && imm.extractLsb' 0 3 != 0
/-- CVT (R284): types, rule and mode, and no WRAP into f32, f16 or bf16 (R149). -/
def cvtModOk (mod : BitVec 8) (imm : BitVec 16) : Bool :=
  mod.extractLsb' 4 4 == 0 && (decide ((mod.extractLsb' 0 4).toNat ≤ 6) || mod.extractLsb' 0 4 == 8) &&
  imm.extractLsb' 10 6 == 0 && imm.extractLsb' 8 2 != 3 && !imm.getLsbD 7 && rmOk (imm.extractLsb' 4 3) &&
  imm.extractLsb' 0 4 != 7 &&
  !(imm.extractLsb' 8 2 == 1 && (imm.extractLsb' 0 4 == 0 || imm.extractLsb' 0 4 == 3 || imm.extractLsb' 0 4 == 4))
/-- REDUCE (R295). -/
def reduceModOk (mod : BitVec 8) (imm : BitVec 16) : Bool :=
  rmOk (mod.extractLsb' 5 3) && mod.extractLsb' 0 2 != 3 &&
  (mod.extractLsb' 2 2 != 2 || (mod.extractLsb' 0 2 == 0 && mod.getLsbD 4)) && levelImm imm
/-- CONST (R292). -/
def constModOk (mod : BitVec 8) (imm : BitVec 16) : Bool :=
  !mod.getLsbD 7 && decide ((mod.extractLsb' 0 4).toNat ≤ 7) && imm.extractLsb' 2 6 == 0 &&
  (mod.extractLsb' 0 4 == 0 || imm.extractLsb' 8 8 == 0)
/-- EMIT (R310): kinds 1 to 10. -/
def emitModOk (mod : BitVec 8) : Bool :=
  mod.extractLsb' 4 4 == 0 && mod != 0 && decide (mod.toNat ≤ 10)

/-- A Roszon instruction (R109): its op and the four fields every slot has. -/
structure RoszonWord where
  /-- The op (R113). -/
  op : Instr
  /-- Op-specific. -/
  mod : BitVec 8
  /-- First destination (R110). -/
  d0 : BitVec 16
  /-- Second destination (R110). -/
  d1 : BitVec 16
  /-- Op-specific. -/
  imm : BitVec 16
  deriving DecidableEq, Repr

/-- The legality of a Porlek instruction's fields, decided by the word alone (R83). The other rows have no fields here. -/
def Instr.wf : Instr → Bool
  | .add _ _ _ _ => true
  | .sub _ _ _ _ => true
  | .mul _ _ _ _ => true
  | .mulh _ _ _ _ => true
  | .mulhu _ _ _ _ => true
  | .div _ _ _ _ => true
  | .divu _ _ _ _ => true
  | .rem _ _ _ _ => true
  | .remu _ _ _ _ => true
  | .and _ _ _ _ => true
  | .or _ _ _ _ => true
  | .xor _ _ _ _ => true
  | .andn _ _ _ _ => true
  | .orn _ _ _ _ => true
  | .sll _ _ _ _ => true
  | .srl _ _ _ _ => true
  | .sra _ _ _ _ => true
  | .rol _ _ _ _ => true
  | .ror _ _ _ _ => true
  | .min _ _ _ _ => true
  | .max _ _ _ _ => true
  | .minu _ _ _ _ => true
  | .maxu _ _ _ _ => true
  | .slt _ _ _ _ => true
  | .sltu _ _ _ _ => true
  | .clz _ _ _ => true
  | .ctz _ _ _ => true
  | .popc _ _ _ => true
  | .brev _ _ _ => true
  | .sextB _ _ _ => true
  | .sextH _ _ _ => true
  | .sextW _ _ _ => true
  | .addi _ _ _ _ => true
  | .andi _ _ _ _ => true
  | .ori _ _ _ _ => true
  | .xori _ _ _ _ => true
  | .slli _ _ _ _ => true
  | .srli _ _ _ _ => true
  | .srai _ _ _ _ => true
  | .rori _ _ _ _ => true
  | .slti _ _ _ _ => true
  | .sltiu _ _ _ _ => true
  | .lui _ _ _ => true
  | .addpc _ _ _ => true
  | .fadd _ _ _ _ _ r => rmfOk r
  | .fsub _ _ _ _ _ r => rmfOk r
  | .fmul _ _ _ _ _ r => rmfOk r
  | .fdiv _ _ _ _ _ r => rmfOk r
  | .fsqrt _ _ _ _ r => rmfOk r
  | .fmin _ _ _ _ _ => true
  | .fmax _ _ _ _ _ => true
  | .feq _ _ _ _ _ => true
  | .flt _ _ _ _ _ => true
  | .fle _ _ _ _ _ => true
  | .fclass _ _ _ _ => true
  | .fcvtI _ _ _ _ _ r => rmfOk r
  | .fcvtF _ _ _ _ _ r => rmfOk r
  | .fmvb _ _ _ _ => true
  | .ffma _ _ _ _ _ _ => true
  | .ffms _ _ _ _ _ _ => true
  | .fnma _ _ _ _ _ _ => true
  | .fnms _ _ _ _ _ _ => true
  | .beq _ _ _ _ => true
  | .bne _ _ _ _ => true
  | .blt _ _ _ _ => true
  | .bge _ _ _ _ => true
  | .bltu _ _ _ _ => true
  | .bgeu _ _ _ _ => true
  | .jal _ _ _ => true
  | .jalr _ _ _ _ => true
  | .callt _ _ => true
  | .mkfpP _ _ _ => true
  | .mkfpR _ _ _ _ => true
  | .ldb _ _ _ _ _ => true
  | .ldh _ _ _ _ _ => true
  | .ldw _ _ _ _ _ => true
  | .ldd _ _ _ _ _ => true
  | .ldbu _ _ _ _ _ => true
  | .ldhu _ _ _ _ _ => true
  | .ldwu _ _ _ _ _ => true
  | .stb _ _ _ _ _ => true
  | .sth _ _ _ _ _ => true
  | .stw _ _ _ _ _ => true
  | .std _ _ _ _ _ => true
  | .ldg _ _ _ _ _ => true
  | .take _ _ _ _ => true
  | .put _ _ _ _ => true
  | .readf _ _ _ _ => true
  | .pset _ _ _ => true
  | .pclr _ _ _ => true
  | .rsv _ _ _ _ _ => true
  | .rls _ _ _ _ _ => true
  | .amoAdd _ _ _ _ _ _ => true
  | .amoAnd _ _ _ _ _ _ => true
  | .amoOr _ _ _ _ _ _ => true
  | .amoXor _ _ _ _ _ _ => true
  | .amoMin _ _ _ _ _ _ => true
  | .amoMax _ _ _ _ _ _ => true
  | .amoMinu _ _ _ _ _ _ => true
  | .amoMaxu _ _ _ _ _ _ => true
  | .amoSwap _ _ _ _ _ _ => true
  | .amoCas _ _ _ _ _ _ => true
  | .vld _ _ _ _ _ _ _ => true
  | .vst _ _ _ _ _ _ _ => true
  | .vldx _ _ _ _ _ _ _ _ => true
  | .vstx _ _ _ _ _ _ _ _ => true
  | .fenceAcq _ _ => true
  | .fenceRel _ _ => true
  | .fenceAr _ _ => true
  | .fencex _ p q => decide (p.toNat ≤ 5) && decide (q.toNat ≤ 5)
  | .seal _ _ => true
  | .unseal _ _ => true
  | .vadd _ _ _ _ _ _ s u => s || !u
  | .vsub _ _ _ _ _ _ s u => s || !u
  | .vmul _ _ _ _ _ _ s u => s || !u
  | .vmin _ _ _ _ _ _ _ => true
  | .vmax _ _ _ _ _ _ _ => true
  | .vand _ _ _ _ _ _ => true
  | .vor _ _ _ _ _ _ => true
  | .vxor _ _ _ _ _ _ => true
  | .vsll _ _ _ _ _ _ => true
  | .vsrl _ _ _ _ _ _ => true
  | .vsra _ _ _ _ _ _ => true
  | .vcmp _ m _ _ _ c _ => m != 0 && decide (c.toNat ≤ 5)
  | .vfadd _ _ _ _ _ l f r => vfltOk l f && rmfOk r
  | .vfsub _ _ _ _ _ l f r => vfltOk l f && rmfOk r
  | .vfmul _ _ _ _ _ l f r => vfltOk l f && rmfOk r
  | .vffma _ _ _ _ _ l f r => vfltOk l f && rmfOk r
  | .vfmin _ _ _ _ _ l f => vfltOk l f
  | .vfmax _ _ _ _ _ l f => vfltOk l f
  | .vfcmp _ m _ _ _ c => m != 0 && decide (c.toNat ≤ 4)
  | .vfdiv _ _ _ _ _ l f r => vfltOk l f && rmfOk r
  | .vsel _ _ _ _ _ _ => true
  | .vperm _ _ _ _ _ _ => true
  | .vbcast _ _ _ _ _ _ => true
  | .vextr _ _ _ _ l _ m _ => l || !m
  | .vins _ _ _ _ l _ m => l || !m
  | .vred _ _ _ _ l c => vredOk l c
  | .vcvt _ _ _ t _ s r => vcvtOk t s r
  | .vsfu _ _ _ _ f => decide (f.toNat ≤ 4)
  | .viota _ _ _ _ => true
  | .kand _ _ _ _ => true
  | .kor _ _ _ _ => true
  | .kxor _ _ _ _ => true
  | .knot _ _ _ => true
  | .kmovKk _ _ _ => true
  | .kmovKg _ _ _ => true
  | .kmovGk _ _ _ => true
  | .kpopc _ _ _ => true
  | .kmovGpw _ _ => true
  | .kmovPwg _ _ => true
  | .spawn _ _ _ _ _ _ => true
  | .migr _ _ _ => true
  | .exit _ _ => true
  | .join _ _ _ => true
  | .yield _ => true
  | .setprio _ _ => true
  | .rknew _ _ _ => true
  | .rkjoin _ _ _ => true
  | .rkleave _ _ => true
  | .rkfree _ _ => true
  | .bar _ _ _ _ => true
  | .barstat _ _ _ _ => true
  | .rkfix _ _ _ _ => true
  | .monarm _ _ _ _ => true
  | .monclr _ x n => !x || n == 0
  | .monwait _ _ _ => true
  | .send _ _ _ b _ => b != 0 && decide (b.toNat ≤ 28)
  | .sendHost _ _ _ b _ => b != 0 && decide (b.toNat ≤ 28)
  | .recv _ d _ => d != 0 && decide (d.toNat ≤ 27)
  | .mxcfg _ a _ => fourRegs a
  | .mxcfgFd _ _ _ => true
  | .mxscl _ _ _ _ => true
  | .tfull _ _ _ _ => true
  | .tempty _ _ _ => true
  | .tstat _ _ _ c k => !c || k == 3
  | .cpy _ _ a _ => eightRegs a
  | .cpyx _ _ a _ => eightRegs a
  | .cpywp _ _ _ _ => true
  | .strbind _ _ _ => true
  | .strunb _ _ => true
  | .igload _ _ _ _ => true
  | .igstart _ _ _ _ => true
  | .igstat _ _ _ _ _ => true
  | .sbwr _ _ _ _ _ => true
  | .sbrd _ _ _ _ _ => true
  | .sbcommit _ _ _ _ => true
  | .tget _ _ _ => true
  | .tdone _ _ _ _ => true
  | .tret _ _ _ _ => true
  | .collred _ a => fourRegs a
  | .collbc _ a => fourRegs a
  | .collstat _ _ _ => true
  | .trap _ _ => true
  | .eret _ => true
  | .crr _ _ s => crSelectors.contains s.toNat
  | .crw _ _ s => crSelectors.contains s.toNat
  | .segset _ _ _ => true
  | .segget _ _ _ _ => true
  | .tlbinv _ _ _ _ => true
  | .tlbinvAll _ => true
  | .replay _ _ => true
  | .ctxsv _ _ _ _ _ => true
  | .ctxld _ _ _ _ _ => true
  | .rqpush _ _ _ _ => true
  | .rqpop _ _ _ => true
  | .rqpopId _ _ _ => true
  | .rqpopKill _ _ _ => true
  | .rqpeek _ _ _ => true
  | .pfi _ _ _ => true
  | .pfiRf _ _ _ => true
  | .pfd _ _ _ _ => true
  | .clean _ _ _ _ => true
  | .inval _ _ _ _ => true
  | .cfgload _ _ _ => true
  | .cfgfree _ _ => true
  | .cfgfreeze _ _ _ _ => true
  | .cfgfreezeThaw _ _ => true
  | .cfgread _ _ _ k => k != 3
  | .pass => true
  | .iadd => true
  | .isub => true
  | .imul => true
  | .imin => true
  | .imax => true
  | .graphAnd => true
  | .graphOr => true
  | .graphXor => true
  | .shl => true
  | .shr => true
  | .icmp => true
  | .graphFadd => true
  | .graphFmul => true
  | .graphFfma => true
  | .graphFmin => true
  | .graphFmax => true
  | .fcmp => true
  | .sfu => true
  | .cvt => true
  | .scale => true
  | .steer => true
  | .merge => true
  | .carry => true
  | .settag => true
  | .gettag => true
  | .const => true
  | .seq => true
  | .filter => true
  | .coalesce => true
  | .reduce => true
  | .rowstat => true
  | .delay => true
  | .graphLoad => true
  | .graphStore => true
  | .graphTake => true
  | .graphPut => true
  | .stream => true
  | .sink => true
  | .tileput => true
  | .tileget => true
  | .arg => true
  | .ret => true
  | .callout => true
  | .emit => true
  | .slotRefill => true
  | .longOpComplete => true
  | .timerPreempt => true
  | .priorityAging => true
  | .priorityPreempt => true
  | .icacheFill => true
  | .prefetchFill => true
  | .trapEntry => true
  | .migrationArrival => true
  | .runQueueEntry => true
  | .spawnDelivery => true
  | .footprintReady => true
  | .launchFrame => true
  | .launchStart => true
  | .budgetExpiry => true
  | .accessPerformed => true
  | .recallAck => true
  | .presenceResend => true
  | .waitLimitExpiry => true
  | .reservationHoldExpiry => true
  | .sectorDrain => true
  | .lineExpiry => true
  | .translationWalk => true
  | .memTimeoutExpiry => true
  | .monwaitTimeout => true
  | .messageDelivery => true
  | .deviceReport => true
  | .streamWake => true
  | .stepFire => true
  | .nmMetaScan => true
  | .stepStreamEnd => true
  | .stepAccumulationComplete => true
  | .writebackStart => true
  | .writebackComplete => true
  | .generatorLoad => true
  | .generatorLoadComplete => true
  | .enumerationStart => true
  | .enumerationEnd => true
  | .generatorRecordPush => true
  | .copyCommandStart => true
  | .copyCommandEnd => true
  | .copyCommandStop => true
  | .collectiveContribution => true
  | .collectiveDone => true
  | .collectiveTokenCombine => true
  | .mapWriteFail => true
  | .consistLoad => true
  | .consistFreeComplete => true
  | .freezeComplete => true
  | .watchdogExpiry => true
  | .tokenArrival => true
  | .graphLoadReply => true
  | .graphStoreAck => true
  | .returnTokenArrival => true
  | .graphFaultRetry => true
  | .callWaitResume => true
  | .converterToken => true
  | .converterAck => true
  | .sealComplete => true
  | .unsealComplete => true
  | .drainTokenArrival => true
  | .evictionScheduleEntry => true
  | .heartbeat => true
  | .agentSuspect => true
  | .probeExpiry => true
  | .selftestComplete => true
  | .sliceExpiry => true
  | .swapComplete => true
  | .commit => true
  | .stop => true
  | .destroy => true
  | .configOpComplete => true
  | .domainTableWrite => true
  | .registerWrite => true
  | .write => true
  | .read => true
  | .readresp => true
  | .acq => true
  | .release => true
  | .msg => true
  | .attest => true
  | .leaseOpen => true
  | .leaseRenew => true
  | .leaseClose => true
  | .acknowledgement => true
  | .frameResend => true
  | .leaseLapse => true
  | .lockstepInputForward => true
  | .lockstepInputInject => true
  | .digestWindowEnd => true
  | .digestArrival => true
  | .pwrgood => true
  | .resetRelease => true
  | .resetAssert => true
  | .firmwareVerified => true
  | .stationSelftestDone => true
  | .lmTrainingDone => true
  | .linkTrained => true
  | .linkLoss => true
  | .powerSample => true
  | .dutyStep => true
  | .thermalTrip => true
  | .activationInterval => true
  | .graphPresenceWaitLimit => true
  | .graphPresenceReply => true
  | .lockstepAlignment => true
  | .inboundLegClaim => true
  | .holderRecall => true
  | .probeAnswer => true
  | .pwrgoodDeassert => true

/-- The legality of the four fields of a slot under its op (R109, R110 and the entries R277 to R310). -/
def roszonOk (op : Instr) (mod : BitVec 8) (d0 d1 imm : BitVec 16) : Bool :=
  match op with
  | .pass => (mod == 0 && imm == 0) && destsOk d0 d1
  | .iadd => (intModOk false true mod imm) && destsOk d0 d1
  | .isub => (intModOk false true mod imm) && destsOk d0 d1
  | .imul => (intModOk false true mod imm) && destsOk d0 d1
  | .imin => (intModOk false false mod imm) && destsOk d0 d1
  | .imax => (intModOk false false mod imm) && destsOk d0 d1
  | .graphAnd => (intModOk false false mod imm) && destsOk d0 d1
  | .graphOr => (intModOk false false mod imm) && destsOk d0 d1
  | .graphXor => (intModOk false false mod imm) && destsOk d0 d1
  | .shl => (intModOk false false mod imm) && destsOk d0 d1
  | .shr => (intModOk false false mod imm) && destsOk d0 d1
  | .icmp => (intModOk true false mod imm) && destsOk d0 d1
  | .graphFadd => (fltModOk 5 false mod imm) && destsOk d0 d1
  | .graphFmul => (fltModOk 5 false mod imm) && destsOk d0 d1
  | .graphFfma => (fltModOk 5 true mod imm) && destsOk d0 d1
  | .graphFmin => (fltModOk 0 false mod imm) && destsOk d0 d1
  | .graphFmax => (fltModOk 0 false mod imm) && destsOk d0 d1
  | .fcmp => (fltModOk 4 false mod imm) && destsOk d0 d1
  | .sfu => (decide (mod.toNat ≤ 4) && imm == 0) && destsOk d0 d1
  | .cvt => (cvtModOk mod imm) && destsOk d0 d1
  | .scale => (mod.extractLsb' 1 7 == 0 && imm.extractLsb' 6 10 == 0 && rmOk (imm.extractLsb' 3 3)) && destsOk d0 d1
  | .steer => (mod == 0 && imm == 0) && destsOk d0 d1
  | .merge => (mod == 0 && imm == 0) && destsOk d0 d1
  | .carry => (mod == 0) && destsOk d0 d1
  | .settag => (mod.extractLsb' 1 7 == 0 && (mod.getLsbD 0 || imm == 0)) && destsOk d0 d1
  | .gettag => (mod == 0 && imm == 0) && destsOk d0 d1
  | .const => (constModOk mod imm) && destsOk d0 d1
  | .seq => (mod == 0) && destsOk d0 d1
  | .filter => (mod == 0 && imm == 0) && destsOk d0 d1
  | .coalesce => (mod == 0 && imm == 0) && destsOk d0 d1
  | .reduce => (reduceModOk mod imm) && destsOk d0 d1
  | .rowstat => (mod == 0 && levelImm imm) && destsOk d0 d1
  | .delay => (mod == 0 && imm.extractLsb' 8 8 == 0 && imm.extractLsb' 0 3 != 0) && destsOk d0 d1
  | .graphLoad => (mod.extractLsb' 3 2 != 3) && destsOk d0 d1
  | .graphStore => (mod.extractLsb' 5 3 == 0 && mod.extractLsb' 3 2 != 3) && destsOk d0 d1
  | .graphTake => (mod.extractLsb' 3 5 == 0) && destsOk d0 d1
  | .graphPut => (mod.extractLsb' 3 5 == 0) && destsOk d0 d1
  | .stream => (mod.extractLsb' 1 7 == 0 && imm.extractLsb' 11 5 == 0 && (!mod.getLsbD 0 || imm.extractLsb' 3 8 == 0)) && destsOk d0 d1
  | .sink => (mod.extractLsb' 3 5 == 0) && destsOk d0 d1
  | .tileput => (mod == 0 && imm.extractLsb' 4 12 == 0) && destsOk d0 d1
  | .tileget => (mod.extractLsb' 3 5 == 0 && imm.extractLsb' 14 2 == 0) && destsOk d0 d1
  | .arg => (decide (mod.toNat ≤ 1) && imm == 0) && destsOk d0 d1
  | .ret => mod == 0 && imm == 0 && d0 == 0 && d1 == 0
  | .callout => mod == 0 && imm == 0 && destOk d0 && d0 != 0 && d1 == 0
  | .emit => (emitModOk mod) && destsOk d0 d1
  | .slotRefill => false
  | .longOpComplete => false
  | .timerPreempt => false
  | .priorityAging => false
  | .priorityPreempt => false
  | .icacheFill => false
  | .prefetchFill => false
  | .trapEntry => false
  | .migrationArrival => false
  | .runQueueEntry => false
  | .spawnDelivery => false
  | .footprintReady => false
  | .launchFrame => false
  | .launchStart => false
  | .budgetExpiry => false
  | .accessPerformed => false
  | .recallAck => false
  | .presenceResend => false
  | .waitLimitExpiry => false
  | .reservationHoldExpiry => false
  | .sectorDrain => false
  | .lineExpiry => false
  | .translationWalk => false
  | .memTimeoutExpiry => false
  | .monwaitTimeout => false
  | .messageDelivery => false
  | .deviceReport => false
  | .streamWake => false
  | .stepFire => false
  | .nmMetaScan => false
  | .stepStreamEnd => false
  | .stepAccumulationComplete => false
  | .writebackStart => false
  | .writebackComplete => false
  | .generatorLoad => false
  | .generatorLoadComplete => false
  | .enumerationStart => false
  | .enumerationEnd => false
  | .generatorRecordPush => false
  | .copyCommandStart => false
  | .copyCommandEnd => false
  | .copyCommandStop => false
  | .collectiveContribution => false
  | .collectiveDone => false
  | .collectiveTokenCombine => false
  | .mapWriteFail => false
  | .consistLoad => false
  | .consistFreeComplete => false
  | .freezeComplete => false
  | .watchdogExpiry => false
  | .tokenArrival => false
  | .graphLoadReply => false
  | .graphStoreAck => false
  | .returnTokenArrival => false
  | .graphFaultRetry => false
  | .callWaitResume => false
  | .converterToken => false
  | .converterAck => false
  | .sealComplete => false
  | .unsealComplete => false
  | .drainTokenArrival => false
  | .evictionScheduleEntry => false
  | .heartbeat => false
  | .agentSuspect => false
  | .probeExpiry => false
  | .selftestComplete => false
  | .sliceExpiry => false
  | .swapComplete => false
  | .commit => false
  | .stop => false
  | .destroy => false
  | .configOpComplete => false
  | .domainTableWrite => false
  | .registerWrite => false
  | .write => false
  | .read => false
  | .readresp => false
  | .acq => false
  | .release => false
  | .msg => false
  | .attest => false
  | .leaseOpen => false
  | .leaseRenew => false
  | .leaseClose => false
  | .acknowledgement => false
  | .frameResend => false
  | .leaseLapse => false
  | .lockstepInputForward => false
  | .lockstepInputInject => false
  | .digestWindowEnd => false
  | .digestArrival => false
  | .pwrgood => false
  | .resetRelease => false
  | .resetAssert => false
  | .firmwareVerified => false
  | .stationSelftestDone => false
  | .lmTrainingDone => false
  | .linkTrained => false
  | .linkLoss => false
  | .powerSample => false
  | .dutyStep => false
  | .thermalTrip => false
  | .activationInterval => false
  | .graphPresenceWaitLimit => false
  | .graphPresenceReply => false
  | .lockstepAlignment => false
  | .inboundLegClaim => false
  | .holderRecall => false
  | .probeAnswer => false
  | .pwrgoodDeassert => false
  | .add _ _ _ _ => false
  | .sub _ _ _ _ => false
  | .mul _ _ _ _ => false
  | .mulh _ _ _ _ => false
  | .mulhu _ _ _ _ => false
  | .div _ _ _ _ => false
  | .divu _ _ _ _ => false
  | .rem _ _ _ _ => false
  | .remu _ _ _ _ => false
  | .and _ _ _ _ => false
  | .or _ _ _ _ => false
  | .xor _ _ _ _ => false
  | .andn _ _ _ _ => false
  | .orn _ _ _ _ => false
  | .sll _ _ _ _ => false
  | .srl _ _ _ _ => false
  | .sra _ _ _ _ => false
  | .rol _ _ _ _ => false
  | .ror _ _ _ _ => false
  | .min _ _ _ _ => false
  | .max _ _ _ _ => false
  | .minu _ _ _ _ => false
  | .maxu _ _ _ _ => false
  | .slt _ _ _ _ => false
  | .sltu _ _ _ _ => false
  | .clz _ _ _ => false
  | .ctz _ _ _ => false
  | .popc _ _ _ => false
  | .brev _ _ _ => false
  | .sextB _ _ _ => false
  | .sextH _ _ _ => false
  | .sextW _ _ _ => false
  | .addi _ _ _ _ => false
  | .andi _ _ _ _ => false
  | .ori _ _ _ _ => false
  | .xori _ _ _ _ => false
  | .slli _ _ _ _ => false
  | .srli _ _ _ _ => false
  | .srai _ _ _ _ => false
  | .rori _ _ _ _ => false
  | .slti _ _ _ _ => false
  | .sltiu _ _ _ _ => false
  | .lui _ _ _ => false
  | .addpc _ _ _ => false
  | .fadd _ _ _ _ _ _ => false
  | .fsub _ _ _ _ _ _ => false
  | .fmul _ _ _ _ _ _ => false
  | .fdiv _ _ _ _ _ _ => false
  | .fsqrt _ _ _ _ _ => false
  | .fmin _ _ _ _ _ => false
  | .fmax _ _ _ _ _ => false
  | .feq _ _ _ _ _ => false
  | .flt _ _ _ _ _ => false
  | .fle _ _ _ _ _ => false
  | .fclass _ _ _ _ => false
  | .fcvtI _ _ _ _ _ _ => false
  | .fcvtF _ _ _ _ _ _ => false
  | .fmvb _ _ _ _ => false
  | .ffma _ _ _ _ _ _ => false
  | .ffms _ _ _ _ _ _ => false
  | .fnma _ _ _ _ _ _ => false
  | .fnms _ _ _ _ _ _ => false
  | .beq _ _ _ _ => false
  | .bne _ _ _ _ => false
  | .blt _ _ _ _ => false
  | .bge _ _ _ _ => false
  | .bltu _ _ _ _ => false
  | .bgeu _ _ _ _ => false
  | .jal _ _ _ => false
  | .jalr _ _ _ _ => false
  | .callt _ _ => false
  | .mkfpP _ _ _ => false
  | .mkfpR _ _ _ _ => false
  | .ldb _ _ _ _ _ => false
  | .ldh _ _ _ _ _ => false
  | .ldw _ _ _ _ _ => false
  | .ldd _ _ _ _ _ => false
  | .ldbu _ _ _ _ _ => false
  | .ldhu _ _ _ _ _ => false
  | .ldwu _ _ _ _ _ => false
  | .stb _ _ _ _ _ => false
  | .sth _ _ _ _ _ => false
  | .stw _ _ _ _ _ => false
  | .std _ _ _ _ _ => false
  | .ldg _ _ _ _ _ => false
  | .take _ _ _ _ => false
  | .put _ _ _ _ => false
  | .readf _ _ _ _ => false
  | .pset _ _ _ => false
  | .pclr _ _ _ => false
  | .rsv _ _ _ _ _ => false
  | .rls _ _ _ _ _ => false
  | .amoAdd _ _ _ _ _ _ => false
  | .amoAnd _ _ _ _ _ _ => false
  | .amoOr _ _ _ _ _ _ => false
  | .amoXor _ _ _ _ _ _ => false
  | .amoMin _ _ _ _ _ _ => false
  | .amoMax _ _ _ _ _ _ => false
  | .amoMinu _ _ _ _ _ _ => false
  | .amoMaxu _ _ _ _ _ _ => false
  | .amoSwap _ _ _ _ _ _ => false
  | .amoCas _ _ _ _ _ _ => false
  | .vld _ _ _ _ _ _ _ => false
  | .vst _ _ _ _ _ _ _ => false
  | .vldx _ _ _ _ _ _ _ _ => false
  | .vstx _ _ _ _ _ _ _ _ => false
  | .fenceAcq _ _ => false
  | .fenceRel _ _ => false
  | .fenceAr _ _ => false
  | .fencex _ _ _ => false
  | .seal _ _ => false
  | .unseal _ _ => false
  | .vadd _ _ _ _ _ _ _ _ => false
  | .vsub _ _ _ _ _ _ _ _ => false
  | .vmul _ _ _ _ _ _ _ _ => false
  | .vmin _ _ _ _ _ _ _ => false
  | .vmax _ _ _ _ _ _ _ => false
  | .vand _ _ _ _ _ _ => false
  | .vor _ _ _ _ _ _ => false
  | .vxor _ _ _ _ _ _ => false
  | .vsll _ _ _ _ _ _ => false
  | .vsrl _ _ _ _ _ _ => false
  | .vsra _ _ _ _ _ _ => false
  | .vcmp _ _ _ _ _ _ _ => false
  | .vfadd _ _ _ _ _ _ _ _ => false
  | .vfsub _ _ _ _ _ _ _ _ => false
  | .vfmul _ _ _ _ _ _ _ _ => false
  | .vffma _ _ _ _ _ _ _ _ => false
  | .vfmin _ _ _ _ _ _ _ => false
  | .vfmax _ _ _ _ _ _ _ => false
  | .vfcmp _ _ _ _ _ _ => false
  | .vfdiv _ _ _ _ _ _ _ _ => false
  | .vsel _ _ _ _ _ _ => false
  | .vperm _ _ _ _ _ _ => false
  | .vbcast _ _ _ _ _ _ => false
  | .vextr _ _ _ _ _ _ _ _ => false
  | .vins _ _ _ _ _ _ _ => false
  | .vred _ _ _ _ _ _ => false
  | .vcvt _ _ _ _ _ _ _ => false
  | .vsfu _ _ _ _ _ => false
  | .viota _ _ _ _ => false
  | .kand _ _ _ _ => false
  | .kor _ _ _ _ => false
  | .kxor _ _ _ _ => false
  | .knot _ _ _ => false
  | .kmovKk _ _ _ => false
  | .kmovKg _ _ _ => false
  | .kmovGk _ _ _ => false
  | .kpopc _ _ _ => false
  | .kmovGpw _ _ => false
  | .kmovPwg _ _ => false
  | .spawn _ _ _ _ _ _ => false
  | .migr _ _ _ => false
  | .exit _ _ => false
  | .join _ _ _ => false
  | .yield _ => false
  | .setprio _ _ => false
  | .rknew _ _ _ => false
  | .rkjoin _ _ _ => false
  | .rkleave _ _ => false
  | .rkfree _ _ => false
  | .bar _ _ _ _ => false
  | .barstat _ _ _ _ => false
  | .rkfix _ _ _ _ => false
  | .monarm _ _ _ _ => false
  | .monclr _ _ _ => false
  | .monwait _ _ _ => false
  | .send _ _ _ _ _ => false
  | .sendHost _ _ _ _ _ => false
  | .recv _ _ _ => false
  | .mxcfg _ _ _ => false
  | .mxcfgFd _ _ _ => false
  | .mxscl _ _ _ _ => false
  | .tfull _ _ _ _ => false
  | .tempty _ _ _ => false
  | .tstat _ _ _ _ _ => false
  | .cpy _ _ _ _ => false
  | .cpyx _ _ _ _ => false
  | .cpywp _ _ _ _ => false
  | .strbind _ _ _ => false
  | .strunb _ _ => false
  | .igload _ _ _ _ => false
  | .igstart _ _ _ _ => false
  | .igstat _ _ _ _ _ => false
  | .sbwr _ _ _ _ _ => false
  | .sbrd _ _ _ _ _ => false
  | .sbcommit _ _ _ _ => false
  | .tget _ _ _ => false
  | .tdone _ _ _ _ => false
  | .tret _ _ _ _ => false
  | .collred _ _ => false
  | .collbc _ _ => false
  | .collstat _ _ _ => false
  | .trap _ _ => false
  | .eret _ => false
  | .crr _ _ _ => false
  | .crw _ _ _ => false
  | .segset _ _ _ => false
  | .segget _ _ _ _ => false
  | .tlbinv _ _ _ _ => false
  | .tlbinvAll _ => false
  | .replay _ _ => false
  | .ctxsv _ _ _ _ _ => false
  | .ctxld _ _ _ _ _ => false
  | .rqpush _ _ _ _ => false
  | .rqpop _ _ _ => false
  | .rqpopId _ _ _ => false
  | .rqpopKill _ _ _ => false
  | .rqpeek _ _ _ => false
  | .pfi _ _ _ => false
  | .pfiRf _ _ _ => false
  | .pfd _ _ _ _ => false
  | .clean _ _ _ _ => false
  | .inval _ _ _ _ => false
  | .cfgload _ _ _ => false
  | .cfgfree _ _ => false
  | .cfgfreeze _ _ _ _ => false
  | .cfgfreezeThaw _ _ => false
  | .cfgread _ _ _ _ => false

/-- A slot whose fields are legal. -/
def RoszonWord.wf (r : RoszonWord) : Bool := roszonOk r.op r.mod r.d0 r.d1 r.imm

end Sys2Proof
end

