-- ==== Sys2Proof/Decode.lean ====
section
/-! DEFINITION. The decoders of the two encodings, total on any bits, and after them the encoders, written from the same
tables (R80 to R83, R109, R113). -/

namespace Sys2Proof

/-- Why a word is no instruction. -/
inductive DecodeError where
  /-- The major opcode is 0x00 or lies in 0x3A–0x3F (R82, R83). -/
  | noMajor
  /-- The function code is not assigned (R83). -/
  | noFunction
  /-- A field the entry does not use is nonzero (R80, R83). -/
  | reservedField
  /-- A field value the entry does not assign, or a register beyond its class (R79, R83). -/
  | badField
  /-- An MKFP with TAG 10 or 11: an instruction that always takes TAG_MISMATCH (R183). -/
  | pointerTag
  /-- A Roszon op that is not listed (R113). -/
  | noOp
  /-- Fewer bytes than an instruction has. -/
  | short
  deriving DecidableEq, Repr

/-- Accept an instruction only when its fields are legal. -/
def checked (i : Instr) : Except DecodeError Instr :=
  if i.wf then .ok i else .error .badField

/-- Accept a slot only when its fields are legal. -/
def checkedOp (r : RoszonWord) : Except DecodeError RoszonWord :=
  if r.wf then .ok r else .error .badField

/-- Major 0x01 (R82): ADD, SUB, MUL, MULH, MULHU, DIV, DIVU, REM, REMU, AND, OR, XOR, ANDN, ORN, SLL, SRL, SRA, ROL, ROR, MIN, MAX, MINU, MAXU, SLT, SLTU, CLZ, CTZ, POPC, BREV, SEXT_B, SEXT_H, SEXT_W. -/
def decodeMajor01 (w : BitVec 32) : Except DecodeError Instr :=
  if w.extractLsb' 0 10 = 0#10 then checked (.add (w.getLsbD 31) (w.extractLsb' 20 5) (w.extractLsb' 15 5) (w.extractLsb' 10 5))
  else if w.extractLsb' 0 10 = 1#10 then checked (.sub (w.getLsbD 31) (w.extractLsb' 20 5) (w.extractLsb' 15 5) (w.extractLsb' 10 5))
  else if w.extractLsb' 0 10 = 2#10 then checked (.mul (w.getLsbD 31) (w.extractLsb' 20 5) (w.extractLsb' 15 5) (w.extractLsb' 10 5))
  else if w.extractLsb' 0 10 = 3#10 then checked (.mulh (w.getLsbD 31) (w.extractLsb' 20 5) (w.extractLsb' 15 5) (w.extractLsb' 10 5))
  else if w.extractLsb' 0 10 = 4#10 then checked (.mulhu (w.getLsbD 31) (w.extractLsb' 20 5) (w.extractLsb' 15 5) (w.extractLsb' 10 5))
  else if w.extractLsb' 0 10 = 5#10 then checked (.div (w.getLsbD 31) (w.extractLsb' 20 5) (w.extractLsb' 15 5) (w.extractLsb' 10 5))
  else if w.extractLsb' 0 10 = 6#10 then checked (.divu (w.getLsbD 31) (w.extractLsb' 20 5) (w.extractLsb' 15 5) (w.extractLsb' 10 5))
  else if w.extractLsb' 0 10 = 7#10 then checked (.rem (w.getLsbD 31) (w.extractLsb' 20 5) (w.extractLsb' 15 5) (w.extractLsb' 10 5))
  else if w.extractLsb' 0 10 = 8#10 then checked (.remu (w.getLsbD 31) (w.extractLsb' 20 5) (w.extractLsb' 15 5) (w.extractLsb' 10 5))
  else if w.extractLsb' 0 10 = 9#10 then checked (.and (w.getLsbD 31) (w.extractLsb' 20 5) (w.extractLsb' 15 5) (w.extractLsb' 10 5))
  else if w.extractLsb' 0 10 = 10#10 then checked (.or (w.getLsbD 31) (w.extractLsb' 20 5) (w.extractLsb' 15 5) (w.extractLsb' 10 5))
  else if w.extractLsb' 0 10 = 11#10 then checked (.xor (w.getLsbD 31) (w.extractLsb' 20 5) (w.extractLsb' 15 5) (w.extractLsb' 10 5))
  else if w.extractLsb' 0 10 = 12#10 then checked (.andn (w.getLsbD 31) (w.extractLsb' 20 5) (w.extractLsb' 15 5) (w.extractLsb' 10 5))
  else if w.extractLsb' 0 10 = 13#10 then checked (.orn (w.getLsbD 31) (w.extractLsb' 20 5) (w.extractLsb' 15 5) (w.extractLsb' 10 5))
  else if w.extractLsb' 0 10 = 14#10 then checked (.sll (w.getLsbD 31) (w.extractLsb' 20 5) (w.extractLsb' 15 5) (w.extractLsb' 10 5))
  else if w.extractLsb' 0 10 = 15#10 then checked (.srl (w.getLsbD 31) (w.extractLsb' 20 5) (w.extractLsb' 15 5) (w.extractLsb' 10 5))
  else if w.extractLsb' 0 10 = 16#10 then checked (.sra (w.getLsbD 31) (w.extractLsb' 20 5) (w.extractLsb' 15 5) (w.extractLsb' 10 5))
  else if w.extractLsb' 0 10 = 17#10 then checked (.rol (w.getLsbD 31) (w.extractLsb' 20 5) (w.extractLsb' 15 5) (w.extractLsb' 10 5))
  else if w.extractLsb' 0 10 = 18#10 then checked (.ror (w.getLsbD 31) (w.extractLsb' 20 5) (w.extractLsb' 15 5) (w.extractLsb' 10 5))
  else if w.extractLsb' 0 10 = 19#10 then checked (.min (w.getLsbD 31) (w.extractLsb' 20 5) (w.extractLsb' 15 5) (w.extractLsb' 10 5))
  else if w.extractLsb' 0 10 = 20#10 then checked (.max (w.getLsbD 31) (w.extractLsb' 20 5) (w.extractLsb' 15 5) (w.extractLsb' 10 5))
  else if w.extractLsb' 0 10 = 21#10 then checked (.minu (w.getLsbD 31) (w.extractLsb' 20 5) (w.extractLsb' 15 5) (w.extractLsb' 10 5))
  else if w.extractLsb' 0 10 = 22#10 then checked (.maxu (w.getLsbD 31) (w.extractLsb' 20 5) (w.extractLsb' 15 5) (w.extractLsb' 10 5))
  else if w.extractLsb' 0 10 = 23#10 then checked (.slt (w.getLsbD 31) (w.extractLsb' 20 5) (w.extractLsb' 15 5) (w.extractLsb' 10 5))
  else if w.extractLsb' 0 10 = 24#10 then checked (.sltu (w.getLsbD 31) (w.extractLsb' 20 5) (w.extractLsb' 15 5) (w.extractLsb' 10 5))
  else if w.extractLsb' 0 10 = 25#10 then if w.extractLsb' 10 5 = 0#5 then checked (.clz (w.getLsbD 31) (w.extractLsb' 20 5) (w.extractLsb' 15 5)) else .error .reservedField
  else if w.extractLsb' 0 10 = 26#10 then if w.extractLsb' 10 5 = 0#5 then checked (.ctz (w.getLsbD 31) (w.extractLsb' 20 5) (w.extractLsb' 15 5)) else .error .reservedField
  else if w.extractLsb' 0 10 = 27#10 then if w.extractLsb' 10 5 = 0#5 then checked (.popc (w.getLsbD 31) (w.extractLsb' 20 5) (w.extractLsb' 15 5)) else .error .reservedField
  else if w.extractLsb' 0 10 = 28#10 then if w.extractLsb' 10 5 = 0#5 then checked (.brev (w.getLsbD 31) (w.extractLsb' 20 5) (w.extractLsb' 15 5)) else .error .reservedField
  else if w.extractLsb' 0 10 = 29#10 then if w.extractLsb' 10 5 = 0#5 then checked (.sextB (w.getLsbD 31) (w.extractLsb' 20 5) (w.extractLsb' 15 5)) else .error .reservedField
  else if w.extractLsb' 0 10 = 30#10 then if w.extractLsb' 10 5 = 0#5 then checked (.sextH (w.getLsbD 31) (w.extractLsb' 20 5) (w.extractLsb' 15 5)) else .error .reservedField
  else if w.extractLsb' 0 10 = 31#10 then if w.extractLsb' 10 5 = 0#5 then checked (.sextW (w.getLsbD 31) (w.extractLsb' 20 5) (w.extractLsb' 15 5)) else .error .reservedField
  else .error .noFunction

/-- Major 0x02 (R82): ADDI. -/
def decodeMajor02 (w : BitVec 32) : Except DecodeError Instr :=
  checked (.addi (w.getLsbD 31) (w.extractLsb' 20 5) (w.extractLsb' 15 5) (w.extractLsb' 0 15))

/-- Major 0x03 (R82): ANDI. -/
def decodeMajor03 (w : BitVec 32) : Except DecodeError Instr :=
  checked (.andi (w.getLsbD 31) (w.extractLsb' 20 5) (w.extractLsb' 15 5) (w.extractLsb' 0 15))

/-- Major 0x04 (R82): ORI. -/
def decodeMajor04 (w : BitVec 32) : Except DecodeError Instr :=
  checked (.ori (w.getLsbD 31) (w.extractLsb' 20 5) (w.extractLsb' 15 5) (w.extractLsb' 0 15))

/-- Major 0x05 (R82): XORI. -/
def decodeMajor05 (w : BitVec 32) : Except DecodeError Instr :=
  checked (.xori (w.getLsbD 31) (w.extractLsb' 20 5) (w.extractLsb' 15 5) (w.extractLsb' 0 15))

/-- Major 0x06 (R82): SLLI, SRLI, SRAI, RORI. -/
def decodeMajor06 (w : BitVec 32) : Except DecodeError Instr :=
  if w.extractLsb' 6 9 = 0#9 then checked (.slli (w.getLsbD 31) (w.extractLsb' 20 5) (w.extractLsb' 15 5) (w.extractLsb' 0 6))
  else if w.extractLsb' 6 9 = 128#9 then checked (.srli (w.getLsbD 31) (w.extractLsb' 20 5) (w.extractLsb' 15 5) (w.extractLsb' 0 6))
  else if w.extractLsb' 6 9 = 256#9 then checked (.srai (w.getLsbD 31) (w.extractLsb' 20 5) (w.extractLsb' 15 5) (w.extractLsb' 0 6))
  else if w.extractLsb' 6 9 = 384#9 then checked (.rori (w.getLsbD 31) (w.extractLsb' 20 5) (w.extractLsb' 15 5) (w.extractLsb' 0 6))
  else .error .noFunction

/-- Major 0x07 (R82): SLTI. -/
def decodeMajor07 (w : BitVec 32) : Except DecodeError Instr :=
  checked (.slti (w.getLsbD 31) (w.extractLsb' 20 5) (w.extractLsb' 15 5) (w.extractLsb' 0 15))

/-- Major 0x08 (R82): SLTIU. -/
def decodeMajor08 (w : BitVec 32) : Except DecodeError Instr :=
  checked (.sltiu (w.getLsbD 31) (w.extractLsb' 20 5) (w.extractLsb' 15 5) (w.extractLsb' 0 15))

/-- Major 0x09 (R82): LUI. -/
def decodeMajor09 (w : BitVec 32) : Except DecodeError Instr :=
  checked (.lui (w.getLsbD 31) (w.extractLsb' 20 5) (w.extractLsb' 0 20))

/-- Major 0x0A (R82): ADDPC. -/
def decodeMajor0A (w : BitVec 32) : Except DecodeError Instr :=
  checked (.addpc (w.getLsbD 31) (w.extractLsb' 20 5) (w.extractLsb' 0 20))

/-- Major 0x0B (R82): FADD, FSUB, FMUL, FDIV, FSQRT, FMIN, FMAX, FEQ, FLT, FLE, FCLASS, FCVT_I, FCVT_F, FMVB. -/
def decodeMajor0B (w : BitVec 32) : Except DecodeError Instr :=
  if w.extractLsb' 4 4 = 0#4 then if w.extractLsb' 0 1 = 0#1 then checked (.fadd (w.getLsbD 31) (w.extractLsb' 20 5) (w.extractLsb' 15 5) (w.extractLsb' 10 5) (w.extractLsb' 8 2) (w.extractLsb' 1 3)) else .error .reservedField
  else if w.extractLsb' 4 4 = 1#4 then if w.extractLsb' 0 1 = 0#1 then checked (.fsub (w.getLsbD 31) (w.extractLsb' 20 5) (w.extractLsb' 15 5) (w.extractLsb' 10 5) (w.extractLsb' 8 2) (w.extractLsb' 1 3)) else .error .reservedField
  else if w.extractLsb' 4 4 = 2#4 then if w.extractLsb' 0 1 = 0#1 then checked (.fmul (w.getLsbD 31) (w.extractLsb' 20 5) (w.extractLsb' 15 5) (w.extractLsb' 10 5) (w.extractLsb' 8 2) (w.extractLsb' 1 3)) else .error .reservedField
  else if w.extractLsb' 4 4 = 3#4 then if w.extractLsb' 0 1 = 0#1 then checked (.fdiv (w.getLsbD 31) (w.extractLsb' 20 5) (w.extractLsb' 15 5) (w.extractLsb' 10 5) (w.extractLsb' 8 2) (w.extractLsb' 1 3)) else .error .reservedField
  else if w.extractLsb' 4 4 = 4#4 then if w.extractLsb' 13 2 = 0#2 ∧ w.extractLsb' 12 1 = 0#1 ∧ w.extractLsb' 10 2 = 0#2 ∧ w.extractLsb' 0 1 = 0#1 then checked (.fsqrt (w.getLsbD 31) (w.extractLsb' 20 5) (w.extractLsb' 15 5) (w.extractLsb' 8 2) (w.extractLsb' 1 3)) else .error .reservedField
  else if w.extractLsb' 4 4 = 5#4 then if w.extractLsb' 1 3 = 0#3 ∧ w.extractLsb' 0 1 = 0#1 then checked (.fmin (w.getLsbD 31) (w.extractLsb' 20 5) (w.extractLsb' 15 5) (w.extractLsb' 10 5) (w.extractLsb' 8 2)) else .error .reservedField
  else if w.extractLsb' 4 4 = 6#4 then if w.extractLsb' 1 3 = 0#3 ∧ w.extractLsb' 0 1 = 0#1 then checked (.fmax (w.getLsbD 31) (w.extractLsb' 20 5) (w.extractLsb' 15 5) (w.extractLsb' 10 5) (w.extractLsb' 8 2)) else .error .reservedField
  else if w.extractLsb' 4 4 = 7#4 then if w.extractLsb' 1 3 = 0#3 ∧ w.extractLsb' 0 1 = 0#1 then checked (.feq (w.getLsbD 31) (w.extractLsb' 20 5) (w.extractLsb' 15 5) (w.extractLsb' 10 5) (w.extractLsb' 8 2)) else .error .reservedField
  else if w.extractLsb' 4 4 = 8#4 then if w.extractLsb' 1 3 = 0#3 ∧ w.extractLsb' 0 1 = 0#1 then checked (.flt (w.getLsbD 31) (w.extractLsb' 20 5) (w.extractLsb' 15 5) (w.extractLsb' 10 5) (w.extractLsb' 8 2)) else .error .reservedField
  else if w.extractLsb' 4 4 = 9#4 then if w.extractLsb' 1 3 = 0#3 ∧ w.extractLsb' 0 1 = 0#1 then checked (.fle (w.getLsbD 31) (w.extractLsb' 20 5) (w.extractLsb' 15 5) (w.extractLsb' 10 5) (w.extractLsb' 8 2)) else .error .reservedField
  else if w.extractLsb' 4 4 = 10#4 then if w.extractLsb' 13 2 = 0#2 ∧ w.extractLsb' 12 1 = 0#1 ∧ w.extractLsb' 10 2 = 0#2 ∧ w.extractLsb' 1 3 = 0#3 ∧ w.extractLsb' 0 1 = 0#1 then checked (.fclass (w.getLsbD 31) (w.extractLsb' 20 5) (w.extractLsb' 15 5) (w.extractLsb' 8 2)) else .error .reservedField
  else if w.extractLsb' 4 4 = 11#4 then if w.extractLsb' 13 2 = 0#2 ∧ w.extractLsb' 12 1 = 0#1 ∧ w.extractLsb' 0 1 = 0#1 then checked (.fcvtI (w.getLsbD 31) (w.extractLsb' 20 5) (w.extractLsb' 15 5) (w.extractLsb' 10 2) (w.extractLsb' 8 2) (w.extractLsb' 1 3)) else .error .reservedField
  else if w.extractLsb' 4 4 = 12#4 then if w.extractLsb' 13 2 = 0#2 ∧ w.extractLsb' 0 1 = 0#1 then checked (.fcvtF (w.getLsbD 31) (w.extractLsb' 20 5) (w.extractLsb' 15 5) (w.extractLsb' 10 3) (w.extractLsb' 8 2) (w.extractLsb' 1 3)) else .error .reservedField
  else if w.extractLsb' 4 4 = 13#4 then if w.extractLsb' 13 2 = 0#2 ∧ w.extractLsb' 12 1 = 0#1 ∧ w.extractLsb' 10 2 = 0#2 ∧ w.extractLsb' 1 3 = 0#3 ∧ w.extractLsb' 0 1 = 0#1 then checked (.fmvb (w.getLsbD 31) (w.extractLsb' 20 5) (w.extractLsb' 15 5) (w.extractLsb' 8 2)) else .error .reservedField
  else .error .noFunction

/-- Major 0x0C (R82): FFMA, FFMS, FNMA, FNMS. -/
def decodeMajor0C (w : BitVec 32) : Except DecodeError Instr :=
  if w.extractLsb' 0 3 = 0#3 then checked (.ffma (w.getLsbD 31) (w.extractLsb' 20 5) (w.extractLsb' 15 5) (w.extractLsb' 10 5) (w.extractLsb' 5 5) (w.extractLsb' 3 2))
  else if w.extractLsb' 0 3 = 2#3 then checked (.ffms (w.getLsbD 31) (w.extractLsb' 20 5) (w.extractLsb' 15 5) (w.extractLsb' 10 5) (w.extractLsb' 5 5) (w.extractLsb' 3 2))
  else if w.extractLsb' 0 3 = 4#3 then checked (.fnma (w.getLsbD 31) (w.extractLsb' 20 5) (w.extractLsb' 15 5) (w.extractLsb' 10 5) (w.extractLsb' 5 5) (w.extractLsb' 3 2))
  else if w.extractLsb' 0 3 = 6#3 then checked (.fnms (w.getLsbD 31) (w.extractLsb' 20 5) (w.extractLsb' 15 5) (w.extractLsb' 10 5) (w.extractLsb' 5 5) (w.extractLsb' 3 2))
  else .error .noFunction

/-- Major 0x0D (R82): BEQ. -/
def decodeMajor0D (w : BitVec 32) : Except DecodeError Instr :=
  checked (.beq (w.getLsbD 31) (w.extractLsb' 20 5) (w.extractLsb' 15 5) (w.extractLsb' 0 15))

/-- Major 0x0E (R82): BNE. -/
def decodeMajor0E (w : BitVec 32) : Except DecodeError Instr :=
  checked (.bne (w.getLsbD 31) (w.extractLsb' 20 5) (w.extractLsb' 15 5) (w.extractLsb' 0 15))

/-- Major 0x0F (R82): BLT. -/
def decodeMajor0F (w : BitVec 32) : Except DecodeError Instr :=
  checked (.blt (w.getLsbD 31) (w.extractLsb' 20 5) (w.extractLsb' 15 5) (w.extractLsb' 0 15))

/-- Major 0x10 (R82): BGE. -/
def decodeMajor10 (w : BitVec 32) : Except DecodeError Instr :=
  checked (.bge (w.getLsbD 31) (w.extractLsb' 20 5) (w.extractLsb' 15 5) (w.extractLsb' 0 15))

/-- Major 0x11 (R82): BLTU. -/
def decodeMajor11 (w : BitVec 32) : Except DecodeError Instr :=
  checked (.bltu (w.getLsbD 31) (w.extractLsb' 20 5) (w.extractLsb' 15 5) (w.extractLsb' 0 15))

/-- Major 0x12 (R82): BGEU. -/
def decodeMajor12 (w : BitVec 32) : Except DecodeError Instr :=
  checked (.bgeu (w.getLsbD 31) (w.extractLsb' 20 5) (w.extractLsb' 15 5) (w.extractLsb' 0 15))

/-- Major 0x13 (R82): JAL. -/
def decodeMajor13 (w : BitVec 32) : Except DecodeError Instr :=
  checked (.jal (w.getLsbD 31) (w.extractLsb' 20 5) (w.extractLsb' 0 20))

/-- Major 0x14 (R82): JALR. -/
def decodeMajor14 (w : BitVec 32) : Except DecodeError Instr :=
  checked (.jalr (w.getLsbD 31) (w.extractLsb' 20 5) (w.extractLsb' 15 5) (w.extractLsb' 0 15))

/-- Major 0x15 (R82): CALLT. -/
def decodeMajor15 (w : BitVec 32) : Except DecodeError Instr :=
  if w.extractLsb' 20 5 = 0#5 ∧ w.extractLsb' 0 15 = 0#15 then checked (.callt (w.getLsbD 31) (w.extractLsb' 15 5)) else .error .reservedField

/-- Major 0x16 (R82): MKFP_P, MKFP_R. -/
def decodeMajor16 (w : BitVec 32) : Except DecodeError Instr :=
  if w.extractLsb' 13 2 = 0#2 ∧ w.extractLsb' 2 8 = 0#8 ∧ w.getLsbD 1 = true then .error .pointerTag
  else if w.extractLsb' 0 10 = 0#10 then if w.extractLsb' 13 2 = 0#2 ∧ w.extractLsb' 10 3 = 0#3 then checked (.mkfpP (w.getLsbD 31) (w.extractLsb' 20 5) (w.extractLsb' 15 5)) else .error .reservedField
  else if w.extractLsb' 0 10 = 1#10 then if w.extractLsb' 13 2 = 0#2 then checked (.mkfpR (w.getLsbD 31) (w.extractLsb' 20 5) (w.extractLsb' 15 5) (w.extractLsb' 10 3)) else .error .reservedField
  else .error .noFunction

/-- Major 0x17 (R82): LDB. -/
def decodeMajor17 (w : BitVec 32) : Except DecodeError Instr :=
  checked (.ldb (w.getLsbD 31) (w.extractLsb' 20 5) (w.extractLsb' 15 5) (w.extractLsb' 12 3) (w.extractLsb' 0 12))

/-- Major 0x18 (R82): LDH. -/
def decodeMajor18 (w : BitVec 32) : Except DecodeError Instr :=
  checked (.ldh (w.getLsbD 31) (w.extractLsb' 20 5) (w.extractLsb' 15 5) (w.extractLsb' 12 3) (w.extractLsb' 0 12))

/-- Major 0x19 (R82): LDW. -/
def decodeMajor19 (w : BitVec 32) : Except DecodeError Instr :=
  checked (.ldw (w.getLsbD 31) (w.extractLsb' 20 5) (w.extractLsb' 15 5) (w.extractLsb' 12 3) (w.extractLsb' 0 12))

/-- Major 0x1A (R82): LDD. -/
def decodeMajor1A (w : BitVec 32) : Except DecodeError Instr :=
  checked (.ldd (w.getLsbD 31) (w.extractLsb' 20 5) (w.extractLsb' 15 5) (w.extractLsb' 12 3) (w.extractLsb' 0 12))

/-- Major 0x1B (R82): LDBU. -/
def decodeMajor1B (w : BitVec 32) : Except DecodeError Instr :=
  checked (.ldbu (w.getLsbD 31) (w.extractLsb' 20 5) (w.extractLsb' 15 5) (w.extractLsb' 12 3) (w.extractLsb' 0 12))

/-- Major 0x1C (R82): LDHU. -/
def decodeMajor1C (w : BitVec 32) : Except DecodeError Instr :=
  checked (.ldhu (w.getLsbD 31) (w.extractLsb' 20 5) (w.extractLsb' 15 5) (w.extractLsb' 12 3) (w.extractLsb' 0 12))

/-- Major 0x1D (R82): LDWU. -/
def decodeMajor1D (w : BitVec 32) : Except DecodeError Instr :=
  checked (.ldwu (w.getLsbD 31) (w.extractLsb' 20 5) (w.extractLsb' 15 5) (w.extractLsb' 12 3) (w.extractLsb' 0 12))

/-- Major 0x1E (R82): STB. -/
def decodeMajor1E (w : BitVec 32) : Except DecodeError Instr :=
  checked (.stb (w.getLsbD 31) (w.extractLsb' 20 5) (w.extractLsb' 15 5) (w.extractLsb' 12 3) (w.extractLsb' 0 12))

/-- Major 0x1F (R82): STH. -/
def decodeMajor1F (w : BitVec 32) : Except DecodeError Instr :=
  checked (.sth (w.getLsbD 31) (w.extractLsb' 20 5) (w.extractLsb' 15 5) (w.extractLsb' 12 3) (w.extractLsb' 0 12))

/-- Major 0x20 (R82): STW. -/
def decodeMajor20 (w : BitVec 32) : Except DecodeError Instr :=
  checked (.stw (w.getLsbD 31) (w.extractLsb' 20 5) (w.extractLsb' 15 5) (w.extractLsb' 12 3) (w.extractLsb' 0 12))

/-- Major 0x21 (R82): STD. -/
def decodeMajor21 (w : BitVec 32) : Except DecodeError Instr :=
  checked (.std (w.getLsbD 31) (w.extractLsb' 20 5) (w.extractLsb' 15 5) (w.extractLsb' 12 3) (w.extractLsb' 0 12))

/-- Major 0x22 (R82): LDG. -/
def decodeMajor22 (w : BitVec 32) : Except DecodeError Instr :=
  checked (.ldg (w.getLsbD 31) (w.extractLsb' 20 5) (w.extractLsb' 15 5) (w.extractLsb' 12 3) (w.extractLsb' 0 12))

/-- Major 0x23 (R82): TAKE, PUT, READF, PSET, PCLR. -/
def decodeMajor23 (w : BitVec 32) : Except DecodeError Instr :=
  if w.extractLsb' 0 4 = 0#4 then if w.extractLsb' 10 5 = 0#5 ∧ w.extractLsb' 7 3 = 0#3 then checked (.take (w.getLsbD 31) (w.extractLsb' 20 5) (w.extractLsb' 15 5) (w.extractLsb' 4 3)) else .error .reservedField
  else if w.extractLsb' 0 4 = 1#4 then if w.extractLsb' 20 5 = 0#5 ∧ w.extractLsb' 7 3 = 0#3 then checked (.put (w.getLsbD 31) (w.extractLsb' 15 5) (w.extractLsb' 10 5) (w.extractLsb' 4 3)) else .error .reservedField
  else if w.extractLsb' 0 4 = 2#4 then if w.extractLsb' 10 5 = 0#5 ∧ w.extractLsb' 7 3 = 0#3 then checked (.readf (w.getLsbD 31) (w.extractLsb' 20 5) (w.extractLsb' 15 5) (w.extractLsb' 4 3)) else .error .reservedField
  else if w.extractLsb' 0 4 = 3#4 then if w.extractLsb' 20 5 = 0#5 ∧ w.extractLsb' 10 5 = 0#5 ∧ w.extractLsb' 7 3 = 0#3 then checked (.pset (w.getLsbD 31) (w.extractLsb' 15 5) (w.extractLsb' 4 3)) else .error .reservedField
  else if w.extractLsb' 0 4 = 4#4 then if w.extractLsb' 20 5 = 0#5 ∧ w.extractLsb' 10 5 = 0#5 ∧ w.extractLsb' 7 3 = 0#3 then checked (.pclr (w.getLsbD 31) (w.extractLsb' 15 5) (w.extractLsb' 4 3)) else .error .reservedField
  else .error .noFunction

/-- Major 0x24 (R82): RSV, RLS, AMO_ADD, AMO_AND, AMO_OR, AMO_XOR, AMO_MIN, AMO_MAX, AMO_MINU, AMO_MAXU, AMO_SWAP, AMO_CAS. -/
def decodeMajor24 (w : BitVec 32) : Except DecodeError Instr :=
  if w.extractLsb' 0 5 = 0#5 then if w.extractLsb' 10 5 = 0#5 ∧ w.extractLsb' 9 1 = 0#1 then checked (.rsv (w.getLsbD 31) (w.extractLsb' 20 5) (w.extractLsb' 15 5) (w.getLsbD 8) (w.extractLsb' 5 3)) else .error .reservedField
  else if w.extractLsb' 0 5 = 1#5 then if w.extractLsb' 20 5 = 0#5 ∧ w.extractLsb' 9 1 = 0#1 then checked (.rls (w.getLsbD 31) (w.extractLsb' 15 5) (w.extractLsb' 10 5) (w.getLsbD 8) (w.extractLsb' 5 3)) else .error .reservedField
  else if w.extractLsb' 0 5 = 2#5 then if w.extractLsb' 9 1 = 0#1 then checked (.amoAdd (w.getLsbD 31) (w.extractLsb' 20 5) (w.extractLsb' 15 5) (w.extractLsb' 10 5) (w.getLsbD 8) (w.extractLsb' 5 3)) else .error .reservedField
  else if w.extractLsb' 0 5 = 3#5 then if w.extractLsb' 9 1 = 0#1 then checked (.amoAnd (w.getLsbD 31) (w.extractLsb' 20 5) (w.extractLsb' 15 5) (w.extractLsb' 10 5) (w.getLsbD 8) (w.extractLsb' 5 3)) else .error .reservedField
  else if w.extractLsb' 0 5 = 4#5 then if w.extractLsb' 9 1 = 0#1 then checked (.amoOr (w.getLsbD 31) (w.extractLsb' 20 5) (w.extractLsb' 15 5) (w.extractLsb' 10 5) (w.getLsbD 8) (w.extractLsb' 5 3)) else .error .reservedField
  else if w.extractLsb' 0 5 = 5#5 then if w.extractLsb' 9 1 = 0#1 then checked (.amoXor (w.getLsbD 31) (w.extractLsb' 20 5) (w.extractLsb' 15 5) (w.extractLsb' 10 5) (w.getLsbD 8) (w.extractLsb' 5 3)) else .error .reservedField
  else if w.extractLsb' 0 5 = 6#5 then if w.extractLsb' 9 1 = 0#1 then checked (.amoMin (w.getLsbD 31) (w.extractLsb' 20 5) (w.extractLsb' 15 5) (w.extractLsb' 10 5) (w.getLsbD 8) (w.extractLsb' 5 3)) else .error .reservedField
  else if w.extractLsb' 0 5 = 7#5 then if w.extractLsb' 9 1 = 0#1 then checked (.amoMax (w.getLsbD 31) (w.extractLsb' 20 5) (w.extractLsb' 15 5) (w.extractLsb' 10 5) (w.getLsbD 8) (w.extractLsb' 5 3)) else .error .reservedField
  else if w.extractLsb' 0 5 = 8#5 then if w.extractLsb' 9 1 = 0#1 then checked (.amoMinu (w.getLsbD 31) (w.extractLsb' 20 5) (w.extractLsb' 15 5) (w.extractLsb' 10 5) (w.getLsbD 8) (w.extractLsb' 5 3)) else .error .reservedField
  else if w.extractLsb' 0 5 = 9#5 then if w.extractLsb' 9 1 = 0#1 then checked (.amoMaxu (w.getLsbD 31) (w.extractLsb' 20 5) (w.extractLsb' 15 5) (w.extractLsb' 10 5) (w.getLsbD 8) (w.extractLsb' 5 3)) else .error .reservedField
  else if w.extractLsb' 0 5 = 10#5 then if w.extractLsb' 9 1 = 0#1 then checked (.amoSwap (w.getLsbD 31) (w.extractLsb' 20 5) (w.extractLsb' 15 5) (w.extractLsb' 10 5) (w.getLsbD 8) (w.extractLsb' 5 3)) else .error .reservedField
  else if w.extractLsb' 0 5 = 11#5 then if w.extractLsb' 9 1 = 0#1 then checked (.amoCas (w.getLsbD 31) (w.extractLsb' 20 5) (w.extractLsb' 15 5) (w.extractLsb' 10 5) (w.getLsbD 8) (w.extractLsb' 5 3)) else .error .reservedField
  else .error .noFunction

/-- Major 0x25 (R82): VLD. -/
def decodeMajor25 (w : BitVec 32) : Except DecodeError Instr :=
  if w.extractLsb' 0 2 = 0#2 then checked (.vld (w.getLsbD 31) (w.extractLsb' 21 4) (w.extractLsb' 13 8) (w.extractLsb' 11 2) (w.getLsbD 10) (w.extractLsb' 5 5) (w.extractLsb' 2 3)) else .error .reservedField

/-- Major 0x26 (R82): VST. -/
def decodeMajor26 (w : BitVec 32) : Except DecodeError Instr :=
  if w.extractLsb' 0 2 = 0#2 then checked (.vst (w.getLsbD 31) (w.extractLsb' 21 4) (w.extractLsb' 13 8) (w.extractLsb' 11 2) (w.getLsbD 10) (w.extractLsb' 5 5) (w.extractLsb' 2 3)) else .error .reservedField

/-- Major 0x27 (R82): VLDX. -/
def decodeMajor27 (w : BitVec 32) : Except DecodeError Instr :=
  if w.extractLsb' 13 4 = 0#4 then checked (.vldx (w.getLsbD 31) (w.extractLsb' 21 4) (w.extractLsb' 17 4) (w.extractLsb' 11 2) (w.getLsbD 10) (w.extractLsb' 5 5) (w.extractLsb' 2 3) (w.extractLsb' 0 2)) else .error .reservedField

/-- Major 0x28 (R82): VSTX. -/
def decodeMajor28 (w : BitVec 32) : Except DecodeError Instr :=
  if w.extractLsb' 13 4 = 0#4 then checked (.vstx (w.getLsbD 31) (w.extractLsb' 21 4) (w.extractLsb' 17 4) (w.extractLsb' 11 2) (w.getLsbD 10) (w.extractLsb' 5 5) (w.extractLsb' 2 3) (w.extractLsb' 0 2)) else .error .reservedField

/-- Major 0x29 (R82): FENCE_ACQ, FENCE_REL, FENCE_AR, FENCEX, SEAL, UNSEAL. -/
def decodeMajor29 (w : BitVec 32) : Except DecodeError Instr :=
  if w.extractLsb' 8 7 = 0#7 ∧ w.extractLsb' 0 2 = 1#2 then if w.extractLsb' 20 5 = 0#5 ∧ w.extractLsb' 5 3 = 0#3 ∧ w.extractLsb' 2 3 = 0#3 then checked (.fenceAcq (w.getLsbD 31) (w.extractLsb' 15 5)) else .error .reservedField
  else if w.extractLsb' 8 7 = 0#7 ∧ w.extractLsb' 0 2 = 2#2 then if w.extractLsb' 20 5 = 0#5 ∧ w.extractLsb' 5 3 = 0#3 ∧ w.extractLsb' 2 3 = 0#3 then checked (.fenceRel (w.getLsbD 31) (w.extractLsb' 15 5)) else .error .reservedField
  else if w.extractLsb' 8 7 = 0#7 ∧ w.extractLsb' 0 2 = 3#2 then if w.extractLsb' 20 5 = 0#5 ∧ w.extractLsb' 5 3 = 0#3 ∧ w.extractLsb' 2 3 = 0#3 then checked (.fenceAr (w.getLsbD 31) (w.extractLsb' 15 5)) else .error .reservedField
  else if w.extractLsb' 8 7 = 1#7 ∧ w.extractLsb' 0 2 = 0#2 then if w.extractLsb' 20 5 = 0#5 ∧ w.extractLsb' 15 5 = 0#5 then checked (.fencex (w.getLsbD 31) (w.extractLsb' 5 3) (w.extractLsb' 2 3)) else .error .reservedField
  else if w.extractLsb' 8 7 = 2#7 ∧ w.extractLsb' 0 2 = 0#2 then if w.extractLsb' 20 5 = 0#5 ∧ w.extractLsb' 15 5 = 0#5 ∧ w.extractLsb' 2 3 = 0#3 then checked (.seal (w.getLsbD 31) (w.extractLsb' 5 3)) else .error .reservedField
  else if w.extractLsb' 8 7 = 3#7 ∧ w.extractLsb' 0 2 = 0#2 then if w.extractLsb' 20 5 = 0#5 ∧ w.extractLsb' 15 5 = 0#5 ∧ w.extractLsb' 2 3 = 0#3 then checked (.unseal (w.getLsbD 31) (w.extractLsb' 5 3)) else .error .reservedField
  else .error .noFunction

/-- Major 0x2A (R82): VADD, VSUB, VMUL, VMIN, VMAX, VAND, VOR, VXOR, VSLL, VSRL, VSRA, VCMP. -/
def decodeMajor2A (w : BitVec 32) : Except DecodeError Instr :=
  if w.extractLsb' 5 5 = 0#5 then if w.extractLsb' 2 3 = 0#3 then checked (.vadd (w.getLsbD 31) (w.extractLsb' 21 4) (w.extractLsb' 17 4) (w.extractLsb' 13 4) (w.extractLsb' 11 2) (w.getLsbD 10) (w.getLsbD 1) (w.getLsbD 0)) else .error .reservedField
  else if w.extractLsb' 5 5 = 1#5 then if w.extractLsb' 2 3 = 0#3 then checked (.vsub (w.getLsbD 31) (w.extractLsb' 21 4) (w.extractLsb' 17 4) (w.extractLsb' 13 4) (w.extractLsb' 11 2) (w.getLsbD 10) (w.getLsbD 1) (w.getLsbD 0)) else .error .reservedField
  else if w.extractLsb' 5 5 = 2#5 then if w.extractLsb' 2 3 = 0#3 then checked (.vmul (w.getLsbD 31) (w.extractLsb' 21 4) (w.extractLsb' 17 4) (w.extractLsb' 13 4) (w.extractLsb' 11 2) (w.getLsbD 10) (w.getLsbD 1) (w.getLsbD 0)) else .error .reservedField
  else if w.extractLsb' 5 5 = 3#5 then if w.extractLsb' 2 3 = 0#3 ∧ w.extractLsb' 1 1 = 0#1 then checked (.vmin (w.getLsbD 31) (w.extractLsb' 21 4) (w.extractLsb' 17 4) (w.extractLsb' 13 4) (w.extractLsb' 11 2) (w.getLsbD 10) (w.getLsbD 0)) else .error .reservedField
  else if w.extractLsb' 5 5 = 4#5 then if w.extractLsb' 2 3 = 0#3 ∧ w.extractLsb' 1 1 = 0#1 then checked (.vmax (w.getLsbD 31) (w.extractLsb' 21 4) (w.extractLsb' 17 4) (w.extractLsb' 13 4) (w.extractLsb' 11 2) (w.getLsbD 10) (w.getLsbD 0)) else .error .reservedField
  else if w.extractLsb' 5 5 = 5#5 then if w.extractLsb' 2 3 = 0#3 ∧ w.extractLsb' 1 1 = 0#1 ∧ w.extractLsb' 0 1 = 0#1 then checked (.vand (w.getLsbD 31) (w.extractLsb' 21 4) (w.extractLsb' 17 4) (w.extractLsb' 13 4) (w.extractLsb' 11 2) (w.getLsbD 10)) else .error .reservedField
  else if w.extractLsb' 5 5 = 6#5 then if w.extractLsb' 2 3 = 0#3 ∧ w.extractLsb' 1 1 = 0#1 ∧ w.extractLsb' 0 1 = 0#1 then checked (.vor (w.getLsbD 31) (w.extractLsb' 21 4) (w.extractLsb' 17 4) (w.extractLsb' 13 4) (w.extractLsb' 11 2) (w.getLsbD 10)) else .error .reservedField
  else if w.extractLsb' 5 5 = 7#5 then if w.extractLsb' 2 3 = 0#3 ∧ w.extractLsb' 1 1 = 0#1 ∧ w.extractLsb' 0 1 = 0#1 then checked (.vxor (w.getLsbD 31) (w.extractLsb' 21 4) (w.extractLsb' 17 4) (w.extractLsb' 13 4) (w.extractLsb' 11 2) (w.getLsbD 10)) else .error .reservedField
  else if w.extractLsb' 5 5 = 8#5 then if w.extractLsb' 2 3 = 0#3 ∧ w.extractLsb' 1 1 = 0#1 ∧ w.extractLsb' 0 1 = 0#1 then checked (.vsll (w.getLsbD 31) (w.extractLsb' 21 4) (w.extractLsb' 17 4) (w.extractLsb' 13 4) (w.extractLsb' 11 2) (w.getLsbD 10)) else .error .reservedField
  else if w.extractLsb' 5 5 = 9#5 then if w.extractLsb' 2 3 = 0#3 ∧ w.extractLsb' 1 1 = 0#1 ∧ w.extractLsb' 0 1 = 0#1 then checked (.vsrl (w.getLsbD 31) (w.extractLsb' 21 4) (w.extractLsb' 17 4) (w.extractLsb' 13 4) (w.extractLsb' 11 2) (w.getLsbD 10)) else .error .reservedField
  else if w.extractLsb' 5 5 = 10#5 then if w.extractLsb' 2 3 = 0#3 ∧ w.extractLsb' 1 1 = 0#1 ∧ w.extractLsb' 0 1 = 0#1 then checked (.vsra (w.getLsbD 31) (w.extractLsb' 21 4) (w.extractLsb' 17 4) (w.extractLsb' 13 4) (w.extractLsb' 11 2) (w.getLsbD 10)) else .error .reservedField
  else if w.extractLsb' 5 5 = 11#5 then if w.extractLsb' 23 2 = 0#2 ∧ w.extractLsb' 10 1 = 0#1 ∧ w.extractLsb' 1 1 = 0#1 then checked (.vcmp (w.getLsbD 31) (w.extractLsb' 21 2) (w.extractLsb' 17 4) (w.extractLsb' 13 4) (w.extractLsb' 11 2) (w.extractLsb' 2 3) (w.getLsbD 0)) else .error .reservedField
  else .error .noFunction

/-- Major 0x2B (R82): VFADD, VFSUB, VFMUL, VFFMA, VFMIN, VFMAX, VFCMP, VFDIV. -/
def decodeMajor2B (w : BitVec 32) : Except DecodeError Instr :=
  if w.extractLsb' 5 5 = 0#5 then if w.extractLsb' 0 1 = 0#1 then checked (.vfadd (w.getLsbD 31) (w.extractLsb' 21 4) (w.extractLsb' 17 4) (w.extractLsb' 13 4) (w.extractLsb' 11 2) (w.getLsbD 10) (w.getLsbD 4) (w.extractLsb' 1 3)) else .error .reservedField
  else if w.extractLsb' 5 5 = 1#5 then if w.extractLsb' 0 1 = 0#1 then checked (.vfsub (w.getLsbD 31) (w.extractLsb' 21 4) (w.extractLsb' 17 4) (w.extractLsb' 13 4) (w.extractLsb' 11 2) (w.getLsbD 10) (w.getLsbD 4) (w.extractLsb' 1 3)) else .error .reservedField
  else if w.extractLsb' 5 5 = 2#5 then if w.extractLsb' 0 1 = 0#1 then checked (.vfmul (w.getLsbD 31) (w.extractLsb' 21 4) (w.extractLsb' 17 4) (w.extractLsb' 13 4) (w.extractLsb' 11 2) (w.getLsbD 10) (w.getLsbD 4) (w.extractLsb' 1 3)) else .error .reservedField
  else if w.extractLsb' 5 5 = 3#5 then if w.extractLsb' 0 1 = 0#1 then checked (.vffma (w.getLsbD 31) (w.extractLsb' 21 4) (w.extractLsb' 17 4) (w.extractLsb' 13 4) (w.extractLsb' 11 2) (w.getLsbD 10) (w.getLsbD 4) (w.extractLsb' 1 3)) else .error .reservedField
  else if w.extractLsb' 5 5 = 4#5 then if w.extractLsb' 1 3 = 0#3 ∧ w.extractLsb' 0 1 = 0#1 then checked (.vfmin (w.getLsbD 31) (w.extractLsb' 21 4) (w.extractLsb' 17 4) (w.extractLsb' 13 4) (w.extractLsb' 11 2) (w.getLsbD 10) (w.getLsbD 4)) else .error .reservedField
  else if w.extractLsb' 5 5 = 5#5 then if w.extractLsb' 1 3 = 0#3 ∧ w.extractLsb' 0 1 = 0#1 then checked (.vfmax (w.getLsbD 31) (w.extractLsb' 21 4) (w.extractLsb' 17 4) (w.extractLsb' 13 4) (w.extractLsb' 11 2) (w.getLsbD 10) (w.getLsbD 4)) else .error .reservedField
  else if w.extractLsb' 5 5 = 6#5 then if w.extractLsb' 23 2 = 0#2 ∧ w.extractLsb' 10 1 = 0#1 ∧ w.extractLsb' 4 1 = 0#1 ∧ w.extractLsb' 0 1 = 0#1 then checked (.vfcmp (w.getLsbD 31) (w.extractLsb' 21 2) (w.extractLsb' 17 4) (w.extractLsb' 13 4) (w.extractLsb' 11 2) (w.extractLsb' 1 3)) else .error .reservedField
  else if w.extractLsb' 5 5 = 7#5 then if w.extractLsb' 0 1 = 0#1 then checked (.vfdiv (w.getLsbD 31) (w.extractLsb' 21 4) (w.extractLsb' 17 4) (w.extractLsb' 13 4) (w.extractLsb' 11 2) (w.getLsbD 10) (w.getLsbD 4) (w.extractLsb' 1 3)) else .error .reservedField
  else .error .noFunction

/-- Major 0x2C (R82): VSEL, VPERM, VBCAST, VEXTR, VINS, VRED, VCVT, VSFU, VIOTA. -/
def decodeMajor2C (w : BitVec 32) : Except DecodeError Instr :=
  if w.extractLsb' 5 5 = 0#5 then if w.extractLsb' 4 1 = 0#1 ∧ w.extractLsb' 3 1 = 0#1 ∧ w.extractLsb' 2 1 = 0#1 ∧ w.extractLsb' 0 2 = 0#2 then checked (.vsel (w.getLsbD 31) (w.extractLsb' 21 4) (w.extractLsb' 17 4) (w.extractLsb' 13 4) (w.extractLsb' 11 2) (w.getLsbD 10)) else .error .reservedField
  else if w.extractLsb' 5 5 = 1#5 then if w.extractLsb' 4 1 = 0#1 ∧ w.extractLsb' 3 1 = 0#1 ∧ w.extractLsb' 2 1 = 0#1 ∧ w.extractLsb' 0 2 = 0#2 then checked (.vperm (w.getLsbD 31) (w.extractLsb' 21 4) (w.extractLsb' 17 4) (w.extractLsb' 13 4) (w.extractLsb' 11 2) (w.getLsbD 10)) else .error .reservedField
  else if w.extractLsb' 5 5 = 2#5 then if w.extractLsb' 13 4 = 0#4 ∧ w.extractLsb' 3 1 = 0#1 ∧ w.extractLsb' 2 1 = 0#1 ∧ w.extractLsb' 0 2 = 0#2 then checked (.vbcast (w.getLsbD 31) (w.extractLsb' 21 4) (w.extractLsb' 17 4) (w.extractLsb' 11 2) (w.getLsbD 10) (w.getLsbD 4)) else .error .reservedField
  else if w.extractLsb' 5 5 = 3#5 then if w.extractLsb' 11 2 = 0#2 ∧ w.extractLsb' 0 2 = 0#2 then checked (.vextr (w.getLsbD 31) (w.extractLsb' 21 4) (w.extractLsb' 17 4) (w.extractLsb' 13 4) (w.getLsbD 10) (w.getLsbD 4) (w.getLsbD 3) (w.getLsbD 2)) else .error .reservedField
  else if w.extractLsb' 5 5 = 4#5 then if w.extractLsb' 11 2 = 0#2 ∧ w.extractLsb' 2 1 = 0#1 ∧ w.extractLsb' 0 2 = 0#2 then checked (.vins (w.getLsbD 31) (w.extractLsb' 21 4) (w.extractLsb' 17 4) (w.extractLsb' 13 4) (w.getLsbD 10) (w.getLsbD 4) (w.getLsbD 3)) else .error .reservedField
  else if w.extractLsb' 5 5 = 5#5 then if w.extractLsb' 13 4 = 0#4 then checked (.vred (w.getLsbD 31) (w.extractLsb' 21 4) (w.extractLsb' 17 4) (w.extractLsb' 11 2) (w.getLsbD 10) (w.extractLsb' 0 5)) else .error .reservedField
  else if w.extractLsb' 5 5 = 6#5 then checked (.vcvt (w.getLsbD 31) (w.extractLsb' 21 4) (w.extractLsb' 17 4) (w.extractLsb' 13 4) (w.extractLsb' 11 2) (w.extractLsb' 10 1 ++ w.extractLsb' 2 3) (w.extractLsb' 0 2))
  else if w.extractLsb' 5 5 = 7#5 then if w.extractLsb' 13 4 = 0#4 ∧ w.extractLsb' 10 1 = 0#1 ∧ w.extractLsb' 0 2 = 0#2 then checked (.vsfu (w.getLsbD 31) (w.extractLsb' 21 4) (w.extractLsb' 17 4) (w.extractLsb' 11 2) (w.extractLsb' 2 3)) else .error .reservedField
  else if w.extractLsb' 5 5 = 8#5 then if w.extractLsb' 17 4 = 0#4 ∧ w.extractLsb' 13 4 = 0#4 ∧ w.extractLsb' 4 1 = 0#1 ∧ w.extractLsb' 3 1 = 0#1 ∧ w.extractLsb' 2 1 = 0#1 ∧ w.extractLsb' 0 2 = 0#2 then checked (.viota (w.getLsbD 31) (w.extractLsb' 21 4) (w.extractLsb' 11 2) (w.getLsbD 10)) else .error .reservedField
  else .error .noFunction

/-- Major 0x2D (R82): KAND, KOR, KXOR, KNOT, KMOV_KK, KMOV_KG, KMOV_GK, KPOPC, KMOV_GPW, KMOV_PWG. -/
def decodeMajor2D (w : BitVec 32) : Except DecodeError Instr :=
  if w.extractLsb' 0 10 = 0#10 then if w.extractLsb' 22 3 = 0#3 ∧ w.extractLsb' 17 3 = 0#3 ∧ w.extractLsb' 12 3 = 0#3 then checked (.kand (w.getLsbD 31) (w.extractLsb' 20 2) (w.extractLsb' 15 2) (w.extractLsb' 10 2)) else .error .reservedField
  else if w.extractLsb' 0 10 = 1#10 then if w.extractLsb' 22 3 = 0#3 ∧ w.extractLsb' 17 3 = 0#3 ∧ w.extractLsb' 12 3 = 0#3 then checked (.kor (w.getLsbD 31) (w.extractLsb' 20 2) (w.extractLsb' 15 2) (w.extractLsb' 10 2)) else .error .reservedField
  else if w.extractLsb' 0 10 = 2#10 then if w.extractLsb' 22 3 = 0#3 ∧ w.extractLsb' 17 3 = 0#3 ∧ w.extractLsb' 12 3 = 0#3 then checked (.kxor (w.getLsbD 31) (w.extractLsb' 20 2) (w.extractLsb' 15 2) (w.extractLsb' 10 2)) else .error .reservedField
  else if w.extractLsb' 0 10 = 3#10 then if w.extractLsb' 22 3 = 0#3 ∧ w.extractLsb' 17 3 = 0#3 ∧ w.extractLsb' 12 3 = 0#3 ∧ w.extractLsb' 10 2 = 0#2 then checked (.knot (w.getLsbD 31) (w.extractLsb' 20 2) (w.extractLsb' 15 2)) else .error .reservedField
  else if w.extractLsb' 0 10 = 4#10 then if w.extractLsb' 22 3 = 0#3 ∧ w.extractLsb' 17 3 = 0#3 ∧ w.extractLsb' 12 3 = 0#3 ∧ w.extractLsb' 10 2 = 0#2 then checked (.kmovKk (w.getLsbD 31) (w.extractLsb' 20 2) (w.extractLsb' 15 2)) else .error .reservedField
  else if w.extractLsb' 0 10 = 5#10 then if w.extractLsb' 22 3 = 0#3 ∧ w.extractLsb' 12 3 = 0#3 ∧ w.extractLsb' 10 2 = 0#2 then checked (.kmovKg (w.getLsbD 31) (w.extractLsb' 20 2) (w.extractLsb' 15 5)) else .error .reservedField
  else if w.extractLsb' 0 10 = 6#10 then if w.extractLsb' 17 3 = 0#3 ∧ w.extractLsb' 12 3 = 0#3 ∧ w.extractLsb' 10 2 = 0#2 then checked (.kmovGk (w.getLsbD 31) (w.extractLsb' 20 5) (w.extractLsb' 15 2)) else .error .reservedField
  else if w.extractLsb' 0 10 = 7#10 then if w.extractLsb' 17 3 = 0#3 ∧ w.extractLsb' 12 3 = 0#3 ∧ w.extractLsb' 10 2 = 0#2 then checked (.kpopc (w.getLsbD 31) (w.extractLsb' 20 5) (w.extractLsb' 15 2)) else .error .reservedField
  else if w.extractLsb' 0 10 = 8#10 then if w.extractLsb' 17 3 = 0#3 ∧ w.extractLsb' 15 2 = 0#2 ∧ w.extractLsb' 12 3 = 0#3 ∧ w.extractLsb' 10 2 = 0#2 then checked (.kmovGpw (w.getLsbD 31) (w.extractLsb' 20 5)) else .error .reservedField
  else if w.extractLsb' 0 10 = 9#10 then if w.extractLsb' 22 3 = 0#3 ∧ w.extractLsb' 20 2 = 0#2 ∧ w.extractLsb' 12 3 = 0#3 ∧ w.extractLsb' 10 2 = 0#2 then checked (.kmovPwg (w.getLsbD 31) (w.extractLsb' 15 5)) else .error .reservedField
  else .error .noFunction

/-- Major 0x2E (R82): SPAWN, MIGR, EXIT, JOIN, YIELD, SETPRIO. -/
def decodeMajor2E (w : BitVec 32) : Except DecodeError Instr :=
  if w.extractLsb' 7 3 = 0#3 then if w.extractLsb' 0 3 = 0#3 then checked (.spawn (w.getLsbD 31) (w.extractLsb' 20 5) (w.extractLsb' 15 5) (w.extractLsb' 10 5) (w.getLsbD 6) (w.extractLsb' 3 3)) else .error .reservedField
  else if w.extractLsb' 7 3 = 1#3 then if w.extractLsb' 20 5 = 0#5 ∧ w.extractLsb' 10 5 = 0#5 ∧ w.extractLsb' 6 1 = 0#1 ∧ w.extractLsb' 0 3 = 0#3 then checked (.migr (w.getLsbD 31) (w.extractLsb' 15 5) (w.extractLsb' 3 3)) else .error .reservedField
  else if w.extractLsb' 7 3 = 2#3 then if w.extractLsb' 20 5 = 0#5 ∧ w.extractLsb' 10 5 = 0#5 ∧ w.extractLsb' 6 1 = 0#1 ∧ w.extractLsb' 3 3 = 0#3 ∧ w.extractLsb' 0 3 = 0#3 then checked (.exit (w.getLsbD 31) (w.extractLsb' 15 5)) else .error .reservedField
  else if w.extractLsb' 7 3 = 3#3 then if w.extractLsb' 10 5 = 0#5 ∧ w.extractLsb' 6 1 = 0#1 ∧ w.extractLsb' 3 3 = 0#3 ∧ w.extractLsb' 0 3 = 0#3 then checked (.join (w.getLsbD 31) (w.extractLsb' 20 5) (w.extractLsb' 15 5)) else .error .reservedField
  else if w.extractLsb' 7 3 = 4#3 then if w.extractLsb' 20 5 = 0#5 ∧ w.extractLsb' 15 5 = 0#5 ∧ w.extractLsb' 10 5 = 0#5 ∧ w.extractLsb' 6 1 = 0#1 ∧ w.extractLsb' 3 3 = 0#3 ∧ w.extractLsb' 0 3 = 0#3 then checked (.yield (w.getLsbD 31)) else .error .reservedField
  else if w.extractLsb' 7 3 = 5#3 then if w.extractLsb' 20 5 = 0#5 ∧ w.extractLsb' 10 5 = 0#5 ∧ w.extractLsb' 6 1 = 0#1 ∧ w.extractLsb' 3 3 = 0#3 ∧ w.extractLsb' 0 3 = 0#3 then checked (.setprio (w.getLsbD 31) (w.extractLsb' 15 5)) else .error .reservedField
  else .error .noFunction

/-- Major 0x2F (R82): RKNEW, RKJOIN, RKLEAVE, RKFREE, BAR, BARSTAT, RKFIX. -/
def decodeMajor2F (w : BitVec 32) : Except DecodeError Instr :=
  if w.extractLsb' 6 4 = 0#4 then if w.extractLsb' 15 5 = 0#5 ∧ w.extractLsb' 10 5 = 0#5 ∧ w.extractLsb' 1 5 = 0#5 then checked (.rknew (w.getLsbD 31) (w.extractLsb' 20 5) (w.getLsbD 0)) else .error .reservedField
  else if w.extractLsb' 6 4 = 2#4 then if w.extractLsb' 20 5 = 0#5 ∧ w.extractLsb' 1 5 = 0#5 ∧ w.extractLsb' 0 1 = 0#1 then checked (.rkjoin (w.getLsbD 31) (w.extractLsb' 15 5) (w.extractLsb' 10 5)) else .error .reservedField
  else if w.extractLsb' 6 4 = 4#4 then if w.extractLsb' 20 5 = 0#5 ∧ w.extractLsb' 10 5 = 0#5 ∧ w.extractLsb' 1 5 = 0#5 ∧ w.extractLsb' 0 1 = 0#1 then checked (.rkleave (w.getLsbD 31) (w.extractLsb' 15 5)) else .error .reservedField
  else if w.extractLsb' 6 4 = 6#4 then if w.extractLsb' 20 5 = 0#5 ∧ w.extractLsb' 10 5 = 0#5 ∧ w.extractLsb' 1 5 = 0#5 ∧ w.extractLsb' 0 1 = 0#1 then checked (.rkfree (w.getLsbD 31) (w.extractLsb' 15 5)) else .error .reservedField
  else if w.extractLsb' 6 4 = 8#4 then if w.extractLsb' 10 5 = 0#5 then checked (.bar (w.getLsbD 31) (w.extractLsb' 20 5) (w.extractLsb' 15 5) (w.extractLsb' 0 6)) else .error .reservedField
  else if w.extractLsb' 6 4 = 10#4 then if w.extractLsb' 10 5 = 0#5 ∧ w.extractLsb' 1 5 = 0#5 then checked (.barstat (w.getLsbD 31) (w.extractLsb' 20 5) (w.extractLsb' 15 5) (w.getLsbD 0)) else .error .reservedField
  else if w.extractLsb' 6 4 = 11#4 then if w.extractLsb' 10 5 = 0#5 ∧ w.extractLsb' 1 5 = 0#5 then checked (.rkfix (w.getLsbD 31) (w.extractLsb' 20 5) (w.extractLsb' 15 5) (w.getLsbD 0)) else .error .reservedField
  else .error .noFunction

/-- Major 0x30 (R82): MONARM, MONCLR, MONWAIT, SEND, SEND_HOST, RECV. -/
def decodeMajor30 (w : BitVec 32) : Except DecodeError Instr :=
  if w.extractLsb' 6 4 = 0#4 then if w.extractLsb' 20 5 = 0#5 ∧ w.extractLsb' 10 5 = 0#5 ∧ w.extractLsb' 2 1 = 0#1 then checked (.monarm (w.getLsbD 31) (w.extractLsb' 15 5) (w.extractLsb' 3 3) (w.extractLsb' 0 2)) else .error .reservedField
  else if w.extractLsb' 6 4 = 2#4 then if w.extractLsb' 20 5 = 0#5 ∧ w.extractLsb' 15 5 = 0#5 ∧ w.extractLsb' 10 5 = 0#5 ∧ w.extractLsb' 3 3 = 0#3 then checked (.monclr (w.getLsbD 31) (w.getLsbD 2) (w.extractLsb' 0 2)) else .error .reservedField
  else if w.extractLsb' 6 4 = 4#4 then if w.extractLsb' 10 5 = 0#5 ∧ w.extractLsb' 3 3 = 0#3 ∧ w.extractLsb' 2 1 = 0#1 ∧ w.extractLsb' 1 1 = 0#1 ∧ w.extractLsb' 0 1 = 0#1 then checked (.monwait (w.getLsbD 31) (w.extractLsb' 20 5) (w.extractLsb' 15 5)) else .error .reservedField
  else if w.extractLsb' 6 4 = 6#4 then if w.extractLsb' 3 3 = 0#3 ∧ w.extractLsb' 2 1 = 0#1 then checked (.send (w.getLsbD 31) (w.extractLsb' 20 5) (w.extractLsb' 15 5) (w.extractLsb' 10 5) (w.extractLsb' 0 2)) else .error .reservedField
  else if w.extractLsb' 6 4 = 7#4 then if w.extractLsb' 3 3 = 0#3 ∧ w.extractLsb' 2 1 = 0#1 then checked (.sendHost (w.getLsbD 31) (w.extractLsb' 20 5) (w.extractLsb' 15 5) (w.extractLsb' 10 5) (w.extractLsb' 0 2)) else .error .reservedField
  else if w.extractLsb' 6 4 = 8#4 then if w.extractLsb' 15 5 = 0#5 ∧ w.extractLsb' 10 5 = 0#5 ∧ w.extractLsb' 3 3 = 0#3 ∧ w.extractLsb' 2 1 = 0#1 ∧ w.extractLsb' 1 1 = 0#1 then checked (.recv (w.getLsbD 31) (w.extractLsb' 20 5) (w.getLsbD 0)) else .error .reservedField
  else .error .noFunction

/-- Major 0x31 (R82): MXCFG, MXCFG_FD, MXSCL, TFULL, TEMPTY, TSTAT. -/
def decodeMajor31 (w : BitVec 32) : Except DecodeError Instr :=
  if w.extractLsb' 5 5 = 0#5 then if w.extractLsb' 20 5 = 0#5 ∧ w.extractLsb' 4 1 = 0#1 ∧ w.extractLsb' 3 1 = 0#1 ∧ w.extractLsb' 2 1 = 0#1 ∧ w.extractLsb' 0 2 = 0#2 then checked (.mxcfg (w.getLsbD 31) (w.extractLsb' 15 5) (w.extractLsb' 10 5)) else .error .reservedField
  else if w.extractLsb' 5 5 = 1#5 then if w.extractLsb' 20 5 = 0#5 ∧ w.extractLsb' 15 5 = 0#5 ∧ w.extractLsb' 4 1 = 0#1 ∧ w.extractLsb' 3 1 = 0#1 then checked (.mxcfgFd (w.getLsbD 31) (w.extractLsb' 10 5) (w.extractLsb' 0 3)) else .error .reservedField
  else if w.extractLsb' 5 5 = 2#5 then if w.extractLsb' 20 5 = 0#5 then checked (.mxscl (w.getLsbD 31) (w.extractLsb' 15 5) (w.extractLsb' 10 5) (w.extractLsb' 0 5)) else .error .reservedField
  else if w.extractLsb' 5 5 = 3#5 then if w.extractLsb' 10 5 = 0#5 ∧ w.extractLsb' 4 1 = 0#1 then checked (.tfull (w.getLsbD 31) (w.extractLsb' 20 5) (w.extractLsb' 15 5) (w.extractLsb' 0 4)) else .error .reservedField
  else if w.extractLsb' 5 5 = 4#5 then if w.extractLsb' 15 5 = 0#5 ∧ w.extractLsb' 10 5 = 0#5 ∧ w.extractLsb' 4 1 = 0#1 then checked (.tempty (w.getLsbD 31) (w.extractLsb' 20 5) (w.extractLsb' 0 4)) else .error .reservedField
  else if w.extractLsb' 5 5 = 5#5 then if w.extractLsb' 10 5 = 0#5 ∧ w.extractLsb' 4 1 = 0#1 ∧ w.extractLsb' 3 1 = 0#1 then checked (.tstat (w.getLsbD 31) (w.extractLsb' 20 5) (w.extractLsb' 15 5) (w.getLsbD 2) (w.extractLsb' 0 2)) else .error .reservedField
  else .error .noFunction

/-- Major 0x32 (R82): CPY, CPYX, CPYWP, STRBIND, STRUNB. -/
def decodeMajor32 (w : BitVec 32) : Except DecodeError Instr :=
  if w.extractLsb' 7 8 = 0#8 then if w.extractLsb' 4 3 = 0#3 ∧ w.extractLsb' 3 1 = 0#1 then checked (.cpy (w.getLsbD 31) (w.extractLsb' 20 5) (w.extractLsb' 15 5) (w.extractLsb' 0 3)) else .error .reservedField
  else if w.extractLsb' 7 8 = 1#8 then if w.extractLsb' 4 3 = 0#3 ∧ w.extractLsb' 3 1 = 0#1 then checked (.cpyx (w.getLsbD 31) (w.extractLsb' 20 5) (w.extractLsb' 15 5) (w.extractLsb' 0 3)) else .error .reservedField
  else if w.extractLsb' 7 8 = 2#8 then if w.extractLsb' 4 3 = 0#3 ∧ w.extractLsb' 3 1 = 0#1 then checked (.cpywp (w.getLsbD 31) (w.extractLsb' 20 5) (w.extractLsb' 15 5) (w.extractLsb' 0 3)) else .error .reservedField
  else if w.extractLsb' 7 8 = 3#8 then if w.extractLsb' 20 5 = 0#5 ∧ w.extractLsb' 3 1 = 0#1 ∧ w.extractLsb' 0 3 = 0#3 then checked (.strbind (w.getLsbD 31) (w.extractLsb' 15 5) (w.extractLsb' 4 3)) else .error .reservedField
  else if w.extractLsb' 7 8 = 4#8 then if w.extractLsb' 20 5 = 0#5 ∧ w.extractLsb' 15 5 = 0#5 ∧ w.extractLsb' 3 1 = 0#1 ∧ w.extractLsb' 0 3 = 0#3 then checked (.strunb (w.getLsbD 31) (w.extractLsb' 4 3)) else .error .reservedField
  else .error .noFunction

/-- Major 0x33 (R82): IGLOAD, IGSTART, IGSTAT. -/
def decodeMajor33 (w : BitVec 32) : Except DecodeError Instr :=
  if w.extractLsb' 7 3 = 0#3 then if w.extractLsb' 20 5 = 0#5 ∧ w.extractLsb' 10 5 = 0#5 ∧ w.extractLsb' 2 2 = 0#2 ∧ w.extractLsb' 1 1 = 0#1 then checked (.igload (w.getLsbD 31) (w.extractLsb' 15 5) (w.extractLsb' 4 3) (w.getLsbD 0)) else .error .reservedField
  else if w.extractLsb' 7 3 = 2#3 then if w.extractLsb' 20 5 = 0#5 ∧ w.extractLsb' 4 3 = 0#3 ∧ w.extractLsb' 2 2 = 0#2 ∧ w.extractLsb' 1 1 = 0#1 then checked (.igstart (w.getLsbD 31) (w.extractLsb' 15 5) (w.extractLsb' 10 5) (w.getLsbD 0)) else .error .reservedField
  else if w.extractLsb' 7 3 = 4#3 then if w.extractLsb' 10 5 = 0#5 ∧ w.extractLsb' 4 3 = 0#3 ∧ w.extractLsb' 1 1 = 0#1 then checked (.igstat (w.getLsbD 31) (w.extractLsb' 20 5) (w.extractLsb' 15 5) (w.extractLsb' 2 2) (w.getLsbD 0)) else .error .reservedField
  else .error .noFunction

/-- Major 0x34 (R82): SBWR, SBRD, SBCOMMIT, TGET, TDONE, TRET. -/
def decodeMajor34 (w : BitVec 32) : Except DecodeError Instr :=
  if w.extractLsb' 7 3 = 0#3 then if w.extractLsb' 20 5 = 0#5 then checked (.sbwr (w.getLsbD 31) (w.extractLsb' 15 5) (w.extractLsb' 10 5) (w.extractLsb' 3 4) (w.extractLsb' 0 3)) else .error .reservedField
  else if w.extractLsb' 7 3 = 1#3 then if w.extractLsb' 10 5 = 0#5 then checked (.sbrd (w.getLsbD 31) (w.extractLsb' 20 5) (w.extractLsb' 15 5) (w.extractLsb' 3 4) (w.extractLsb' 0 3)) else .error .reservedField
  else if w.extractLsb' 7 3 = 2#3 then if w.extractLsb' 10 5 = 0#5 ∧ w.extractLsb' 3 4 = 0#4 then checked (.sbcommit (w.getLsbD 31) (w.extractLsb' 20 5) (w.extractLsb' 15 5) (w.extractLsb' 0 3)) else .error .reservedField
  else if w.extractLsb' 7 3 = 3#3 then if w.extractLsb' 20 5 = 0#5 ∧ w.extractLsb' 10 5 = 0#5 ∧ w.extractLsb' 3 4 = 0#4 then checked (.tget (w.getLsbD 31) (w.extractLsb' 15 5) (w.extractLsb' 0 3)) else .error .reservedField
  else if w.extractLsb' 7 3 = 4#3 then if w.extractLsb' 3 4 = 0#4 ∧ w.extractLsb' 0 3 = 0#3 then checked (.tdone (w.getLsbD 31) (w.extractLsb' 20 5) (w.extractLsb' 15 5) (w.extractLsb' 10 5)) else .error .reservedField
  else if w.extractLsb' 7 3 = 5#3 then if w.extractLsb' 3 4 = 0#4 ∧ w.extractLsb' 0 3 = 0#3 then checked (.tret (w.getLsbD 31) (w.extractLsb' 20 5) (w.extractLsb' 15 5) (w.extractLsb' 10 5)) else .error .reservedField
  else .error .noFunction

/-- Major 0x35 (R82): COLLRED, COLLBC, COLLSTAT. -/
def decodeMajor35 (w : BitVec 32) : Except DecodeError Instr :=
  if w.extractLsb' 0 15 = 0#15 then if w.extractLsb' 20 5 = 0#5 then checked (.collred (w.getLsbD 31) (w.extractLsb' 15 5)) else .error .reservedField
  else if w.extractLsb' 0 15 = 256#15 then if w.extractLsb' 20 5 = 0#5 then checked (.collbc (w.getLsbD 31) (w.extractLsb' 15 5)) else .error .reservedField
  else if w.extractLsb' 0 15 = 512#15 then checked (.collstat (w.getLsbD 31) (w.extractLsb' 20 5) (w.extractLsb' 15 5))
  else .error .noFunction

/-- Major 0x36 (R82): TRAP, ERET, CRR, CRW, SEGSET, SEGGET, TLBINV, TLBINV_ALL, REPLAY. -/
def decodeMajor36 (w : BitVec 32) : Except DecodeError Instr :=
  if w.extractLsb' 12 3 = 0#3 then if w.extractLsb' 20 5 = 0#5 ∧ w.extractLsb' 15 5 = 0#5 then checked (.trap (w.getLsbD 31) (w.extractLsb' 0 12)) else .error .reservedField
  else if w.extractLsb' 12 3 = 1#3 then if w.extractLsb' 20 5 = 0#5 ∧ w.extractLsb' 15 5 = 0#5 ∧ w.extractLsb' 11 1 = 0#1 ∧ w.extractLsb' 9 2 = 0#2 ∧ w.extractLsb' 4 5 = 0#5 ∧ w.extractLsb' 3 1 = 0#1 ∧ w.extractLsb' 0 3 = 0#3 then checked (.eret (w.getLsbD 31)) else .error .reservedField
  else if w.extractLsb' 12 3 = 2#3 then if w.extractLsb' 15 5 = 0#5 then checked (.crr (w.getLsbD 31) (w.extractLsb' 20 5) (w.extractLsb' 0 12)) else .error .reservedField
  else if w.extractLsb' 12 3 = 3#3 then if w.extractLsb' 20 5 = 0#5 then checked (.crw (w.getLsbD 31) (w.extractLsb' 15 5) (w.extractLsb' 0 12)) else .error .reservedField
  else if w.extractLsb' 12 3 = 4#3 then if w.extractLsb' 20 5 = 0#5 ∧ w.extractLsb' 11 1 = 0#1 ∧ w.extractLsb' 9 2 = 0#2 ∧ w.extractLsb' 4 5 = 0#5 ∧ w.extractLsb' 3 1 = 0#1 then checked (.segset (w.getLsbD 31) (w.extractLsb' 15 5) (w.extractLsb' 0 3)) else .error .reservedField
  else if w.extractLsb' 12 3 = 5#3 then if w.extractLsb' 15 5 = 0#5 ∧ w.extractLsb' 11 1 = 0#1 ∧ w.extractLsb' 9 2 = 0#2 ∧ w.extractLsb' 4 5 = 0#5 then checked (.segget (w.getLsbD 31) (w.extractLsb' 20 5) (w.getLsbD 3) (w.extractLsb' 0 3)) else .error .reservedField
  else if w.extractLsb' 12 3 = 6#3 ∧ w.extractLsb' 11 1 = 0#1 then if w.extractLsb' 20 5 = 0#5 then checked (.tlbinv (w.getLsbD 31) (w.extractLsb' 15 5) (w.extractLsb' 9 2) (w.extractLsb' 0 9)) else .error .reservedField
  else if w.extractLsb' 12 3 = 6#3 then if w.extractLsb' 20 5 = 0#5 ∧ w.extractLsb' 15 5 = 0#5 ∧ w.extractLsb' 11 1 = 1#1 ∧ w.extractLsb' 9 2 = 0#2 ∧ w.extractLsb' 4 5 = 0#5 ∧ w.extractLsb' 3 1 = 0#1 ∧ w.extractLsb' 0 3 = 0#3 then checked (.tlbinvAll (w.getLsbD 31)) else .error .reservedField
  else if w.extractLsb' 12 3 = 7#3 then if w.extractLsb' 15 5 = 0#5 ∧ w.extractLsb' 11 1 = 0#1 ∧ w.extractLsb' 9 2 = 0#2 ∧ w.extractLsb' 4 5 = 0#5 ∧ w.extractLsb' 3 1 = 0#1 ∧ w.extractLsb' 0 3 = 0#3 then checked (.replay (w.getLsbD 31) (w.extractLsb' 20 5)) else .error .reservedField
  else .error .noFunction

/-- Major 0x37 (R82): CTXSV, CTXLD, RQPUSH, RQPOP, RQPOP_ID, RQPOP_KILL, RQPEEK. -/
def decodeMajor37 (w : BitVec 32) : Except DecodeError Instr :=
  if w.extractLsb' 7 3 = 0#3 ∧ w.extractLsb' 0 4 = 0#4 then checked (.ctxsv (w.getLsbD 31) (w.extractLsb' 20 5) (w.extractLsb' 15 5) (w.extractLsb' 10 5) (w.extractLsb' 4 3))
  else if w.extractLsb' 7 3 = 1#3 ∧ w.extractLsb' 0 4 = 0#4 then checked (.ctxld (w.getLsbD 31) (w.extractLsb' 20 5) (w.extractLsb' 15 5) (w.extractLsb' 10 5) (w.extractLsb' 4 3))
  else if w.extractLsb' 7 3 = 2#3 ∧ w.extractLsb' 0 4 = 0#4 then if w.extractLsb' 4 3 = 0#3 then checked (.rqpush (w.getLsbD 31) (w.extractLsb' 20 5) (w.extractLsb' 15 5) (w.extractLsb' 10 5)) else .error .reservedField
  else if w.extractLsb' 7 3 = 3#3 ∧ w.extractLsb' 0 4 = 0#4 then if w.extractLsb' 10 5 = 0#5 ∧ w.extractLsb' 4 3 = 0#3 then checked (.rqpop (w.getLsbD 31) (w.extractLsb' 20 5) (w.extractLsb' 15 5)) else .error .reservedField
  else if w.extractLsb' 7 3 = 3#3 ∧ w.extractLsb' 0 4 = 8#4 then if w.extractLsb' 10 5 = 0#5 ∧ w.extractLsb' 4 3 = 0#3 then checked (.rqpopId (w.getLsbD 31) (w.extractLsb' 20 5) (w.extractLsb' 15 5)) else .error .reservedField
  else if w.extractLsb' 7 3 = 3#3 ∧ w.extractLsb' 0 4 = 12#4 then if w.extractLsb' 10 5 = 0#5 ∧ w.extractLsb' 4 3 = 0#3 then checked (.rqpopKill (w.getLsbD 31) (w.extractLsb' 20 5) (w.extractLsb' 15 5)) else .error .reservedField
  else if w.extractLsb' 7 3 = 4#3 ∧ w.extractLsb' 0 4 = 0#4 then if w.extractLsb' 10 5 = 0#5 ∧ w.extractLsb' 4 3 = 0#3 then checked (.rqpeek (w.getLsbD 31) (w.extractLsb' 20 5) (w.extractLsb' 15 5)) else .error .reservedField
  else .error .noFunction

/-- Major 0x38 (R82): PFI, PFI_RF, PFD, CLEAN, INVAL. -/
def decodeMajor38 (w : BitVec 32) : Except DecodeError Instr :=
  if w.extractLsb' 6 4 = 0#4 ∧ w.extractLsb' 0 3 = 0#3 then if w.extractLsb' 20 5 = 0#5 ∧ w.extractLsb' 3 3 = 0#3 then checked (.pfi (w.getLsbD 31) (w.extractLsb' 15 5) (w.extractLsb' 10 5)) else .error .reservedField
  else if w.extractLsb' 6 4 = 1#4 ∧ w.extractLsb' 0 3 = 0#3 then if w.extractLsb' 20 5 = 0#5 ∧ w.extractLsb' 3 3 = 0#3 then checked (.pfiRf (w.getLsbD 31) (w.extractLsb' 15 5) (w.extractLsb' 10 5)) else .error .reservedField
  else if w.extractLsb' 6 4 = 0#4 ∧ w.extractLsb' 0 3 = 1#3 then if w.extractLsb' 20 5 = 0#5 then checked (.pfd (w.getLsbD 31) (w.extractLsb' 15 5) (w.extractLsb' 10 5) (w.extractLsb' 3 3)) else .error .reservedField
  else if w.extractLsb' 6 4 = 0#4 ∧ w.extractLsb' 0 3 = 2#3 then if w.extractLsb' 20 5 = 0#5 then checked (.clean (w.getLsbD 31) (w.extractLsb' 15 5) (w.extractLsb' 10 5) (w.extractLsb' 3 3)) else .error .reservedField
  else if w.extractLsb' 6 4 = 0#4 ∧ w.extractLsb' 0 3 = 3#3 then if w.extractLsb' 20 5 = 0#5 then checked (.inval (w.getLsbD 31) (w.extractLsb' 15 5) (w.extractLsb' 10 5) (w.extractLsb' 3 3)) else .error .reservedField
  else .error .noFunction

/-- Major 0x39 (R82): CFGLOAD, CFGFREE, CFGFREEZE, CFGFREEZE_THAW, CFGREAD. -/
def decodeMajor39 (w : BitVec 32) : Except DecodeError Instr :=
  if w.extractLsb' 8 2 = 0#2 ∧ w.extractLsb' 4 1 = 0#1 then if w.extractLsb' 20 5 = 0#5 ∧ w.extractLsb' 10 5 = 0#5 ∧ w.extractLsb' 2 2 = 0#2 ∧ w.extractLsb' 0 2 = 0#2 then checked (.cfgload (w.getLsbD 31) (w.extractLsb' 15 5) (w.extractLsb' 5 3)) else .error .reservedField
  else if w.extractLsb' 8 2 = 1#2 ∧ w.extractLsb' 4 1 = 0#1 then if w.extractLsb' 20 5 = 0#5 ∧ w.extractLsb' 10 5 = 0#5 ∧ w.extractLsb' 5 3 = 0#3 ∧ w.extractLsb' 2 2 = 0#2 ∧ w.extractLsb' 0 2 = 0#2 then checked (.cfgfree (w.getLsbD 31) (w.extractLsb' 15 5)) else .error .reservedField
  else if w.extractLsb' 8 2 = 2#2 ∧ w.extractLsb' 4 1 = 0#1 then if w.extractLsb' 20 5 = 0#5 ∧ w.extractLsb' 2 2 = 0#2 ∧ w.extractLsb' 0 2 = 0#2 then checked (.cfgfreeze (w.getLsbD 31) (w.extractLsb' 15 5) (w.extractLsb' 10 5) (w.extractLsb' 5 3)) else .error .reservedField
  else if w.extractLsb' 8 2 = 2#2 ∧ w.extractLsb' 4 1 = 1#1 then if w.extractLsb' 20 5 = 0#5 ∧ w.extractLsb' 10 5 = 0#5 ∧ w.extractLsb' 5 3 = 0#3 ∧ w.extractLsb' 2 2 = 0#2 ∧ w.extractLsb' 0 2 = 0#2 then checked (.cfgfreezeThaw (w.getLsbD 31) (w.extractLsb' 15 5)) else .error .reservedField
  else if w.extractLsb' 8 2 = 3#2 ∧ w.extractLsb' 4 1 = 0#1 then if w.extractLsb' 10 5 = 0#5 ∧ w.extractLsb' 5 3 = 0#3 ∧ w.extractLsb' 0 2 = 0#2 then checked (.cfgread (w.getLsbD 31) (w.extractLsb' 20 5) (w.extractLsb' 15 5) (w.extractLsb' 2 2)) else .error .reservedField
  else .error .noFunction

/-- The decoder of Porlek words (R80 to R83): total, and every word that is not an instruction is rejected by name. -/
def decodePorlek (w : BitVec 32) : Except DecodeError Instr :=
  let m := w.extractLsb' 25 6
  if m = 1#6 then decodeMajor01 w
  else if m = 2#6 then decodeMajor02 w
  else if m = 3#6 then decodeMajor03 w
  else if m = 4#6 then decodeMajor04 w
  else if m = 5#6 then decodeMajor05 w
  else if m = 6#6 then decodeMajor06 w
  else if m = 7#6 then decodeMajor07 w
  else if m = 8#6 then decodeMajor08 w
  else if m = 9#6 then decodeMajor09 w
  else if m = 10#6 then decodeMajor0A w
  else if m = 11#6 then decodeMajor0B w
  else if m = 12#6 then decodeMajor0C w
  else if m = 13#6 then decodeMajor0D w
  else if m = 14#6 then decodeMajor0E w
  else if m = 15#6 then decodeMajor0F w
  else if m = 16#6 then decodeMajor10 w
  else if m = 17#6 then decodeMajor11 w
  else if m = 18#6 then decodeMajor12 w
  else if m = 19#6 then decodeMajor13 w
  else if m = 20#6 then decodeMajor14 w
  else if m = 21#6 then decodeMajor15 w
  else if m = 22#6 then decodeMajor16 w
  else if m = 23#6 then decodeMajor17 w
  else if m = 24#6 then decodeMajor18 w
  else if m = 25#6 then decodeMajor19 w
  else if m = 26#6 then decodeMajor1A w
  else if m = 27#6 then decodeMajor1B w
  else if m = 28#6 then decodeMajor1C w
  else if m = 29#6 then decodeMajor1D w
  else if m = 30#6 then decodeMajor1E w
  else if m = 31#6 then decodeMajor1F w
  else if m = 32#6 then decodeMajor20 w
  else if m = 33#6 then decodeMajor21 w
  else if m = 34#6 then decodeMajor22 w
  else if m = 35#6 then decodeMajor23 w
  else if m = 36#6 then decodeMajor24 w
  else if m = 37#6 then decodeMajor25 w
  else if m = 38#6 then decodeMajor26 w
  else if m = 39#6 then decodeMajor27 w
  else if m = 40#6 then decodeMajor28 w
  else if m = 41#6 then decodeMajor29 w
  else if m = 42#6 then decodeMajor2A w
  else if m = 43#6 then decodeMajor2B w
  else if m = 44#6 then decodeMajor2C w
  else if m = 45#6 then decodeMajor2D w
  else if m = 46#6 then decodeMajor2E w
  else if m = 47#6 then decodeMajor2F w
  else if m = 48#6 then decodeMajor30 w
  else if m = 49#6 then decodeMajor31 w
  else if m = 50#6 then decodeMajor32 w
  else if m = 51#6 then decodeMajor33 w
  else if m = 52#6 then decodeMajor34 w
  else if m = 53#6 then decodeMajor35 w
  else if m = 54#6 then decodeMajor36 w
  else if m = 55#6 then decodeMajor37 w
  else if m = 56#6 then decodeMajor38 w
  else if m = 57#6 then decodeMajor39 w
  else .error .noMajor

/-- The op field of a Roszon instruction (R113); an op not listed is rejected by name. -/
def decodeOp (op mod : BitVec 8) (d0 d1 imm : BitVec 16) : Except DecodeError RoszonWord :=
  if op = 0x01#8 then checkedOp ⟨.pass, mod, d0, d1, imm⟩
  else if op = 0x02#8 then checkedOp ⟨.iadd, mod, d0, d1, imm⟩
  else if op = 0x03#8 then checkedOp ⟨.isub, mod, d0, d1, imm⟩
  else if op = 0x04#8 then checkedOp ⟨.imul, mod, d0, d1, imm⟩
  else if op = 0x05#8 then checkedOp ⟨.imin, mod, d0, d1, imm⟩
  else if op = 0x06#8 then checkedOp ⟨.imax, mod, d0, d1, imm⟩
  else if op = 0x07#8 then checkedOp ⟨.graphAnd, mod, d0, d1, imm⟩
  else if op = 0x08#8 then checkedOp ⟨.graphOr, mod, d0, d1, imm⟩
  else if op = 0x09#8 then checkedOp ⟨.graphXor, mod, d0, d1, imm⟩
  else if op = 0x0A#8 then checkedOp ⟨.shl, mod, d0, d1, imm⟩
  else if op = 0x0B#8 then checkedOp ⟨.shr, mod, d0, d1, imm⟩
  else if op = 0x0C#8 then checkedOp ⟨.icmp, mod, d0, d1, imm⟩
  else if op = 0x10#8 then checkedOp ⟨.graphFadd, mod, d0, d1, imm⟩
  else if op = 0x11#8 then checkedOp ⟨.graphFmul, mod, d0, d1, imm⟩
  else if op = 0x12#8 then checkedOp ⟨.graphFfma, mod, d0, d1, imm⟩
  else if op = 0x13#8 then checkedOp ⟨.graphFmin, mod, d0, d1, imm⟩
  else if op = 0x14#8 then checkedOp ⟨.graphFmax, mod, d0, d1, imm⟩
  else if op = 0x15#8 then checkedOp ⟨.fcmp, mod, d0, d1, imm⟩
  else if op = 0x16#8 then checkedOp ⟨.sfu, mod, d0, d1, imm⟩
  else if op = 0x17#8 then checkedOp ⟨.cvt, mod, d0, d1, imm⟩
  else if op = 0x18#8 then checkedOp ⟨.scale, mod, d0, d1, imm⟩
  else if op = 0x20#8 then checkedOp ⟨.steer, mod, d0, d1, imm⟩
  else if op = 0x21#8 then checkedOp ⟨.merge, mod, d0, d1, imm⟩
  else if op = 0x22#8 then checkedOp ⟨.carry, mod, d0, d1, imm⟩
  else if op = 0x23#8 then checkedOp ⟨.settag, mod, d0, d1, imm⟩
  else if op = 0x24#8 then checkedOp ⟨.gettag, mod, d0, d1, imm⟩
  else if op = 0x25#8 then checkedOp ⟨.const, mod, d0, d1, imm⟩
  else if op = 0x26#8 then checkedOp ⟨.seq, mod, d0, d1, imm⟩
  else if op = 0x28#8 then checkedOp ⟨.filter, mod, d0, d1, imm⟩
  else if op = 0x29#8 then checkedOp ⟨.coalesce, mod, d0, d1, imm⟩
  else if op = 0x2A#8 then checkedOp ⟨.reduce, mod, d0, d1, imm⟩
  else if op = 0x2B#8 then checkedOp ⟨.rowstat, mod, d0, d1, imm⟩
  else if op = 0x2C#8 then checkedOp ⟨.delay, mod, d0, d1, imm⟩
  else if op = 0x30#8 then checkedOp ⟨.graphLoad, mod, d0, d1, imm⟩
  else if op = 0x31#8 then checkedOp ⟨.graphStore, mod, d0, d1, imm⟩
  else if op = 0x32#8 then checkedOp ⟨.graphTake, mod, d0, d1, imm⟩
  else if op = 0x33#8 then checkedOp ⟨.graphPut, mod, d0, d1, imm⟩
  else if op = 0x34#8 then checkedOp ⟨.stream, mod, d0, d1, imm⟩
  else if op = 0x35#8 then checkedOp ⟨.sink, mod, d0, d1, imm⟩
  else if op = 0x38#8 then checkedOp ⟨.tileput, mod, d0, d1, imm⟩
  else if op = 0x39#8 then checkedOp ⟨.tileget, mod, d0, d1, imm⟩
  else if op = 0x3C#8 then checkedOp ⟨.arg, mod, d0, d1, imm⟩
  else if op = 0x3D#8 then checkedOp ⟨.ret, mod, d0, d1, imm⟩
  else if op = 0x3E#8 then checkedOp ⟨.callout, mod, d0, d1, imm⟩
  else if op = 0x3F#8 then checkedOp ⟨.emit, mod, d0, d1, imm⟩
  else .error .noOp

/-- The decoder of Roszon instructions (R109). -/
def decodeRoszon (w : BitVec 64) : Except DecodeError RoszonWord :=
  decodeOp (w.extractLsb' 56 8) (w.extractLsb' 48 8) (w.extractLsb' 32 16) (w.extractLsb' 16 16) (w.extractLsb' 0 16)

/-- The word of a Porlek instruction (R80 and the entries' encodings); `none` for what is no Porlek instruction. -/
def encodePorlek : Instr → Option (BitVec 32)
  | .add w d a b =>
    some (BitVec.ofBool w ++ 1#6 ++ d ++ a ++ b ++ 0#10)
  | .sub w d a b =>
    some (BitVec.ofBool w ++ 1#6 ++ d ++ a ++ b ++ 1#10)
  | .mul w d a b =>
    some (BitVec.ofBool w ++ 1#6 ++ d ++ a ++ b ++ 2#10)
  | .mulh w d a b =>
    some (BitVec.ofBool w ++ 1#6 ++ d ++ a ++ b ++ 3#10)
  | .mulhu w d a b =>
    some (BitVec.ofBool w ++ 1#6 ++ d ++ a ++ b ++ 4#10)
  | .div w d a b =>
    some (BitVec.ofBool w ++ 1#6 ++ d ++ a ++ b ++ 5#10)
  | .divu w d a b =>
    some (BitVec.ofBool w ++ 1#6 ++ d ++ a ++ b ++ 6#10)
  | .rem w d a b =>
    some (BitVec.ofBool w ++ 1#6 ++ d ++ a ++ b ++ 7#10)
  | .remu w d a b =>
    some (BitVec.ofBool w ++ 1#6 ++ d ++ a ++ b ++ 8#10)
  | .and w d a b =>
    some (BitVec.ofBool w ++ 1#6 ++ d ++ a ++ b ++ 9#10)
  | .or w d a b =>
    some (BitVec.ofBool w ++ 1#6 ++ d ++ a ++ b ++ 10#10)
  | .xor w d a b =>
    some (BitVec.ofBool w ++ 1#6 ++ d ++ a ++ b ++ 11#10)
  | .andn w d a b =>
    some (BitVec.ofBool w ++ 1#6 ++ d ++ a ++ b ++ 12#10)
  | .orn w d a b =>
    some (BitVec.ofBool w ++ 1#6 ++ d ++ a ++ b ++ 13#10)
  | .sll w d a b =>
    some (BitVec.ofBool w ++ 1#6 ++ d ++ a ++ b ++ 14#10)
  | .srl w d a b =>
    some (BitVec.ofBool w ++ 1#6 ++ d ++ a ++ b ++ 15#10)
  | .sra w d a b =>
    some (BitVec.ofBool w ++ 1#6 ++ d ++ a ++ b ++ 16#10)
  | .rol w d a b =>
    some (BitVec.ofBool w ++ 1#6 ++ d ++ a ++ b ++ 17#10)
  | .ror w d a b =>
    some (BitVec.ofBool w ++ 1#6 ++ d ++ a ++ b ++ 18#10)
  | .min w d a b =>
    some (BitVec.ofBool w ++ 1#6 ++ d ++ a ++ b ++ 19#10)
  | .max w d a b =>
    some (BitVec.ofBool w ++ 1#6 ++ d ++ a ++ b ++ 20#10)
  | .minu w d a b =>
    some (BitVec.ofBool w ++ 1#6 ++ d ++ a ++ b ++ 21#10)
  | .maxu w d a b =>
    some (BitVec.ofBool w ++ 1#6 ++ d ++ a ++ b ++ 22#10)
  | .slt w d a b =>
    some (BitVec.ofBool w ++ 1#6 ++ d ++ a ++ b ++ 23#10)
  | .sltu w d a b =>
    some (BitVec.ofBool w ++ 1#6 ++ d ++ a ++ b ++ 24#10)
  | .clz w d a =>
    some (BitVec.ofBool w ++ 1#6 ++ d ++ a ++ 0#5 ++ 25#10)
  | .ctz w d a =>
    some (BitVec.ofBool w ++ 1#6 ++ d ++ a ++ 0#5 ++ 26#10)
  | .popc w d a =>
    some (BitVec.ofBool w ++ 1#6 ++ d ++ a ++ 0#5 ++ 27#10)
  | .brev w d a =>
    some (BitVec.ofBool w ++ 1#6 ++ d ++ a ++ 0#5 ++ 28#10)
  | .sextB w d a =>
    some (BitVec.ofBool w ++ 1#6 ++ d ++ a ++ 0#5 ++ 29#10)
  | .sextH w d a =>
    some (BitVec.ofBool w ++ 1#6 ++ d ++ a ++ 0#5 ++ 30#10)
  | .sextW w d a =>
    some (BitVec.ofBool w ++ 1#6 ++ d ++ a ++ 0#5 ++ 31#10)
  | .addi w d a i =>
    some (BitVec.ofBool w ++ 2#6 ++ d ++ a ++ i)
  | .andi w d a i =>
    some (BitVec.ofBool w ++ 3#6 ++ d ++ a ++ i)
  | .ori w d a i =>
    some (BitVec.ofBool w ++ 4#6 ++ d ++ a ++ i)
  | .xori w d a i =>
    some (BitVec.ofBool w ++ 5#6 ++ d ++ a ++ i)
  | .slli w d a h =>
    some (BitVec.ofBool w ++ 6#6 ++ d ++ a ++ 0#9 ++ h)
  | .srli w d a h =>
    some (BitVec.ofBool w ++ 6#6 ++ d ++ a ++ 128#9 ++ h)
  | .srai w d a h =>
    some (BitVec.ofBool w ++ 6#6 ++ d ++ a ++ 256#9 ++ h)
  | .rori w d a h =>
    some (BitVec.ofBool w ++ 6#6 ++ d ++ a ++ 384#9 ++ h)
  | .slti w d a i =>
    some (BitVec.ofBool w ++ 7#6 ++ d ++ a ++ i)
  | .sltiu w d a i =>
    some (BitVec.ofBool w ++ 8#6 ++ d ++ a ++ i)
  | .lui w d i =>
    some (BitVec.ofBool w ++ 9#6 ++ d ++ i)
  | .addpc w d i =>
    some (BitVec.ofBool w ++ 10#6 ++ d ++ i)
  | .fadd w d a b p r =>
    some (BitVec.ofBool w ++ 11#6 ++ d ++ a ++ b ++ p ++ 0#4 ++ r ++ 0#1)
  | .fsub w d a b p r =>
    some (BitVec.ofBool w ++ 11#6 ++ d ++ a ++ b ++ p ++ 1#4 ++ r ++ 0#1)
  | .fmul w d a b p r =>
    some (BitVec.ofBool w ++ 11#6 ++ d ++ a ++ b ++ p ++ 2#4 ++ r ++ 0#1)
  | .fdiv w d a b p r =>
    some (BitVec.ofBool w ++ 11#6 ++ d ++ a ++ b ++ p ++ 3#4 ++ r ++ 0#1)
  | .fsqrt w d a p r =>
    some (BitVec.ofBool w ++ 11#6 ++ d ++ a ++ 0#2 ++ 0#1 ++ 0#2 ++ p ++ 4#4 ++ r ++ 0#1)
  | .fmin w d a b p =>
    some (BitVec.ofBool w ++ 11#6 ++ d ++ a ++ b ++ p ++ 5#4 ++ 0#3 ++ 0#1)
  | .fmax w d a b p =>
    some (BitVec.ofBool w ++ 11#6 ++ d ++ a ++ b ++ p ++ 6#4 ++ 0#3 ++ 0#1)
  | .feq w d a b p =>
    some (BitVec.ofBool w ++ 11#6 ++ d ++ a ++ b ++ p ++ 7#4 ++ 0#3 ++ 0#1)
  | .flt w d a b p =>
    some (BitVec.ofBool w ++ 11#6 ++ d ++ a ++ b ++ p ++ 8#4 ++ 0#3 ++ 0#1)
  | .fle w d a b p =>
    some (BitVec.ofBool w ++ 11#6 ++ d ++ a ++ b ++ p ++ 9#4 ++ 0#3 ++ 0#1)
  | .fclass w d a p =>
    some (BitVec.ofBool w ++ 11#6 ++ d ++ a ++ 0#2 ++ 0#1 ++ 0#2 ++ p ++ 10#4 ++ 0#3 ++ 0#1)
  | .fcvtI w d a t p r =>
    some (BitVec.ofBool w ++ 11#6 ++ d ++ a ++ 0#2 ++ 0#1 ++ t ++ p ++ 11#4 ++ r ++ 0#1)
  | .fcvtF w d a t p r =>
    some (BitVec.ofBool w ++ 11#6 ++ d ++ a ++ 0#2 ++ t ++ p ++ 12#4 ++ r ++ 0#1)
  | .fmvb w d a p =>
    some (BitVec.ofBool w ++ 11#6 ++ d ++ a ++ 0#2 ++ 0#1 ++ 0#2 ++ p ++ 13#4 ++ 0#3 ++ 0#1)
  | .ffma w d a b c p =>
    some (BitVec.ofBool w ++ 12#6 ++ d ++ a ++ b ++ c ++ p ++ 0#3)
  | .ffms w d a b c p =>
    some (BitVec.ofBool w ++ 12#6 ++ d ++ a ++ b ++ c ++ p ++ 2#3)
  | .fnma w d a b c p =>
    some (BitVec.ofBool w ++ 12#6 ++ d ++ a ++ b ++ c ++ p ++ 4#3)
  | .fnms w d a b c p =>
    some (BitVec.ofBool w ++ 12#6 ++ d ++ a ++ b ++ c ++ p ++ 6#3)
  | .beq w a b o =>
    some (BitVec.ofBool w ++ 13#6 ++ a ++ b ++ o)
  | .bne w a b o =>
    some (BitVec.ofBool w ++ 14#6 ++ a ++ b ++ o)
  | .blt w a b o =>
    some (BitVec.ofBool w ++ 15#6 ++ a ++ b ++ o)
  | .bge w a b o =>
    some (BitVec.ofBool w ++ 16#6 ++ a ++ b ++ o)
  | .bltu w a b o =>
    some (BitVec.ofBool w ++ 17#6 ++ a ++ b ++ o)
  | .bgeu w a b o =>
    some (BitVec.ofBool w ++ 18#6 ++ a ++ b ++ o)
  | .jal w d o =>
    some (BitVec.ofBool w ++ 19#6 ++ d ++ o)
  | .jalr w d a i =>
    some (BitVec.ofBool w ++ 20#6 ++ d ++ a ++ i)
  | .callt w a =>
    some (BitVec.ofBool w ++ 21#6 ++ 0#5 ++ a ++ 0#15)
  | .mkfpP w d a =>
    some (BitVec.ofBool w ++ 22#6 ++ d ++ a ++ 0#2 ++ 0#3 ++ 0#10)
  | .mkfpR w d a s =>
    some (BitVec.ofBool w ++ 22#6 ++ d ++ a ++ 0#2 ++ s ++ 1#10)
  | .ldb w d a g i =>
    some (BitVec.ofBool w ++ 23#6 ++ d ++ a ++ g ++ i)
  | .ldh w d a g i =>
    some (BitVec.ofBool w ++ 24#6 ++ d ++ a ++ g ++ i)
  | .ldw w d a g i =>
    some (BitVec.ofBool w ++ 25#6 ++ d ++ a ++ g ++ i)
  | .ldd w d a g i =>
    some (BitVec.ofBool w ++ 26#6 ++ d ++ a ++ g ++ i)
  | .ldbu w d a g i =>
    some (BitVec.ofBool w ++ 27#6 ++ d ++ a ++ g ++ i)
  | .ldhu w d a g i =>
    some (BitVec.ofBool w ++ 28#6 ++ d ++ a ++ g ++ i)
  | .ldwu w d a g i =>
    some (BitVec.ofBool w ++ 29#6 ++ d ++ a ++ g ++ i)
  | .stb w r a g i =>
    some (BitVec.ofBool w ++ 30#6 ++ r ++ a ++ g ++ i)
  | .sth w r a g i =>
    some (BitVec.ofBool w ++ 31#6 ++ r ++ a ++ g ++ i)
  | .stw w r a g i =>
    some (BitVec.ofBool w ++ 32#6 ++ r ++ a ++ g ++ i)
  | .std w r a g i =>
    some (BitVec.ofBool w ++ 33#6 ++ r ++ a ++ g ++ i)
  | .ldg w d a g i =>
    some (BitVec.ofBool w ++ 34#6 ++ d ++ a ++ g ++ i)
  | .take w d a g =>
    some (BitVec.ofBool w ++ 35#6 ++ d ++ a ++ 0#5 ++ 0#3 ++ g ++ 0#4)
  | .put w a b g =>
    some (BitVec.ofBool w ++ 35#6 ++ 0#5 ++ a ++ b ++ 0#3 ++ g ++ 1#4)
  | .readf w d a g =>
    some (BitVec.ofBool w ++ 35#6 ++ d ++ a ++ 0#5 ++ 0#3 ++ g ++ 2#4)
  | .pset w a g =>
    some (BitVec.ofBool w ++ 35#6 ++ 0#5 ++ a ++ 0#5 ++ 0#3 ++ g ++ 3#4)
  | .pclr w a g =>
    some (BitVec.ofBool w ++ 35#6 ++ 0#5 ++ a ++ 0#5 ++ 0#3 ++ g ++ 4#4)
  | .rsv w d a z g =>
    some (BitVec.ofBool w ++ 36#6 ++ d ++ a ++ 0#5 ++ 0#1 ++ BitVec.ofBool z ++ g ++ 0#5)
  | .rls w a b z g =>
    some (BitVec.ofBool w ++ 36#6 ++ 0#5 ++ a ++ b ++ 0#1 ++ BitVec.ofBool z ++ g ++ 1#5)
  | .amoAdd w d a b z g =>
    some (BitVec.ofBool w ++ 36#6 ++ d ++ a ++ b ++ 0#1 ++ BitVec.ofBool z ++ g ++ 2#5)
  | .amoAnd w d a b z g =>
    some (BitVec.ofBool w ++ 36#6 ++ d ++ a ++ b ++ 0#1 ++ BitVec.ofBool z ++ g ++ 3#5)
  | .amoOr w d a b z g =>
    some (BitVec.ofBool w ++ 36#6 ++ d ++ a ++ b ++ 0#1 ++ BitVec.ofBool z ++ g ++ 4#5)
  | .amoXor w d a b z g =>
    some (BitVec.ofBool w ++ 36#6 ++ d ++ a ++ b ++ 0#1 ++ BitVec.ofBool z ++ g ++ 5#5)
  | .amoMin w d a b z g =>
    some (BitVec.ofBool w ++ 36#6 ++ d ++ a ++ b ++ 0#1 ++ BitVec.ofBool z ++ g ++ 6#5)
  | .amoMax w d a b z g =>
    some (BitVec.ofBool w ++ 36#6 ++ d ++ a ++ b ++ 0#1 ++ BitVec.ofBool z ++ g ++ 7#5)
  | .amoMinu w d a b z g =>
    some (BitVec.ofBool w ++ 36#6 ++ d ++ a ++ b ++ 0#1 ++ BitVec.ofBool z ++ g ++ 8#5)
  | .amoMaxu w d a b z g =>
    some (BitVec.ofBool w ++ 36#6 ++ d ++ a ++ b ++ 0#1 ++ BitVec.ofBool z ++ g ++ 9#5)
  | .amoSwap w d a b z g =>
    some (BitVec.ofBool w ++ 36#6 ++ d ++ a ++ b ++ 0#1 ++ BitVec.ofBool z ++ g ++ 10#5)
  | .amoCas w d a b z g =>
    some (BitVec.ofBool w ++ 36#6 ++ d ++ a ++ b ++ 0#1 ++ BitVec.ofBool z ++ g ++ 11#5)
  | .vld w d i k l b g =>
    some (BitVec.ofBool w ++ 37#6 ++ d ++ i ++ k ++ BitVec.ofBool l ++ b ++ g ++ 0#2)
  | .vst w d i k l b g =>
    some (BitVec.ofBool w ++ 38#6 ++ d ++ i ++ k ++ BitVec.ofBool l ++ b ++ g ++ 0#2)
  | .vldx w d x k l b g h =>
    some (BitVec.ofBool w ++ 39#6 ++ d ++ x ++ 0#4 ++ k ++ BitVec.ofBool l ++ b ++ g ++ h)
  | .vstx w d x k l b g h =>
    some (BitVec.ofBool w ++ 40#6 ++ d ++ x ++ 0#4 ++ k ++ BitVec.ofBool l ++ b ++ g ++ h)
  | .fenceAcq w a =>
    some (BitVec.ofBool w ++ 41#6 ++ 0#5 ++ a ++ 0#7 ++ 0#3 ++ 0#3 ++ 1#2)
  | .fenceRel w a =>
    some (BitVec.ofBool w ++ 41#6 ++ 0#5 ++ a ++ 0#7 ++ 0#3 ++ 0#3 ++ 2#2)
  | .fenceAr w a =>
    some (BitVec.ofBool w ++ 41#6 ++ 0#5 ++ a ++ 0#7 ++ 0#3 ++ 0#3 ++ 3#2)
  | .fencex w p q =>
    some (BitVec.ofBool w ++ 41#6 ++ 0#5 ++ 0#5 ++ 1#7 ++ p ++ q ++ 0#2)
  | .seal w g =>
    some (BitVec.ofBool w ++ 41#6 ++ 0#5 ++ 0#5 ++ 2#7 ++ g ++ 0#3 ++ 0#2)
  | .unseal w g =>
    some (BitVec.ofBool w ++ 41#6 ++ 0#5 ++ 0#5 ++ 3#7 ++ g ++ 0#3 ++ 0#2)
  | .vadd w d a b k l s u =>
    some (BitVec.ofBool w ++ 42#6 ++ d ++ a ++ b ++ k ++ BitVec.ofBool l ++ 0#5 ++ 0#3 ++ BitVec.ofBool s ++ BitVec.ofBool u)
  | .vsub w d a b k l s u =>
    some (BitVec.ofBool w ++ 42#6 ++ d ++ a ++ b ++ k ++ BitVec.ofBool l ++ 1#5 ++ 0#3 ++ BitVec.ofBool s ++ BitVec.ofBool u)
  | .vmul w d a b k l s u =>
    some (BitVec.ofBool w ++ 42#6 ++ d ++ a ++ b ++ k ++ BitVec.ofBool l ++ 2#5 ++ 0#3 ++ BitVec.ofBool s ++ BitVec.ofBool u)
  | .vmin w d a b k l u =>
    some (BitVec.ofBool w ++ 42#6 ++ d ++ a ++ b ++ k ++ BitVec.ofBool l ++ 3#5 ++ 0#3 ++ 0#1 ++ BitVec.ofBool u)
  | .vmax w d a b k l u =>
    some (BitVec.ofBool w ++ 42#6 ++ d ++ a ++ b ++ k ++ BitVec.ofBool l ++ 4#5 ++ 0#3 ++ 0#1 ++ BitVec.ofBool u)
  | .vand w d a b k l =>
    some (BitVec.ofBool w ++ 42#6 ++ d ++ a ++ b ++ k ++ BitVec.ofBool l ++ 5#5 ++ 0#3 ++ 0#1 ++ 0#1)
  | .vor w d a b k l =>
    some (BitVec.ofBool w ++ 42#6 ++ d ++ a ++ b ++ k ++ BitVec.ofBool l ++ 6#5 ++ 0#3 ++ 0#1 ++ 0#1)
  | .vxor w d a b k l =>
    some (BitVec.ofBool w ++ 42#6 ++ d ++ a ++ b ++ k ++ BitVec.ofBool l ++ 7#5 ++ 0#3 ++ 0#1 ++ 0#1)
  | .vsll w d a b k l =>
    some (BitVec.ofBool w ++ 42#6 ++ d ++ a ++ b ++ k ++ BitVec.ofBool l ++ 8#5 ++ 0#3 ++ 0#1 ++ 0#1)
  | .vsrl w d a b k l =>
    some (BitVec.ofBool w ++ 42#6 ++ d ++ a ++ b ++ k ++ BitVec.ofBool l ++ 9#5 ++ 0#3 ++ 0#1 ++ 0#1)
  | .vsra w d a b k l =>
    some (BitVec.ofBool w ++ 42#6 ++ d ++ a ++ b ++ k ++ BitVec.ofBool l ++ 10#5 ++ 0#3 ++ 0#1 ++ 0#1)
  | .vcmp w m a b k c u =>
    some (BitVec.ofBool w ++ 42#6 ++ 0#2 ++ m ++ a ++ b ++ k ++ 0#1 ++ 11#5 ++ c ++ 0#1 ++ BitVec.ofBool u)
  | .vfadd w d a b k l f r =>
    some (BitVec.ofBool w ++ 43#6 ++ d ++ a ++ b ++ k ++ BitVec.ofBool l ++ 0#5 ++ BitVec.ofBool f ++ r ++ 0#1)
  | .vfsub w d a b k l f r =>
    some (BitVec.ofBool w ++ 43#6 ++ d ++ a ++ b ++ k ++ BitVec.ofBool l ++ 1#5 ++ BitVec.ofBool f ++ r ++ 0#1)
  | .vfmul w d a b k l f r =>
    some (BitVec.ofBool w ++ 43#6 ++ d ++ a ++ b ++ k ++ BitVec.ofBool l ++ 2#5 ++ BitVec.ofBool f ++ r ++ 0#1)
  | .vffma w d a b k l f r =>
    some (BitVec.ofBool w ++ 43#6 ++ d ++ a ++ b ++ k ++ BitVec.ofBool l ++ 3#5 ++ BitVec.ofBool f ++ r ++ 0#1)
  | .vfmin w d a b k l f =>
    some (BitVec.ofBool w ++ 43#6 ++ d ++ a ++ b ++ k ++ BitVec.ofBool l ++ 4#5 ++ BitVec.ofBool f ++ 0#3 ++ 0#1)
  | .vfmax w d a b k l f =>
    some (BitVec.ofBool w ++ 43#6 ++ d ++ a ++ b ++ k ++ BitVec.ofBool l ++ 5#5 ++ BitVec.ofBool f ++ 0#3 ++ 0#1)
  | .vfcmp w m a b k c =>
    some (BitVec.ofBool w ++ 43#6 ++ 0#2 ++ m ++ a ++ b ++ k ++ 0#1 ++ 6#5 ++ 0#1 ++ c ++ 0#1)
  | .vfdiv w d a b k l f r =>
    some (BitVec.ofBool w ++ 43#6 ++ d ++ a ++ b ++ k ++ BitVec.ofBool l ++ 7#5 ++ BitVec.ofBool f ++ r ++ 0#1)
  | .vsel w d a b k l =>
    some (BitVec.ofBool w ++ 44#6 ++ d ++ a ++ b ++ k ++ BitVec.ofBool l ++ 0#5 ++ 0#1 ++ 0#1 ++ 0#1 ++ 0#2)
  | .vperm w d a b k l =>
    some (BitVec.ofBool w ++ 44#6 ++ d ++ a ++ b ++ k ++ BitVec.ofBool l ++ 1#5 ++ 0#1 ++ 0#1 ++ 0#1 ++ 0#2)
  | .vbcast w d g k l h =>
    some (BitVec.ofBool w ++ 44#6 ++ d ++ g ++ 0#4 ++ k ++ BitVec.ofBool l ++ 2#5 ++ BitVec.ofBool h ++ 0#1 ++ 0#1 ++ 0#2)
  | .vextr w g a n l h m x =>
    some (BitVec.ofBool w ++ 44#6 ++ g ++ a ++ n ++ 0#2 ++ BitVec.ofBool l ++ 3#5 ++ BitVec.ofBool h ++ BitVec.ofBool m ++ BitVec.ofBool x ++ 0#2)
  | .vins w d g n l h m =>
    some (BitVec.ofBool w ++ 44#6 ++ d ++ g ++ n ++ 0#2 ++ BitVec.ofBool l ++ 4#5 ++ BitVec.ofBool h ++ BitVec.ofBool m ++ 0#1 ++ 0#2)
  | .vred w d a k l c =>
    some (BitVec.ofBool w ++ 44#6 ++ d ++ a ++ 0#4 ++ k ++ BitVec.ofBool l ++ 5#5 ++ c)
  | .vcvt w d a t k s r =>
    some (BitVec.ofBool w ++ 44#6 ++ d ++ a ++ t ++ k ++ s.extractLsb' 3 1 ++ 6#5 ++ s.extractLsb' 0 3 ++ r)
  | .vsfu w d a k f =>
    some (BitVec.ofBool w ++ 44#6 ++ d ++ a ++ 0#4 ++ k ++ 0#1 ++ 7#5 ++ f ++ 0#2)
  | .viota w d k l =>
    some (BitVec.ofBool w ++ 44#6 ++ d ++ 0#4 ++ 0#4 ++ k ++ BitVec.ofBool l ++ 8#5 ++ 0#1 ++ 0#1 ++ 0#1 ++ 0#2)
  | .kand w d a b =>
    some (BitVec.ofBool w ++ 45#6 ++ 0#3 ++ d ++ 0#3 ++ a ++ 0#3 ++ b ++ 0#10)
  | .kor w d a b =>
    some (BitVec.ofBool w ++ 45#6 ++ 0#3 ++ d ++ 0#3 ++ a ++ 0#3 ++ b ++ 1#10)
  | .kxor w d a b =>
    some (BitVec.ofBool w ++ 45#6 ++ 0#3 ++ d ++ 0#3 ++ a ++ 0#3 ++ b ++ 2#10)
  | .knot w d a =>
    some (BitVec.ofBool w ++ 45#6 ++ 0#3 ++ d ++ 0#3 ++ a ++ 0#3 ++ 0#2 ++ 3#10)
  | .kmovKk w d a =>
    some (BitVec.ofBool w ++ 45#6 ++ 0#3 ++ d ++ 0#3 ++ a ++ 0#3 ++ 0#2 ++ 4#10)
  | .kmovKg w d a =>
    some (BitVec.ofBool w ++ 45#6 ++ 0#3 ++ d ++ a ++ 0#3 ++ 0#2 ++ 5#10)
  | .kmovGk w d a =>
    some (BitVec.ofBool w ++ 45#6 ++ d ++ 0#3 ++ a ++ 0#3 ++ 0#2 ++ 6#10)
  | .kpopc w d a =>
    some (BitVec.ofBool w ++ 45#6 ++ d ++ 0#3 ++ a ++ 0#3 ++ 0#2 ++ 7#10)
  | .kmovGpw w d =>
    some (BitVec.ofBool w ++ 45#6 ++ d ++ 0#3 ++ 0#2 ++ 0#3 ++ 0#2 ++ 8#10)
  | .kmovPwg w a =>
    some (BitVec.ofBool w ++ 45#6 ++ 0#3 ++ 0#2 ++ a ++ 0#3 ++ 0#2 ++ 9#10)
  | .spawn w d a b t g =>
    some (BitVec.ofBool w ++ 46#6 ++ d ++ a ++ b ++ 0#3 ++ BitVec.ofBool t ++ g ++ 0#3)
  | .migr w a g =>
    some (BitVec.ofBool w ++ 46#6 ++ 0#5 ++ a ++ 0#5 ++ 1#3 ++ 0#1 ++ g ++ 0#3)
  | .exit w a =>
    some (BitVec.ofBool w ++ 46#6 ++ 0#5 ++ a ++ 0#5 ++ 2#3 ++ 0#1 ++ 0#3 ++ 0#3)
  | .join w d a =>
    some (BitVec.ofBool w ++ 46#6 ++ d ++ a ++ 0#5 ++ 3#3 ++ 0#1 ++ 0#3 ++ 0#3)
  | .yield w =>
    some (BitVec.ofBool w ++ 46#6 ++ 0#5 ++ 0#5 ++ 0#5 ++ 4#3 ++ 0#1 ++ 0#3 ++ 0#3)
  | .setprio w a =>
    some (BitVec.ofBool w ++ 46#6 ++ 0#5 ++ a ++ 0#5 ++ 5#3 ++ 0#1 ++ 0#3 ++ 0#3)
  | .rknew w d j =>
    some (BitVec.ofBool w ++ 47#6 ++ d ++ 0#5 ++ 0#5 ++ 0#4 ++ 0#5 ++ BitVec.ofBool j)
  | .rkjoin w a b =>
    some (BitVec.ofBool w ++ 47#6 ++ 0#5 ++ a ++ b ++ 2#4 ++ 0#5 ++ 0#1)
  | .rkleave w a =>
    some (BitVec.ofBool w ++ 47#6 ++ 0#5 ++ a ++ 0#5 ++ 4#4 ++ 0#5 ++ 0#1)
  | .rkfree w a =>
    some (BitVec.ofBool w ++ 47#6 ++ 0#5 ++ a ++ 0#5 ++ 6#4 ++ 0#5 ++ 0#1)
  | .bar w d a m =>
    some (BitVec.ofBool w ++ 47#6 ++ d ++ a ++ 0#5 ++ 8#4 ++ m)
  | .barstat w d a k =>
    some (BitVec.ofBool w ++ 47#6 ++ d ++ a ++ 0#5 ++ 10#4 ++ 0#5 ++ BitVec.ofBool k)
  | .rkfix w d a k =>
    some (BitVec.ofBool w ++ 47#6 ++ d ++ a ++ 0#5 ++ 11#4 ++ 0#5 ++ BitVec.ofBool k)
  | .monarm w a g n =>
    some (BitVec.ofBool w ++ 48#6 ++ 0#5 ++ a ++ 0#5 ++ 0#4 ++ g ++ 0#1 ++ n)
  | .monclr w x n =>
    some (BitVec.ofBool w ++ 48#6 ++ 0#5 ++ 0#5 ++ 0#5 ++ 2#4 ++ 0#3 ++ BitVec.ofBool x ++ n)
  | .monwait w d a =>
    some (BitVec.ofBool w ++ 48#6 ++ d ++ a ++ 0#5 ++ 4#4 ++ 0#3 ++ 0#1 ++ 0#1 ++ 0#1)
  | .send w d a b n =>
    some (BitVec.ofBool w ++ 48#6 ++ d ++ a ++ b ++ 6#4 ++ 0#3 ++ 0#1 ++ n)
  | .sendHost w d a b n =>
    some (BitVec.ofBool w ++ 48#6 ++ d ++ a ++ b ++ 7#4 ++ 0#3 ++ 0#1 ++ n)
  | .recv w d n =>
    some (BitVec.ofBool w ++ 48#6 ++ d ++ 0#5 ++ 0#5 ++ 8#4 ++ 0#3 ++ 0#1 ++ 0#1 ++ BitVec.ofBool n)
  | .mxcfg w a b =>
    some (BitVec.ofBool w ++ 49#6 ++ 0#5 ++ a ++ b ++ 0#5 ++ 0#1 ++ 0#1 ++ 0#1 ++ 0#2)
  | .mxcfgFd w b n =>
    some (BitVec.ofBool w ++ 49#6 ++ 0#5 ++ 0#5 ++ b ++ 1#5 ++ 0#1 ++ 0#1 ++ n)
  | .mxscl w a b c =>
    some (BitVec.ofBool w ++ 49#6 ++ 0#5 ++ a ++ b ++ 2#5 ++ c)
  | .tfull w d a s =>
    some (BitVec.ofBool w ++ 49#6 ++ d ++ a ++ 0#5 ++ 3#5 ++ 0#1 ++ s)
  | .tempty w d s =>
    some (BitVec.ofBool w ++ 49#6 ++ d ++ 0#5 ++ 0#5 ++ 4#5 ++ 0#1 ++ s)
  | .tstat w d a c k =>
    some (BitVec.ofBool w ++ 49#6 ++ d ++ a ++ 0#5 ++ 5#5 ++ 0#1 ++ 0#1 ++ BitVec.ofBool c ++ k)
  | .cpy w d a c =>
    some (BitVec.ofBool w ++ 50#6 ++ d ++ a ++ 0#8 ++ 0#3 ++ 0#1 ++ c)
  | .cpyx w d a c =>
    some (BitVec.ofBool w ++ 50#6 ++ d ++ a ++ 1#8 ++ 0#3 ++ 0#1 ++ c)
  | .cpywp w d a c =>
    some (BitVec.ofBool w ++ 50#6 ++ d ++ a ++ 2#8 ++ 0#3 ++ 0#1 ++ c)
  | .strbind w a p =>
    some (BitVec.ofBool w ++ 50#6 ++ 0#5 ++ a ++ 3#8 ++ p ++ 0#1 ++ 0#3)
  | .strunb w p =>
    some (BitVec.ofBool w ++ 50#6 ++ 0#5 ++ 0#5 ++ 4#8 ++ p ++ 0#1 ++ 0#3)
  | .igload w a s g =>
    some (BitVec.ofBool w ++ 51#6 ++ 0#5 ++ a ++ 0#5 ++ 0#3 ++ s ++ 0#2 ++ 0#1 ++ BitVec.ofBool g)
  | .igstart w a b g =>
    some (BitVec.ofBool w ++ 51#6 ++ 0#5 ++ a ++ b ++ 2#3 ++ 0#3 ++ 0#2 ++ 0#1 ++ BitVec.ofBool g)
  | .igstat w d a k g =>
    some (BitVec.ofBool w ++ 51#6 ++ d ++ a ++ 0#5 ++ 4#3 ++ 0#3 ++ k ++ 0#1 ++ BitVec.ofBool g)
  | .sbwr w a b n k =>
    some (BitVec.ofBool w ++ 52#6 ++ 0#5 ++ a ++ b ++ 0#3 ++ n ++ k)
  | .sbrd w d a n k =>
    some (BitVec.ofBool w ++ 52#6 ++ d ++ a ++ 0#5 ++ 1#3 ++ n ++ k)
  | .sbcommit w d a k =>
    some (BitVec.ofBool w ++ 52#6 ++ d ++ a ++ 0#5 ++ 2#3 ++ 0#4 ++ k)
  | .tget w a k =>
    some (BitVec.ofBool w ++ 52#6 ++ 0#5 ++ a ++ 0#5 ++ 3#3 ++ 0#4 ++ k)
  | .tdone w d a b =>
    some (BitVec.ofBool w ++ 52#6 ++ d ++ a ++ b ++ 4#3 ++ 0#4 ++ 0#3)
  | .tret w d a b =>
    some (BitVec.ofBool w ++ 52#6 ++ d ++ a ++ b ++ 5#3 ++ 0#4 ++ 0#3)
  | .collred w a =>
    some (BitVec.ofBool w ++ 53#6 ++ 0#5 ++ a ++ 0#15)
  | .collbc w a =>
    some (BitVec.ofBool w ++ 53#6 ++ 0#5 ++ a ++ 256#15)
  | .collstat w d a =>
    some (BitVec.ofBool w ++ 53#6 ++ d ++ a ++ 512#15)
  | .trap w c =>
    some (BitVec.ofBool w ++ 54#6 ++ 0#5 ++ 0#5 ++ 0#3 ++ c)
  | .eret w =>
    some (BitVec.ofBool w ++ 54#6 ++ 0#5 ++ 0#5 ++ 1#3 ++ 0#1 ++ 0#2 ++ 0#5 ++ 0#1 ++ 0#3)
  | .crr w d s =>
    some (BitVec.ofBool w ++ 54#6 ++ d ++ 0#5 ++ 2#3 ++ s)
  | .crw w a s =>
    some (BitVec.ofBool w ++ 54#6 ++ 0#5 ++ a ++ 3#3 ++ s)
  | .segset w a n =>
    some (BitVec.ofBool w ++ 54#6 ++ 0#5 ++ a ++ 4#3 ++ 0#1 ++ 0#2 ++ 0#5 ++ 0#1 ++ n)
  | .segget w d h n =>
    some (BitVec.ofBool w ++ 54#6 ++ d ++ 0#5 ++ 5#3 ++ 0#1 ++ 0#2 ++ 0#5 ++ BitVec.ofBool h ++ n)
  | .tlbinv w a u c =>
    some (BitVec.ofBool w ++ 54#6 ++ 0#5 ++ a ++ 6#3 ++ 0#1 ++ u ++ c)
  | .tlbinvAll w =>
    some (BitVec.ofBool w ++ 54#6 ++ 0#5 ++ 0#5 ++ 6#3 ++ 1#1 ++ 0#2 ++ 0#5 ++ 0#1 ++ 0#3)
  | .replay w d =>
    some (BitVec.ofBool w ++ 54#6 ++ d ++ 0#5 ++ 7#3 ++ 0#1 ++ 0#2 ++ 0#5 ++ 0#1 ++ 0#3)
  | .ctxsv w d a b s =>
    some (BitVec.ofBool w ++ 55#6 ++ d ++ a ++ b ++ 0#3 ++ s ++ 0#4)
  | .ctxld w d a b s =>
    some (BitVec.ofBool w ++ 55#6 ++ d ++ a ++ b ++ 1#3 ++ s ++ 0#4)
  | .rqpush w d a b =>
    some (BitVec.ofBool w ++ 55#6 ++ d ++ a ++ b ++ 2#3 ++ 0#3 ++ 0#4)
  | .rqpop w d a =>
    some (BitVec.ofBool w ++ 55#6 ++ d ++ a ++ 0#5 ++ 3#3 ++ 0#3 ++ 0#4)
  | .rqpopId w d a =>
    some (BitVec.ofBool w ++ 55#6 ++ d ++ a ++ 0#5 ++ 3#3 ++ 0#3 ++ 8#4)
  | .rqpopKill w d a =>
    some (BitVec.ofBool w ++ 55#6 ++ d ++ a ++ 0#5 ++ 3#3 ++ 0#3 ++ 12#4)
  | .rqpeek w d a =>
    some (BitVec.ofBool w ++ 55#6 ++ d ++ a ++ 0#5 ++ 4#3 ++ 0#3 ++ 0#4)
  | .pfi w a b =>
    some (BitVec.ofBool w ++ 56#6 ++ 0#5 ++ a ++ b ++ 0#4 ++ 0#3 ++ 0#3)
  | .pfiRf w a b =>
    some (BitVec.ofBool w ++ 56#6 ++ 0#5 ++ a ++ b ++ 1#4 ++ 0#3 ++ 0#3)
  | .pfd w a b s =>
    some (BitVec.ofBool w ++ 56#6 ++ 0#5 ++ a ++ b ++ 0#4 ++ s ++ 1#3)
  | .clean w a b s =>
    some (BitVec.ofBool w ++ 56#6 ++ 0#5 ++ a ++ b ++ 0#4 ++ s ++ 2#3)
  | .inval w a b s =>
    some (BitVec.ofBool w ++ 56#6 ++ 0#5 ++ a ++ b ++ 0#4 ++ s ++ 3#3)
  | .cfgload w a s =>
    some (BitVec.ofBool w ++ 57#6 ++ 0#5 ++ a ++ 0#5 ++ 0#2 ++ s ++ 0#1 ++ 0#2 ++ 0#2)
  | .cfgfree w a =>
    some (BitVec.ofBool w ++ 57#6 ++ 0#5 ++ a ++ 0#5 ++ 1#2 ++ 0#3 ++ 0#1 ++ 0#2 ++ 0#2)
  | .cfgfreeze w a b s =>
    some (BitVec.ofBool w ++ 57#6 ++ 0#5 ++ a ++ b ++ 2#2 ++ s ++ 0#1 ++ 0#2 ++ 0#2)
  | .cfgfreezeThaw w a =>
    some (BitVec.ofBool w ++ 57#6 ++ 0#5 ++ a ++ 0#5 ++ 2#2 ++ 0#3 ++ 1#1 ++ 0#2 ++ 0#2)
  | .cfgread w d a k =>
    some (BitVec.ofBool w ++ 57#6 ++ d ++ a ++ 0#5 ++ 3#2 ++ 0#3 ++ 0#1 ++ k ++ 0#2)
  | .pass => none
  | .iadd => none
  | .isub => none
  | .imul => none
  | .imin => none
  | .imax => none
  | .graphAnd => none
  | .graphOr => none
  | .graphXor => none
  | .shl => none
  | .shr => none
  | .icmp => none
  | .graphFadd => none
  | .graphFmul => none
  | .graphFfma => none
  | .graphFmin => none
  | .graphFmax => none
  | .fcmp => none
  | .sfu => none
  | .cvt => none
  | .scale => none
  | .steer => none
  | .merge => none
  | .carry => none
  | .settag => none
  | .gettag => none
  | .const => none
  | .seq => none
  | .filter => none
  | .coalesce => none
  | .reduce => none
  | .rowstat => none
  | .delay => none
  | .graphLoad => none
  | .graphStore => none
  | .graphTake => none
  | .graphPut => none
  | .stream => none
  | .sink => none
  | .tileput => none
  | .tileget => none
  | .arg => none
  | .ret => none
  | .callout => none
  | .emit => none
  | .slotRefill => none
  | .longOpComplete => none
  | .timerPreempt => none
  | .priorityAging => none
  | .priorityPreempt => none
  | .icacheFill => none
  | .prefetchFill => none
  | .trapEntry => none
  | .migrationArrival => none
  | .runQueueEntry => none
  | .spawnDelivery => none
  | .footprintReady => none
  | .launchFrame => none
  | .launchStart => none
  | .budgetExpiry => none
  | .accessPerformed => none
  | .recallAck => none
  | .presenceResend => none
  | .waitLimitExpiry => none
  | .reservationHoldExpiry => none
  | .sectorDrain => none
  | .lineExpiry => none
  | .translationWalk => none
  | .memTimeoutExpiry => none
  | .monwaitTimeout => none
  | .messageDelivery => none
  | .deviceReport => none
  | .streamWake => none
  | .stepFire => none
  | .nmMetaScan => none
  | .stepStreamEnd => none
  | .stepAccumulationComplete => none
  | .writebackStart => none
  | .writebackComplete => none
  | .generatorLoad => none
  | .generatorLoadComplete => none
  | .enumerationStart => none
  | .enumerationEnd => none
  | .generatorRecordPush => none
  | .copyCommandStart => none
  | .copyCommandEnd => none
  | .copyCommandStop => none
  | .collectiveContribution => none
  | .collectiveDone => none
  | .collectiveTokenCombine => none
  | .mapWriteFail => none
  | .consistLoad => none
  | .consistFreeComplete => none
  | .freezeComplete => none
  | .watchdogExpiry => none
  | .tokenArrival => none
  | .graphLoadReply => none
  | .graphStoreAck => none
  | .returnTokenArrival => none
  | .graphFaultRetry => none
  | .callWaitResume => none
  | .converterToken => none
  | .converterAck => none
  | .sealComplete => none
  | .unsealComplete => none
  | .drainTokenArrival => none
  | .evictionScheduleEntry => none
  | .heartbeat => none
  | .agentSuspect => none
  | .probeExpiry => none
  | .selftestComplete => none
  | .sliceExpiry => none
  | .swapComplete => none
  | .commit => none
  | .stop => none
  | .destroy => none
  | .configOpComplete => none
  | .domainTableWrite => none
  | .registerWrite => none
  | .write => none
  | .read => none
  | .readresp => none
  | .acq => none
  | .release => none
  | .msg => none
  | .attest => none
  | .leaseOpen => none
  | .leaseRenew => none
  | .leaseClose => none
  | .acknowledgement => none
  | .frameResend => none
  | .leaseLapse => none
  | .lockstepInputForward => none
  | .lockstepInputInject => none
  | .digestWindowEnd => none
  | .digestArrival => none
  | .pwrgood => none
  | .resetRelease => none
  | .resetAssert => none
  | .firmwareVerified => none
  | .stationSelftestDone => none
  | .lmTrainingDone => none
  | .linkTrained => none
  | .linkLoss => none
  | .powerSample => none
  | .dutyStep => none
  | .thermalTrip => none
  | .activationInterval => none
  | .graphPresenceWaitLimit => none
  | .graphPresenceReply => none
  | .lockstepAlignment => none
  | .inboundLegClaim => none
  | .holderRecall => none
  | .probeAnswer => none
  | .pwrgoodDeassert => none

/-- The op field of a Roszon instruction (R113). -/
def roszonOp : Instr → Option (BitVec 8)
  | .pass => some 0x01#8
  | .iadd => some 0x02#8
  | .isub => some 0x03#8
  | .imul => some 0x04#8
  | .imin => some 0x05#8
  | .imax => some 0x06#8
  | .graphAnd => some 0x07#8
  | .graphOr => some 0x08#8
  | .graphXor => some 0x09#8
  | .shl => some 0x0A#8
  | .shr => some 0x0B#8
  | .icmp => some 0x0C#8
  | .graphFadd => some 0x10#8
  | .graphFmul => some 0x11#8
  | .graphFfma => some 0x12#8
  | .graphFmin => some 0x13#8
  | .graphFmax => some 0x14#8
  | .fcmp => some 0x15#8
  | .sfu => some 0x16#8
  | .cvt => some 0x17#8
  | .scale => some 0x18#8
  | .steer => some 0x20#8
  | .merge => some 0x21#8
  | .carry => some 0x22#8
  | .settag => some 0x23#8
  | .gettag => some 0x24#8
  | .const => some 0x25#8
  | .seq => some 0x26#8
  | .filter => some 0x28#8
  | .coalesce => some 0x29#8
  | .reduce => some 0x2A#8
  | .rowstat => some 0x2B#8
  | .delay => some 0x2C#8
  | .graphLoad => some 0x30#8
  | .graphStore => some 0x31#8
  | .graphTake => some 0x32#8
  | .graphPut => some 0x33#8
  | .stream => some 0x34#8
  | .sink => some 0x35#8
  | .tileput => some 0x38#8
  | .tileget => some 0x39#8
  | .arg => some 0x3C#8
  | .ret => some 0x3D#8
  | .callout => some 0x3E#8
  | .emit => some 0x3F#8
  | .add _ _ _ _ => none
  | .sub _ _ _ _ => none
  | .mul _ _ _ _ => none
  | .mulh _ _ _ _ => none
  | .mulhu _ _ _ _ => none
  | .div _ _ _ _ => none
  | .divu _ _ _ _ => none
  | .rem _ _ _ _ => none
  | .remu _ _ _ _ => none
  | .and _ _ _ _ => none
  | .or _ _ _ _ => none
  | .xor _ _ _ _ => none
  | .andn _ _ _ _ => none
  | .orn _ _ _ _ => none
  | .sll _ _ _ _ => none
  | .srl _ _ _ _ => none
  | .sra _ _ _ _ => none
  | .rol _ _ _ _ => none
  | .ror _ _ _ _ => none
  | .min _ _ _ _ => none
  | .max _ _ _ _ => none
  | .minu _ _ _ _ => none
  | .maxu _ _ _ _ => none
  | .slt _ _ _ _ => none
  | .sltu _ _ _ _ => none
  | .clz _ _ _ => none
  | .ctz _ _ _ => none
  | .popc _ _ _ => none
  | .brev _ _ _ => none
  | .sextB _ _ _ => none
  | .sextH _ _ _ => none
  | .sextW _ _ _ => none
  | .addi _ _ _ _ => none
  | .andi _ _ _ _ => none
  | .ori _ _ _ _ => none
  | .xori _ _ _ _ => none
  | .slli _ _ _ _ => none
  | .srli _ _ _ _ => none
  | .srai _ _ _ _ => none
  | .rori _ _ _ _ => none
  | .slti _ _ _ _ => none
  | .sltiu _ _ _ _ => none
  | .lui _ _ _ => none
  | .addpc _ _ _ => none
  | .fadd _ _ _ _ _ _ => none
  | .fsub _ _ _ _ _ _ => none
  | .fmul _ _ _ _ _ _ => none
  | .fdiv _ _ _ _ _ _ => none
  | .fsqrt _ _ _ _ _ => none
  | .fmin _ _ _ _ _ => none
  | .fmax _ _ _ _ _ => none
  | .feq _ _ _ _ _ => none
  | .flt _ _ _ _ _ => none
  | .fle _ _ _ _ _ => none
  | .fclass _ _ _ _ => none
  | .fcvtI _ _ _ _ _ _ => none
  | .fcvtF _ _ _ _ _ _ => none
  | .fmvb _ _ _ _ => none
  | .ffma _ _ _ _ _ _ => none
  | .ffms _ _ _ _ _ _ => none
  | .fnma _ _ _ _ _ _ => none
  | .fnms _ _ _ _ _ _ => none
  | .beq _ _ _ _ => none
  | .bne _ _ _ _ => none
  | .blt _ _ _ _ => none
  | .bge _ _ _ _ => none
  | .bltu _ _ _ _ => none
  | .bgeu _ _ _ _ => none
  | .jal _ _ _ => none
  | .jalr _ _ _ _ => none
  | .callt _ _ => none
  | .mkfpP _ _ _ => none
  | .mkfpR _ _ _ _ => none
  | .ldb _ _ _ _ _ => none
  | .ldh _ _ _ _ _ => none
  | .ldw _ _ _ _ _ => none
  | .ldd _ _ _ _ _ => none
  | .ldbu _ _ _ _ _ => none
  | .ldhu _ _ _ _ _ => none
  | .ldwu _ _ _ _ _ => none
  | .stb _ _ _ _ _ => none
  | .sth _ _ _ _ _ => none
  | .stw _ _ _ _ _ => none
  | .std _ _ _ _ _ => none
  | .ldg _ _ _ _ _ => none
  | .take _ _ _ _ => none
  | .put _ _ _ _ => none
  | .readf _ _ _ _ => none
  | .pset _ _ _ => none
  | .pclr _ _ _ => none
  | .rsv _ _ _ _ _ => none
  | .rls _ _ _ _ _ => none
  | .amoAdd _ _ _ _ _ _ => none
  | .amoAnd _ _ _ _ _ _ => none
  | .amoOr _ _ _ _ _ _ => none
  | .amoXor _ _ _ _ _ _ => none
  | .amoMin _ _ _ _ _ _ => none
  | .amoMax _ _ _ _ _ _ => none
  | .amoMinu _ _ _ _ _ _ => none
  | .amoMaxu _ _ _ _ _ _ => none
  | .amoSwap _ _ _ _ _ _ => none
  | .amoCas _ _ _ _ _ _ => none
  | .vld _ _ _ _ _ _ _ => none
  | .vst _ _ _ _ _ _ _ => none
  | .vldx _ _ _ _ _ _ _ _ => none
  | .vstx _ _ _ _ _ _ _ _ => none
  | .fenceAcq _ _ => none
  | .fenceRel _ _ => none
  | .fenceAr _ _ => none
  | .fencex _ _ _ => none
  | .seal _ _ => none
  | .unseal _ _ => none
  | .vadd _ _ _ _ _ _ _ _ => none
  | .vsub _ _ _ _ _ _ _ _ => none
  | .vmul _ _ _ _ _ _ _ _ => none
  | .vmin _ _ _ _ _ _ _ => none
  | .vmax _ _ _ _ _ _ _ => none
  | .vand _ _ _ _ _ _ => none
  | .vor _ _ _ _ _ _ => none
  | .vxor _ _ _ _ _ _ => none
  | .vsll _ _ _ _ _ _ => none
  | .vsrl _ _ _ _ _ _ => none
  | .vsra _ _ _ _ _ _ => none
  | .vcmp _ _ _ _ _ _ _ => none
  | .vfadd _ _ _ _ _ _ _ _ => none
  | .vfsub _ _ _ _ _ _ _ _ => none
  | .vfmul _ _ _ _ _ _ _ _ => none
  | .vffma _ _ _ _ _ _ _ _ => none
  | .vfmin _ _ _ _ _ _ _ => none
  | .vfmax _ _ _ _ _ _ _ => none
  | .vfcmp _ _ _ _ _ _ => none
  | .vfdiv _ _ _ _ _ _ _ _ => none
  | .vsel _ _ _ _ _ _ => none
  | .vperm _ _ _ _ _ _ => none
  | .vbcast _ _ _ _ _ _ => none
  | .vextr _ _ _ _ _ _ _ _ => none
  | .vins _ _ _ _ _ _ _ => none
  | .vred _ _ _ _ _ _ => none
  | .vcvt _ _ _ _ _ _ _ => none
  | .vsfu _ _ _ _ _ => none
  | .viota _ _ _ _ => none
  | .kand _ _ _ _ => none
  | .kor _ _ _ _ => none
  | .kxor _ _ _ _ => none
  | .knot _ _ _ => none
  | .kmovKk _ _ _ => none
  | .kmovKg _ _ _ => none
  | .kmovGk _ _ _ => none
  | .kpopc _ _ _ => none
  | .kmovGpw _ _ => none
  | .kmovPwg _ _ => none
  | .spawn _ _ _ _ _ _ => none
  | .migr _ _ _ => none
  | .exit _ _ => none
  | .join _ _ _ => none
  | .yield _ => none
  | .setprio _ _ => none
  | .rknew _ _ _ => none
  | .rkjoin _ _ _ => none
  | .rkleave _ _ => none
  | .rkfree _ _ => none
  | .bar _ _ _ _ => none
  | .barstat _ _ _ _ => none
  | .rkfix _ _ _ _ => none
  | .monarm _ _ _ _ => none
  | .monclr _ _ _ => none
  | .monwait _ _ _ => none
  | .send _ _ _ _ _ => none
  | .sendHost _ _ _ _ _ => none
  | .recv _ _ _ => none
  | .mxcfg _ _ _ => none
  | .mxcfgFd _ _ _ => none
  | .mxscl _ _ _ _ => none
  | .tfull _ _ _ _ => none
  | .tempty _ _ _ => none
  | .tstat _ _ _ _ _ => none
  | .cpy _ _ _ _ => none
  | .cpyx _ _ _ _ => none
  | .cpywp _ _ _ _ => none
  | .strbind _ _ _ => none
  | .strunb _ _ => none
  | .igload _ _ _ _ => none
  | .igstart _ _ _ _ => none
  | .igstat _ _ _ _ _ => none
  | .sbwr _ _ _ _ _ => none
  | .sbrd _ _ _ _ _ => none
  | .sbcommit _ _ _ _ => none
  | .tget _ _ _ => none
  | .tdone _ _ _ _ => none
  | .tret _ _ _ _ => none
  | .collred _ _ => none
  | .collbc _ _ => none
  | .collstat _ _ _ => none
  | .trap _ _ => none
  | .eret _ => none
  | .crr _ _ _ => none
  | .crw _ _ _ => none
  | .segset _ _ _ => none
  | .segget _ _ _ _ => none
  | .tlbinv _ _ _ _ => none
  | .tlbinvAll _ => none
  | .replay _ _ => none
  | .ctxsv _ _ _ _ _ => none
  | .ctxld _ _ _ _ _ => none
  | .rqpush _ _ _ _ => none
  | .rqpop _ _ _ => none
  | .rqpopId _ _ _ => none
  | .rqpopKill _ _ _ => none
  | .rqpeek _ _ _ => none
  | .pfi _ _ _ => none
  | .pfiRf _ _ _ => none
  | .pfd _ _ _ _ => none
  | .clean _ _ _ _ => none
  | .inval _ _ _ _ => none
  | .cfgload _ _ _ => none
  | .cfgfree _ _ => none
  | .cfgfreeze _ _ _ _ => none
  | .cfgfreezeThaw _ _ => none
  | .cfgread _ _ _ _ => none
  | .slotRefill => none
  | .longOpComplete => none
  | .timerPreempt => none
  | .priorityAging => none
  | .priorityPreempt => none
  | .icacheFill => none
  | .prefetchFill => none
  | .trapEntry => none
  | .migrationArrival => none
  | .runQueueEntry => none
  | .spawnDelivery => none
  | .footprintReady => none
  | .launchFrame => none
  | .launchStart => none
  | .budgetExpiry => none
  | .accessPerformed => none
  | .recallAck => none
  | .presenceResend => none
  | .waitLimitExpiry => none
  | .reservationHoldExpiry => none
  | .sectorDrain => none
  | .lineExpiry => none
  | .translationWalk => none
  | .memTimeoutExpiry => none
  | .monwaitTimeout => none
  | .messageDelivery => none
  | .deviceReport => none
  | .streamWake => none
  | .stepFire => none
  | .nmMetaScan => none
  | .stepStreamEnd => none
  | .stepAccumulationComplete => none
  | .writebackStart => none
  | .writebackComplete => none
  | .generatorLoad => none
  | .generatorLoadComplete => none
  | .enumerationStart => none
  | .enumerationEnd => none
  | .generatorRecordPush => none
  | .copyCommandStart => none
  | .copyCommandEnd => none
  | .copyCommandStop => none
  | .collectiveContribution => none
  | .collectiveDone => none
  | .collectiveTokenCombine => none
  | .mapWriteFail => none
  | .consistLoad => none
  | .consistFreeComplete => none
  | .freezeComplete => none
  | .watchdogExpiry => none
  | .tokenArrival => none
  | .graphLoadReply => none
  | .graphStoreAck => none
  | .returnTokenArrival => none
  | .graphFaultRetry => none
  | .callWaitResume => none
  | .converterToken => none
  | .converterAck => none
  | .sealComplete => none
  | .unsealComplete => none
  | .drainTokenArrival => none
  | .evictionScheduleEntry => none
  | .heartbeat => none
  | .agentSuspect => none
  | .probeExpiry => none
  | .selftestComplete => none
  | .sliceExpiry => none
  | .swapComplete => none
  | .commit => none
  | .stop => none
  | .destroy => none
  | .configOpComplete => none
  | .domainTableWrite => none
  | .registerWrite => none
  | .write => none
  | .read => none
  | .readresp => none
  | .acq => none
  | .release => none
  | .msg => none
  | .attest => none
  | .leaseOpen => none
  | .leaseRenew => none
  | .leaseClose => none
  | .acknowledgement => none
  | .frameResend => none
  | .leaseLapse => none
  | .lockstepInputForward => none
  | .lockstepInputInject => none
  | .digestWindowEnd => none
  | .digestArrival => none
  | .pwrgood => none
  | .resetRelease => none
  | .resetAssert => none
  | .firmwareVerified => none
  | .stationSelftestDone => none
  | .lmTrainingDone => none
  | .linkTrained => none
  | .linkLoss => none
  | .powerSample => none
  | .dutyStep => none
  | .thermalTrip => none
  | .activationInterval => none
  | .graphPresenceWaitLimit => none
  | .graphPresenceReply => none
  | .lockstepAlignment => none
  | .inboundLegClaim => none
  | .holderRecall => none
  | .probeAnswer => none
  | .pwrgoodDeassert => none

/-- The 64 bits of a Roszon instruction (R109). -/
def encodeRoszon (r : RoszonWord) : Option (BitVec 64) :=
  (roszonOp r.op).map fun o => o ++ r.mod ++ r.d0 ++ r.d1 ++ r.imm

/-- The little-endian number of the first `n` bytes of a list (R1). -/
def leBytes : Nat → List Byte → Nat
  | 0, _ => 0
  | _ + 1, [] => 0
  | n + 1, b :: bs => b.toNat + 256 * leBytes n bs

/-- The `n` bytes of a number, lowest first (R1). -/
def toLeBytes : Nat → Nat → List Byte
  | 0, _ => []
  | n + 1, v => BitVec.ofNat 8 v :: toLeBytes n (v / 256)

/-- Read one Porlek instruction from bytes: the instruction and the bytes that follow it (R81). -/
def decodePorlekBytes (bs : List Byte) : Except DecodeError (Instr × List Byte) :=
  if bs.length < 4 then .error .short
  else match decodePorlek (BitVec.ofNat 32 (leBytes 4 bs)) with
    | .ok i => .ok (i, bs.drop 4)
    | .error e => .error e

/-- Read one Roszon instruction from bytes (R109). -/
def decodeRoszonBytes (bs : List Byte) : Except DecodeError (RoszonWord × List Byte) :=
  if bs.length < 8 then .error .short
  else match decodeRoszon (BitVec.ofNat 64 (leBytes 8 bs)) with
    | .ok i => .ok (i, bs.drop 8)
    | .error e => .error e

/-- The bytes of a Porlek instruction in memory; empty for what is no Porlek instruction. -/
def encodePorlekBytes (i : Instr) : List Byte :=
  match encodePorlek i with
  | some w => toLeBytes 4 w.toNat
  | none => []

/-- The instruction the decoder reads from `nbits` bits numbered as spec/opcode_table.json numbers them: up to 32 bits a
Porlek word, more a Roszon instruction. -/
def decodeTableWord (nbits w : Nat) : Option Instr :=
  if nbits ≤ 32 then
    match decodePorlekBytes (toLeBytes 4 w) with
    | .ok (i, _) => some i
    | .error _ => none
  else
    match decodeRoszonBytes (toLeBytes 8 w) with
    | .ok (r, _) => some r.op
    | .error _ => none

end Sys2Proof
end

