-- ==== Sys2Proof/Config.lean ====
section
/-! DEFINITION. What the spec leaves to an implementation or to chance: constants without a body, so that a statement holds
whatever they are, and the free values of the assumption log (4, 6, 7). -/

namespace Sys2Proof.Config

/-- The n-th free draw: an instant inside a bound the spec states, or a choice it leaves open (log 4). -/
opaque draw : Nat → Nat

/-- The result of VSFU and SFU function f on an f32 element that R197 does not fix, inside the bounds of R196 (log 6). -/
opaque sfu : Nat → Word → Word

/-- A byte that a peer device's memory answers a read with, at a free draw's number: its contents are not of this device (R7;
log 1). -/
opaque peerByte : Nat → Nat → Byte

/-- SHAKE256 of a byte string to n bytes (R467, R473, R474; log 7). -/
opaque shake256 : List Byte → Nat → List Byte

/-- Ed448 verification: public key, message, signature (RFC 8032; log 7). -/
opaque ed448Verify : List Byte → List Byte → List Byte → Bool

/-- Ed448 signature by the device identity key (RFC 8032; log 7). -/
opaque ed448Sign : List Byte → List Byte

/-- The X448 secret shared with a host's public key, and the device's own public key of a session (RFC 7748; log 7). -/
opaque x448Shared : Nat → List Byte → List Byte
opaque x448Public : Nat → List Byte

/-- The device's nonce of a session (R469; log 7). -/
opaque nonce : Nat → List Byte

/-- The 57-byte identity public key (R474). -/
opaque identityKey : List Byte

/-- The 16 registered host keys; key 0 is the admin key (R469). -/
opaque hostKey : Nat → List Byte

/-- The four vendor key digests, the keys a header's KEYIDX names, the revocation bits and the SVN counter, set at
manufacture (R473, R535; log 7). -/
opaque vendorDigest : Nat → List Byte
opaque vendorKey : Nat → List Byte
opaque vendorRevoked : Nat → Bool
opaque svn : Nat

/-- Power in W that a partition draws, measured at a cycle (R539). -/
opaque partPower : Nat → Nat → Nat

/-- Byte i of a readout's header, which holds the CID, the number of tiles, the anchor's station and the count of elements in an
arrangement that R314 does not state. -/
opaque readoutHeader : (cid tiles anchor count : Nat) → Nat → Byte

/-- The exponent that stands for that of the largest finite value of a format descriptor whose only finite value is zero (R287;
log 12). -/
opaque zeroFormatExp : Nat → Int

/-- The cache, a slice below 256 or the L1 of a station from 256 on, to which entry i of a partition's eviction schedules belongs: the
arrangement of the schedules in their area is not stated (R355, R447). -/
opaque evictCache : Nat → Nat → Nat

/-- The EtherType and the UDP port that an admin's write of bytes at an offset of the configuration window sets: where the port's
configuration stands is not stated (R467, R538; log 104). -/
opaque portConfig : Nat → List Byte → Option (BitVec 16 × Option (BitVec 16))

/-- Module power in mW that the system controller measures at a cycle (R539; log 96). -/
opaque modulePower : Nat → Nat

/-- The pages of an LM stack that fail its test at start (R536; log 95). -/
opaque failedPages : Nat → List Nat

/-- A launch asks for its cluster's L1s to be fused, as its payload says: how it says so is not stated (R356; log 122). -/
opaque launchFuses : List Byte → Bool

end Sys2Proof.Config
end

