-- ==== Sys2Proof/Machine/KMap.lean ====
section
/-! DEFINITION. Keyed collections, bit fields and byte strings. -/

namespace Sys2Proof.Machine

/-- The entry at key i. -/
def kget {α : Type} : KMap α → Nat → Option α
  | [], _ => none
  | (k, a) :: m, i => if k = i then some a else kget m i

/-- m with entry a at key i, keys rising. -/
def kput {α : Type} : KMap α → Nat → α → KMap α
  | [], i, a => [(i, a)]
  | (k, b) :: m, i, a =>
    if i < k then (i, a) :: (k, b) :: m else if i = k then (i, a) :: m else (k, b) :: kput m i a

/-- m without key i. -/
def kdel {α : Type} : KMap α → Nat → KMap α
  | [], _ => []
  | (k, b) :: m, i => if k = i then kdel m i else (k, b) :: kdel m i

/-- Keys rise strictly. -/
def ksorted {α : Type} : KMap α → Bool
  | [] => true
  | [_] => true
  | (i, _) :: (j, b) :: m => decide (i < j) && ksorted ((j, b) :: m)

/-- The byte at an address: an unlisted address reads zero (log 1). -/
def mget (m : KMap Byte) (a : Nat) : Byte := (kget m a).getD 0

/-- m with byte b at address a, in the canonical form: a zero byte is not listed (log 1). -/
def mput (m : KMap Byte) (a : Nat) (b : Byte) : KMap Byte := if b = 0 then kdel m a else kput m a b

/-- m with the n bytes from lo on cleared. -/
def mclear (m : KMap Byte) (lo n : Nat) : KMap Byte := m.filter fun e => !(lo ≤ e.1 && e.1 < lo + n)

/-- The canonical form of memory: rising addresses, no byte equal to what an unlisted address reads as. -/
def mwf (m : KMap Byte) : Bool := ksorted m && m.all fun e => e.2 != 0

/-- Bits hi down to lo of a number. -/
def bits (x hi lo : Nat) : Nat := x / 2 ^ lo % 2 ^ (hi + 1 - lo)

/-- Bit i of a number. -/
def bit (x i : Nat) : Bool := x / 2 ^ i % 2 == 1

/-- A Boolean as 0 or 1. -/
def b2n (b : Bool) : Nat := if b then 1 else 0

/-- The number of a little-endian byte string. -/
def leNat : List Byte → Nat
  | [] => 0
  | b :: bs => b.toNat + 256 * leNat bs

/-- The n low bytes of a number, low byte first. -/
def natLe : Nat → Nat → List Byte
  | 0, _ => []
  | n + 1, x => BitVec.ofNat 8 x :: natLe n (x / 256)

/-- The number in bytes lo to lo + n - 1 of a byte string. -/
def field (f : List Byte) (lo n : Nat) : Nat := leNat ((f.drop lo).take n)

/-- A list sorted by a comparison, equal members in their order. -/
def sortLe {α : Type} (le : α → α → Bool) (l : List α) : List α :=
  let put (x : α) : List α → List α := fun m => m.takeWhile (fun y => !le x y) ++ x :: m.dropWhile fun y => !le x y
  l.foldr put []

/-- Ceiling division. -/
def cdiv (a b : Nat) : Nat := (a + b - 1) / b

/-- The least number with 2^k ≤ n below it: floor of log2. -/
def flog2 (n : Nat) : Nat := Nat.log2 n

/-- The numbers lo to hi - 1. -/
def nats (lo hi : Nat) : List Nat := (List.range (hi - lo)).map (lo + ·)

/-- The first n members of a list padded with d. -/
def padTo {α : Type} (n : Nat) (d : α) (l : List α) : List α := l.take n ++ List.replicate (n - l.length) d

/-- The xorshift step of R134: x ^= x << 13; x ^= x >> 17; x ^= x << 5. -/
def xorShift (x : Word) : Word :=
  let x := x ^^^ (x <<< 13)
  let x := x ^^^ (x >>> 17)
  x ^^^ (x <<< 5)

/-- Zero replaced as R134, R242 and R322 replace it. -/
def nonZero (x : Word) : Word := if x = 0 then 0x6D2B79F5 else x

/-- Sign extension of the low 8·z bits to 64. -/
def sextBytes (z : Nat) (x : DWord) : DWord := (x.truncate (8 * z)).signExtend 64

/-- The low 8·z bits. -/
def zextBytes (z : Nat) (x : DWord) : DWord := (x.truncate (8 * z)).setWidth 64

end Sys2Proof.Machine
end

