-- ==== Sys2Proof/Machine/Fp.lean ====
section
/-! DEFINITION. Number formats, rounding, conversions and the order of sums (spec/05): every value is exact until one rounding
narrows it. Flags are five bits, NV DZ OF UF NX from the top, the order of cr.fpcsr [9:5] (R130). -/

namespace Sys2Proof.Machine

/-- Flags NV, DZ, OF, UF, NX (R130). -/
abbrev Flags := BitVec 5
def fNV : Flags := 16
def fDZ : Flags := 8
def fOF : Flags := 4
def fUF : Flags := 2
def fNX : Flags := 1

/-- A value read from a format: a NaN (signalling or quiet), an infinity, or ±m·2^e. The mark st says that the magnitude lies
strictly between m·2^e and (m + 1)·2^e, for quotients and roots that do not end (R135). -/
inductive Num where
  | nan (sig : Bool)
  | inf (neg : Bool)
  | fin (neg : Bool) (m : Nat) (e : Int) (st : Bool)
  deriving DecidableEq, Repr, Inhabited

/-- A floating-point format: exponent and fraction widths, bias, sign bit, subnormals, specials as SPEC of R138 (2 is
IEEE-like), and whether its NaNs signal. -/
structure Fmt where
  e : Nat
  m : Nat
  bias : Int
  sgn : Bool := true
  sub : Bool := true
  spec : Nat := 2
  sig : Bool := true
  deriving DecidableEq, Repr, Inhabited

/-- The formats of R128 and W96F (R147). -/
def f64 : Fmt := { e := 11, m := 52, bias := 1023 }
def f32 : Fmt := { e := 8, m := 23, bias := 127 }
def bf16 : Fmt := { e := 8, m := 7, bias := 127 }
def f16 : Fmt := { e := 5, m := 10, bias := 15 }
def w96f : Fmt := { e := 15, m := 80, bias := 16383 }

/-- The precision field P of R169: f32, f64, bf16, f16. -/
def fmtOfP : Nat → Fmt
  | 0 => f32 | 1 => f64 | 2 => bf16 | _ => f16

/-- Width in bits. -/
def Fmt.width (f : Fmt) : Nat := b2n f.sgn + f.e + f.m
/-- The sign bit of a code. -/
def Fmt.sign (f : Fmt) (neg : Bool) : Nat := if f.sgn && neg then 2 ^ (f.e + f.m) else 0
/-- Magnitude code of the largest finite value (R141). -/
def Fmt.maxCode (f : Fmt) : Nat :=
  match f.spec with
  | 0 => 2 ^ (f.e + f.m) - 1 | 1 => 2 ^ (f.e + f.m) - 2 | _ => 2 ^ (f.e + f.m) - 2 ^ f.m - 1
/-- Magnitude code of infinity in an IEEE-like format. -/
def Fmt.infCode (f : Fmt) : Nat := 2 ^ (f.e + f.m) - 2 ^ f.m
/-- The canonical NaN (R129, R141); zero where the format has none (R150). -/
def Fmt.nanCode (f : Fmt) : Nat :=
  match f.spec with
  | 0 => 0 | 1 => 2 ^ (f.e + f.m) - 1 | _ => f.infCode + 2 ^ (f.m - 1)
/-- Exponent of the least normal value. -/
def Fmt.emin (f : Fmt) : Int := 1 - f.bias
/-- Exponent of the subnormal quantum. -/
def Fmt.qmin (f : Fmt) : Int := 1 - f.bias - f.m
/-- Exponent of the leading bit of the largest finite value. -/
def Fmt.emax (f : Fmt) : Int := (f.maxCode / 2 ^ f.m : Nat) - f.bias

/-- The value of a code (R128, R140, R141, R147). -/
def Fmt.num (f : Fmt) (c : Nat) : Num :=
  let fr := c % 2 ^ f.m
  let x := c / 2 ^ f.m % 2 ^ f.e
  let neg := f.sgn && bit c (f.e + f.m)
  if f.spec = 2 ∧ x = 2 ^ f.e - 1 then
    if fr = 0 then .inf neg else .nan (f.sig && !bit fr (f.m - 1))
  else if f.spec = 1 ∧ x = 2 ^ f.e - 1 ∧ fr = 2 ^ f.m - 1 then .nan false
  else if x = 0 then (if f.sub then .fin neg fr f.qmin false else .fin neg 0 0 false)
  else .fin neg (2 ^ f.m + fr) ((x : Int) - f.bias - f.m) false

/-- The magnitude m·2^e in whole units of 2^q under a mode of R130, and whether it is inexact (R132, R135). Mode 5, SR, adds
the 32 bits of x to the top of the discarded field. A tie under RNE goes to the even count of units; in a narrow format without fraction
bits both neighbours' significands end in 1, R132 picks neither, and the model takes the larger magnitude (log 144). -/
def roundMag (mode : Nat) (x : Word) (neg : Bool) (m : Nat) (e : Int) (st : Bool) (q : Int) : Nat × Bool :=
  if q ≤ e then (m * 2 ^ (e - q).toNat, st)
  else
    let sh := (q - e).toNat
    let i := m / 2 ^ sh
    let r := m % 2 ^ sh
    let half := 2 ^ (sh - 1)
    let ix := r != 0 || st
    let up : Bool := match mode with
      | 0 => decide (half < r) || (r == half && (st || i % 2 == 1))
      | 1 => false
      | 2 => neg && ix
      | 3 => !neg && ix
      | 4 => decide (half ≤ r)
      | _ => decide (2 ^ 32 ≤ (if 32 ≤ sh then r / 2 ^ (sh - 32) else r * 2 ^ (32 - sh)) + x.toNat)
    (i + b2n up, ix)

/-- A rounded result: code with sign, flags, and whether it overflowed (the code then means nothing). -/
structure Rounded where
  code : Nat
  fl : Flags
  ovf : Bool
  deriving DecidableEq, Repr

/-- Rounding of a finite value into a format (R132, R133): tininess is detected after rounding with the exponent unbounded, and
the delivered value is rounded once at its own quantum; a format without subnormals then drops a subnormal (R150). In a format
whose only finite value is zero a nonzero value both overflows and is tiny: zero with UF and NX is delivered (log 106). -/
def roundFin (f : Fmt) (mode : Nat) (x : Word) (neg : Bool) (m : Nat) (e : Int) (st : Bool) : Rounded :=
  if m = 0 then { code := f.sign neg, fl := 0, ovf := false }
  else
    let e0 := e + (Nat.log2 m : Int)
    let qU := e0 - f.m
    let q := max qU f.qmin
    let r := roundMag mode x neg m e st q
    let mag := (q - f.qmin).toNat * 2 ^ f.m + r.1
    let tiny := decide (e0 < f.emin) &&
      !(e0 + 1 == f.emin && (roundMag mode x neg m e st qU).1 == 2 ^ (f.m + 1))
    if !f.sub && decide (mag < 2 ^ f.m) then { code := f.sign neg, fl := fUF ||| fNX, ovf := false }
    else
      { code := f.sign neg + mag
        fl := (if tiny && r.2 then fUF else 0) ||| (if r.2 then fNX else 0)
        ovf := decide (f.maxCode < mag) }

/-- A mode that takes an overflow to the largest finite value (R133). -/
def toMax (mode : Nat) (neg : Bool) : Bool := mode == 1 || (mode == 2 && !neg) || (mode == 3 && neg)

/-- Round(fmt, v, mode) into a format with infinity and NaN (R129, R132, R133): code and flags. -/
def roundNum (f : Fmt) (mode : Nat) (x : Word) : Num → Nat × Flags
  | .nan sig => (f.nanCode, if sig then fNV else 0)
  | .inf neg => (f.sign neg + f.infCode, 0)
  | .fin neg m e st =>
    let r := roundFin f mode x neg m e st
    if r.ovf then
      (f.sign neg + (if toMax mode neg then f.maxCode else f.infCode), fOF ||| fNX)
    else (r.code, r.fl)

/-- The type of an element: floating-point or integer (R174, R194, R284). -/
inductive Ty where
  | fp (f : Fmt)
  | int (w : Nat) (sgn : Bool)
  deriving DecidableEq, Repr, Inhabited

/-- Width in bits of an element's code. -/
def Ty.width : Ty → Nat
  | .fp f => f.width | .int w _ => w
/-- A floating-point type. -/
def Ty.isFp : Ty → Bool
  | .fp _ => true | .int _ _ => false
/-- The exact value of a code (R140 to R142). -/
def Ty.num : Ty → Nat → Num
  | .fp f, c => f.num (c % 2 ^ f.width)
  | .int w sgn, c =>
    let c := c % 2 ^ w
    if sgn && decide (2 ^ (w - 1) ≤ c) then .fin true (2 ^ w - c) 0 false else .fin false c 0 false

/-- Convert(type, v, mode, rule) with rule 0 SAT, 1 WRAP, 2 SPEC (R149, R150): code and flags. The rule stands in for the infinity of
R133; an overflow that a directed mode takes to the largest finite value stays there (log 13). -/
def convert (t : Ty) (mode rule : Nat) (x : Word) (v : Num) : Nat × Flags :=
  match t, v with
  | .fp f, .nan sig => (f.nanCode, if sig || f.spec == 0 then fNV else 0)
  | .fp f, .inf neg =>
    if neg && !f.sgn then (if rule = 2 then f.nanCode else 0, fNV)
    else if f.spec = 2 then (f.sign neg + f.infCode, 0)
    else if rule = 2 ∧ f.spec = 1 then (f.nanCode, fNV)
    else (f.sign neg + f.maxCode, fNV)
  | .fp f, .fin neg m e st =>
    if neg && !f.sgn then
      let r := roundMag mode x neg m e st f.qmin
      if r.1 = 0 then (0, if r.2 then fUF ||| fNX else 0) else (if rule = 2 then f.nanCode else 0, fNV)
    else
      let r := roundFin f mode x neg m e st
      if r.ovf then
        (if toMax mode neg then f.sign neg + f.maxCode
         else if rule = 2 ∧ f.spec = 2 then f.sign neg + f.infCode
         else if rule = 2 ∧ f.spec = 1 then f.nanCode
         else f.sign neg + f.maxCode, fOF ||| fNX)
      else (r.code, r.fl)
  | .int _ _, .nan _ => (0, fNV)
  | .int w sgn, .inf neg =>
    (if rule = 1 then 0 else if neg then (if sgn then 2 ^ (w - 1) else 0) else (if sgn then 2 ^ (w - 1) - 1 else 2 ^ w - 1),
     fNV)
  | .int w sgn, .fin neg m e st =>
    let r := roundMag mode x neg m e st 0
    let lim := if neg then (if sgn then 2 ^ (w - 1) else 0) else (if sgn then 2 ^ (w - 1) - 1 else 2 ^ w - 1)
    let code := fun n => if neg then (2 ^ w - n % 2 ^ w) % 2 ^ w else n % 2 ^ w
    if r.1 ≤ lim then (code r.1, if r.2 then fNX else 0)
    else (code (if rule = 1 then r.1 else lim), fNV)

/-! ### Exact operations -/

/-- The value with its sign changed; a NaN keeps its kind. -/
def Num.neg : Num → Num
  | .nan s => .nan s | .inf n => .inf (!n) | .fin n m e st => .fin (!n) m e st

/-- A NaN, and a signalling NaN. -/
def Num.isNan : Num → Bool
  | .nan _ => true | _ => false
def Num.isSig : Num → Bool
  | .nan s => s | _ => false

/-- NV when an operand is a signalling NaN (R129). -/
def sigNV (l : List Num) : Flags := if l.any Num.isSig then fNV else 0

/-- The signed magnitude of ±m·2^e in units of 2^q, q at most e. -/
def scaled (neg : Bool) (m : Nat) (e q : Int) : Int :=
  let n : Int := (m * 2 ^ (e - q).toNat : Nat)
  if neg then -n else n

/-- Exact sum; an exact zero sum is +0, or -0 in mode RDN, or -0 when every addend is -0 (R132, R171). -/
def addNum (mode : Nat) : Num → Num → Num × Flags
  | .nan a, b => (.nan false, sigNV [.nan a, b])
  | a, .nan b => (.nan false, sigNV [a, .nan b])
  | .inf a, .inf b => if a = b then (.inf a, 0) else (.nan false, fNV)
  | .inf a, .fin _ _ _ _ => (.inf a, 0)
  | .fin _ _ _ _, .inf b => (.inf b, 0)
  | .fin na ma ea _, .fin nb mb eb _ =>
    let q := min ea eb
    let s := scaled na ma ea q + scaled nb mb eb q
    if s = 0 then (.fin (mode == 2 || (ma == 0 && mb == 0 && na && nb)) 0 0 false, 0)
    else (.fin (decide (s < 0)) s.natAbs q false, 0)

/-- Exact product (R171). -/
def mulNum : Num → Num → Num × Flags
  | .nan a, b => (.nan false, sigNV [.nan a, b])
  | a, .nan b => (.nan false, sigNV [a, .nan b])
  | .inf a, .inf b => (.inf (a != b), 0)
  | .inf a, .fin b m _ _ => if m = 0 then (.nan false, fNV) else (.inf (a != b), 0)
  | .fin a m _ _, .inf b => if m = 0 then (.nan false, fNV) else (.inf (a != b), 0)
  | .fin a ma ea _, .fin b mb eb _ => (.fin (a != b) (ma * mb) (ea + eb) false, 0)

/-- Exact quotient with all its bits: 130 bits of it and a mark for a remainder (R135, R171). -/
def divNum : Num → Num → Num × Flags
  | .nan a, b => (.nan false, sigNV [.nan a, b])
  | a, .nan b => (.nan false, sigNV [a, .nan b])
  | .inf _, .inf _ => (.nan false, fNV)
  | .inf a, .fin b _ _ _ => (.inf (a != b), 0)
  | .fin a _ _ _, .inf b => (.fin (a != b) 0 0 false, 0)
  | .fin a ma ea _, .fin b mb eb _ =>
    if mb = 0 then (if ma = 0 then (.nan false, fNV) else (.inf (a != b), fDZ))
    else
      let s := 132 + Nat.log2 mb
      let n := ma * 2 ^ s
      (.fin (a != b) (n / mb) (ea - eb - s) (n % mb != 0), 0)

/-- Integer square root, by its bits from bit k down. -/
def isqrt (n : Nat) : Nat → Nat → Nat
  | 0, r => if (r + 1) * (r + 1) ≤ n then r + 1 else r
  | k + 1, r => isqrt n k (if (r + 2 ^ (k + 1)) * (r + 2 ^ (k + 1)) ≤ n then r + 2 ^ (k + 1) else r)

/-- Exact square root with all its bits (R135, R171). -/
def sqrtNum : Num → Num × Flags
  | .nan a => (.nan false, sigNV [.nan a])
  | .inf neg => if neg then (.nan false, fNV) else (.inf false, 0)
  | .fin neg m e _ =>
    if m = 0 then (.fin neg 0 0 false, 0)
    else if neg then (.nan false, fNV)
    else
      let s := 260 - Nat.log2 m + (if (e - (260 - Nat.log2 m : Nat)) % 2 = 0 then 0 else 1)
      let n := m * 2 ^ s
      let r := isqrt n 132 0
      (.fin false r ((e - s) / 2) (r * r != n), 0)

/-- a·b + c exactly (R158, R177): 0·∞ raises NV even beside a quiet NaN. -/
def fmaNum (mode : Nat) (a b c : Num) : Num × Flags :=
  let p := mulNum a b
  match p.1, a.isNan || b.isNan with
  | .nan _, false => (.nan false, fNV ||| sigNV [c])
  | v, _ =>
    let r := addNum mode v c
    (r.1, p.2 ||| r.2 ||| sigNV [a, b, c])

/-- Order of two values that are not NaN: -1, 0 or 1, with -0 equal to +0. -/
def cmpNum : Num → Num → Int
  | .inf a, .inf b => if a = b then 0 else if a then -1 else 1
  | .inf a, _ => if a then -1 else 1
  | _, .inf b => if b then 1 else -1
  | .fin na ma ea _, .fin nb mb eb _ =>
    let q := min ea eb
    let d := scaled na ma ea q - scaled nb mb eb q
    if d < 0 then -1 else if d = 0 then 0 else 1
  | _, _ => 0

/-- The sign of a value that is not a NaN. -/
def Num.sgn : Num → Bool
  | .nan _ => false | .inf n => n | .fin n _ _ _ => n

/-- a stands below b, with -0 below +0 (R172). -/
def ltMin (a b : Num) : Bool :=
  match cmpNum a b with
  | -1 => true
  | 0 => a.sgn && !b.sgn
  | _ => false

/-- A code as an arithmetic operation passes it on: a NaN is the canonical one (R129). -/
def Fmt.quiet (f : Fmt) (x : Nat) : Nat := if (f.num x).isNan then f.nanCode else x

/-- FMIN and FMAX on codes (R172): the operand itself is returned. -/
def minMax (f : Fmt) (mx : Bool) (x y : Nat) : Nat × Flags :=
  let a := f.num x
  let b := f.num y
  let fl := sigNV [a, b]
  if a.isNan && b.isNan then (f.nanCode, fl)
  else if a.isNan then (y, fl)
  else if b.isNan then (x, fl)
  else (if ltMin a b != mx then x else y, fl)

/-- Comparison by a condition of R189: 0 EQ, 1 LT, 2 LE, 3 UN, 4 NE. -/
def fcmp (f : Fmt) (c : Nat) (x y : Nat) : Bool × Flags :=
  let a := f.num x
  let b := f.num y
  let un := a.isNan || b.isNan
  let fl := if (c = 1 ∨ c = 2) && un then fNV else sigNV [a, b]
  let k := cmpNum a b
  (match c with
   | 0 => !un && k == 0
   | 1 => !un && k == -1
   | 2 => !un && k != 1
   | 3 => un
   | _ => un || k != 0, fl)

/-- The class mask of FCLASS (R173). -/
def fclassOf (f : Fmt) (c : Nat) : Nat :=
  match f.num c with
  | .nan s => if s then 256 else 512
  | .inf n => if n then 1 else 128
  | .fin n m _ _ =>
    if m = 0 then (if n then 8 else 16)
    else if m < 2 ^ f.m then (if n then 4 else 32) else (if n then 2 else 64)

/-- The floating-point operations by name: 0 add, 1 sub, 2 mul, 3 div, 4 sqrt, 5 a·b+c, 6 a·b-c, 7 -(a·b+c), 8 -(a·b-c).
The negated forms negate the addends, so an exact zero sum keeps the sign R132 gives it (log 10). -/
def fpExact (op mode : Nat) (a b c : Num) : Num × Flags :=
  match op with
  | 0 => addNum mode a b
  | 1 => addNum mode a b.neg
  | 2 => mulNum a b
  | 3 => divNum a b
  | 4 => sqrtNum a
  | 5 => fmaNum mode a b c
  | 6 => fmaNum mode a b c.neg
  | 7 => fmaNum mode a.neg b c.neg
  | _ => fmaNum mode a.neg b c

/-- An operation on codes with one rounding (R158, R171, R177). -/
def fpOp (f : Fmt) (op mode : Nat) (r : Word) (x y z : Nat) : Nat × Flags :=
  let v := fpExact op mode (f.num x) (f.num y) (f.num z)
  let res := roundNum f mode r v.1
  (res.1, v.2 ||| res.2)

/-! ### Format registers -/

/-- A descriptor is illegal (R139). -/
def fdIllegal (d : Nat) : Bool :=
  let cls := bits d 23 20
  let e := bits d 2 0
  let m := bits d 6 3
  let s := b2n (bit d 7)
  let spec := bits d 17 16
  let sub := bit d 18
  let int := bit d 19
  d / 2 ^ 24 != 0 || 4 < cls || (1 ≤ cls && bits d 19 0 != 0) ||
    (cls == 0 && (s + e + m < 2 || 8 < s + e + m || 8 < m || spec == 3 || (e == 0 && !int) ||
      (int && (e != 0 || spec != 0 || sub || bits d 15 8 != 0)) || (sub && m == 0) ||
      (spec == 2 && (e < 2 || m == 0))))

/-- The type a descriptor gives (R138 to R142). -/
def fdTy (d : Nat) : Ty :=
  match bits d 23 20 with
  | 0 =>
    if bit d 19 then .int (b2n (bit d 7) + bits d 6 3) (bit d 7)
    else
      let b := bits d 15 8
      .fp { e := bits d 2 0, m := bits d 6 3, bias := if 128 ≤ b then (b : Int) - 256 else b, sgn := bit d 7,
            sub := bit d 18, spec := bits d 17 16, sig := false }
  | 1 => .fp f16
  | 2 => .fp bf16
  | 3 => .fp f32
  | _ => .int 32 true

/-- Container bits of a type's element (R104). -/
def container (w : Nat) : Nat := if w ≤ 2 then 2 else if w ≤ 4 then 4 else if w ≤ 8 then 8 else if w ≤ 16 then 16 else 32

/-- A descriptor is a narrow float, and a narrow format of either kind. -/
def fdNarrowFloat (d : Nat) : Bool := bits d 23 20 == 0 && !bit d 19
def fdNarrow (d : Nat) : Bool := bits d 23 20 == 0

/-- The type of a VCVT or CVT type code below 7 (R194, R284). -/
def tyOfCode : Nat → Ty
  | 0 => .fp f32 | 1 => .int 32 true | 2 => .int 32 false | 3 => .fp f16 | 4 => .fp bf16 | 5 => .int 16 true
  | _ => .int 16 false

/-- The exponent of the largest finite value of a descriptor's format (R224, R287); of a format whose only finite value is zero the
spec gives none (log 12). -/
def topExp (d : Nat) : Int :=
  let top : Num := match fdTy d with
    | .fp f => f.num f.maxCode
    | .int w sgn => .fin false (if sgn then 2 ^ (w - 1) - 1 else 2 ^ w - 1) 0 false
  match top with
  | .fin _ m e _ => if m = 0 then Config.zeroFormatExp d else e + Nat.log2 m
  | _ => Config.zeroFormatExp d

/-! ### W96 and the k-step -/

/-- Addition into W96F: nearest, ties to even (R148). -/
def w96Add (a b : W96) : W96 × Flags :=
  let v := addNum 0 (w96f.num a.toNat) (w96f.num b.toNat)
  let r := roundNum w96f 0 0 v.1
  (BitVec.ofNat 96 r.1, v.2 ||| r.2)

/-- A value rounded into W96F, exact where it is representable (R148). -/
def toW96 (v : Num) : W96 := BitVec.ofNat 96 (roundNum w96f 0 0 v).1

/-- Leading-bit exponent of a nonzero finite value. -/
def leadExp : Num → Option Int
  | .fin _ m e _ => if m = 0 then none else some (e + Nat.log2 m)
  | _ => none

/-- The truncated exact sum of a group of products (R152 steps 1 to 3). -/
def groupSum (ps : List Num) : Num :=
  if ps.any Num.isNan || (ps.any (· == .inf false) && ps.any (· == .inf true)) then .nan false
  else if ps.any (· == .inf false) then .inf false
  else if ps.any (· == .inf true) then .inf true
  else
    match (ps.filterMap leadExp).max? with
    | none => .fin false 0 0 false
    | some t =>
      let q := t - 56
      let s : Int := ps.foldl (fun s p => match p with
        | .fin n m e _ => s + (let k : Int := (if q ≤ e then m * 2 ^ (e - q).toNat else m / 2 ^ (q - e).toNat : Nat)
                               if n then -k else k)
        | _ => s) 0
      if s = 0 then .fin false 0 0 false else .fin (decide (s < 0)) s.natAbs q false

/-- The contribution of a floating-point k-step: products in order, the group's sum, the two block scales, and a rounding into
W96F (R152). A NaN scale gives NaN; else a zero scale, and an all-zero group, give +0 whatever the other factors are (R144, R152).
A NaN scale is taken to prevail over both (log 107). -/
def kStep (as bs : List Num) (sa sb : Num) : W96 :=
  let ps := (as.zip bs).map fun p => (mulNum p.1 p.2).1
  let isZero : Num → Bool := fun v => match v with | .fin _ 0 _ _ => true | _ => false
  if sa.isNan || sb.isNan then toW96 (.nan false)
  else if isZero sa || isZero sb || ps.all isZero then 0
  else match groupSum ps with
    | .nan _ => toW96 (.nan false)
    | v => toW96 (mulNum (mulNum v sa).1 sb).1

/-- An E8M0 scale byte (R144). -/
def e8m0 (v : Nat) : Num := if v = 255 then .nan false else .fin false 1 ((v : Int) - 127) false

/-! ### Special functions (R196, R197) -/

/-- 2^f in units of 2^-100, rounded down, f in units of 2^-60 below 1: the product of the roots of 2 that its bits name. -/
def pow2frac (f : Nat) : Nat :=
  ((List.range 60).foldl (fun (st : Nat × Nat) k =>
    let root := isqrt (st.2 * 2 ^ 100) 100 0
    (if bit f (59 - k) then st.1 * root / 2 ^ 100 else st.1, root)) (2 ^ 100, 2 ^ 101)).1

/-- log2 of y in units of 2^-100, 1 ≤ y < 2, as its first 60 fraction bits. -/
def log2frac (y : Nat) : Nat :=
  ((List.range 60).foldl (fun (st : Nat × Nat) _ =>
    let y2 := st.1 * st.1 / 2 ^ 100
    if 2 ^ 101 ≤ y2 then (y2 / 2, 2 * st.2 + 1) else (y2, 2 * st.2)) (y, 0)).2

/-- log2(e) in units of 2^-64. -/
def log2e : Nat := 26613026195688644984

/-- An f32 code is within n·2^k of every value of a sign from m·2^e to m·2^e + 2^u, or to the next power of two where that is less. -/
def codeWithin (r : Nat) (neg : Bool) (m : Nat) (e u : Int) (n : Nat) (k : Int) : Bool :=
  match f32.num r with
  | .fin nr mr er _ =>
    let q := min (min er e) (min u k)
    let z (x : Nat) (y : Int) : Int := (x * 2 ^ (y - q).toNat : Nat)
    let a := if nr = neg then z mr er else -z mr er
    decide (min (z m e + z 1 u) (z (2 ^ (Nat.log2 m + 1)) e) - z n k ≤ a) && decide (a ≤ z m e + z n k)
  | _ => false

/-- The unit in the last place of an exact result of magnitude m·2^e, as a power of two (R196; log 6). -/
def ulpOf (m : Nat) (e : Int) : Int := max ((Nat.log2 m : Int) + e) (-126) - 23

/-- A free one of the f32 codes within n units of an exact result, which lies between m·2^e and m·2^e + 2^u (R196). -/
def nearCode (fn : Nat) (x : Word) (neg : Bool) (m : Nat) (e u : Int) (n : Nat) : Nat :=
  let c := (roundNum f32 1 0 (.fin neg m e true)).1
  let l := ((List.range (3 * n + 1)).map fun i => c + i - 2 * n).filter fun r => codeWithin r neg m e u n (ulpOf m e)
  l.getD ((Config.sfu fn x).toNat % l.length) c

/-- log2 of a value of 0.5 to 2, where the absolute error 2^-24 is the larger bound (R196): any code within it, the free one when
it is. -/
def nearLog (x : Word) (neg : Bool) (m : Nat) (e u : Int) : Nat :=
  let f := (Config.sfu 1 x).toNat
  if codeWithin f neg m e u 1 (-24) then f else nearCode 1 x neg m e u 2

/-- Flags of an inexact result whose exact value truncates to code c: NX, with OF at infinity and UF when it is tiny. -/
def inexactFlags (c r : Nat) : Flags :=
  if r % 2 ^ 31 = f32.infCode then fOF ||| fNX else if c % 2 ^ 31 < 2 ^ 23 then fUF ||| fNX else fNX

/-- A result within n units of an exact one that no case of R197 fixes, with its flags. -/
def nearResult (fn : Nat) (x : Word) (neg : Bool) (m : Nat) (e u : Int) (n : Nat) : Nat × Flags :=
  let r := nearCode fn x neg m e u n
  (r, inexactFlags (roundNum f32 1 0 (.fin neg m e true)).1 r)

/-- rsqrt of m·2^e within 2 units. -/
def nearRsqrt (x : Word) (m : Nat) (e : Int) : Nat × Flags :=
  let k : Nat × Int := if e % 2 = 0 then (m, e) else (2 * m, e - 1)
  let q : Int := -100 - k.2 / 2
  nearResult 3 x false (isqrt (2 ^ 200 / k.1) 100 0) q q 2

/-- m·2^e is a power of two: its exponent. -/
def pow2Of (m : Nat) (e : Int) : Option Int := if m = 2 ^ Nat.log2 m then some (e + Nat.log2 m) else none

/-- 2^v for a fixed-point exponent v in units of 2^-60: the integer m and the exponent e of m·2^e. -/
def exp2Fixed (v : Int) : Nat × Int :=
  let i := v / 2 ^ 60
  (pow2frac (v - i * 2 ^ 60).toNat, i - 100)

/-- The special functions 0 exp2, 1 log2, 2 rcp, 3 rsqrt, 4 tanh on an f32 code: the special and exact cases of R197, and
otherwise a free result inside the bound of R196, the same for the same input (R159; log 6). -/
def sfuOp (fn : Nat) (x : Word) : Nat × Flags :=
  let inf (n : Bool) := f32.sign n + f32.infCode
  match f32.num x.toNat with
  | .nan s => (f32.nanCode, if s then fNV else 0)
  | .inf n =>
    match fn with
    | 0 => (if n then 0 else inf false, 0)
    | 1 => if n then (f32.nanCode, fNV) else (inf false, 0)
    | 2 => (f32.sign n, 0)
    | 3 => if n then (f32.nanCode, fNV) else (0, 0)
    | _ => (f32.sign n + 0x3F800000, 0)
  | .fin n m e _ =>
    if m = 0 then
      match fn with
      | 0 => (0x3F800000, 0)
      | 1 => (inf true, fDZ)
      | 2 => (inf n, fDZ)
      | 3 => (inf n, fDZ)
      | _ => (f32.sign n, 0)
    else
      let fix : Int := if -60 ≤ e then scaled n m e (-60) else (let k : Int := (m / 2 ^ (-60 - e).toNat : Nat); if n then -k - 1 else k)
      match fn with
      | 0 =>
        if !n && decide (128 * 2 ^ 60 ≤ fix) then (inf false, fOF ||| fNX)
        else if fix % 2 ^ 60 = 0 ∧ -60 ≤ e ∧ -149 * 2 ^ 60 ≤ fix then
          roundNum f32 0 0 (.fin false 1 (fix / 2 ^ 60) false)
        else if fix < -200 * 2 ^ 60 then ((Config.sfu 0 x).toNat % 2, fUF ||| fNX)
        else
          let v := exp2Fixed fix
          nearResult 0 x false v.1 v.2 (v.2 + 42) 1
      | 1 =>
        if n then (f32.nanCode, fNV)
        else match pow2Of m e with
          | some k => roundNum f32 0 0 (.fin (decide (k < 0)) k.natAbs 0 false)
          | none =>
            let l := Nat.log2 m
            let v : Int := (e + l) * 2 ^ 60 + log2frac (m * 2 ^ (100 - l))
            let y := if v < 0 then v.natAbs - 2 else v.natAbs
            let half : Bool := decide (e + l = -1) || decide (e + l = 0)
            if half && decide (v.natAbs < 2 ^ 58) then (nearLog x (decide (v < 0)) y (-60) (-58), fNX)
            else nearResult 1 x (decide (v < 0)) y (-60) (-58) 2
      | 2 =>
        match pow2Of m e with
        | some k => roundNum f32 0 0 (.fin n 1 (-k) false)
        | none =>
          let v := (divNum (.fin n 1 0 false) (.fin false m e false)).1
          if (roundNum f32 1 0 v).2 &&& fOF ≠ 0 then (inf n, fOF ||| fNX) else
            nearResult 2 x n (2 ^ 100 / m) (-100 - e) (-100 - e) 1
      | 3 =>
        if n then (f32.nanCode, fNV)
        else match pow2Of m e with
          | some k =>
            if k % 2 = 0 then roundNum f32 0 0 (.fin false 1 (-(k / 2)) false)
            else nearRsqrt x m e
          | none => nearRsqrt x m e
      | _ =>
        if e + Nat.log2 m < -12 then (x.toNat, fNX ||| (if x.toNat % 2 ^ 31 < 2 ^ 23 then fUF else 0))
        else if 19 * 2 ^ 59 ≤ fix.natAbs then (f32.sign n + 0x3F800000, fNX)
        else
          let t := 2 * fix.natAbs * log2e / 2 ^ 64
          let p := pow2frac (t % 2 ^ 60) * 2 ^ (t / 2 ^ 60)
          let q := (p - 2 ^ 100) * 2 ^ 100 / (p + 2 ^ 100)
          nearResult 4 x n q (-100) (-56) 3

/-! ### Random states -/

/-- A stepped lane state of a unit other than a thread (R137). -/
def stepped (x : Word) : Nat → Word
  | 0 => nonZero x
  | n + 1 => xorShift (stepped x n)

/-- The state of lane j, element k of a token's rounding (R137). -/
def laneState (iter seq : Half) (j k : Nat) : Word :=
  stepped ((iter.setWidth 32 <<< 16) ^^^ seq.setWidth 32 ^^^ BitVec.ofNat 32 (j * 0x9E3779B9)) (k + 1)

/-- The state of row i, column c of a write-back (R137). -/
def wbState (iter : Half) (i c : Nat) : Word :=
  stepped ((iter.setWidth 32 <<< 16) ^^^ BitVec.ofNat 32 (i * 256) ^^^ BitVec.ofNat 32 c) 1

end Sys2Proof.Machine
end

