-- ==== Sys2Proof/Machine/Event.lean ====
section
/-! DEFINITION. Tokens, and the steps of the part's own agents and of the outside with what each acts on: the items of the
agenda and of the hand of Sys2Proof/Machine/State.lean. -/

namespace Sys2Proof.Machine

/-- The bytes of a frame or of a firmware image, first byte first (R467, R473). -/
abbrev Frame := List Byte

/-- A token (R100): a payload of eight 32-bit lanes and the header. -/
structure Token where
  /-- Payload, lane j in bits [32j+31:32j]. -/
  pay : BitVec 256
  /-- FMT: index of the format register of narrow payloads. -/
  fmt : BitVec 3
  /-- SC: scaled flag. -/
  sc : Bool
  /-- KIND (R101). -/
  kind : BitVec 4
  /-- SEQ: sequence number. -/
  seq : BitVec 16
  /-- ITER: iteration tag. -/
  iter : BitVec 16
  /-- ACT: activation id. -/
  act : BitVec 12
  /-- VALID: bit j set when lane j holds data. -/
  valid : BitVec 8
  deriving DecidableEq, Repr, Inhabited

/-- A step that no word of a program starts, with what it acts on: stations (st), slots (sl), threads by id (t), long
operations (op), requests (r), packets (pk), messages (m), graph accesses (fid), units and frames (f). -/
inductive Event where
  /-- An empty slot's turn takes the head thread of the highest non-empty priority. (R38) -/
  | slotRefill (st sl : Nat)
  /-- A long operation's result or performed report arrives and the thread may become READY. (R35) -/
  | longOpComplete (t op : Nat)
  /-- The core timer's quantum expires and pre-empts a thread with TE = 1. (R40) -/
  | timerPreempt (st sl : Nat)
  /-- A thread READY for 2^20 cycles has its priority raised. (R39) -/
  | priorityAging (t : Nat)
  /-- A waiting higher-priority thread displaces the lowest-priority running thread. (R398) -/
  | priorityPreempt (st : Nat)
  /-- An instruction-cache miss fill completes. (R88) -/
  | icacheFill (st part line : Nat)
  /-- A PFI or PFD prefetch fill completes and frees its buffer. (R93) -/
  | prefetchFill (st part line : Nat) (l1 : Bool)
  /-- At the thread's turn a pending fault writes the fault registers and enters the handler or faults the thread. (R483) -/
  | trapEntry (st sl : Nat)
  /-- A migration packet reaches a core and takes a hardware entry or the spill ring. (R47) -/
  | migrationArrival (pk : Nat)
  /-- The head of the arrival queue enters the run queue when a context entry is free. (R514) -/
  | runQueueEntry (st : Nat)
  /-- A kind-2 packet reaches its target core, which accepts or refuses the spawn. (R404) -/
  | spawnDelivery (pk : Nat)
  /-- The footprint ranges are brought in and pinned, or fault, and the thread becomes READY or FAULTED. (R50) -/
  | footprintReady (t : Nat)
  /-- A YXT LAUNCH frame creates a host-launched thread, subject to admission. (R51) -/
  | launchFrame (f : Frame)
  /-- A queue starts its next accepted launch after its predecessor finished, starting its budget. (R444) -/
  | launchStart (part n : Nat)
  /-- A launch's budget expires and its threads are killed with BUDGET_OVERRUN. (R444) -/
  | budgetExpiry (part n : Nat)
  /-- A request reaches its home bank and is performed in the word's write order. (R325) -/
  | accessPerformed (r : Nat)
  /-- The same row: a coupler request of a peer device, to hold a sector in state 1 S, 2 E or 3 M, reaches its home. (R351) -/
  | peerAccess (dev key want : Nat)
  /-- A holder's recall acknowledgement arrives and the waiting request is performed. (R351) -/
  | recallAck (r agent : Nat)
  /-- A presence request held in its core for a full deferral list is resent every 256 cycles. (R367) -/
  | presenceResend (r : Nat)
  /-- A thread's cr.wlimit expires and its wait is withdrawn with WAIT_LIMIT. (R368) -/
  | waitLimitExpiry (t op : Nat)
  /-- A reservation held 4,096 cycles is released unchanged and the next waiter granted. (R370) -/
  | reservationHoldExpiry (key t : Nat)
  /-- A combining sector is sent to its home 64 cycles after its first store. (R327) -/
  | sectorDrain (st part line : Nat)
  /-- An unsealed L1 line is invalidated 16,384 cycles after its fill. (R327) -/
  | lineExpiry (st part line : Nat)
  /-- A page-table walk completes with a translation or a fault. (R457) -/
  | translationWalk (r : Nat)
  /-- In a timed partition an access not complete within its WCL ends with MEM_TIMEOUT. (R359) -/
  | memTimeoutExpiry (t op : Nat)
  /-- The same of a graph node's lanes that were issued in a cycle. (R437) -/
  | graphTimeout (fid since : Nat)
  /-- A MONWAIT's timeout expires and it returns with the timeout bit. (R418) -/
  | monwaitTimeout (t op : Nat)
  /-- A message reaches a home mailbox, is delivered or refused, and wakes a parked receiver. (R419) -/
  | messageDelivery (m : Nat)
  /-- A device report reaches a mailbox or waits in the report queue. (R421) -/
  | deviceReport (m : Nat)
  /-- A stream port gains data or room and a parked end proceeds. (R387) -/
  | streamWake (st port : Nat)
  /-- A ready matrix step, the lowest template index, fires and starts its stream. (R218) -/
  | stepFire (st : Nat)
  /-- The sparse-block unit scans a PAT-3 step's metadata before it fires. (R261) -/
  | nmMetaScan (st tm : Nat)
  /-- A step's last stream cycle passes and a releasing step empties its A slot. (R215) -/
  | stepStreamEnd (st : Nat)
  /-- A step's last addition into its accumulators completes. (R218) -/
  | stepAccumulationComplete (st n : Nat)
  /-- A DONE set starts write-back once the unit and output slot are free. (R223) -/
  | writebackStart (st : Nat)
  /-- Write-back ends; the output slot goes FULL and the set EMPTY. (R223) -/
  | writebackComplete (st : Nat)
  /-- A queued IGLOAD takes effect and the generator starts reading its image. (R251) -/
  | generatorLoad (st g : Nat)
  /-- The image read ends; the generator goes LOADED, or EMPTY on a failed read. (R250) -/
  | generatorLoadComplete (st g : Nat)
  /-- A queued IGSTART takes effect, checks the program and begins building. (R243) -/
  | enumerationStart (st g : Nat)
  /-- An enumeration ends READY, DONE or FAULTED. (R250) -/
  | enumerationEnd (st g : Nat)
  /-- The generator pushes records to a stream port as room allows. (R252) -/
  | generatorRecordPush (st g : Nat)
  /-- A channel starts its next queued command, after tile waits. (R383) -/
  | copyCommandStart (st c : Nat)
  /-- A copy command's writes are all performed; tags are set and a completion sent. (R384) -/
  | copyCommandEnd (st c : Nat)
  /-- A copy command stops FAULTED at its first element that cannot complete. (R384) -/
  | copyCommandStop (st c : Nat) (cause : Byte) (addr : DWord)
  /-- A contribution registers at the collective unit and the operation runs once NPART have arrived. (R391) -/
  | collectiveContribution (part n : Nat)
  /-- A collective's writes on a device are performed, or it fails. (R392) -/
  | collectiveDone (part : Nat) (cid : Half) (cause : Byte)
  /-- Tokens of one tag from every device are combined at a collective unit. (R394) -/
  | collectiveTokenCombine (unit dev leg : Nat) (tok : Token)
  /-- A coverage-map write fails and the unit sends a report. (R423) -/
  | mapWriteFail (part c b : Nat) (tid : Word) (cause : Byte) (va : DWord) (grain : Nat)
  /-- The loader validates an image, claims tiles and routes, and reports the outcome. (R122) -/
  | consistLoad (part n : Nat)
  /-- A pending free completes once the last activation ends and releases resources. (R313) -/
  | consistFreeComplete (part : Nat) (cid : Half)
  /-- A freeze and its readout complete and the frozen message is sent. (R314) -/
  | freezeComplete (part : Nat) (cid : Half)
  /-- A consist's stall counter reaches 2^WD; it freezes and is read out. (R437) -/
  | watchdogExpiry (part : Nat) (cid : Half)
  /-- A token reaches an element's matching store by local destination or route. (R106) -/
  | tokenArrival (st elem slot : Nat) (port : Bool) (tok : Token)
  /-- A graph LOAD reply arrives, releasing any hold it caused. (R300) -/
  | graphLoadReply (fid : Nat)
  /-- All lanes of a STORE firing are performed and its acknowledgement count falls. (R300) -/
  | graphStoreAck (fid : Nat)
  /-- A return token reaches the CALLOUT's tile and goes to its dest0. (R308) -/
  | returnTokenArrival (st elem : Nat) (dest : Half) (tok : Token)
  /-- A page-faulted graph lane is re-issued after a TLBINV or 65,536 cycles. (R301) -/
  | graphFaultRetry (fid : Nat)
  /-- A call waiting for an activation id or frame proceeds as one frees. (R57) -/
  | callWaitResume (part n : Nat)
  /-- A converter packs a token into a packet, or restores it to its mesh in order. (R19) Stage 2: a token reaches the near converter
  of a leg; 0: its packet reaches the far one of the pair on this device; 1: a packet of a peer reaches the coupler converter. The last
  number is the cycle in which it left. -/
  | converterToken (leg stage : Nat) (seq : Half) (tok : Token) (since : Nat)
  /-- An acknowledgement frees a place in a route's 64-token window: of the pair on this device (0) or across the coupler (1). (R19) -/
  | converterAck (leg stage : Nat)
  /-- A seal's broadcast and invalidations end and the buffer becomes SEALED. (R347) -/
  | sealComplete (part n : Nat)
  /-- The seal count reaches zero and the buffer is unsealed. (R348) -/
  | unsealComplete (part n : Nat)
  /-- A drain token reaches the memory edge; the last completes the TLBINV. (R460) -/
  | drainTokenArrival (part n : Nat)
  /-- At its frame cycle an eviction-schedule entry fills or evicts a line. (R355) -/
  | evictionScheduleEntry (st part n : Nat)
  /-- An agent's heartbeat arrives. (R500) -/
  | heartbeat (agent : Nat)
  /-- A transaction exceeds four times its class or a heartbeat is missed, and a probe starts. (R500) -/
  | agentSuspect (agent : Nat)
  /-- The same row: a request has waited for an agent for four times its class. (R500) -/
  | transactionLate (agent req : Nat)
  /-- A suspected agent fails to answer its probe in time. (R500) -/
  | probeExpiry (agent : Nat)
  /-- A targeted self-test ends, marking the error transient or lasting. (R503) -/
  | selftestComplete (n : Nat) (pass : Bool)
  /-- The same row: a structure of R504 has met an error that R502 names, and its self-test begins. (R502, R503) -/
  | errorDetected (kind struct severity : Byte) (unit part : Nat) (addr : DWord)
  /-- A time-share slice ends and the next partition is swapped in. (R452) -/
  | sliceExpiry (group : Nat)
  /-- The swap's state move completes and the incoming partition runs. (R498) -/
  | swapComplete (group : Nat) (bad : Bool)
  /-- The command word's COMMIT checks a record and starts a partition. (R448) -/
  | commit (part : Nat)
  /-- The command word's STOP kills, frees and answers everything of a partition. (R448) -/
  | stop (part : Nat)
  /-- The command word's DESTROY makes a STOPPED partition ABSENT. (R448) -/
  | destroy (part : Nat)
  /-- A configuration operation completes and clears BUSY in the status word. (R451) -/
  | configOpComplete
  /-- An admin write to the domain table, refused while any partition runs. (R542) -/
  | domainTableWrite (f : Frame)
  /-- A write to a configuration-window register that has no row of its own. (R451) -/
  | registerWrite (f : Frame)
  /-- A YXT WRITE frame performs path T stores within a window. (R470) -/
  | write (f : Frame)
  /-- A YXT READ frame performs loads and is answered by READRESP. (R470) -/
  | read (f : Frame)
  /-- A host's read response answers a device access to host memory. (R470) -/
  | readresp (f : Frame)
  /-- A host acquires a sector as a coherent holder. (R470) -/
  | acq (f : Frame)
  /-- A host releases a sector or answers a RECALL. (R470) -/
  | release (f : Frame)
  /-- A YXT MSG frame delivers a message to a thread's mailbox. (R470) -/
  | msg (f : Frame)
  /-- A host asks for a signed report of the measurements. (R474) -/
  | attest (f : Frame)
  /-- A LEASE OP 1 frame opens an authenticated session. (R469) -/
  | leaseOpen (f : Frame)
  /-- A LEASE OP 2 frame renews a session's lease. (R469) -/
  | leaseRenew (f : Frame)
  /-- A LEASE OP 3 frame closes a session. (R469) -/
  | leaseClose (f : Frame)
  /-- A TYPE 0 frame carrying only ACK and SACK. (R468) -/
  | acknowledgement (f : Frame)
  /-- The same row: a frame reaches the Ethernet port with an EtherType and, in UDP, a port; only one of YXT goes further. (R467) -/
  | etherFrame (type : Half) (udp : Option Half) (f : Frame)
  /-- A frame unacknowledged for 20 µs is resent. (R468) -/
  | frameResend (sess n : Nat)
  /-- An agent silent for 400 µs lapses and is dead for its partitions. (R469) -/
  | leaseLapse (agent : Nat)
  /-- An input forwarded by the primary reaches the secondary with its delivery cycle. (R464) -/
  | lockstepInputForward (part cycle : Nat) (f : Frame)
  /-- At its delivery cycle both devices inject an input. (R464) -/
  | lockstepInputInject (part : Nat)
  /-- A digest window ends and each device sends its digest. (R465) -/
  | digestWindowEnd (part : Nat)
  /-- A partner's digest arrives, and matching digests release the window's output. (R465) -/
  | digestArrival (part window : Nat) (digest : DWord)
  /-- The board asserts all rails within tolerance. (R535) -/
  | pwrgood
  /-- RESET_N goes high and the port die leaves reset to verify firmware. (R535) -/
  | resetRelease
  /-- RESET_N goes low, ending partitions and sessions. (R541) -/
  | resetAssert
  /-- Firmware verification of a slot ends, starting the image or entering FWFAIL. (R535) -/
  | firmwareVerified (image : Frame)
  /-- A station's start self-test ends, passing or taking it out of service. (R536) -/
  | stationSelftestDone (st : Nat) (pass : Bool)
  /-- An LM stack finishes training and test, or the device enters LMFAIL. (R536) -/
  | lmTrainingDone (stack : Nat) (pass : Bool) (failed : List Nat)
  /-- The Ethernet link trains and the device becomes READY. (R538) -/
  | linkTrained
  /-- The Ethernet link is lost after READY. (R541) -/
  | linkLoss
  /-- Module power is measured every microsecond. (R539) -/
  | powerSample (mw : Nat)
  /-- Every 10 µs the non-timed duties fall or rise by one. (R539) -/
  | dutyStep
  /-- A junction exceeds 110 °C; THERMTRIP_N goes low and partitions stop. (R540) -/
  | thermalTrip
  /-- In a timed partition, a certified consist's waiting call starts its activation once CINT cycles have passed since the previous start. (R442) -/
  | activationInterval (part : Nat) (cid : Half)
  /-- A graph TAKE or PUT whose wait passes its imm16 limit is withdrawn and its activation faults with WAIT_LIMIT. (R302) -/
  | graphPresenceWaitLimit (fid : Nat)
  /-- The reply of a graph TAKE or PUT, performed at its home possibly after deferral, returns to the element, which emits its result token. (R302) -/
  | graphPresenceReply (fid : Nat)
  /-- The partner's alignment through LSPORT at its COMMIT aligns the partition cycle counters, and both supervisor threads start in one cycle. (R464) -/
  | lockstepAlignment (part cycle : Nat)
  /-- The far consist on a peer becomes resident and claims the matching inbound leg, so the near converter starts accepting tokens on that route; or it has gone again. (R116) -/
  | inboundLegClaim (part dev : Nat) (cid : Half) (leg : Nat) (on : Bool)
  /-- A recall from a remote home reaches this device as holder of a proxied sector, which writes back M data, drops to I or S and acknowledges. (R351) -/
  | holderRecall (sector st : Nat)
  /-- A suspected agent answers its probe in time and is no longer suspected. (R500) -/
  | probeAnswer (agent : Nat)
  /-- PWRGOOD falls because a rail has left its tolerance. (R534) -/
  | pwrgoodDeassert
  deriving DecidableEq, Repr

/-- The row of the opcode table that an event is. -/
def Event.instr : Event → Instr
  | .slotRefill _ _ => .slotRefill
  | .longOpComplete _ _ => .longOpComplete
  | .timerPreempt _ _ => .timerPreempt
  | .priorityAging _ => .priorityAging
  | .priorityPreempt _ => .priorityPreempt
  | .icacheFill _ _ _ => .icacheFill
  | .prefetchFill _ _ _ _ => .prefetchFill
  | .trapEntry _ _ => .trapEntry
  | .migrationArrival _ => .migrationArrival
  | .runQueueEntry _ => .runQueueEntry
  | .spawnDelivery _ => .spawnDelivery
  | .footprintReady _ => .footprintReady
  | .launchFrame _ => .launchFrame
  | .launchStart _ _ => .launchStart
  | .budgetExpiry _ _ => .budgetExpiry
  | .accessPerformed _ => .accessPerformed
  | .peerAccess _ _ _ => .accessPerformed
  | .recallAck _ _ => .recallAck
  | .presenceResend _ => .presenceResend
  | .waitLimitExpiry _ _ => .waitLimitExpiry
  | .reservationHoldExpiry _ _ => .reservationHoldExpiry
  | .sectorDrain _ _ _ => .sectorDrain
  | .lineExpiry _ _ _ => .lineExpiry
  | .translationWalk _ => .translationWalk
  | .memTimeoutExpiry _ _ => .memTimeoutExpiry
  | .graphTimeout _ _ => .memTimeoutExpiry
  | .monwaitTimeout _ _ => .monwaitTimeout
  | .messageDelivery _ => .messageDelivery
  | .deviceReport _ => .deviceReport
  | .streamWake _ _ => .streamWake
  | .stepFire _ => .stepFire
  | .nmMetaScan _ _ => .nmMetaScan
  | .stepStreamEnd _ => .stepStreamEnd
  | .stepAccumulationComplete _ _ => .stepAccumulationComplete
  | .writebackStart _ => .writebackStart
  | .writebackComplete _ => .writebackComplete
  | .generatorLoad _ _ => .generatorLoad
  | .generatorLoadComplete _ _ => .generatorLoadComplete
  | .enumerationStart _ _ => .enumerationStart
  | .enumerationEnd _ _ => .enumerationEnd
  | .generatorRecordPush _ _ => .generatorRecordPush
  | .copyCommandStart _ _ => .copyCommandStart
  | .copyCommandEnd _ _ => .copyCommandEnd
  | .copyCommandStop _ _ _ _ => .copyCommandStop
  | .collectiveContribution _ _ => .collectiveContribution
  | .collectiveDone _ _ _ => .collectiveDone
  | .collectiveTokenCombine _ _ _ _ => .collectiveTokenCombine
  | .mapWriteFail _ _ _ _ _ _ _ => .mapWriteFail
  | .consistLoad _ _ => .consistLoad
  | .consistFreeComplete _ _ => .consistFreeComplete
  | .freezeComplete _ _ => .freezeComplete
  | .watchdogExpiry _ _ => .watchdogExpiry
  | .tokenArrival _ _ _ _ _ => .tokenArrival
  | .graphLoadReply _ => .graphLoadReply
  | .graphStoreAck _ => .graphStoreAck
  | .returnTokenArrival _ _ _ _ => .returnTokenArrival
  | .graphFaultRetry _ => .graphFaultRetry
  | .callWaitResume _ _ => .callWaitResume
  | .converterToken _ _ _ _ _ => .converterToken
  | .converterAck _ _ => .converterAck
  | .sealComplete _ _ => .sealComplete
  | .unsealComplete _ _ => .unsealComplete
  | .drainTokenArrival _ _ => .drainTokenArrival
  | .evictionScheduleEntry _ _ _ => .evictionScheduleEntry
  | .heartbeat _ => .heartbeat
  | .agentSuspect _ => .agentSuspect
  | .transactionLate _ _ => .agentSuspect
  | .probeExpiry _ => .probeExpiry
  | .selftestComplete _ _ => .selftestComplete
  | .errorDetected _ _ _ _ _ _ => .selftestComplete
  | .sliceExpiry _ => .sliceExpiry
  | .swapComplete _ _ => .swapComplete
  | .commit _ => .commit
  | .stop _ => .stop
  | .destroy _ => .destroy
  | .configOpComplete => .configOpComplete
  | .domainTableWrite _ => .domainTableWrite
  | .registerWrite _ => .registerWrite
  | .write _ => .write
  | .read _ => .read
  | .readresp _ => .readresp
  | .acq _ => .acq
  | .release _ => .release
  | .msg _ => .msg
  | .attest _ => .attest
  | .leaseOpen _ => .leaseOpen
  | .leaseRenew _ => .leaseRenew
  | .leaseClose _ => .leaseClose
  | .acknowledgement _ => .acknowledgement
  | .etherFrame _ _ _ => .acknowledgement
  | .frameResend _ _ => .frameResend
  | .leaseLapse _ => .leaseLapse
  | .lockstepInputForward _ _ _ => .lockstepInputForward
  | .lockstepInputInject _ => .lockstepInputInject
  | .digestWindowEnd _ => .digestWindowEnd
  | .digestArrival _ _ _ => .digestArrival
  | .pwrgood => .pwrgood
  | .resetRelease => .resetRelease
  | .resetAssert => .resetAssert
  | .firmwareVerified _ => .firmwareVerified
  | .stationSelftestDone _ _ => .stationSelftestDone
  | .lmTrainingDone _ _ _ => .lmTrainingDone
  | .linkTrained => .linkTrained
  | .linkLoss => .linkLoss
  | .powerSample _ => .powerSample
  | .dutyStep => .dutyStep
  | .thermalTrip => .thermalTrip
  | .activationInterval _ _ => .activationInterval
  | .graphPresenceWaitLimit _ => .graphPresenceWaitLimit
  | .graphPresenceReply _ => .graphPresenceReply
  | .lockstepAlignment _ _ => .lockstepAlignment
  | .inboundLegClaim _ _ _ _ _ => .inboundLegClaim
  | .holderRecall _ _ => .holderRecall
  | .probeAnswer _ => .probeAnswer
  | .pwrgoodDeassert => .pwrgoodDeassert

end Sys2Proof.Machine
end

