-- ==== Sys2Proof/Machine/State.lean ====
section
/-! DEFINITION. The state of the Y4 as plain data: every piece of state the spec names (INVENTORY.md, section State), the
reasons a step can stop, and the state after reset. Collections keyed by a number are KMap: an index that is not listed
holds the default value of its structure. -/

namespace Sys2Proof.Machine

/-- Reasons a step stops with a fault. -/
inductive Fault where
  /-- The row of the table was performed where no agent performs it: no thread in the slot whose turn it is, no firing or no
  event in hand. `step` never raises it, because it hands every row its agent. Safe: the model stops. -/
  | noAgent
  deriving DecidableEq, Repr

/-- Reasons the model gives an instruction no meaning. -/
inductive Refusal where
  /-- The instruction of the opcode table with this mnemonic has no meaning yet. Safe: the model stops. -/
  | notModelled (mnemonic : String)
  deriving DecidableEq, Repr

/-! ### Threads -/

/-- A segment register: the descriptor (R317) and, when SEGSET or a segment set loaded it, its index in the segment table
(R507), with the mark that SEGSET loaded it (R375). -/
structure Seg where
  /-- The 128-bit descriptor. -/
  desc : BitVec 128 := 0
  /-- Index in the partition's segment table. -/
  idx : Nat := 0
  /-- Loaded by SEGSET. -/
  bySet : Bool := false
  /-- Its buffer is SEALED, or is being sealed or unsealed (R347, R348, R507). -/
  seal_ : Bool := false
  deriving DecidableEq, Repr, Inhabited

/-- A monitor (R416): the armed line, whether the home registered the arm, and the triggered mark. -/
structure Mon where
  /-- Virtual address of the line when armed. -/
  line : Option DWord := none
  /-- Registered at the home slice. -/
  registered : Bool := false
  /-- Triggered mark. -/
  trig : Bool := false
  /-- HASHED and PINNED of the segment through which it was armed: the arm is sent again through the same (R416). -/
  hashed : Bool := false
  pinned : Bool := false
  deriving DecidableEq, Repr, Inhabited

/-- Why a thread is PARKED (R37). -/
inductive Park where
  | marker | monitor | presence | join | barrier | stream | recv | frame | call | held
  deriving DecidableEq, Repr

/-- The states of a thread (R37). A RUNNING thread's slot and a FAULTED thread's cause stand beside it. -/
inductive TState where
  | running (slot : Nat)
  | ready
  | parked (why : Park)
  | migrating
  | exited
  | faulted
  | killed
  | lost
  deriving DecidableEq, Repr

/-- Where a long operation's result goes. -/
inductive Dest where
  | nowhere
  | g (r : BitVec 5)
  /-- TGET: the eight words to g1 to g8 (R433). -/
  | tget
  | v (r : BitVec 4)
  deriving DecidableEq, Repr

/-- What an access does at its home: the kinds of R34, R366 and R369, and line and sector transfers (R327). -/
inductive AccKind where
  | read
  | write
  | hashed
  | take | put | readf | pset | pclr
  | rsv | rls
  /-- AMO with its fn code (R369). -/
  | amo (fn : Nat)
  /-- Fill of a 256-byte line into the L1. -/
  | fill
  /-- A combining sector: bytes selected by a mask. -/
  | sector
  /-- Registration of a monitor (R416). -/
  | arm (n : Nat)
  /-- A host becomes a holder, in state 1 S, 2 E or 3 M (R351, R470). -/
  | acq (want : Nat)
  /-- Nothing of its own: a read or a write that several accesses of one row wait for, because holders or a reservation stand in
  their way (R351, R371). -/
  | hold (wr : Bool)
  deriving DecidableEq, Repr

/-- One element of an access: the lane, the virtual address and the value a write stores (or an operand). -/
structure El where
  lane : Nat
  va : DWord
  val : DWord := 0
  deriving DecidableEq, Repr, Inhabited

/-- An access as REPLAY re-issues it: same path, address, size, value (R487). -/
structure Access where
  kind : AccKind
  /-- Bytes of one element. -/
  z : Nat
  /-- Sign-extend a loaded value. -/
  sx : Bool := false
  seg : Seg := {}
  els : List El := []
  dest : Dest := .nowhere
  /-- Compare value of AMO CAS. -/
  cmp : DWord := 0
  /-- 16-bit lanes (R363). -/
  half : Bool := false
  /-- Destination register, or source register of a store, and whether it is a vector register (R477). -/
  reg : BitVec 5 := 0
  vec : Bool := false
  deriving DecidableEq, Repr

/-- A fault found after issue (R358): cause, address, lane and log2 of the region the failing entry covers (R487). -/
structure DFault where
  cause : Byte
  addr : DWord
  lane : Nat := 0
  region : Nat := 0
  deriving DecidableEq, Repr, Inhabited

/-- An outstanding long operation (R34). -/
structure LongOp where
  id : Nat
  /-- pc of the instruction, for cr.epc (R480). -/
  pc : DWord
  /-- cr.wlimit when it issued (R368). -/
  limit : Nat := 0
  acc : Option Access := none
  dest : Dest := .nowhere
  /-- Element accesses not yet performed. -/
  left : Nat := 0
  /-- Results by lane, or the words of a computed result. -/
  res : KMap DWord := []
  /-- A computed 512-bit result. -/
  vres : VReg := 0
  /-- Sticky flags raised when it completes (R131). -/
  flags : BitVec 5 := 0
  fault : Option DFault := none
  /-- The access of this operation is a REPLAY, whose status goes to this register (R487). -/
  replay : Option (BitVec 5) := none
  /-- Ended with its fault, held for the next marker (R480). -/
  done : Bool := false
  /-- The thread stays parked at its instruction until this answer is written (R404, R411, R419). -/
  hold : Bool := false
  /-- Its bound in a timed partition, in cycles (R359, R397). -/
  wcl : Nat := 0
  /-- CTXSV copies its result into this area (R493): the saving thread, and the area's offset in its segment. -/
  saveAt : Option (Word × DWord × Seg) := none
  /-- A CTXSV or CTXLD of this thread; a kill of it waits for the operation's end (R509). -/
  ctx : Option Word := none
  kill : Bool := false
  deriving DecidableEq, Repr, Inhabited

/-- A faulted access the core keeps (R481, R484), with the pc of its instruction. -/
structure Kept where
  pc : DWord
  acc : Access
  fault : DFault
  kind : Nat := 0
  replayed : Bool := false
  deriving DecidableEq, Repr

/-- A trap pending for the thread's next turn (R37, R368, R501): cause, pc values, cr.faddr and cr.finfo. -/
structure PendTrap where
  cause : Byte
  epc : DWord
  mpc : DWord
  faddr : DWord := 0
  finfo : DWord := 0
  /-- Deferred mark of cr.cause. -/
  deferred : Bool := false
  /-- A withdrawn access that REPLAY can re-issue (R368). -/
  acc : Option Access := none
  deriving DecidableEq, Repr

/-- What a parked thread waits for, beyond its long operations. -/
inductive WaitOn where
  | join (child : Word) (d : BitVec 5)
  | bar (rake : Half) (d : BitVec 5) (mask : BitVec 6)
  | recv (d : BitVec 5)
  | mon (d : BitVec 5)
  /-- A stream port empty or full (R387). -/
  | stream (port : Nat)
  /-- A frame, an activation id or a load (R57, R65). -/
  | call (ptr : DWord)
  /-- A seal operation of the partition (R347, R348). -/
  | seal (idx : Nat)
  /-- TLBINV with this number (R460). -/
  | inval (n : Nat)
  /-- A fence whose stores are not yet performed, those to host memory among them or not (R335, R375). -/
  | drain (far : Bool)
  deriving DecidableEq, Repr

/-- A wait: what for, the instruction's pc, its number (for its wait limit) and its start. -/
structure Wait where
  on : WaitOn
  pc : DWord
  id : Nat
  since : Nat
  /-- The instruction has its pc still at itself and executes again when released (R387). -/
  retry : Bool := false
  deriving DecidableEq, Repr

/-- A message in a mailbox (R419, R420): sender, payload bytes, device-report mark. -/
structure Msg where
  sender : Word
  data : Frame
  sys : Bool := false
  /-- The matrix step that a report holds back until it is delivered: station and template (R227). -/
  step : Option (Nat × Nat) := none
  /-- The station it was sent from, and whether it has arrived and waits for room (R12, R421). -/
  src : Nat := 0
  waits : Bool := false
  deriving DecidableEq, Repr, Inhabited

/-- A range of a footprint (R50, R354): virtual address, length, segment, and whether its buffer is sealed. -/
structure FootRange where
  va : DWord
  len : Nat
  seg : Seg
  /-- The pinned copy's bytes. -/
  copy : KMap Byte := []
  deriving DecidableEq, Repr, Inhabited

/-- A frame in use by a thread: the virtual address of the frame, its station and index in the pool (R64). -/
structure FrameRef where
  va : DWord
  station : Nat
  index : Nat
  deriving DecidableEq, Repr, Inhabited

/-- The caller of an activation (R64). -/
inductive Caller where
  | thread (tid : Word)
  | graph (part : Nat) (cid : Half) (act : BitVec 12) (iter : Half) (st elem : Nat) (dest : Half)
  deriving DecidableEq, Repr

/-- A graph call in progress (R65): frame, consist and activation once started. -/
structure GCall where
  frame : FrameRef
  cid : Half := 0
  act : Option (BitVec 12) := none
  pc : DWord
  deriving DecidableEq, Repr, Inhabited

/-- A thread: its visible context (R30, R31), its control registers (R477, R478), what the core keeps with it, and its record
at the home station (R42). -/
structure Thread where
  tid : Word := 0
  /-- S, TE and CO of the pc/status word (R31). -/
  sup : Bool := false
  te : Bool := true
  co : Bool := false
  prio : BitVec 2 := 0
  bprio : BitVec 2 := 0
  /-- Offset in seg0 of the next instruction (R31, R160). -/
  pc : DWord := 0
  g : Vector DWord 32 := Vector.replicate 32 0
  v : Vector VReg 16 := Vector.replicate 16 0
  k1 : BitVec 16 := 0
  k2 : BitVec 16 := 0
  k3 : BitVec 16 := 0
  seg : Vector Seg 8 := Vector.replicate 8 {}
  mon : Vector Mon 4 := Vector.replicate 4 {}
  /-- IN and PS of cr.mode. -/
  inh : Bool := false
  ps : Bool := false
  cause : DWord := 0
  epc : DWord := 0
  mpc : DWord := 0
  faddr : DWord := 0
  finfo : DWord := 0
  tvec : DWord := 0
  fpcsr : DWord := 0
  wlimit : Word := 0
  srseed : Word := 0
  /-- The 32 stochastic generators (R134). -/
  gens : Vector Word 32 := Vector.replicate 32 0
  sset : Half := 0
  st : TState := .ready
  /-- Current station. -/
  station : Nat := 0
  ops : List LongOp := []
  nextOp : Nat := 1
  /-- The access cr.cause describes, and the accesses kept for ERET (R481). -/
  cur : Option Kept := none
  kept : List Kept := []
  pend : Option PendTrap := none
  /-- Traps that became pending meanwhile, in their order: each is taken at the turn after the one before it (R368). -/
  pends : List PendTrap := []
  wait : Option Wait := none
  /-- Cycle since which it is READY (R39), and since which it holds its slot (R40). -/
  readySince : Nat := 0
  slotSince : Nat := 0
  launch : Option Nat := none
  rakes : List Half := []
  foot : List FootRange := []
  /-- The RSV operation issued last (R370). -/
  rsv : Option Nat := none
  /-- A graph call in progress, and the frame of a FRAME_FAULT in its handler (R65). -/
  gcall : Option GCall := none
  faultFrame : Option FrameRef := none
  /-- A callout thread's frame and the call it serves (R66). -/
  coframe : Option FrameRef := none
  cocall : Option Caller := none
  parent : Word := 0
  exitCode : DWord := 0
  /-- Cause of a FAULTED thread. -/
  endCause : Byte := 0
  /-- The state the record will show once the thread's stores are performed (R406). -/
  ending : Option TState := none
  /-- The release part of the fence or barrier at pc has been done (R335, R345). -/
  relDone : Bool := false
  /-- Vector registers that a STRUNB unbound while the thread waited: it reads them as zero, or drops the push (R388). -/
  unbIn : List Nat := []
  unbOut : List Nat := []
  mbox : List Msg := []
  deriving DecidableEq, Repr, Inhabited

/-- A migration packet (R43), with the argument extension of a spawn delivery. -/
structure Packet where
  tid : Word := 0
  pcsw : DWord := 0
  pw : DWord := 0
  g : List DWord := []
  sset : Half := 0
  kind : Byte := 0
  fpcsr : Byte := 0
  target : Half := 0
  wlimit : Word := 0
  ext : List DWord := []
  /-- SPAWN only: the creator, the operation that awaits the answer, the T form and the footprint (R402, R404). -/
  parent : Word := 0
  answer : Nat := 0
  trap : Bool := false
  foot : List FootRange := []
  launch : Option Nat := none
  tvec : DWord := 0
  /-- The frame of a callout thread, and the call it serves (R66). -/
  coframe : Option FrameRef := none
  cocall : Option Caller := none
  /-- The station that sent it. -/
  source : Nat := 0
  /-- Under way (0), at its core while its footprint is brought in (1), or held by the router because the spill ring is full (2; R47). -/
  way : Nat := 0
  deriving DecidableEq, Repr, Inhabited

/-! ### Station: core, L1, slice -/

/-- An instruction-cache line (R87): partition, line number va[55:6], its 64 bytes, order of last use. -/
structure ILine where
  part : Nat
  line : Nat
  data : BitVec 512
  used : Nat := 0
  deriving DecidableEq, Repr, Inhabited

/-- A fill of the instruction cache or a prefetch in flight (R88, R93, R94): discarded on arrival when killed. -/
structure Fill where
  part : Nat
  line : Nat
  seg : Seg
  l1 : Bool := false
  prefetch : Bool := false
  killed : Bool := false
  /-- The line after a missing one (R88). -/
  next : Bool := false
  /-- Number, by which its request names it; it has arrived, with these bytes. -/
  id : Nat := 0
  here : Bool := false
  data : BitVec 512 := 0
  /-- A demand fetch that failed: its outcome, its cycle, and the threads that waited for it (R89). -/
  fault : Option DFault := none
  done : Bool := false
  failAt : Nat := 0
  waiters : List Word := []
  deriving DecidableEq, Repr, Inhabited

/-- An L1 line (R327): partition, line number va[55:8], its 256 bytes, the fill's cycle, sealed mark and segment index. -/
structure L1Line where
  part : Nat
  line : Nat
  data : BitVec 2048
  filled : Nat
  sealedIdx : Option Nat := none
  pa : Nat := 0
  /-- HASHED of the segment through which it was filled: the other homes of the same address are other places (R322, R323). -/
  hashed : Bool := false
  /-- Placed by the eviction schedule, with the sectors that it concerns (R355). -/
  sched : Bool := false
  sect : BitVec 4 := 0xF
  deriving DecidableEq, Repr, Inhabited

/-- A combining sector (R327): 64 bytes at va[55:6], a byte mask, the first store's cycle and the stores it holds. -/
structure Comb where
  part : Nat
  line : Nat
  data : BitVec 512
  mask : BitVec 64
  first : Nat
  hashed : Bool := false
  pinned : Bool := false
  segIdx : Nat := 0
  /-- Thread, operation and lane of each store element in it. -/
  ops : List (Word × Nat × Nat) := []
  deriving DecidableEq, Repr, Inhabited

/-- A shared-cache line of a slice (R350, R351): line number, its 256 bytes, the states of its four sectors in 2 bits each (0 I, 1 S,
2 E, 3 M), order of last use. -/
structure SLine where
  line : Nat
  data : BitVec 2048 := 0
  st : BitVec 8 := 0
  used : Nat := 0
  deriving DecidableEq, Repr, Inhabited

/-- An entry of a router's combining table (R13): the word, path and partition of a read that it forwarded, the request, and the
cycle. -/
structure RdEnt where
  word : Nat
  path : Nat
  part : Nat
  req : Nat
  fwd : Nat
  deriving DecidableEq, Repr, Inhabited

/-! ### Matrix array and tile file (07) -/

/-- Tag of a tile slot (R214). -/
inductive TTag where
  | empty | filling | full | draining
  deriving DecidableEq, Repr, Inhabited

/-- A tile slot's tags (R214). -/
structure Tile where
  tag : TTag := .empty
  iter : Half := 0
  seq : Half := 0
  last : Bool := false
  sc : Bool := false
  /-- Filler is an engine. -/
  eng : Bool := false
  epoch : Byte := 0
  /-- Cycle in which the slot became FULL (R218). -/
  fullAt : Nat := 0
  deriving DecidableEq, Repr, Inhabited

/-- A step template (R206 to R210) and what TSTAT reads of it (R236). -/
structure Template where
  valid : Bool := false
  bits : BitVec 256 := 0
  owner : Word := 0
  part : Nat := 0
  faulted : Bool := false
  cause : Byte := 0
  sA : Word := 0x3F800000
  sB : Word := 0x3F800000
  fires : Word := 0
  lseq : Half := 0
  ovf : Bool := false
  /-- The fill epoch of its A slot on which it has fired. -/
  firedOn : Option Byte := none
  /-- A report waits for room (R227). -/
  reporting : Bool := false
  /-- Cycle at which its metadata scan ends, the epoch scanned, and the metadata half-rows read so far, 256 columns each (R261). -/
  scan : Option (Nat × Byte × List (BitVec 128)) := none
  deriving DecidableEq, Repr, Inhabited

/-- Tag of an accumulator group (R216). -/
inductive GTag where
  | empty | accum | done
  deriving DecidableEq, Repr, Inhabited

/-- An accumulator group (R216, R217): mode 0 Z, 1 F, 2 I. -/
structure Group where
  tag : GTag := .empty
  iter : Half := 0
  next : Half := 0
  mode : BitVec 2 := 0
  /-- Executed k-steps of the current accumulation, by column group (R153, R258). -/
  since : KMap Nat := []
  /-- A step of the current accumulation took ACC_OVERFLOW (R226). -/
  bad : Bool := false
  deriving DecidableEq, Repr, Inhabited

/-- A step that has fired, with everything it captured in that cycle (R206). -/
structure Stream where
  tm : Nat
  bits : BitVec 256
  owner : Word
  part : Nat
  fda : Word
  fdb : Word
  fdas : Word
  fdbs : Word
  fdo : Word
  sA : Word
  sB : Word
  iter : Half
  seq : Half
  last : Bool
  /-- Generator lists it consumes: per column group, the k-steps in order (R256). -/
  lists : Option (List (List Nat)) := none
  /-- First cycle of the stream, and its length (R218). -/
  start : Nat
  len : Nat
  /-- Cycles already streamed, and the columns in which an inner accumulator has saturated meanwhile (R220, R222). -/
  done : Nat := 0
  sat : BitVec 256 := 0
  /-- The last stream cycle has passed. -/
  ended : Bool := false
  deriving DecidableEq, Repr

/-! ### Index generators (08) -/

/-- State of an index generator (R250). -/
inductive IState where
  | empty | loaded | building | ready | done | faulted | loading
  deriving DecidableEq, Repr, Inhabited

/-- A queued generator command (R251). -/
inductive ICmd where
  | load (issuer : Word) (part : Nat) (va : DWord) (seg : Seg)
  | start (issuer : Word) (part : Nat) (ctl : DWord) (win : DWord)
  deriving DecidableEq, Repr

/-- A record to push to a stream port (R252), or an entry. -/
structure IRec where
  kind : Nat
  rank : Nat
  col : Nat
  row : Nat
  /-- The row and column that the enumeration examines as it delivers it (R266). -/
  pos : Nat × Nat := (0, 0)
  deriving DecidableEq, Repr, Inhabited

/-- An index generator (R249 to R253, R266). -/
structure Igen where
  st : IState := .empty
  /-- The 128-byte context image. -/
  image : BitVec 1024 := 0
  eid : Half := 0
  cause : Byte := 0
  dir : Bool := false
  dest : Bool := false
  port : Nat := 0
  window : DWord := 0
  rowCur : Half := 0
  colCur : Half := 0
  count : Nat := 0
  /-- Forward lists by row of the window, for the matrix. -/
  lists : List (List Nat) := []
  /-- Entries per line, for IGSTAT lines. -/
  lines : List Nat := []
  /-- Records still to be pushed. -/
  recs : List IRec := []
  queue : List ICmd := []
  issuer : Word := 0
  part : Nat := 0
  addr : DWord := 0
  seg : Seg := {}
  deriving DecidableEq, Repr, Inhabited

/-! ### Copy channels and stream ports (11) -/

/-- A copy command (R378 to R380). -/
structure CopyCmd where
  serial : Half
  indexed : Bool
  words : List DWord
  issuer : Word
  part : Nat
  /-- 0 queued, 1 running, 2 done, 3 faulted. -/
  state : Nat := 0
  cause : Byte := 0
  addr : DWord := 0
  /-- Elements performed (WP). -/
  wp : Nat := 0
  /-- The value read for the element in progress, low byte first. -/
  hold : Option (List Byte) := none
  /-- Byte mask of the value held: the valid lanes of a port's entry (R387). -/
  vmask : BitVec 64 := 0
  /-- Bytes of elements taken but not yet packed into an entry, each with the validity of its lane (R387). -/
  acc : List (Byte × Bool) := []
  /-- The current run's index. -/
  index : Option Word := none
  /-- Cycle in which its first element was performed (R397). -/
  t0 : Nat := 0
  deriving DecidableEq, Repr, Inhabited

/-- A copy channel (R382 to R385). -/
structure Chan where
  /-- Commands accepted and not ended, the running one first; those past the sixteenth wait in the network (R70, R385). -/
  queue : List CopyCmd := []
  /-- The sixteen commands ended last. -/
  ended : List CopyCmd := []
  deriving DecidableEq, Repr, Inhabited

/-- An end of a stream port: kind and index (R386), with the thread for a vector register. -/
structure PEnd where
  kind : BitVec 4
  idx : BitVec 4
  tid : Word := 0
  deriving DecidableEq, Repr, Inhabited

/-- A stream port (R386): ends and a queue of entries with lane valid bits. -/
structure Port where
  prod : Option PEnd := none
  cons : Option PEnd := none
  queue : List (BitVec 256 × BitVec 8) := []
  /-- Bytes of the head entry that a channel has already consumed (R387). -/
  pos : Nat := 0
  deriving DecidableEq, Repr, Inhabited

/-! ### Station -/

/-- A station (R9): barrel core, L1, slice, matrix array, engines. -/
structure Station where
  /-- Thread ids in the 16 slots. -/
  slots : Vector (Option Word) 16 := Vector.replicate 16 none
  /-- READY threads in the order they entered (R38). -/
  runq : List Word := []
  arrq : List Packet := []
  spill : List Packet := []
  arrcap : Nat := 48
  quantum : Word := 0
  /-- The next serial that it assigns, by partition: 1 after a COMMIT (R41, R510). -/
  serial : KMap Nat := []
  icache : List ILine := []
  fills : List Fill := []
  l1 : List L1Line := []
  comb : List Comb := []
  slice : List SLine := []
  /-- The combining table of the router: 32 entries (R13). -/
  router : List RdEnt := []
  fd : Vector Word 8 := Vector.replicate 8 0x00100000
  tiles : Vector Tile 16 := Vector.replicate 16 {}
  tms : Vector Template 16 := Vector.replicate 16 {}
  groups : Vector Group 8 := Vector.replicate 8 {}
  /-- W96 accumulators at 256·row + column, and the 24-bit inner accumulators with the mark that one is held at a bound. -/
  acc : KMap W96 := []
  inner : KMap (BitVec 24 × Bool) := []
  ovf : BitVec 256 := 0
  /-- Streams from their firing until their last addition, oldest first; then those whose set's write-back waits or runs, in the
  order in which their accumulations completed (R223). -/
  streams : List Stream := []
  pipe : List Stream := []
  /-- The write-back unit works on the head of the pipe. -/
  wbBusy : Bool := false
  ig : Vector Igen 2 := Vector.replicate 2 {}
  ch : Vector Chan 8 := Vector.replicate 8 {}
  /-- Commands that the core has issued to each channel since device reset, modulo 65,536 (R382). -/
  serials : Vector Half 8 := Vector.replicate 8 0
  ports : Vector Port 8 := Vector.replicate 8 {}
  /-- Frames taken of the pool of 256 (R64). -/
  frames : BitVec 256 := 0
  /-- Consist that owns the tile: partition and CID (R122). -/
  owner : Option (Nat × Half) := none
  /-- Route ends in use: end, cycle of the firing, cycle in which the token passes (R111). -/
  rtBusy : List (Nat × Nat × Nat) := []
  /-- Owner of each track of each link: 4 directions × 8 tracks (R15). -/
  tracks : KMap (Nat × Half) := []
  /-- Engine segment set of the partition in place (R321). -/
  eng : Vector Seg 8 := Vector.replicate 8 {}
  /-- Out of service (R537) and dead (R501). -/
  outOfService : Bool := false
  dead : Bool := false
  suspect : Bool := false
  deriving DecidableEq, Repr, Inhabited

/-! ### Graph tiles and consists (02, 04, 09) -/

/-- A matching-store entry (R105): token, slot, port, arrival order, page-fault wait. -/
structure Ent where
  tok : Token
  slot : Nat
  port : Bool
  arr : Nat := 0
  wait : Bool := false
  deriving DecidableEq, Repr, Inhabited

/-- What an op keeps for one (ACT, ITER) pair of a slot (R273). -/
structure Pair where
  slot : Nat
  act : BitVec 12
  iter : Half
  /-- Next SEQ of port a, next group, and next SEQ it gives out. -/
  next : Half := 0
  grp : Half := 0
  out : Half := 0
  /-- Tokens of the group in SEQ order (REDUCE, ROWSTAT, COALESCE, DELAY, TILEPUT). -/
  toks : List Token := []
  /-- SINK: base offset; TILEPUT: SEQ of the tile's first token. -/
  base : Option DWord := none
  /-- STREAM in, TILEGET: tokens still to emit; DELAY: tokens of the group emitted so far. -/
  left : Nat := 0
  /-- Arrival of the control token or trigger (STREAM in, TILEGET). -/
  arr : Nat := 0
  /-- SINK: iterations completed past the oldest incomplete one. -/
  closed : List Half := []
  ended : Bool := false
  deriving DecidableEq, Repr, Inhabited

/-- A control setting of a CVT slot (R151): mode and rule for the iterations after one. -/
structure CvtSet where
  slot : Nat
  iter : Half
  mode : BitVec 3
  rule : BitVec 2
  deriving DecidableEq, Repr, Inhabited

/-- An element of a graph tile (R105). -/
structure Elem where
  slots : Vector DWord 32 := Vector.replicate 32 0
  consts : Vector (BitVec 256) 4 := Vector.replicate 4 0
  store : List Ent := []
  link : List Ent := []
  firings : Word := 0
  lanes : Word := 0
  pairs : List Pair := []
  cvt : List CvtSet := []
  /-- Results that no schedule places, and return tokens: each result's tokens with the destinations to which they leave together as soon
  as all of these accept (R111, R308). -/
  late : List (List (Half × Token)) := []
  deriving DecidableEq, Repr, Inhabited

/-- A firing: station, element, slot, its word, and its tokens on ports a and b (R58). -/
structure Firing where
  st : Nat
  elem : Nat
  slot : Nat
  word : RoszonWord
  a : Option Token
  b : Option Token
  deriving DecidableEq, Repr

/-- A graph node's access under way (R300, R302, R306, R307). -/
structure GAcc where
  f : Firing
  part : Nat
  cid : Half
  /-- Lanes not yet performed, results by lane, faulted lanes. -/
  left : List Nat
  res : KMap DWord := []
  faulted : List El := []
  fault : Option DFault := none
  els : List El := []
  z : Nat := 4
  seg : Seg := {}
  kind : AccKind
  firedAt : Nat
  /-- The reply is late: its consist holds for it (R300). -/
  late : Bool := false
  /-- Page faults of lanes not yet attended to, and those reported, the last of each lane (R301). -/
  news : List DFault := []
  told : List DFault := []
  deriving DecidableEq, Repr

/-- A tile of a resident consist: station, elements used, elements read out. -/
structure CTile where
  st : Nat
  elems : Half
  readout : Half
  /-- Cycles for which the tile has been stopped. -/
  stall : Nat := 0
  deriving DecidableEq, Repr, Inhabited

/-- A static route: source station and route end, destination, track and path length (R114). -/
structure Route where
  src : Nat
  rt : Nat
  dst : Nat
  elem : Nat
  slot : Nat
  port : Bool
  track : Nat
  hops : Nat
  deriving DecidableEq, Repr, Inhabited

/-- A converter leg (R19, R120): its entry, its route number, and the windows of both ends. -/
structure Leg where
  src : Nat
  rt : Nat
  side : Nat
  kind : Nat
  dev : Nat
  /-- Far tile's station, or the collective unit. -/
  far : Nat
  elem : Nat
  slot : Nat
  port : Bool
  collop : Byte
  track : Nat
  fartrack : Nat
  /-- Route number at the converter. -/
  num : Nat
  /-- The coupler port over which it goes to a unit or a peer, or comes from one (R18, R20). -/
  coup : Option Nat := none
  /-- The pair on this device, near end: tokens that wait for a place, next sequence number, tokens not acknowledged. -/
  held : List Token := []
  seq : Half := 0
  unacked : Nat := 0
  /-- Its far end: next sequence number and reorder window. -/
  expect : Half := 0
  window : List (Half × Token) := []
  /-- The pair across the coupler: near end of a leg to a peer, far end of one from a peer (R20). -/
  seq2 : Half := 0
  unacked2 : Nat := 0
  expect2 : Half := 0
  window2 : List (Half × Token) := []
  /-- The peer's consist has claimed the leg (R116); a dead agent stops it (R21). -/
  claimed : Bool := true
  dead : Bool := false
  /-- Unique number of the leg on the device. -/
  id : Nat := 0
  deriving DecidableEq, Repr, Inhabited

/-- A live activation (R57): frame, caller, store-acknowledgement count, the SINK slots that hold End-of-stream. -/
structure Act where
  id : BitVec 12
  frame : FrameRef
  caller : Caller
  acks : Nat := 0
  sinks : List Nat := []
  /-- RETURN has fired and waits for the count (R308). -/
  ret : Option (DWord × DWord) := none
  /-- Ended: its id returns when its last token has left (R57). -/
  ended : Bool := false
  launch : Option Nat := none
  deriving DecidableEq, Repr

/-- A hold of a consist (R59): the holding station and element, since when, released when, and its cause: 0 a late memory reply,
1 a full store, 2 a stream port, 3 a tile slot, 4 a converter's window, 5 a freeze (R314); key names the access, port, slot or leg. -/
structure Hold where
  st : Nat
  elem : Nat
  since : Nat
  released : Option Nat := none
  kind : Nat := 0
  key : Nat := 0
  deriving DecidableEq, Repr, Inhabited

/-- A readout asked for (R314, R437): the issuer with its station, and the offset and segment of the area, or the watchdog's ring; the
supervisor is told WATCHDOG as well when the watchdog expired meanwhile (R316). -/
structure Readout where
  issuer : Word := 0
  st : Nat := 0
  wdog : Bool := false
  off : DWord := 0
  seg : Seg := {}
  ring : Bool := false
  deriving DecidableEq, Repr, Inhabited

/-- A resident consist (R56). -/
structure Consist where
  cid : Half
  image : DWord := 0
  anchor : Nat := 0
  tiles : List CTile := []
  routes : List Route := []
  legs : List Leg := []
  acts : List Act := []
  cint : Nat := 0
  cwcl : Nat := 0
  csset : Half := 0
  cstn : Half := 0
  frozen : Bool := false
  wdog : Bool := false
  /-- Freezes under way. -/
  freezing : List Readout := []
  freeing : List Word := []
  freePending : Bool := false
  holds : List Hold := []
  /-- Cycle of the last firing, and the watchdog's counter (R436). -/
  lastFire : Nat := 0
  wcnt : Nat := 0
  /-- Start of the last activation (R442). -/
  lastStart : Option Nat := none
  deriving DecidableEq, Repr, Inhabited

/-- A load in progress (R312): number, image, issuers with their mailbox reports, callers parked. -/
structure Load where
  n : Nat
  part : Nat
  va : DWord
  seg : Seg
  issuer : Word
  station : Nat
  /-- The graph call that waits for it, as the number of the call. -/
  forCall : Option Nat := none
  deriving DecidableEq, Repr, Inhabited

/-- A graph call that waits for a load, a frame, an activation id or its interval (R57, R65, R442). -/
structure CallWait where
  n : Nat
  part : Nat
  ptr : DWord
  caller : Caller
  station : Nat
  /-- The frame, once the pool has given one (R64). -/
  frame : Option FrameRef := none
  args : List DWord
  /-- The load it waits for, and the consist that a load found resident under another image (R124). -/
  load : Option Nat := none
  cid : Option Half := none
  launch : Option Nat := none
  deriving DecidableEq, Repr

/-! ### Clusters: translation and schedule units -/

/-- A cached translation (R459): partition, virtual page number of the unit, log2 of the page size, leaf, entry address. -/
structure Tlb where
  part : Nat
  vpn : Nat
  size : Nat
  leaf : DWord
  entry : Nat
  used : Nat := 0
  deriving DecidableEq, Repr, Inhabited

/-- A copy of a schedule block: 16 words (R422). -/
abbrev SBWords := Vector DWord 16

/-- A ticket (R426). -/
structure Ticket where
  num : Half
  tid : Word
  gen : Half
  /-- The tile's first element, by dimension (R426). -/
  origin : List Nat := []
  /-- Linear grain indices with their mask bits. -/
  grains : List (Nat × Nat)
  mask : DWord
  handover : Bool := false
  deriving DecidableEq, Repr, Inhabited

/-- A prepared tile (R425): station, tile number, origin, grains with mask bits. -/
structure Prep where
  st : Nat
  tile : Option (List Nat × List (Nat × Nat)) := none
  cursor : Nat := 0
  deriving DecidableEq, Repr, Inhabited

/-- A schedule block (R422 to R429). -/
structure SBlock where
  comm : SBWords := Vector.replicate 16 0
  staged : SBWords := Vector.replicate 16 0
  pending : Option SBWords := none
  gen : Half := 0
  /-- States of grains that are not free: 1 dispatched, 2 done. -/
  grains : KMap (BitVec 2) := []
  preps : List Prep := []
  tickets : List Ticket := []
  nextTicket : Half := 1
  deriving DecidableEq, Repr, Inhabited

/-- A cluster (R10). -/
structure Cluster where
  tlb : List Tlb := []
  /-- Schedule blocks at 8·partition + block: a time-share group's partitions keep each their own (R446). -/
  sb : KMap SBlock := []
  fused : Bool := false
  /-- The command combining node: engine commands of this cycle that qualify, each as its cycle, partition and command word fields,
  with the one answer it got (R14, R71). -/
  cmds : List (Nat × Nat × List Nat × DWord) := []
  deriving DecidableEq, Repr, Inhabited

/-! ### Partitions -/

/-- State of a partition (R448). -/
inductive PState where
  | absent | running | stopped
  deriving DecidableEq, Repr, Inhabited

/-- A rake (R53, R54). -/
structure Rake where
  gen : BitVec 6 := 0
  live : Bool := false
  members : List Word := []
  arrived : List Word := []
  broken : Bool := false
  lost : Word := 0
  deriving DecidableEq, Repr, Inhabited

/-- State of a seal-table entry (R346 to R348). -/
inductive SealSt where
  | sealing | isSealed | unsealing
  deriving DecidableEq, Repr, Inhabited

/-- A seal-table entry: state, reference count, and the threads that wait for it. -/
structure Seal where
  st : SealSt
  count : Nat := 0
  base : DWord := 0
  limit : Nat := 0
  deriving DecidableEq, Repr, Inhabited

/-- A command of a collective that its unit has not registered (R70, R391): station, issuer, COLLBC or COLLRED, its words, its number in
the order of issue, and whether it has reached the unit. -/
structure CollIn where
  st : Nat
  tid : Word
  bc : Bool
  words : List DWord
  n : Nat
  /-- 0 on its way, 1 waiting in the command channel for a place, 2 among the 16 in the unit's queue (R70). -/
  place : Nat := 0
  deriving DecidableEq, Repr

/-- A collective in progress (R391, R393). -/
structure Coll where
  cid : Half
  /-- 1 gathering, 2 done, 3 faulted. -/
  state : Nat := 1
  cause : Byte := 0
  bc : Bool := false
  /-- Contributions: station, issuer, the four command words. -/
  contribs : List (Nat × Word × List DWord) := []
  waiting : List CollIn := []
  deriving DecidableEq, Repr, Inhabited

/-- A launch (R414, R443, R444). -/
structure Launch where
  n : Nat
  queue : Nat
  timed : Bool := false
  cert : Nat := 0
  deadline : Nat := 0
  arrived : Nat := 0
  tag : Word := 0
  agent : Nat := 0
  session : Word := 0
  packet : Packet := {}
  root : Word := 0
  /-- 0 accepted, 1 started, 2 not decided yet (R443). -/
  state : Nat := 0
  start : Nat := 0
  /-- An ERROR frame has answered it (R444). -/
  answered : Bool := false
  /-- Its packet has entered the target's arrival queue, and its budget runs (R444). -/
  entered : Bool := false
  /-- The fault of its root thread, or the dead agent that one of its threads met (R444). -/
  cause : Option Byte := none
  /-- It asks for its cluster's L1s to be fused, and the station at which it has started (R356). -/
  fuse : Bool := false
  station : Nat := 0
  deriving DecidableEq, Repr, Inhabited

/-- An entry of an eviction schedule (R355): the cache, a slice below 256 or the L1 of a station above, the line, its cycle in the
frame, fill or evict, and the sectors. -/
structure EvictEnt where
  cache : Nat
  line : Nat
  at_ : Nat
  evict : Bool
  sect : BitVec 4
  deriving DecidableEq, Repr, Inhabited

/-- A TLBINV under way (R460): drain tokens still to arrive. -/
structure Drain where
  n : Nat
  left : Nat
  tid : Word
  deriving DecidableEq, Repr, Inhabited

/-- A partition (R447, R448). -/
structure Partition where
  st : PState := .absent
  /-- The 512 bytes of the record in force. -/
  record : KMap Byte := []
  /-- Stations in service, ascending (R322). -/
  stations : List Nat := []
  /-- cr.segtab and cr.ptroot (R478). -/
  segtab : DWord := 0
  ptroot : DWord := 0
  rakes : KMap Rake := []
  seals : KMap Seal := []
  consists : List Consist := []
  loads : List Load := []
  calls : List CallWait := []
  colls : List Coll := []
  launches : List Launch := []
  /-- Reports waiting at home stations: thread and report (R421). -/
  reports : List (Word × Msg) := []
  supervisor : Word := 0
  duty : Nat := 16
  wdpos : Nat := 0
  mc : BitVec 512 := 0
  mi : BitVec 512 := 0
  drains : List Drain := []
  /-- Swapped out (R498), and cycle at which its slice ends. -/
  swapped : Bool := false
  sliceEnd : Nat := 0
  /-- Its execution state stands in its stations, not in the shadow storage (R499). -/
  resident : Bool := true
  /-- Lockstep (R464 to R466): cycle 0 of the partition, digests by window, held output. -/
  lockBase : Option Nat := none
  /-- The agents whose lease a lockstep pair has been told of (R464). -/
  agents : List Nat := []
  /-- Events of the windows that have not ended: cycle, station and output port, bytes (R465). -/
  folds : List (Nat × Nat × List Byte) := []
  digests : KMap DWord := []
  partner : KMap DWord := []
  heldOut : List (Nat × Frame) := []
  inputs : List (Nat × Frame) := []
  /-- Inputs whose delivery cycle has come (R464). -/
  ready : List Frame := []
  /-- The eviction schedules in force (R355). -/
  evict : List EvictEnt := []
  /-- Storage reserved by footprints, by station (R50). -/
  foot : KMap Nat := []
  deriving DecidableEq, Repr, Inhabited

/-! ### Home memory -/

/-- An agent that holds a sector (R351). -/
structure Holder where
  agent : Nat
  /-- 1 S, 2 E, 3 M. -/
  st : Nat
  part : Nat := 0
  deriving DecidableEq, Repr, Inhabited

/-- Who made a request. -/
inductive Who where
  | thread (tid : Word) (op lane : Nat)
  /-- A combining sector sent to its home, with the stores it holds. -/
  | sector (ops : List (Word × Nat × Nat))
  | graph (fid lane : Nat)
  /-- A copy channel's element: 0 read, 1 write, 2 index. -/
  | chan (st c : Nat) (side : Nat)
  /-- A sector piece of a host's frame (R470). -/
  | host (op lane : Nat)
  /-- A coupler request of a peer device (R351). -/
  | peer (dev : Nat)
  /-- A fill of a station's instruction cache, or a prefetch, by its number (R88, R93). -/
  | ifill (st id : Nat) (pf : Bool)
  deriving DecidableEq, Repr

/-- A request in flight (R325). -/
structure Req where
  id : Nat
  who : Who
  part : Nat
  st : Nat
  path : Nat
  kind : AccKind
  va : DWord
  z : Nat
  val : DWord := 0
  cmp : DWord := 0
  data : BitVec 2048 := 0
  mask : BitVec 64 := 0
  hashed : Bool := false
  pinned : Bool := false
  /-- One more than the table index of a sealable segment; 0 for any other (R346). -/
  segIdx : Nat := 0
  /-- Place where it is performed: physical address or a window of the memory list. -/
  pa : Option Nat := none
  /-- The bank that performs it (R322, R329). -/
  bank : Nat := 0
  issued : Nat := 0
  /-- The cycle from which its class counts (R359, R462). -/
  sent : Nat := 0
  /-- Waiting for recalls of holders (R351). -/
  recalls : List Nat := []
  /-- Routers it has still to pass on its way (R11). -/
  route : List Nat := []
  /-- The read into which a router has combined it (R13). -/
  carrier : Option Nat := none
  /-- At its cluster's memory port (R459): 1 waits for a miss entry, 2 holds one, 3 has a walker. -/
  walk : Nat := 0
  /-- The request of a later element of a running copy command: the cycles in which it follows the element before it (R397). -/
  pace : Option Nat := none
  /-- The ranges that a TLBINV has taken during the walk: its result is not cached when its page meets one (R460). -/
  stale : List (Nat × Nat) := []
  /-- A fill whose line is not to be installed: its buffer's UNSEAL or SEAL came meanwhile (R347, R348). -/
  dropped : Bool := false
  /-- A sector sent by SEAL's own drain: it reaches its home before the seal does (R347). -/
  early : Bool := false
  /-- An instruction fetch (R457). -/
  code : Bool := false
  deriving DecidableEq, Repr

/-- A reservation (R370): holder, grant cycle, waiting requests in arrival order. -/
structure Rsv where
  /-- Holder, and the RSV operation that gave it the word. -/
  holder : Option Word := none
  op : Nat := 0
  granted : Nat := 0
  queue : List Req := []
  deriving DecidableEq, Repr, Inhabited

/-- A registered monitor arm (R416). -/
structure Arm where
  line : Nat
  tid : Word
  n : Nat
  home : Nat
  deriving DecidableEq, Repr, Inhabited

/-! ### Outside and board -/

/-- A YXT session (R467 to R469). -/
structure Session where
  id : Word
  agent : Nat
  admin : Bool
  recallMax : Nat
  key : Frame
  rxNext : Word := 0
  rxWin : List (Word × Frame) := []
  txNext : Word := 0
  unacked : List (Word × Nat × Frame) := []
  lastRx : Nat := 0
  up : Bool := true
  /-- Payload of the parts of a message whose last part has not come (R467). -/
  parts : Frame := []
  /-- Messages received in order and not yet acted on, each as the cycle in which its last part came, and its header and whole payload
  (R443, R452, R470). -/
  waitq : List (Nat × Frame) := []
  deriving DecidableEq, Repr, Inhabited

/-- A host's WRITE, READ or ACQ being performed (R470): its pieces not yet performed, and what they read. -/
structure HostOp where
  id : Nat
  session : Word
  agent : Nat
  part : Nat
  /-- 1 WRITE, 2 READ, 6 ACQ. -/
  type : Nat
  va : Nat
  left : Nat
  res : KMap (List Byte) := []
  fault : Option DFault := none
  deriving DecidableEq, Repr, Inhabited

/-- Bring-up state codes of R537. -/
inductive Boot where
  | fwload | selftest | link | ready | fwfail | lmfail
  deriving DecidableEq, Repr, Inhabited

/-- The pins of R534 that the model holds. -/
structure Pins where
  pwrgood : Bool := false
  resetN : Bool := false
  faultN : Bool := true
  thermtripN : Bool := true
  deriving DecidableEq, Repr, Inhabited

/-- An error-log record (R504). -/
structure ErrRec where
  bytes : Frame
  deriving DecidableEq, Repr, Inhabited

/-- A self-test under way (R503). -/
structure Selftest where
  n : Nat
  kind : Byte
  struct : Byte
  severity : Byte
  unit : Nat
  part : Byte
  addr : DWord
  time : Nat
  /-- An error in a row under test shares that test's outcome (R509). -/
  joins : Option Nat := none
  deriving DecidableEq, Repr, Inhabited

/-- A byte write or a clearing of a range made within the step under way (log 3). -/
inductive MemOp where
  | byte (a : Nat) (b : Byte)
  | clear (lo n : Nat)
  deriving DecidableEq, Repr

/-- What is being performed: nothing, a graph firing, or an event (log 3). -/
inductive Hand where
  | idle
  | firing (f : Firing)
  | event (e : Event)
  deriving DecidableEq, Repr

/-- The state of the device. -/
structure State where
  /-- cr.time (R478). -/
  time : Nat := 0
  /-- Whose opportunity comes next in this cycle: its first is 256's (log 3). -/
  cursor : Nat := 256
  /-- Events under way and outside inputs with their due cycles (log 3). -/
  agenda : List (Nat × Event) := []
  hand : Hand := .idle
  /-- The counter to which free values are applied (log 4). -/
  freeCtr : Nat := 0
  /-- Fresh number of requests, packets and other items. -/
  fresh : Nat := 0
  /-- The dies are released (R535 step 6). -/
  live : Bool := false
  boot : Boot := .fwload
  bootSlot : Nat := 0
  pins : Pins := {}
  /-- LM stacks trained, stations tested (R536). -/
  trained : List Nat := []
  tested : List Nat := []
  /-- Device halted by THERMTRIP (R540). -/
  halted : Bool := false
  mf : BitVec 512 := 0
  mem : KMap Byte := []
  wbuf : List MemOp := []
  /-- Places at home slices that the row under way may not touch yet, each with its home, partition and whether it writes: holders or a
  reservation stand in the way, and the row is tried again when they have gone (R351, R371). -/
  held : List (Nat × Nat × Nat × Bool) := []
  /-- Words for which such a row has waited its turn behind a reservation (R371). -/
  passed : List Nat := []
  /-- Translations that the row under way misses: station, partition, address, whether it writes, PINNED. It is tried again when a
  walker has served them (R459). -/
  needs : List (Nat × Nat × Nat × Bool × Bool) := []
  /-- Pages whose walk for such a row has ended: cluster, partition, page (R459). -/
  walked : List (Nat × Nat × Nat) := []
  /-- The row under way met a closed slot of the frame, and is tried again (R462). -/
  shut : Bool := false
  ptags : List Nat := []
  poison : List Nat := []
  /-- Poisoned sectors whose uncorrectable error no reader has been told of yet (R502). -/
  eccNew : List Nat := []
  dirs : KMap (List Holder) := []
  rsv : KMap Rsv := []
  /-- Deferred presence requests by home slice in arrival order (R367). -/
  waits : List Req := []
  arms : List Arm := []
  threads : KMap Thread := []
  stations : KMap Station := []
  elems : KMap Elem := []
  clusters : KMap Cluster := []
  parts : KMap Partition := []
  reqs : KMap Req := []
  gaccs : KMap GAcc := []
  pkts : KMap Packet := []
  /-- Messages in flight: sender's operation, target thread, message. -/
  msgs : KMap (Option (Word × Nat) × Word × Msg) := []
  /-- Configuration window: bytes written, command and status words, error log (R451, R504). -/
  cfg : KMap Byte := []
  cmdStatus : DWord := 0
  errlog : List ErrRec := []
  errcount : Nat := 0
  domain : Vector DWord 64 := (Vector.replicate 64 0).set 0 3
  selftests : List Selftest := []
  /-- Transient outcomes in the last 2^30 cycles: kind, STRUCT, unit and row of what was tested, and the cycle (R503). -/
  transients : List (Byte × Byte × Nat × DWord × Nat) := []
  /-- Page-retirement lists of the LM stacks: 4 KiB pages of this device (R6, R503). -/
  retired : Vector (List Nat) 8 := Vector.replicate 8 []
  sessions : List Session := []
  hostOps : List HostOp := []
  nextSession : Nat := 1
  /-- Frames sent, newest first, with their cycle. -/
  out : List (Nat × Frame) := []
  /-- Suspected and dead agents (R500, R501). -/
  suspects : List Nat := []
  deadAgents : List Nat := []
  /-- Coupler ports' lanes (R472). -/
  lanes : Vector Nat 16 := Vector.replicate 16 8
  /-- Lanes of the Ethernet link (R26, R503; log 135). -/
  etherLanes : Nat := 8
  /-- The EtherType of YXT, and the UDP port enabled for it: none at reset (R467, R538). -/
  ethType : Half := 0x88B5
  udpPort : Option Half := none
  /-- Bridges that a lasting fault of a lane has taken to reduced width, by their number in the error log (R26, R503). -/
  narrow : List Nat := []
  linkUp : Bool := false
  /-- The next cycle in which each route converter may pass a token, at 8·place + side: a station, or 256 + a coupler port (R18). -/
  convs : KMap Nat := []
  /-- The latest arrival of what graphs have sent from one station to another, by 256 times the first plus the second (R12). -/
  netLast : KMap Nat := []
  /-- Tokens sent across the couplers to peers: cycle, leg, sequence number and token (R20). -/
  toPeer : List (Nat × Nat × Half × Token) := []
  /-- Collective-unit token groups: unit, key, contributions by device (R394). -/
  ctoks : List (Nat × Nat × Nat × Token) := []
  /-- Shadow storage: stations' execution state of partitions swapped out (R499). -/
  shadow : List (Nat × Nat × Station) := []
  shadowElems : List (Nat × Nat × Elem) := []
  shadowDone : List Nat := []
  /-- Events of swapped partitions' graph tiles and engines, with the cycles they still need. -/
  shadowEvents : List (Nat × Nat × Event) := []
  /-- Replies to engines and graph tiles of a partition swapped out: request, fault, value (R498). -/
  lateReplies : List (Req × Option DFault × Nat) := []
  power : List Nat := []
  deriving DecidableEq, Repr, Inhabited

/-- The machine right after reset (R448, R534, R535, R537, R542): the board holds RESET_N low, no partition, no thread, no
memory listed, every field at the value the structures above give. -/
def State.reset : State := {}

end Sys2Proof.Machine
end

