-- ==== Sys2Proof/Machine/Access.lean ====
section
/-! DEFINITION. The pieces of the state by name: byte memory with the writes of the step under way, threads, stations,
clusters, partitions, the agenda, free draws, segment descriptors and the fields of a partition record. -/

namespace Sys2Proof.Machine

/-- The outcome of performing a row. -/
abbrev Out := Host.Outcome State Fault Refusal

/-! ### Memory of the step -/

/-- One gathered operation on memory. -/
def applyMem (op : MemOp) (m : KMap Byte) : KMap Byte :=
  match op with
  | .byte a b => mput m a b
  | .clear lo n => mclear m lo n

/-- What the gathered operations, newest first, say of a byte. -/
def wbufGet : List MemOp → Nat → Option Byte
  | [], _ => none
  | .byte a b :: l, x => if a = x then some b else wbufGet l x
  | .clear lo n :: l, x => if lo ≤ x ∧ x < lo + n then some 0 else wbufGet l x

/-- The byte at a place, as this step sees it. -/
def rdB (s : State) (a : Nat) : Byte := (wbufGet s.wbuf a).getD (mget s.mem a)

/-- The n bytes from a place on, as a little-endian number. -/
def rdN (s : State) (a : Nat) : Nat → Nat
  | 0 => 0
  | n + 1 => (rdB s a).toNat + 256 * rdN s (a + 1) n

/-- The n bytes from a place on. -/
def rdL (s : State) (a n : Nat) : List Byte := (List.range n).map fun i => rdB s (a + i)

/-- A byte written. -/
def wrB (s : State) (a : Nat) (b : Byte) : State := { s with wbuf := .byte a b :: s.wbuf }

/-- Bytes written from a place on. -/
def wrL (s : State) (a : Nat) (l : List Byte) : State :=
  (List.range l.length).foldl (fun s i => wrB s (a + i) (l.getD i 0)) s

/-- The low n bytes of a number written from a place on. -/
def wrN (s : State) (a n x : Nat) : State := wrL s a (natLe n x)

/-- A range cleared to zero. -/
def clearMem (s : State) (lo n : Nat) : State := { s with wbuf := .clear lo n :: s.wbuf }

/-- The end of a step: its gathered memory operations, oldest first, act on the memory the step found (log 3). -/
def settle (s0 s : State) : State := { s with mem := s.wbuf.foldr applyMem s0.mem, wbuf := [] }

/-- A row performed by its agent, or none there to perform it. -/
def perform (s : State) (r : Option State) : Out :=
  match r with
  | some s' => .next (settle s s')
  | none => .fault .noAgent

/-! ### Named pieces -/

def getThr (s : State) (t : Word) : Option Thread := kget s.threads t.toNat
def setThr (s : State) (th : Thread) : State := { s with threads := kput s.threads th.tid.toNat th }
def modThr (s : State) (t : Word) (f : Thread → Thread) : State :=
  match getThr s t with
  | none => s
  | some th => setThr s (f th)

def stn (s : State) (i : Nat) : Station := (kget s.stations i).getD {}
def setStn (s : State) (i : Nat) (x : Station) : State := { s with stations := kput s.stations i x }
def modStn (s : State) (i : Nat) (f : Station → Station) : State := setStn s i (f (stn s i))

/-- An element of a graph tile, at 16·station + element. -/
def elemAt (s : State) (st e : Nat) : Elem := (kget s.elems (16 * st + e)).getD {}
def modElem (s : State) (st e : Nat) (f : Elem → Elem) : State :=
  { s with elems := kput s.elems (16 * st + e) (f (elemAt s st e)) }

def clus (s : State) (c : Nat) : Cluster := (kget s.clusters c).getD {}
def modClus (s : State) (c : Nat) (f : Cluster → Cluster) : State :=
  { s with clusters := kput s.clusters c (f (clus s c)) }

def part (s : State) (p : Nat) : Partition := (kget s.parts p).getD {}
def modPart (s : State) (p : Nat) (f : Partition → Partition) : State :=
  { s with parts := kput s.parts p (f (part s p)) }

/-- A vector's entry with a default beyond its end, and its update. -/
def vget {α : Type} [Inhabited α] {n : Nat} (v : Vector α n) (i : Nat) : α := if h : i < n then v[i] else default
def vset {α : Type} {n : Nat} (v : Vector α n) (i : Nat) (a : α) : Vector α n := if h : i < n then v.set i a h else v

/-! ### Time, agenda and free draws -/

/-- An event put on the agenda, due in n cycles. -/
def later (s : State) (n : Nat) (e : Event) : State := { s with agenda := s.agenda ++ [(s.time + n, e)] }

/-- An event taken off the agenda wherever it stands. -/
def unplan (s : State) (f : Event → Bool) : State := { s with agenda := s.agenda.filter fun x => !f x.2 }

/-- A free draw below n; 0 when n is 0 (log 4). -/
def draw (s : State) (n : Nat) : Nat × State := (Config.draw s.freeCtr % max n 1, { s with freeCtr := s.freeCtr + 1 })

/-- An event due after a free time of at least 1 and at most wcl cycles (log 4). -/
def within (s : State) (wcl : Nat) (e : Event) : State :=
  let d := draw s wcl
  later d.2 (1 + d.1) e

/-- A fresh number. -/
def freshId (s : State) : Nat × State := (s.fresh, { s with fresh := s.fresh + 1 })

/-! ### Coordinates (R8, R17) -/

def xOf (st : Nat) : Nat := st % 16
def yOf (st : Nat) : Nat := st / 16
def dieOf (st : Nat) : Nat := 2 * (yOf st / 8) + xOf st / 8
def clusterOf (st : Nat) : Nat := 8 * (yOf st / 2) + xOf st / 2
def hops (a b : Nat) : Nat := (xOf a - xOf b) + (xOf b - xOf a) + (yOf a - yOf b) + (yOf b - yOf a)
/-- The port bridge of a station's quadrant, over which its packets to and from the port die go (R17). -/
def portCorner (st : Nat) : Nat :=
  let lx := xOf st % 8
  let ly := yOf st % 8
  (yOf st - ly + 7 * (ly / 4)) * 16 + (xOf st - lx) + 7 * (lx / 4)
/-- The routers on the way from a station to another, both ends among them: first in x, then in y (R11). -/
def routeOf (a b : Nat) : List Nat :=
  let path (u v : Nat) : List Nat := if u ≤ v then nats u (v + 1) else (nats v (u + 1)).reverse
  (path (xOf a) (xOf b)).map (fun x => 16 * yOf a + x) ++ ((path (yOf a) (yOf b)).drop 1).map (fun y => 16 * y + xOf b)
/-- The port by which a packet leaves its station's router: 0 east, 1 west, 2 north, 3 south, 4 down to its own station or the port
die (R11; log 108). -/
def outPort (a b : Nat) : Nat :=
  if xOf a < xOf b then 0 else if xOf b < xOf a then 1 else if yOf a < yOf b then 2 else if yOf b < yOf a then 3 else 4
/-- The shared-cache class of the distance between two stations (R22). -/
def distClass (a b : Nat) : Nat := if dieOf a = dieOf b then 200 else 360

/-! ### Segment descriptors (R317) -/

def Seg.base (g : Seg) : Nat := bits g.desc.toNat 55 0
def Seg.limit (g : Seg) : Nat := bits g.desc.toNat 103 64
def Seg.type (g : Seg) : Nat := bits g.desc.toNat 126 124
def Seg.read (g : Seg) : Bool := g.desc.getLsbD 112
def Seg.write (g : Seg) : Bool := g.desc.getLsbD 113
def Seg.exec (g : Seg) : Bool := g.desc.getLsbD 114
def Seg.isLocal (g : Seg) : Bool := g.desc.getLsbD 115
def Seg.hashed (g : Seg) : Bool := g.desc.getLsbD 116
def Seg.engine (g : Seg) : Bool := g.desc.getLsbD 117
def Seg.presence (g : Seg) : Bool := g.desc.getLsbD 118
def Seg.pinned (g : Seg) : Bool := g.desc.getLsbD 119
def Seg.sup (g : Seg) : Bool := g.desc.getLsbD 127
/-- The segment is translated: not LOCAL, not TYPE 2 or 3. -/
def Seg.translated (g : Seg) : Bool := !g.isLocal && g.type < 2

/-- A descriptor is well formed, with a station-store quota (R318). -/
def Seg.ok (g : Seg) (quota : Nat) : Bool :=
  let d := g.desc.toNat
  bits d 123 120 == 0 && bits d 111 104 == 0 && bits d 63 56 == 0 && g.type ≤ 3 && g.base + g.limit ≤ 2 ^ 56 &&
  (!g.isLocal || (g.type == 0 && !g.exec && !g.hashed && !g.presence && g.base + g.limit ≤ quota)) &&
  (!g.presence || (g.type == 0 && g.base % 8 == 0 && g.limit % 8 == 0)) &&
  (g.type != 1 || (!g.isLocal && !g.exec && !g.presence)) &&
  (g.type != 2 || (g.base == 0 && g.limit ≤ 524288 &&
    !(g.exec || g.isLocal || g.hashed || g.presence || g.pinned))) &&
  (g.type != 3 || (g.base % 16 == 0 && g.limit % 16 == 0 &&
    !(g.read || g.write || g.exec || g.isLocal || g.hashed || g.presence || g.pinned))) &&
  (!g.exec || (g.type == 0 && !g.isLocal))

/-! ### Partition records (R447) -/

/-- Bytes lo to lo + n - 1 of the record in force. -/
def pfield (p : Partition) (lo n : Nat) : Nat := leNat ((List.range n).map fun i => mget p.record (lo + i))
def Partition.timed (p : Partition) : Bool := bit (pfield p 1 1) 0
def Partition.lockstep (p : Partition) : Bool := bit (pfield p 1 1) 1
def Partition.primary (p : Partition) : Bool := bit (pfield p 1 1) 2
def Partition.group (p : Partition) : Nat := pfield p 2 1
def Partition.key (p : Partition) : Nat := pfield p 3 1
def Partition.ssq (p : Partition) : Nat := pfield p 24 4
def Partition.bsFirst (p : Partition) : Nat := pfield p 28 2
def Partition.bsCount (p : Partition) : Nat := pfield p 30 2
def Partition.segCount (p : Partition) : Nat := 8 * (bits p.segtab.toNat 60 52 + 1)
/-- A cluster lies in the partition's rectangle. -/
def Partition.hasCluster (p : Partition) (c : Nat) : Bool :=
  let x := c % 8
  let y := c / 8
  pfield p 4 1 ≤ x && x ≤ pfield p 6 1 && pfield p 5 1 ≤ y && y ≤ pfield p 7 1
/-- A station lies in the partition's rectangle. -/
def Partition.hasStation (p : Partition) (st : Nat) : Bool := st < 256 && p.hasCluster (clusterOf st)
/-- Every station of the rectangle, ascending. -/
def Partition.rectangle (p : Partition) : List Nat := (List.range 256).filter p.hasStation
/-- Position of a station in the partition's list. -/
def Partition.posOf (p : Partition) (st : Nat) : Nat := p.stations.findIdx (· == st)

/-- Partition and home station of a thread id (R41). -/
def tidPart (t : Word) : Nat := bits t.toNat 31 28
def tidHome (t : Word) : Nat := bits t.toNat 27 20

/-- Windows of the memory list beside the physical addresses (log 1): station stores, tile files, B-stores. -/
def localKey (p st off : Nat) : Nat := 2 ^ 60 + (p * 256 + st) * 2 ^ 21 + off
def tileKey (st slot off : Nat) : Nat := 2 ^ 61 + st * 2 ^ 19 + slot * 2 ^ 15 + off
def bstoreKey (st half col b : Nat) : Nat := 2 ^ 62 + st * 2 ^ 25 + half * 4096 + col * 16 + b

/-! ### Registers of a thread (R73, R75) -/

/-- g0 reads zero. -/
def rg (th : Thread) (r : BitVec 5) : DWord := if r = 0 then 0 else th.g[r.toNat]'r.isLt
/-- Writes to g0 are ignored. -/
def wg (th : Thread) (r : BitVec 5) (x : DWord) : Thread :=
  if r = 0 then th else { th with g := th.g.set r.toNat x r.isLt }
/-- A general register by number. -/
def rgN (th : Thread) (n : Nat) : DWord := rg th (BitVec.ofNat 5 n)
def wgN (th : Thread) (n : Nat) (x : DWord) : Thread := wg th (BitVec.ofNat 5 n) x
def rv (th : Thread) (r : BitVec 4) : VReg := th.v[r.toNat]'r.isLt
def wv (th : Thread) (r : BitVec 4) (x : VReg) : Thread := { th with v := th.v.set r.toNat x r.isLt }
/-- k0 reads all ones. -/
def rk (th : Thread) (k : BitVec 2) : BitVec 16 := if k = 0 then 0xFFFF else if k = 1 then th.k1 else if k = 2 then th.k2 else th.k3
/-- Writes to k0 are ignored. -/
def wk (th : Thread) (k : BitVec 2) (x : BitVec 16) : Thread :=
  if k = 0 then th else if k = 1 then { th with k1 := x } else if k = 2 then { th with k2 := x } else { th with k3 := x }
def rseg (th : Thread) (g : BitVec 3) : Seg := th.seg[g.toNat]'g.isLt

/-- The predicate word (R75). -/
def pwOf (th : Thread) : DWord := th.k3 ++ th.k2 ++ th.k1 ++ (0xFFFF : BitVec 16)
def setPw (th : Thread) (x : DWord) : Thread :=
  { th with k1 := x.extractLsb' 16 16, k2 := x.extractLsb' 32 16, k3 := x.extractLsb' 48 16 }

/-- The pc/status word (R31). -/
def pcswOf (th : Thread) : DWord :=
  BitVec.ofNat 64 (b2n th.sup * 2 ^ 63 + th.prio.toNat * 2 ^ 61 + th.bprio.toNat * 2 ^ 59 + b2n th.te * 2 ^ 58 +
    b2n th.co * 2 ^ 57 + bits th.pc.toNat 55 2 * 4)

/-- The stochastic generators seeded from a word (R134). -/
def seeded (x : Word) : Vector Word 32 := Vector.ofFn fun j : Fin 32 => nonZero (x ^^^ BitVec.ofNat 32 j.val)

end Sys2Proof.Machine
end

