-- ==== Sys2Proof/Machine/Mem.lean ====
section
/-! DEFINITION. Translation (R455 to R459), the physical map (R450), home slices (R322), the shared cache's tags and holders
(R350 to R353), and reads and writes of ranges that an engine, a loader or a walker makes within one step. A home slice holds the
contents of its lines; LM stands behind the slices (R323, R350). -/

namespace Sys2Proof.Machine

/-- This device's id: the SELF entry of the domain table (R542). -/
def ownDev (s : State) : Nat := (List.range 64).find? (fun i => (vget s.domain i).getLsbD 1) |>.getD 0

/-- The memory list's key of a physical address: the local address on this device, a window above 2^52 for the others (log 1). -/
def memKey (s : State) (pa : Nat) : Nat := if pa / 2 ^ 46 = ownDev s then pa % 2 ^ 46 else 2 ^ 52 + pa

/-- A place in a host's memory (R450), and in a peer device's (R7). -/
def isHost (key : Nat) : Bool := decide (2 ^ 45 ≤ key ∧ key < 2 ^ 46)
def isPeer (key : Nat) : Bool := decide (2 ^ 52 ≤ key ∧ key < 2 ^ 53)
def hostOf (key : Nat) : Nat := (key - 2 ^ 45) / 2 ^ 40
def peerOf (key : Nat) : Nat := (key - 2 ^ 52) / 2 ^ 46

/-- The LM stack of a local physical address (R6). -/
def stackOf (pa : Nat) : Nat := bits pa 14 12 ^^^ bits pa 17 15

/-! ### Slices (R350) -/

/-- State of a line's sector i: 0 I, 1 S, 2 E, 3 M (R351). -/
def SLine.sec (l : SLine) (i : Nat) : Nat := (l.st.extractLsb' (2 * i) 2).toNat
def SLine.setSec (l : SLine) (i x : Nat) : SLine :=
  { l with st := (l.st &&& ~~~((3 : BitVec 8) <<< (2 * i))) ||| (BitVec.ofNat 8 x <<< (2 * i)) }
def SLine.byte (l : SLine) (key : Nat) : Byte := l.data.extractLsb' (8 * (key % 256)) 8
def SLine.setByte (l : SLine) (key : Nat) (b : Byte) : SLine :=
  let k := 8 * (key % 256)
  { l with data := (l.data &&& ~~~((0xFF : BitVec 2048) <<< k)) ||| (b.setWidth 2048 <<< k) }

/-- The line of a place in the slice of a bank; banks from 256 on are no slices. -/
def lineAt (s : State) (bank key : Nat) : Option SLine :=
  if bank < 256 then (stn s bank).slice.find? fun l => l.line == key / 256 else none

/-- The slice of a station holds the line. -/
def sliceHit (s : State) (bank key : Nat) : Bool := (lineAt s bank key).isSome

def modLine (s : State) (bank key : Nat) (f : SLine → SLine) : State :=
  modStn s bank fun x => { x with slice := x.slice.map fun l => if l.line = key / 256 then f l else l }

/-- A byte behind the slices: of LM, or of a peer device, whose contents are not of this device and are free (log 1). -/
def backB (s : State) (key : Nat) : Byte := if isPeer key then Config.peerByte s.freeCtr key else rdB s key

/-- A byte as a bank reads it: from its slice's line, else from what lies behind (R323, R350). -/
def hRdB (s : State) (bank key : Nat) : Byte :=
  match lineAt s bank key with
  | some l => if l.sec (key / 64 % 4) = 0 then backB s key else l.byte key
  | none => backB s key

/-- The n bytes from a place on, as a bank reads them: as a number, and one by one. -/
def hRdN (s : State) (bank key : Nat) : Nat → Nat
  | 0 => 0
  | n + 1 => (hRdB s bank key).toNat + 256 * hRdN s bank (key + 1) n
def hRdL (s : State) (bank key n : Nat) : List Byte := (List.range n).map fun i => hRdB s bank (key + i)

/-- A sector of a line is present in a slice (R350). -/
def sectorHit (s : State) (bank key : Nat) : Bool := (lineAt s bank key).any fun l => l.sec (key / 64 % 4) != 0

/-- A byte written at a bank: into its slice's line, whose sector is then M, else behind it (R350, R355). -/
def hWrB (s : State) (bank key : Nat) (b : Byte) : State :=
  if sectorHit s bank key then modLine s bank key fun l => (l.setByte key b).setSec (key / 64 % 4) 3
  else if isPeer key then s
  else wrB s key b

def hWrL (s : State) (bank key : Nat) (l : List Byte) : State :=
  (List.range l.length).foldl (fun s i => hWrB s bank (key + i) (l.getD i 0)) s
def hWrN (s : State) (bank key n x : Nat) : State := hWrL s bank key (natLe n x)

/-- The line that an access puts out of its home slice: when it misses and its set of 16 is full, the least recently used of the
set (R350). A timed partition's accesses allocate nothing (R355), and host memory is not held in slices (log 11). -/
def sliceVictim (s : State) (bank pn key : Nat) : Option SLine :=
  let inSet := (stn s bank).slice.filter fun x => x.line % 512 == key / 256 % 512
  if 256 ≤ bank || sliceHit s bank key || (part s pn).timed || isHost key || inSet.length < 16 then none
  else inSet.foldl (fun (v : Option SLine) x => match v with
    | none => some x
    | some y => if x.used < y.used then some x else some y) none

/-- A line's M sectors are written back to LM; those of a peer device go to their home (R350). -/
def writeBack (s : State) (l : SLine) : State :=
  if isPeer (256 * l.line) then s
  else ((List.range 4).filter fun i => l.sec i == 3).foldl (fun s i =>
    wrL s (256 * l.line + 64 * i) ((List.range 64).map fun j => l.byte (64 * i + j))) s

/-- A line with its contents from behind the slice: LM's sectors in state E, a peer's not yet held (R350, R351). -/
def filledLine (s : State) (key used : Nat) : SLine :=
  let base := key / 256 * 256
  if isPeer key then { line := key / 256, used := used }
  else { line := key / 256, data := BitVec.ofNat 2048 (leNat (rdL s base 256)), st := 0xAA, used := used }

/-- A peer's sectors that an access of n bytes needs are brought in: as S for a read, as M for a write (R351). -/
def proxyFetch (s : State) (bank key n : Nat) (wr : Bool) : State :=
  if isPeer key then
    let s := { s with freeCtr := s.freeCtr + 1 }
    (nats (key / 64) ((key + max n 1 - 1) / 64 + 1)).foldl (fun s k =>
      match lineAt s bank (64 * k) with
      | none => s
      | some l =>
        let i := k % 4
        let l' := if l.sec i = 0 then
            (List.range 64).foldl (fun l j => l.setByte (64 * k + j) (Config.peerByte s.freeCtr (64 * k + j))) l
          else l
        modLine s bank (64 * k) fun _ => if wr then l'.setSec i 3 else if l.sec i = 0 then l'.setSec i 1 else l') s
  else s

/-- An access of n bytes at its home: its line is allocated on a miss, the least recently used of its set out, and is now the one
used last (R350). A timed partition's lines outside its eviction schedule are not allocated (R355). -/
def touchSlice (s : State) (bank pn key n : Nat) (wr : Bool) : State :=
  if 256 ≤ bank || isHost key then s
  else
    let used := s.fresh
    let s' := { s with fresh := s.fresh + 1 }
    let s' :=
      if sliceHit s bank key then modLine s' bank key fun l => { l with used := used }
      else if (part s pn).timed then s'
      else
        let victim := sliceVictim s bank pn key
        let s' := match victim with
          | some v => writeBack s' v
          | none => s'
        let l := filledLine s' key used
        modStn s' bank fun x => { x with slice := (x.slice.filter fun y => some y != victim) ++ [l] }
    proxyFetch s' bank key n wr

/-! ### Reads and writes by physical address (R453, R457) -/

/-- The copy of a place that was written last: in a slice that has its sector in M (log 105). -/
def newestLine (s : State) (key : Nat) : Option SLine :=
  (s.stations.filterMap fun e => e.2.slice.find? fun l => l.line == key / 256 && l.sec (key / 64 % 4) == 3).foldl
    (fun (v : Option SLine) x => match v with
      | none => some x
      | some y => if y.used < x.used then some x else some y) none

def physB (s : State) (key : Nat) : Byte := ((newestLine s key).map (·.byte key)).getD (backB s key)
def physN (s : State) (key : Nat) : Nat → Nat
  | 0 => 0
  | n + 1 => (physB s key).toNat + 256 * physN s (key + 1) n
def physL (s : State) (key n : Nat) : List Byte := (List.range n).map fun i => physB s (key + i)

/-- Every slice of the device changed. -/
def mapSlices (s : State) (f : List SLine → List SLine) : State :=
  let g (e : Nat × Station) : Nat × Station := (e.1, { e.2 with slice := f e.2.slice })
  { s with stations := s.stations.map g }

/-- A byte written by physical address: in LM and in every slice that holds its line. -/
def physWrB (s : State) (key : Nat) (b : Byte) : State :=
  let s := mapSlices s fun ls => ls.map fun l => if l.line = key / 256 then l.setByte key b else l
  if isPeer key then s else wrB s key b
def physWrL (s : State) (key : Nat) (l : List Byte) : State :=
  (List.range l.length).foldl (fun s i => physWrB s (key + i) (l.getD i 0)) s

/-- The slices hold nothing of a range of LM. -/
def dropSlices (s : State) (lo n : Nat) : State :=
  mapSlices s fun ls => ls.filter fun l => !(decide (lo < 256 * l.line + 256) && decide (256 * l.line < lo + n))

/-- The lines of a range of LM leave the slices, their M sectors written back. -/
def flushSlices (s : State) (lo n : Nat) : State :=
  let hit (l : SLine) : Bool := decide (lo ≤ 256 * l.line) && decide (256 * l.line < lo + n)
  mapSlices ((s.stations.flatMap fun e => e.2.slice.filter hit).foldl writeBack s) fun ls => ls.filter fun l => !hit l

/-- The slices hold nothing of a sector: it reads as its LM contents (R353). -/
def resetSector (s : State) (k : Nat) : State :=
  mapSlices s fun ls => ls.map fun l => if l.line = k / 4 then l.setSec (k % 4) 0 else l

/-! ### Windows and reach -/

/-- Window i of a partition: base, length, agent, rights (R468). -/
def winOf (p : Partition) (i : Nat) : Nat × Nat × Nat × Nat :=
  (pfield p (256 + 16 * i) 8, pfield p (264 + 16 * i) 5, pfield p (269 + 16 * i) 1, pfield p (270 + 16 * i) 1)
/-- Some window in use names agent h. -/
def namesAgent (p : Partition) (h : Nat) : Bool := (List.range 16).any fun i =>
  let w := winOf p i
  w.2.1 != 0 && w.2.2.1 == h
/-- A window names agent h with a right (0 read, 1 write, 2 acquire, 3 launch and message). -/
def agentRight (p : Partition) (h right : Nat) : Bool := (List.range 16).any fun i =>
  let w := winOf p i
  w.2.1 != 0 && w.2.2.1 == h && bit w.2.2.2 right
/-- Agent h has an open session whose lease has not lapsed (R469). -/
def leased (s : State) (h : Nat) : Bool := s.sessions.any fun x => x.agent == h && x.up

/-- A member of a lockstep pair that runs in step. -/
def Partition.inStep (p : Partition) : Bool := p.st == .running && p.lockstep && p.lockBase.isSome

/-- A host agent with a lease that is not dead, as a partition knows it: a lockstep pair by the lease events delivered to it (R419, R464,
R469, log 128). -/
def agentKnown (s : State) (p : Partition) (h : Nat) : Bool :=
  if p.inStep then p.agents.contains h else leased s h && !s.deadAgents.contains (64 + h)

/-- A leaf's page lies within the partition's reach (R450). -/
def reachable (s : State) (p : Partition) (pa size : Nat) : Bool :=
  let dev := pa / 2 ^ 46
  let l := pa % 2 ^ 46
  if dev ≠ ownDev s then dev < 64 && (vget s.domain dev).getLsbD 0 &&
    (l < 0xC000000000 || (decide (2 ^ 45 ≤ l) && decide (l < 2 ^ 45 + 2 ^ 44)))
  else if l < 0xC000000000 then pfield p 8 8 ≤ l && l + 2 ^ size ≤ pfield p 8 8 + pfield p 16 8
  else if 2 ^ 45 ≤ l ∧ l < 2 ^ 45 + 2 ^ 44 then
    let h := (l - 2 ^ 45) / 2 ^ 40
    agentKnown s p h && namesAgent p h
  else false

/-- A translation found: frame, entry's place, log2 of the page size, and the leaf's bits (R456). -/
structure Leaf where
  leaf : Nat
  entry : Nat
  size : Nat
  deriving DecidableEq, Repr

/-- The levels of the page table: level, high bit and low bit of the index (R455). -/
def ptLevels : List (Nat × Nat × Nat) := [(1, 55, 48), (2, 47, 39), (3, 38, 30), (4, 29, 21), (5, 20, 12)]

/-- A 64 KiB contiguous group at level 5 (R457). -/
def contGroup (s : State) (e : Nat) : Bool :=
  let g := e - e % 128
  let e0 := physN s g 8
  (List.range 16).all fun i =>
    let x := physN s (g + 8 * i) 8
    bit x 0 && bit x 1 && bit x 4 && x % 4096 == e0 % 4096 && bits x 63 56 == bits e0 63 56 &&
      bits x 51 12 == bits e0 51 12 + i && bits e0 51 12 % 16 == 0

/-- The entries that a walk reads, on path T, by physical address (R457). -/
def walkPath (s : State) (va : Nat) : List (Nat × Nat × Nat) → Nat → List Nat
  | [], _ => []
  | (_, hi, lo) :: ls, t =>
    let ea := memKey s (t + 8 * bits va hi lo)
    let e := physN s ea 8
    if bit e 0 && !bit e 1 then ea :: walkPath s va ls (bits e 51 12 * 4096) else [ea]

/-- The home of a line in a partition's list of stations (R322). -/
def Partition.homeIn (p : Partition) (va : Nat) (hashed : Bool) : Nat :=
  let n := bits va 55 8
  let k := if hashed then
      (xorShift (nonZero (BitVec.ofNat 32 n ^^^ BitVec.ofNat 32 (bits n 47 32)))).toNat
    else n
  p.stations.getD (k % p.stations.length) 0

/-! ### Poison, errors and holders of sectors (R351, R353, R502) -/

/-- Some sector of a range is poisoned. -/
def poisoned (s : State) (key n : Nat) : Bool := (nats (key / 64) ((key + n - 1) / 64 + 1)).any s.poison.contains

/-- The cause that a reader of a range takes: that of an uncorrectable error which it is the first to meet, or poison (R353, R502;
log 131). -/
def badCause (s : State) (key n : Nat) : Option Byte :=
  if (nats (key / 64) ((key + n - 1) / 64 + 1)).any s.eccNew.contains then some 0x08
  else if poisoned s key n then some 0x09
  else none

/-- A reader has been told of the errors of a range (R502; log 131). -/
def told (s : State) (key n : Nat) : State :=
  { s with eccNew := s.eccNew.filter fun k => !((nats (key / 64) ((key + n - 1) / 64 + 1)).contains k) }

/-- Holders of a sector that an access must recall: an E or M holder for a read, every holder for a write. -/
def recallsFor (s : State) (sector : Nat) (wr : Bool) : List Nat :=
  ((kget s.dirs sector).getD []).filterMap fun h => if wr || 2 ≤ h.st then some h.agent else none

/-- The recalls of the line that an access puts out of its slice (R350). -/
def victimRecalls (s : State) (bank pn key : Nat) : List (Nat × Nat) :=
  match sliceVictim s bank pn key with
  | none => []
  | some v => (nats (4 * v.line) (4 * v.line + 4)).flatMap fun k => (recallsFor s k true).map fun a => (a, k)

/-- The places that a range access within one line may not touch yet are noted: a sector that an agent holds, a line to be put out
that an agent holds, and for a write a word that is reserved and behind whose reservation it has not yet waited (R350, R351, R371). -/
def noteHeld (s : State) (bank pn key n : Nat) (wr : Bool) : State :=
  let living (l : List Nat) : Bool := l.any fun a => !s.deadAgents.contains a
  let home := bank < 256
  let secs := if home then (nats (key / 64) ((key + max n 1 - 1) / 64 + 1)).filter fun k => living (recallsFor s k wr) else []
  let out := if home && living ((victimRecalls s bank pn key).map (·.1)) then [key] else []
  let ws := if wr then (nats (key / 8) ((key + max n 1 - 1) / 8 + 1)).filter fun w =>
      !s.passed.contains w && (kget s.rsv w).any (fun e => e.holder.isSome)
    else []
  let note (k : Nat) : Nat × Nat × Nat × Bool := (bank, pn, k, wr)
  { s with held := s.held ++ (secs.map (64 * ·) ++ out ++ ws.map (8 * ·)).map note
           passed := if wr then s.passed.filter fun w => !(key / 8 ≤ w && w ≤ (key + max n 1 - 1) / 8) else s.passed }

/-- Monitors registered on the line of a place are triggered, and a MONWAIT that waits for one returns (R416, R418). -/
def trigger (s : State) (key : Nat) : State :=
  (s.arms.filter fun a => a.line == key / 256).foldl (fun s a =>
    match getThr s a.tid with
    | none => s
    | some th =>
      let s := setThr s { th with mon := vset th.mon a.n { vget th.mon a.n with trig := true } }
      match th.wait with
      | some { on := .mon _, pc := _, id := n, since := _, retry := _ } => later s 1 (.longOpComplete th.tid.toNat n)
      | _ => s) s

/-! ### The page walk (R457) -/

/-- The page walk from a table on (R457). -/
def walkFrom (s : State) (p : Partition) (va : Nat) : List (Nat × Nat × Nat) → Nat → Except DFault Leaf
  | [], _ => .error { cause := 0x07, addr := BitVec.ofNat 64 va }
  | (lv, hi, lo) :: ls, t =>
    let ea := memKey s (t + 8 * bits va hi lo)
    let e := physN s ea 8
    let bad (c : Byte) : Except DFault Leaf := .error { cause := c, addr := BitVec.ofNat 64 va, region := lo }
    if (stn s (p.homeIn ea false)).dead then bad 0x0A
    else match badCause s ea 8 with
    | some c => bad c
    | none =>
      if !bit e 0 then bad 0x06
      else if bits e 63 56 ≠ p.key ∨ bits e 55 52 ≠ 0 ∨ bits e 11 8 ≠ 0 then bad 0x07
      else if bit e 1 then
        if lv ≤ 2 ∨ (bit e 4 ∧ lv ≠ 5) ∨ bits e 51 12 * 4096 % 2 ^ lo ≠ 0 then bad 0x07
        else if !reachable s p (bits e 51 12 * 4096) lo then bad 0x07
        else if lv = 5 ∧ bit e 4 ∧ contGroup s ea then
          .ok { leaf := e - (e / 4096 % 16) * 4096, entry := ea, size := 16 }
        else .ok { leaf := e, entry := ea, size := lo }
      else if lv = 5 ∨ bit e 4 then bad 0x07
      else walkFrom s p va ls (bits e 51 12 * 4096)

/-- The rights an access needs of a leaf (R457). -/
def leafRights (l : Leaf) (wr fe pin : Bool) : Bool :=
  (!wr || bit l.leaf 2) && (!fe || bit l.leaf 3) && (!pin || bit l.leaf 5)

/-- A cached translation of the station's cluster (R459). -/
def tlbFind (s : State) (st pn va : Nat) : Option Tlb :=
  (clus s (clusterOf st)).tlb.find? fun t => t.part == pn && t.vpn == va / 2 ^ t.size

/-- A translation cached, least recently used first out: 4,096 entries, of which leaves with PIN = 1 keep 512 (R459,
log 126). -/
def tlbAdd (l : List Tlb) (t : Tlb) : List Tlb :=
  let l := l.filter (fun x => !(x.part == t.part && x.vpn == t.vpn && x.size == t.size)) ++ [t]
  let isPin (x : Tlb) : Bool := x.leaf.getLsbD 5
  let extra := l.countP isPin - 512
  if l.countP (fun x => !isPin x) + extra ≤ 3584 then l
  else if 0 < extra then l.drop 1 else l.eraseP fun x => !isPin x

/-- The home station of a virtual line of a partition (R322). -/
def homeOf (s : State) (pn va : Nat) (hashed : Bool) : Nat := (part s pn).homeIn va hashed

/-- A cached translation that is used last, and so replaced last (R459). -/
def tlbTouch (s : State) (st : Nat) (t : Tlb) : State := modClus s (clusterOf st) fun c => { c with tlb := tlbAdd c.tlb t }

/-- The walk reads an entry at its home slice, behind the recall of whoever holds it (R350, R351, R457). -/
def walkRead (s : State) (pn ea : Nat) : State :=
  let home := homeOf s pn ea false
  touchSlice (noteHeld s home pn ea 8 false) home pn ea 8 false

/-- An OR into a page-table entry at its home: a write like any other (R351, R371, R416, R457). -/
def walkOr (s : State) (pn ea : Nat) (b : Byte) : State :=
  let home := homeOf s pn ea false
  let s := touchSlice (noteHeld s home pn ea 8 true) home pn ea 8 true
  trigger (physWrB s ea (physB s ea ||| b)) ea

/-- Translation of a virtual address at the station's cluster memory port: from the cache or by a walk, whose entries are read at the
home slices of their lines. A is set when the leaf is first cached, and D before the first write through it (R455 to R459; log 105).
The result is the memory list's key. The translation is cached unless a TLBINV took the page meanwhile: lost holds the ranges taken
(R460). -/
def translateKeep (s : State) (st pn va : Nat) (wr fe pin : Bool) (lost : List (Nat × Nat)) : State × Except DFault Nat :=
  let p := part s pn
  let root := bits p.ptroot.toNat 51 12 * 4096
  let hit := tlbFind s st pn va
  let path := if hit.isSome then [] else walkPath s va ptLevels root
  let found : Except DFault Leaf :=
    match hit with
    | some t => .ok { leaf := t.leaf.toNat, entry := t.entry, size := t.size }
    | none => walkFrom s p va ptLevels root
  let s := path.foldl (fun s ea => walkRead s pn ea) s
  match found with
  | .error f => (path.foldl (fun s ea => told s ea 8) s, .error f)
  | .ok l =>
    if !leafRights l wr fe pin then (s, .error { cause := 0x07, addr := BitVec.ofNat 64 va, region := l.size })
    else
      let set : Nat := (if hit.isSome || bit l.leaf 6 then 0 else 0x40) + (if wr && !bit l.leaf 7 then 0x80 else 0)
      let s := if set = 0 then s else walkOr s pn l.entry (BitVec.ofNat 8 set)
      let leaf := BitVec.ofNat 64 (l.leaf + set)
      let lo := va / 2 ^ l.size * 2 ^ l.size
      let keep := !(lost.any fun x => decide (lo < x.2) && decide (x.1 < lo + 2 ^ l.size))
      let s := if keep || hit.isSome then tlbTouch s st (Tlb.mk pn (va / 2 ^ l.size) l.size leaf l.entry 0) else s
      (s, .ok (memKey s (bits l.leaf 51 12 * 4096 + va % 2 ^ l.size)))
def translate (s : State) (st pn va : Nat) (wr fe pin : Bool) : State × Except DFault Nat :=
  translateKeep s st pn va wr fe pin []

/-- Translation for a row that acts within one step: a miss is noted, and the row tried again when a walker has served it (R459; log
132). -/
def rowTranslate (s : State) (st pn va : Nat) (wr pin : Bool) : State × Except DFault Nat :=
  let w := (clusterOf st, pn, va / 4096)
  if (tlbFind s st pn va).isSome then translate s st pn va wr false pin
  else if s.walked.contains w then translate { s with walked := s.walked.erase w } st pn va wr false pin
  else ({ s with needs := s.needs ++ [(st, pn, va, wr, pin)] }, .error { cause := 0x06, addr := BitVec.ofNat 64 va })

/-! ### The time-division frame (R462, log 127) -/

/-- A slot in which a partition's traffic may start: one of its own when it is timed, else, and for its prefetches (R95), one that no
timed partition owns. -/
def slotOpen (s : State) (pn k : Nat) (pf : Bool) : Bool :=
  if (part s pn).timed && !pf then bit (pfield (part s pn) 64 32) k
  else !(s.parts.any fun p => p.2.st == .running && p.2.timed && bit (pfield p.2 64 32) k)

/-- Cycles until the next slot in which a partition's traffic may start. -/
def slotWait (s : State) (pn : Nat) (pf : Bool) : Nat :=
  let k := s.time % 4096 / 16
  if slotOpen s pn k pf then 0
  else match (List.range 256).find? fun i => slotOpen s pn ((k + i + 1) % 256) pf with
    | some i => 16 * (i + 1) - s.time % 16
    | none => 0

/-- A row's access at a home slice starts in an open slot like any request; else the row is tried again (R462). -/
def rowSlot (s : State) (home pn key : Nat) : State :=
  if ((part s pn).timed ∨ !sliceHit s home key) ∧ slotWait s pn false ≠ 0 then { s with shut := true } else s

/-! ### Power (R539) -/

/-- A timed partition draws more than its PWR. -/
def overPower (s : State) (pn : Nat) (p : Partition) : Bool := decide (pfield p 60 4 < Config.partPower pn s.time)

/-- The partition's cores issue, and its arrays fire, in this rotation: one that is timed and draws no more than its PWR in every one (R539). -/
def onDuty (s : State) (pn : Nat) : Bool :=
  let p := part s pn
  decide (s.time / 16 % 16 < p.duty) || (p.timed && !overPower s pn p)

/-! ### Ranges read and written within one step -/

/-- What makes a range access fail at its home: a dead home, an error or a poisoned sector (R501, R353, R502). -/
def homeFault (s : State) (home key n : Nat) (va : Nat) : Option DFault :=
  if (stn s home).dead then some { cause := 0x0A, addr := BitVec.ofNat 64 va }
  else (badCause s key n).map fun c => { cause := c, addr := BitVec.ofNat 64 va }

/-- The cycle of a lockstep partition's own counter. -/
def lockCycle (s : State) (p : Partition) : Nat := s.time - p.lockBase.getD s.time

/-- A write (kind 0) or a packet (kind 1) that leaves station st of a lockstep partition towards b: it is gathered with the other events
of its cycle, at the place of its cycle, station and output port. -/
def foldEvent (s : State) (pn st b kind addr : Nat) (data : List Byte) : State :=
  let p := part s pn
  if p.lockstep && p.lockBase.isSome then
    let h := natLe 8 addr ++ [BitVec.ofNat 8 kind, 0] ++ natLe 2 data.length ++ natLe 2 (lockCycle s p % 1024) ++ [0, 0]
    modPart s pn fun p => { p with folds := p.folds ++ [(lockCycle s p, st * 8 + outPort st b, h ++ data)] }
  else s

/-- A range of virtual memory, line piece by line piece (fuel), each read at its home slice. -/
def vreadGo (st pn : Nat) (hashed pin : Bool) : Nat → State → Nat → Nat → State × Except DFault (List Byte)
  | 0, s, _, _ => (s, .ok [])
  | k + 1, s, va, n =>
    if n = 0 then (s, .ok [])
    else
      let m := min n (256 - va % 256)
      match rowTranslate s st pn va false pin with
      | (s, .error f) => (s, .error f)
      | (s, .ok key) =>
        let home := homeOf s pn va hashed
        match homeFault s home key m va with
        | some f => (told s key m, .error f)
        | none =>
          let s := touchSlice (noteHeld (rowSlot s home pn key) home pn key m false) home pn key m false
          let here := hRdL s home key m
          match vreadGo st pn hashed pin k s (va + m) (n - m) with
          | (s, .ok l) => (s, .ok (here ++ l))
          | (s, .error f) => (s, .error f)

/-- n bytes read at a virtual address. -/
def vread (s : State) (st pn va n : Nat) (hashed pin : Bool) : State × Except DFault (List Byte) :=
  vreadGo st pn hashed pin (n / 256 + 2) s va n

/-- A range of virtual memory written, line piece by line piece (fuel): writes made before a failing piece stay. -/
def vwriteGo (st pn : Nat) (hashed pin : Bool) : Nat → State → Nat → List Byte → State × Option DFault
  | 0, s, _, _ => (s, none)
  | k + 1, s, va, l =>
    if l.isEmpty then (s, none)
    else
      let m := min l.length (256 - va % 256)
      match rowTranslate s st pn va true pin with
      | (s, .error f) => (s, some f)
      | (s, .ok key) =>
        let home := homeOf s pn va hashed
        match homeFault s home key m va with
        | some f => (told s key m, some f)
        | none =>
          let s := touchSlice (noteHeld (rowSlot s home pn key) home pn key m true) home pn key m true
          let s := trigger (hWrL s home key (l.take m)) key
          let s := if home = st then s else foldEvent s pn st home 0 key (l.take m)
          vwriteGo st pn hashed pin k s (va + m) (l.drop m)

/-- Bytes written at a virtual address. -/
def vwrite (s : State) (st pn va : Nat) (l : List Byte) (hashed pin : Bool) : State × Option DFault :=
  vwriteGo st pn hashed pin (l.length / 256 + 2) s va l

/-- A range of the segment table read by physical address through the shared cache (R350, R453). -/
def tableRead (s : State) (pn off n : Nat) : State :=
  let a := memKey s (bits (part s pn).segtab.toNat 51 6 * 64 + off)
  (nats (a / 256) ((a + n - 1) / 256 + 1)).foldl (fun s k =>
    let lo := max a (256 * k)
    let m := min (a + n) (256 * k + 256) - lo
    let home := homeOf s pn lo false
    touchSlice (noteHeld s home pn lo m false) home pn lo m false) s

/-- A descriptor of the partition's segment table by physical address (R453). -/
def tableSeg (s : State) (pn idx : Nat) : Seg :=
  let a := memKey s (bits (part s pn).segtab.toNat 51 6 * 64 + 16 * idx)
  { desc := BitVec.ofNat 128 (physN s a 16), idx := idx }

/-- A segment set: entries 8k to 8k + 7, or null descriptors at or beyond SEGCOUNT/8 (R44, R453). A descriptor that is not well
formed is loaded as null. -/
def segSet (s : State) (pn k : Nat) : Vector Seg 8 := Vector.ofFn fun j : Fin 8 =>
  if k < (part s pn).segCount / 8 then
    let g := tableSeg s pn (8 * k + j.val)
    if g.ok (part s pn).ssq then g else {}
  else {}

/-! ### Segments: checks and places (R319, R320) -/

/-- The segment's buffer is SEALED, or is being sealed or unsealed: it takes no write (R319, R347, R348). -/
def sealedSeg (s : State) (pn : Nat) (g : Seg) : Bool := g.type == 1 && (kget (part s pn).seals g.idx).isSome

/-- The check of an access of z bytes at an offset: its first failing cause in the order of R85. -/
def segCheck (s : State) (pn : Nat) (g : Seg) (off z : Nat) (wr : Bool) : Option Byte :=
  if off % z ≠ 0 then some 0x05
  else if (if wr then !g.write else !g.read) then some 0x04
  else if g.type = 3 then some 0x04
  else if wr && sealedSeg s pn g then some 0x04
  else if 2 ^ 40 ≤ off ∨ g.limit < off + z then some 0x03
  else none

/-- Where an offset of a segment lies: an untranslated place, or a virtual address (R320). -/
inductive Place where
  | phys (key : Nat)
  | tile (slot key : Nat)
  | virt (va : Nat)
  deriving DecidableEq, Repr

def placeOf (pn st : Nat) (g : Seg) (off : Nat) : Place :=
  if g.isLocal then .phys (localKey pn st (g.base + off))
  else if g.type = 2 then .tile (bits off 18 15) (tileKey st (bits off 18 15) (off % 2 ^ 15))
  else .virt ((g.base + off) % 2 ^ 56)

/-- The B-store place of a byte offset of a TYPE 3 segment (R381). -/
def bstorePlace (s : State) (pn st off : Nat) : Nat := bstoreKey st ((part s pn).bsFirst + off / 4096) 0 (off % 4096)

end Sys2Proof.Machine
end

