-- ==== Sys2Proof/Machine/Yxt.lean ====
section
/-! DEFINITION. Frames that leave the Ethernet port (R467, R468), output held by a lockstep pair (R465), and the digest of a
window (R465). -/

namespace Sys2Proof.Machine

/-! ### Digests (R465) -/

/-- One bit of the CRC-64/ECMA-182 register. -/
def crcBit (c : DWord) : DWord := if c.msb then (c <<< 1) ^^^ 0x42F0E1EBA9EA3693 else c <<< 1

/-- A byte folded into the register, most significant bit first. -/
def crcByte (c : DWord) (b : Byte) : DWord :=
  crcBit (crcBit (crcBit (crcBit (crcBit (crcBit (crcBit (crcBit (c ^^^ (b.setWidth 64 <<< 56)))))))))

/-- The digest of a byte string from a register value on. -/
def crc64 (c : DWord) (l : List Byte) : DWord := l.foldl crcByte c

/-- The digest of a window: its events in ascending cycle, station and output port, from a register of 0 on. -/
def foldWindow (p : Partition) (w : Nat) : DWord :=
  let keyLe (a b : Nat × Nat × List Byte) : Bool := decide (a.1 < b.1) || (decide (a.1 = b.1) && decide (a.2.1 ≤ b.2.1))
  (sortLe keyLe (p.folds.filter fun e => e.1 / 1024 == w)).foldl (fun c e => crc64 c e.2.2) 0

/-! ### Frames sent (R467, R468) -/

/-- A frame before it is numbered: the header with SEQ, ACK and SACK zero, and the payload. -/
def protoFrame (x : Session) (type flags pn : Nat) (payload : Frame) : Frame :=
  [1, BitVec.ofNat 8 type, BitVec.ofNat 8 flags, BitVec.ofNat 8 x.agent] ++ natLe 4 x.id.toNat ++ natLe 4 0 ++
    natLe 4 0 ++ natLe 8 0 ++ natLe 2 payload.length ++ [BitVec.ofNat 8 pn] ++ natLe 5 0 ++ payload

/-- The SACK field: bit j set when frame ACK + 1 + j waits in the window (R467). -/
def sackOf (x : Session) : Nat :=
  (List.range 64).foldl (fun m j => if x.rxWin.any fun f => f.1 == x.rxNext + BitVec.ofNat 32 (j + 1) then m + 2 ^ j else m) 0

/-- A frame leaves the port: SEQ, ACK, SACK and the tag are put in. Nothing leaves while the link is down (R541). -/
def transmit (s : State) (x : Session) (seq : Word) (f : Frame) : State :=
  let b := f.take 8 ++ natLe 4 seq.toNat ++ natLe 4 x.rxNext.toNat ++ natLe 8 (sackOf x) ++ f.drop 24
  if s.linkUp then { s with out := (s.time, b ++ Config.shake256 (x.key ++ b) 16) :: s.out } else s

def modSession (s : State) (id : Word) (f : Session → Session) : State :=
  { s with sessions := s.sessions.map fun x => if x.id = id then f x else x }

/-- A frame takes the next sequence number of its session; it leaves at once while fewer than 64 frames are unacknowledged and
is resent 20 µs after each sending (R468). -/
def queueFrame (s : State) (f : Frame) : State :=
  match s.sessions.find? fun x => x.id.toNat == field f 4 4 && x.up with
  | none => s
  | some x =>
    let seq := x.txNext
    let s := modSession s x.id fun y => { y with txNext := seq + 1, unacked := y.unacked ++ [(seq, s.time, f)] }
    if x.unacked.length < 64 then
      later (transmit s x seq f) 72000 (.frameResend x.id.toNat seq.toNat)
    else s

/-- Output of a partition: a lockstep primary holds it until the window's digests agree, a secondary sends nothing (R465). -/
def sendPart (s : State) (x : Session) (type flags pn : Nat) (payload : Frame) : State :=
  let p := part s pn
  let f := protoFrame x type flags pn payload
  if pn < 16 && p.inStep then
    if p.primary then modPart s pn fun p => { p with heldOut := p.heldOut ++ [(lockCycle s p / 1024, f)] } else s
  else queueFrame s f

/-- A message in parts of 8,192 bytes at most, the last one marked LAST (R467). -/
def sendFrame (s : State) (x : Session) (type pn : Nat) (payload : Frame) : State :=
  let n := (payload.length - 1) / 8192
  (List.range (n + 1)).foldl (fun s i => sendPart s x type (if i = n then 1 else 0) pn ((payload.drop (8192 * i)).take 8192)) s

/-- A frame to an open session of an agent. -/
def sendAgent (s : State) (agent type pn : Nat) (payload : Frame) : State :=
  match s.sessions.find? fun x => x.agent == agent && x.up with
  | some x => sendFrame s x type pn payload
  | none => s

/-- The payload of an ERROR frame (R471): tag, cause, partition, thread id. -/
def errorPayload (tag : Word) (cause pn : Nat) (tid : Word) : Frame :=
  natLe 4 tag.toNat ++ [BitVec.ofNat 8 cause, BitVec.ofNat 8 pn, 0, 0] ++ natLe 4 tid.toNat

/-- A report leaves as an ERROR frame to the admin session and to every agent the windows name (R486). -/
def reportFrames (s : State) (pn : Nat) (data : Frame) : State :=
  (s.sessions.filter fun x => x.up && (x.admin || namesAgent (part s pn) x.agent)).foldl
    (fun s x => sendFrame s x 10 pn data) s

/-- The class of an access to a peer: 4,600 cycles by a direct port, and each further hop adds 1,400 cycles both ways (R22, R472). -/
def peerClass (s : State) (dev : Nat) : Nat := 4600 + 2800 * bits (vget s.domain dev).toNat 7 6

/-- The time in which a holder answers a recall: RECALLMAX of a host (64 on), the class of a peer (R352, R469). -/
def recallClass (s : State) (agent : Nat) : Nat :=
  if 64 ≤ agent then ((s.sessions.find? fun x => x.agent == agent - 64 && x.up).map (·.recallMax)).getD 0 else peerClass s agent

/-- A recall of a sector from a holder, for a request: a RECALL frame to a host, a coupler request to a peer; a holder that has not
answered in four times its class is suspected (R351, R352, R470). -/
def sendRecall (s : State) (agent pn req sector to_ : Nat) : State :=
  let s := if 64 ≤ agent then sendAgent s (agent - 64) 7 pn (natLe 8 (sector * 64) ++ [BitVec.ofNat 8 to_]) else s
  later s (4 * recallClass s agent) (.transactionLate agent req)

/-! ### Messages received (R467, R470) -/

/-- An offset of the configuration window (R450, R451). -/
def windowOffset (a : Nat) : Option Nat := if 0x3F0000000000 ≤ a ∧ a < 0x3F0000010000 then some (a - 0x3F0000000000) else none

/-- The row of the opcode table that acts on a message: by its type, and the operation or address in its payload. -/
def frameEvent (f : Frame) : Option Event :=
  match field f 1 1 with
  | 0 => some (.acknowledgement f)
  | 1 => match windowOffset (field f 32 8) with
    | some o => some (if 0x4000 ≤ o ∧ o < 0x4200 then .domainTableWrite f else .registerWrite f)
    | none => some (.write f)
  | 2 => some (.read f)
  | 3 => some (.readresp f)
  | 4 => some (.launchFrame f)
  | 5 => some (.msg f)
  | 6 => some (.acq f)
  | 8 => some (.release f)
  | 11 => some (.attest f)
  | 12 => match field f 32 1 with
    | 1 => some (.leaseOpen f)
    | 2 => some (.leaseRenew f)
    | 3 => some (.leaseClose f)
    | _ => none
  | _ => none

/-- The messages of a session that wait, and inputs of a lockstep pair in the same session, are tried again. -/
def wakeSession (s : State) (id : Word) : State :=
  let l := ((s.sessions.filter fun x => x.id == id).flatMap fun x => x.waitq.map (·.2)) ++
    s.parts.flatMap fun p => p.2.ready.filter fun f => field f 4 4 == id.toNat
  l.foldl (fun s f => match frameEvent f with | some e => later s 0 e | none => s) s

/-- An input of a lockstep partition is stamped by the primary, and acts LSDELAY later; the secondary has its inputs from the primary alone
(R464; log 139). -/
def stampInput (s : State) (pn : Nat) (f : Frame) : State :=
  let p := part s pn
  let n := pfield p 56 4
  if p.inStep && p.primary then
    later (modPart s pn fun p => { p with inputs := p.inputs ++ [(lockCycle s p + n, f)] }) n (.lockstepInputInject pn)
  else s

/-- An event that is no frame as an input of a lockstep pair: TYPE 12 for a lease, 13 and 14 for a request and a recall of a peer, with its
agent and payload, of no session. -/
def inputNote (pn type agent : Nat) (b : Frame) : Frame :=
  [1, BitVec.ofNat 8 type, 1, BitVec.ofNat 8 agent] ++ natLe 4 0xFFFFFFFF ++ natLe 16 0 ++ natLe 2 0xFFFF ++ [BitVec.ofNat 8 pn] ++ natLe 5 0 ++ b

/-- An event that is no frame, as an input of an in-step partition: taken when its delivery cycle has come, else stamped. -/
def throughPair (s : State) (pn : Nat) (f : Frame) (act : State → State) : State :=
  if (part s pn).ready.contains f then act (modPart s pn fun p => { p with ready := p.ready.erase f }) else stampInput s pn f
end Sys2Proof.Machine
end

