-- ==== Sys2Proof/Machine/Req.lean ====
section
/-! DEFINITION. Threads' states and long operations (R34 to R38), messages and reports on their way (R421), requests on their
way to a home (R325, R329), and the L1 with its combining sectors (R327). -/

namespace Sys2Proof.Machine

/-! ### Threads in and out of slots (R37 to R40) -/

/-- Threads that hold a context entry of a core (R38). -/
def contexts (s : State) (st : Nat) : Nat := s.threads.countP fun x =>
  x.2.station == st && (match x.2.st with | .running _ => true | .ready => true | .parked _ => true | _ => false)

/-- A thread that has not ended (R403). -/
def TState.live : TState → Bool
  | .exited => false | .faulted => false | .killed => false | .lost => false | _ => true

/-- The thread's slot is freed, and PRIO returns to BPRIO (R39). -/
def leaveSlot (s : State) (th : Thread) : State × Thread :=
  match th.st with
  | .running _ => (modStn s th.station fun x => { x with slots := x.slots.map fun o => if o = some th.tid then none else o },
      { th with prio := th.bprio })
  | _ => (s, th)

/-- The thread leaves the run queue of its core. -/
def leaveQueue (s : State) (th : Thread) : State :=
  modStn s th.station fun x => { x with runq := x.runq.filter (· != th.tid) }

/-- A thread becomes READY, at the tail of its priority (R38); after 2^20 cycles its priority may rise (R39). -/
def makeReady (s : State) (th : Thread) : State :=
  let r := leaveSlot s th
  let s := setThr r.1 { r.2 with st := .ready, wait := none, readySince := s.time }
  let s := later s (2 ^ 20) (.priorityAging th.tid.toNat)
  modStn s th.station fun x => { x with runq := x.runq ++ [th.tid] }

/-- A trap becomes pending; one that another is ahead of waits for the return from that one's handler (R368; log 114). -/
def pendTrap (th : Thread) (t : PendTrap) : Thread :=
  if th.pend.isSome then { th with pends := th.pends ++ [t] } else { th with pend := some t }

/-- A thread parks and frees its slot (R35, R37). -/
def parkThr (s : State) (th : Thread) (why : Park) : State :=
  let r := leaveSlot s th
  setThr r.1 { r.2 with st := .parked why }

/-- Some long operation is outstanding (R34). -/
def outstanding (th : Thread) : Bool := th.ops.any fun o => !o.done

/-- A long operation started: its number and the thread that has it. -/
def addOp (th : Thread) (o : LongOp) : Nat × Thread :=
  (th.nextOp, { th with nextOp := th.nextOp + 1, ops := th.ops ++ [{ o with id := th.nextOp }] })

/-- An element access of an operation ends, with its value or fault; the last one lets the operation complete (R35, R364). -/
def opLane (s : State) (t : Word) (op lane : Nat) (r : Except DFault Nat) : State :=
  match getThr s t with
  | none => s
  | some th =>
    match th.ops.find? fun o => o.id == op && !o.done && o.left != 0 with
    | none => s
    | some o =>
      let o := { o with left := o.left - 1 }
      let o := match r with
        | .ok v => { o with res := kput o.res lane (BitVec.ofNat 64 v) }
        | .error f =>
          let f := { f with lane := lane }
          { o with fault := match o.fault with
              | some g => if g.lane ≤ lane then some g else some f
              | none => some f }
      let s := setThr s { th with ops := th.ops.map fun x => if x.id = op then o else x }
      if o.left = 0 then later s 1 (.longOpComplete t.toNat op) else s

/-- An arrival within a class: what a timed partition sends starts in one of its slots (R462). -/
def startWithin (s : State) (pn wcl : Nat) (e : Event) : State :=
  let w := if (part s pn).timed then slotWait s pn false else 0
  let d := draw s (wcl - w)
  later d.2 (w + 1 + d.1) e

/-! ### Messages and reports (R419 to R421, R486) -/

/-- A message on its way to the mailbox at a thread's home station; the sender's operation awaits the answer. -/
def sendMsg (s : State) (answer : Option (Word × Nat)) (to_ : Word) (m : Msg) (from_ : Nat) : State :=
  let id := freshId s
  let s := { id.2 with msgs := kput id.2.msgs id.1 (answer, to_, { m with src := from_ }) }
  let s := if from_ = tidHome to_ then s
    else foldEvent s (tidPart to_) from_ (tidHome to_) 1 (ownDev s * 2 ^ 56 + tidHome to_) m.data
  startWithin s (tidPart to_) (distClass from_ (tidHome to_) - b2n answer.isSome) (if m.sys then .deviceReport id.1 else .messageDelivery id.1)

/-- A 32-byte device report from its fields, each with its length (R312, R384, R486). -/
def reportBytes (fs : List (Nat × Nat)) : Frame := padTo 32 0 (fs.flatMap fun f => natLe f.1 f.2)

/-- A report to a thread's mailbox, or to the partition supervisor's when that thread has ended (R70, R421). -/
def report (s : State) (pn : Nat) (to_ : Word) (from_ : Nat) (data : Frame) : State :=
  let live := (getThr s to_).any fun th => th.st.live
  sendMsg s none (if live then to_ else (part s pn).supervisor) { sender := 0, data := data, sys := true } from_

/-- The device report of R486: cause, kind, station, thread, address, pc, info. -/
def supReport (s : State) (pn : Nat) (cause kind station : Nat) (tid : Word) (addr pc info : Nat) : State :=
  report s pn (part s pn).supervisor (station % 256)
    (reportBytes [(1, cause), (1, kind), (2, station), (4, tid.toNat), (8, addr), (8, pc), (4, info), (4, 0)])

/-! ### Requests -/

/-- The thread that made a request, for reservations; a sector holds the stores of one thread (log 31). -/
def Who.tid : Who → Option Word
  | .thread t _ _ => some t
  | .sector ops => ops.head?.map (·.1)
  | _ => none

/-- Two requests come from one thread. -/
def sameThread (a b : Req) : Bool := a.who.tid.isSome && a.who.tid == b.who.tid

/-- The bank of a place: a home slice below 256, a station store, a tile slot or a B-store (R320, R329). -/
def bankOf (s : State) (pn : Nat) (hashed : Bool) (va : Nat) : Option Nat → Nat
  | some key => if 2 ^ 62 ≤ key then 10000 + (key - 2 ^ 62) / 2 ^ 25
                else if 2 ^ 61 ≤ key then 2000 + (key - 2 ^ 61) / 2 ^ 15
                else if 2 ^ 60 ≤ key then 1000 + (key - 2 ^ 60) / 2 ^ 21 % 256
                else homeOf s pn va hashed
  | none => homeOf s pn va hashed

/-- Bytes that a row writes into a station store, a tile slot or a B-store, behind the reservation of a word (R371). -/
def localWrite (s : State) (pn key : Nat) (l : List Byte) : State :=
  wrL (noteHeld s (bankOf s pn false 0 (some key)) pn key l.length true) key l

/-- The class of a place that a station reaches (R22, R359). -/
def keyClass (s : State) (st bank key : Nat) (wr : Bool) : Nat :=
  if 2 ^ 60 ≤ key then 40
  else if isPeer key then
    if (lineAt s bank key).any fun l => decide ((if wr then 2 else 1) ≤ l.sec (key / 64 % 4)) then distClass st bank else peerClass s (peerOf key)
  else distClass st bank + (if sliceHit s bank key then 0 else 1200)

/-- A request's kind writes its word, for the walker and the home. -/
def AccKind.writes : AccKind → Bool
  | .read => false | .hashed => false | .readf => false | .fill => false | .arm _ => false | .acq n => decide (2 ≤ n)
  | .hold wr => wr | _ => true

/-- A request that only stands in for a row. -/
def AccKind.isHold : AccKind → Bool
  | .hold _ => true
  | _ => false

/-- The class of a request's place: an instruction fetch and the arming of a monitor have that of the distance to the home (R88, R445). -/
def placeClass (s : State) (r : Req) (key : Nat) : Nat :=
  let near := match r.kind with | .arm _ => true | _ => r.code && !(match r.who with | .ifill _ _ pf => pf | _ => false)
  if near && !isPeer key then distClass r.st r.bank else keyClass s r.st r.bank key r.kind.writes

/-- The words that a request touches. -/
def wordsOf (r : Req) (key : Nat) : List Nat :=
  match r.kind with
  | .sector => (List.range 8).filterMap fun i => if bits r.mask.toNat (8 * i + 7) (8 * i) = 0 then none else some (key / 8 + i)
  | _ => nats (key / 8) ((key + r.z - 1) / 8 + 1)

/-! ### Routers (R11, R13) -/

/-- A read that a router may combine: at most 8 bytes of one word, on path T or H (R13). -/
def combinable (r : Req) (key : Nat) : Bool :=
  (r.kind == .read || r.kind == .hashed) && r.path ≤ 1 && key % 8 + r.z ≤ 8 &&
    (match r.who with | .host _ _ => false | _ => true)

/-- The routers that a request passes and that take notice of it: reads that combine, and every write (R13). A host's comes in by the
port bridge of its home's quadrant (R17). -/
def reqRoute (r : Req) (key : Nat) : List Nat :=
  if r.bank < 256 && (combinable r key || r.kind.writes) then
    match r.who with
    | .host _ _ => routeOf (portCorner r.bank) r.bank
    | _ => routeOf r.st r.bank
  else []

/-- Entries of a router's table whose reply has not passed back and that are no older than 8 cycles (R13). -/
def routerLive (s : State) (st : Nat) : List RdEnt :=
  (stn s st).router.filter fun x => s.time ≤ x.fwd + 8 && (kget s.reqs x.req).isSome

/-- An earlier write of the request's own thread to one of its words that the home has not performed (R13, R328). -/
def ownWriteAhead (s : State) (r : Req) : Bool :=
  ((s.reqs.map (·.2)) ++ s.rsv.flatMap fun e => e.2.queue).any fun x =>
    sameThread r x && x.id < r.id && x.kind.writes && (wordsOf x x.va.toNat).contains (r.va.toNat / 8)

/-- The forwarded read that a request joins at a router: never one that may be older than its thread's own write (R13). -/
def routerMatch (s : State) (st : Nat) (r : Req) (key : Nat) : Option Nat :=
  if combinable r key && !ownWriteAhead s r then
    ((routerLive s st).find? fun x => x.word == key / 8 && x.path == r.path && x.part == (part s r.part).key).map (·.req)
  else none

/-- A request that a router forwards: a read is entered in a table of 32 that has room, a write takes its words out of it (R13). -/
def routerPass (s : State) (st : Nat) (r : Req) (key : Nat) : State :=
  let l := routerLive s st
  let l := if r.kind.writes then l.filter fun x => !(wordsOf r key).contains x.word
    else if combinable r key && l.length < 32 then
      l ++ [{ word := key / 8, path := r.path, part := (part s r.part).key, req := r.id, fwd := s.time }]
    else l
  modStn s st fun x => { x with router := l }

/-- The cycles for which a request waits at its start for a slot of the frame: one of a timed partition that leaves its station, and
one of another partition that goes on to LM or a coupler port (R462). -/
def slotDelay (s : State) (r : Req) (key : Nat) : Nat :=
  let pf := match r.who with | .ifill _ _ pf => pf | _ => false
  if 256 ≤ r.bank then 0
  else if (part s r.part).timed ∨ !sliceHit s r.bank key then slotWait s r.part pf else 0

/-- The rest of a request's travel w cycles after its start or its last router: its class, which counts a timed partition's wait for its
slot (R462). -/
def travel (s : State) (r : Req) (key w : Nat) : State := match r.pace with
  | some n => later s (max n w) (.accessPerformed r.id)
  | none =>
    let d := draw s (placeClass s r key - (s.time + w - r.sent))
    later d.2 (w + 1 + d.1) (.accessPerformed r.id)

/-- A request at a router: it joins the same read forwarded there shortly before, or goes on (R13). A router is passed in one cycle
(log 108). -/
def atRouter (s : State) (r : Req) (key st : Nat) (rest : List Nat) : State :=
  match routerMatch s st r key with
  | some q => { s with reqs := kput s.reqs r.id { r with route := [], carrier := some q } }
  | none =>
    let s := routerPass s st r key
    let r := { r with route := rest }
    let s := { s with reqs := kput s.reqs r.id r }
    if rest.isEmpty then travel s r key 0 else later s 1 (.accessPerformed r.id)

/-- A request whose place is known travels to its bank; a lockstep pair folds a write that leaves its station (R465). -/
def toBank (s : State) (r : Req) (key : Nat) : State :=
  let r := { r with pa := some key, walk := 0, route := reqRoute { r with pa := some key } key }
  let s := if r.kind.writes && r.bank < 256 && r.bank != r.st then
      foldEvent s r.part r.st r.bank 0 key (match r.kind with | .sector => natLe 64 r.data.toNat | _ => natLe r.z r.val.toNat)
    else s
  let paced := r.pace.isSome
  let s := if paced then r.route.foldl (fun s st => routerPass s st r key) s else s
  let w := slotDelay s r key
  let r := { r with route := if paced then [] else r.route, sent := if (part s r.part).timed then s.time else s.time + w }
  let s := { s with reqs := kput s.reqs r.id r }
  if r.route.isEmpty then travel s r key w else later s (w + 1) (.accessPerformed r.id)

/-! ### Misses at a cluster's memory port (R459) -/

/-- Misses of a cluster that have a miss entry or a walker (from 2 on, 3 on), of one partition or of all. -/
def missCount (s : State) (c from_ : Nat) (f : Nat → Bool) : Nat :=
  s.reqs.countP fun e => clusterOf e.2.st == c && e.2.pa.isNone && from_ ≤ e.2.walk && f e.2.part

/-- What timed partitions of the cluster keep reserved against a partition: 4 walkers and 64 miss entries each (R459). -/
def missReserve (s : State) (c from_ n pn : Nat) : Nat :=
  (s.parts.map fun p => if p.1 ≠ pn ∧ p.2.timed ∧ p.2.st = .running ∧ p.2.hasCluster c then n - missCount s c from_ (· == p.1)
    else 0).sum

def missRoom (s : State) (c pn : Nat) : Bool := missCount s c 2 (fun _ => true) + missReserve s c 2 64 pn < 256
def walkerRoom (s : State) (c pn : Nat) : Bool := missCount s c 3 (fun _ => true) + missReserve s c 3 4 pn < 16

/-- Two misses of a cluster are to one page. -/
def missPage (a b : Req) : Bool :=
  clusterOf a.st == clusterOf b.st && a.part == b.part && a.va.toNat / 4096 == b.va.toNat / 4096

/-- The misses of a cluster that wait are served in arrival order: with a miss entry, and with a walker unless a walk of the page is in
flight (R459). -/
def portServe (s : State) (c : Nat) : State :=
  (s.reqs.filter fun e => clusterOf e.2.st == c && e.2.pa.isNone && (e.2.walk == 1 || e.2.walk == 2)).foldl (fun s e =>
    let r := e.2
    let r := if r.walk = 1 ∧ missRoom s c r.part then { r with walk := 2 } else r
    let joins := s.reqs.any fun x => x.2.walk == 3 && x.2.pa.isNone && missPage x.2 r
    if r.walk = 2 ∧ !joins ∧ walkerRoom s c r.part then
      let s := { s with reqs := kput s.reqs r.id { r with walk := 3 } }
      if r.pace.isSome then later s 0 (.translationWalk r.id) else within s 1800 (.translationWalk r.id)
    else { s with reqs := kput s.reqs r.id r }) s

/-- A request sent: an untranslated place goes to its bank, a cached translation too, and any other waits for a walk (R459). -/
def sendReq (s : State) (r : Req) : State :=
  let id := freshId s
  let s := id.2
  let r := { r with id := id.1, issued := s.time, bank := bankOf s r.part r.hashed r.va.toNat r.pa }
  let miss (s : State) : State := portServe { s with reqs := kput s.reqs r.id { r with walk := 1 } } (clusterOf r.st)
  match r.pa with
  | some key => toBank s r key
  | none =>
    match tlbFind s r.st r.part r.va.toNat with
    | some _ =>
      match translate s r.st r.part r.va.toNat r.kind.writes r.code r.pinned with
      | (s, .ok key) => toBank s r key
      | (s, .error _) => miss s
    | none => miss s

/-- A request of a thread's element access through a segment. -/
def reqOf (th : Thread) (op : Nat) (a : Access) (e : El) (pa : Option Nat) : Req :=
  { id := 0, who := .thread th.tid op e.lane, part := tidPart th.tid, st := th.station,
    path := if a.kind = .hashed then 1 else 0, kind := a.kind, va := e.va, z := a.z, val := e.val, cmp := a.cmp,
    hashed := a.seg.hashed, pinned := a.seg.pinned, segIdx := if a.seg.type = 1 then a.seg.idx + 1 else 0, pa := pa }

/-! ### L1 (R327, R356) -/

/-- The station whose L1 holds a line: the issuer's, or one of its cluster when the four L1s are fused (R356). -/
def l1Station (s : State) (st va : Nat) : Nat :=
  if (clus s (clusterOf st)).fused then
    let x := xOf st / 2 * 2
    let y := yOf st / 2 * 2
    let n := va / 256 % 4
    (y + n / 2) * 16 + x + n % 2
  else st

/-- A combining sector's data or mask bit at a byte. -/
def combByte (c : Comb) (va : Nat) : Option Byte :=
  if c.mask.getLsbD (va % 64) then some (c.data.extractLsb' (8 * (va % 64)) 8) else none

/-- The combining sectors that a station has sent and whose home has not performed them: on their way, or waiting there behind a
reservation (R327, R371). -/
def sectorsOut (s : State) (st : Nat) : List Req :=
  let mine (r : Req) : Bool := r.kind == .sector && r.st == st
  ((s.reqs.map (·.2)).filter mine) ++ s.rsv.flatMap fun e => e.2.queue.filter mine

/-- A byte of a store that its home has not performed: in a combining sector, or in the sector sent last (R327, R328). -/
def combFind (s : State) (l1 pn va : Nat) (hashed : Bool) : Option Byte :=
  match ((stn s l1).comb.find? fun c => c.part == pn && c.line == va / 64 && c.hashed == hashed).bind (combByte · va) with
  | some b => some b
  | none =>
    let fly := (sectorsOut s l1).filter fun r => r.part == pn && r.hashed == hashed && r.va.toNat == va / 64 * 64 && r.mask.getLsbD (va % 64)
    let last := fly.foldl (fun (m : Option Req) r => match m with | some q => if q.id < r.id then some r else m | none => some r) none
    last.map fun r => r.data.extractLsb' (8 * (va % 64)) 8

/-- A line of the L1 is that of an address for a segment: a copy from another home of the address is another line (R322, R323). -/
def L1Line.isOf (l : L1Line) (pn line : Nat) (hashed : Bool) : Bool :=
  l.part == pn && l.line == line && (l.hashed == hashed || l.sched)

/-- The byte a load of a station finds: in a combining sector, in a sector on its way home, or in the L1's line (R327, R328). -/
def l1Byte (s : State) (st pn va : Nat) (hashed : Bool) : Option Byte :=
  let l1 := l1Station s st va
  match combFind s l1 pn va hashed with
  | some b => some b
  | none => ((stn s l1).l1.find? fun l => l.isOf pn (va / 256) hashed && l.sect.getLsbD (va / 64 % 4)).map fun l =>
      l.data.extractLsb' (8 * (va % 256)) 8

/-- All bytes of an element, when the L1 has them. -/
def l1Read (s : State) (st pn va : Nat) (hashed : Bool) : Nat → Option Nat
  | 0 => some 0
  | n + 1 => match l1Byte s st pn va hashed, l1Read s st pn (va + 1) hashed n with
    | some b, some x => some (b.toNat + 256 * x)
    | _, _ => none

/-- Bytes merged into a line or sector of w bytes at an offset. -/
def merge {w : Nat} (d : BitVec w) (off n x : Nat) : BitVec w :=
  let m : BitVec w := BitVec.ofNat w ((2 ^ (8 * n) - 1) * 2 ^ (8 * off))
  (d &&& ~~~m) ||| (BitVec.ofNat w (x * 2 ^ (8 * off)) &&& m)

/-- A store updates the L1's copy of its line if present (R327). -/
def l1Update (s : State) (l1 pn va n x : Nat) (hashed : Bool) : State :=
  let f (l : L1Line) : L1Line := if l.isOf pn (va / 256) hashed then { l with data := merge l.data (va % 256) n x } else l
  if (stn s l1).l1.any fun l => l.isOf pn (va / 256) hashed then modStn s l1 fun y => { y with l1 := y.l1.map f } else s

/-- A combining sector is sent to its home (R327). -/
def drainSector (s : State) (st : Nat) (c : Comb) : State :=
  let s := modStn s st fun x => { x with comb := x.comb.filter fun y => !(y.part == c.part && y.line == c.line) }
  sendReq s
    { id := 0, who := .sector c.ops, part := c.part, st := st, path := 0, kind := .sector,
      va := BitVec.ofNat 64 (c.line * 64), z := 64, data := c.data.setWidth 2048, mask := c.mask, hashed := c.hashed,
      pinned := c.pinned, segIdx := c.segIdx }

/-- Sectors that satisfy a test are sent, oldest first. -/
def drainWhere (s : State) (st : Nat) (f : Comb → Bool) : State :=
  ((stn s st).comb.filter f).foldl (fun s c => drainSector s st c) s

/-- Every L1 a station's stores may use, its own alone unless fused. -/
def l1Stations (s : State) (st : Nat) : List Nat :=
  if (clus s (clusterOf st)).fused then [0, 1, 2, 3].map fun n => l1Station s st (256 * n) else [st]

/-- Sectors that hold a store of a thread are sent: it waits for them (R327). -/
def drainFor (s : State) (th : Thread) : State :=
  (l1Stations s th.station).foldl (fun s st => drainWhere s st fun c => c.ops.any fun o => o.1 == th.tid) s

/-- A store enters the combining store: sectors of the same bank that hold other stores of the thread go first, so that its
stores are performed there in program order (R329), and so does a sector that holds another thread's stores, so that a
reservation of one of them never meets the other's (R371), or stores for another home of the address (R322); a full store sends its
oldest sector (R327). -/
def storeComb (s : State) (th : Thread) (op : Nat) (a : Access) (e : El) : State :=
  let pn := tidPart th.tid
  let va := e.va.toNat
  let st := l1Station s th.station va
  let bank := homeOf s pn va a.seg.hashed
  let s := (l1Stations s th.station).foldl (fun s st => drainWhere s st fun c =>
    ((c.part != pn || c.line != va / 64) && homeOf s c.part (c.line * 64) c.hashed == bank &&
      c.ops.any fun o => o.1 == th.tid) || (c.part == pn && c.line == va / 64 && (c.hashed != a.seg.hashed || c.ops.any fun o => o.1 != th.tid))) s
  let s := l1Update s st pn va a.z e.val.toNat a.seg.hashed
  let mask : BitVec 64 := BitVec.ofNat 64 ((2 ^ a.z - 1) * 2 ^ (va % 64))
  let here := (stn s st).comb
  if here.any fun c => c.part == pn && c.line == va / 64 then
    modStn s st fun x => { x with comb := x.comb.map fun c =>
      if c.part == pn && c.line == va / 64 then
        { c with data := merge c.data (va % 64) a.z e.val.toNat, mask := c.mask ||| mask,
                 ops := c.ops ++ [(th.tid, op, e.lane)] }
      else c }
  else
    let s := if 16 ≤ here.length then (match here with | c :: _ => drainSector s st c | [] => s) else s
    let c : Comb :=
      { part := pn, line := va / 64, data := merge 0 (va % 64) a.z e.val.toNat, mask := mask, first := s.time,
        hashed := a.seg.hashed, pinned := a.seg.pinned, segIdx := if a.seg.type = 1 then a.seg.idx + 1 else 0,
        ops := [(th.tid, op, e.lane)] }
    let s := modStn s st fun x => { x with comb := x.comb ++ [c] }
    within s 64 (.sectorDrain st pn (va / 64))

/-- The place in a footprint copy of a thread's access, when all of it lies there (R354): the copy is in the station store of the
station where the thread was created. Bytes that a TLBINV dropped are not there (R460). -/
def footOf (th : Thread) (va z : Nat) (hashed : Bool) : Option FootRange :=
  if th.station = tidHome th.tid then
    th.foot.find? fun f => f.seg.hashed == hashed && (List.range z).all fun i => (kget f.copy (va + i)).isSome
  else none

/-- A store's bytes put into a footprint copy (R354). -/
def footStore (va z : Nat) (x : DWord) (hashed : Bool) (f : FootRange) : FootRange :=
  let put (m : KMap Byte) (i : Nat) : KMap Byte :=
    if (kget m (va + i)).isSome then kput m (va + i) (x.extractLsb' (8 * i) 8) else m
  if f.seg.hashed = hashed then { f with copy := (List.range z).foldl put f.copy } else f

/-- A store of a thread updates every footprint copy that its station holds of the bytes, as an L1 line (R327, R354). -/
def footUpdate (s : State) (st pn va z : Nat) (x : DWord) (hashed : Bool) : State :=
  { s with threads := s.threads.map fun e =>
      if tidPart e.2.tid = pn ∧ tidHome e.2.tid = st ∧ !e.2.foot.isEmpty then
        (e.1, { e.2 with foot := e.2.foot.map (footStore va z x hashed) })
      else e }

/-- A byte of a footprint copy, as a load of the station finds it: the combining store is searched first (R327, R354). -/
def footByte (s : State) (st pn : Nat) (f : FootRange) (va : Nat) : Byte :=
  (combFind s (l1Station s st va) pn va f.seg.hashed).getD ((kget f.copy va).getD 0)

/-- A fill, or another access of its own at the home, that a thread waits for in a line: its next load of the line goes after it, so
that the thread's loads never go back in the write order (R329; log 133). -/
def homeOut (s : State) (th : Thread) (va : Nat) : Bool :=
  let mine (r : Req) : Bool := r.part == tidPart th.tid && r.va.toNat / 256 == va / 256 &&
    (match r.who with | .thread t _ _ => t == th.tid | _ => false)
  s.reqs.any (fun e => mine e.2) || s.waits.any mine || s.rsv.any fun e => e.2.queue.any mine

/-- One element access of a thread issued (R320, R327, R354). -/
def issueEl (s : State) (th : Thread) (op : Nat) (a : Access) (e : El) : State :=
  let pn := tidPart th.tid
  if a.seg.isLocal || a.seg.type == 2 then
    let off := e.va.toNat
    let key := if a.seg.isLocal then localKey pn th.station off else tileKey th.station (bits off 18 15) (off % 2 ^ 15)
    sendReq s (reqOf th op a e (some key))
  else
    let va := e.va.toNat
    match a.kind with
    | .read =>
      match footOf th va a.z a.seg.hashed with
      | some f => opLane s th.tid op e.lane (.ok (leNat ((List.range a.z).map fun i => footByte s th.station pn f (va + i))))
      | none =>
        match (if homeOut s th va then none else l1Read s th.station pn va a.seg.hashed a.z) with
        | some v => opLane s th.tid op e.lane (.ok v)
        | none =>
          let bank := homeOf s pn va a.seg.hashed
          let s := (l1Stations s th.station).foldl (fun s st => drainWhere s st fun c =>
            homeOf s c.part (c.line * 64) c.hashed == bank &&
              ((c.part == pn && c.line / 4 == va / 256) || c.ops.any fun o => o.1 == th.tid)) s
          sendReq s { reqOf th op a e none with kind := .fill }
    | .write =>
      storeComb (footUpdate s th.station pn va a.z e.val a.seg.hashed) th op a e
    | _ =>
      let s := (l1Stations s th.station).foldl (fun s st => drainWhere s st fun c =>
        (c.part == pn && c.line == va / 64) ||
          (homeOf s c.part (c.line * 64) c.hashed == homeOf s pn va a.seg.hashed && c.ops.any fun o => o.1 == th.tid)) s
      sendReq s (reqOf th op a e none)

/-- The bound of an access to a place at a home slice: that of the place, of a recall from a peer, or none for a host's (R352, R359). -/
def homeWcl (s : State) (st bank key : Nat) (wr : Bool) : Option Nat :=
  let holders := (recallsFor s (key / 64) wr).filter fun a => !s.deadAgents.contains a
  if isHost key || holders.any (64 ≤ ·) then none
  else if holders.isEmpty then some (keyClass s st bank key wr) else some 4600

/-- The class of an access that leaves its cluster: that of its place, and a walk where its translation misses (R359). -/
def farClass (s : State) (st pn va : Nat) (wr hashed pinned : Bool) : Option Nat :=
  let walk := if (tlbFind s st pn va).isSome then 0 else 1800
  match (translate s st pn va wr false pinned).2 with
  | .error _ => some (walk + 360)
  | .ok key => (homeWcl s st (homeOf s pn va hashed) key wr).map (· + walk)

/-- The class of a request: of its place where that is known, else from its address on (R359); none where a host bounds it. -/
def reqClass (s : State) (r : Req) : Option Nat :=
  match r.pa with
  | some key => if 2 ^ 60 ≤ key then some 40 else homeWcl s r.st r.bank key r.kind.writes
  | none => farClass s r.st r.part r.va.toNat r.kind.writes r.hashed r.pinned

/-- The longest time that a request has for what a host holds or serves of its place (R359). -/
def hostClass (s : State) (r : Req) : Nat :=
  let key := r.pa.getD 0
  if isHost key then recallClass s (64 + hostOf key)
  else (recallsFor s (key / 64) r.kind.writes).foldl (fun n a => max n (recallClass s a)) 0

/-- The class of the place where an element access will be performed, as the access's address and its cycle fix it; none for a place
that a host bounds (R352, R359). A plain store has besides the 64 cycles for which its sector may wait (R327; log 27). -/
def elemWcl (s : State) (th : Thread) (a : Access) (e : El) : Option Nat :=
  let pn := tidPart th.tid
  let va := e.va.toNat
  if a.seg.isLocal || a.seg.type == 2 then some 40
  else if a.kind == .read && (footOf th va a.z a.seg.hashed).isSome then some 40
  else if a.kind == .read && !homeOut s th va && (l1Read s th.station pn va a.seg.hashed a.z).isSome then
    some (if (clus s (clusterOf th.station)).fused then 54 else 48)
  else (farClass s th.station pn va a.kind.writes a.seg.hashed a.seg.pinned).map (· + if a.kind == .write then 64 else 0)

/-- The class of a whole access: that of its slowest element, when each has one; an AMO's is twice that and 16 cycles (R397). -/
def accessWcl (s : State) (th : Thread) (a : Access) : Option Nat :=
  let n := a.els.foldl (fun n e => match n, elemWcl s th a e with | some x, some y => some (max x y) | _, _ => none) (some 0)
  match a.kind with | .amo _ => n.map (2 * · + 16) | _ => n

/-- An access issued as a long operation of a thread, with its wait limit and, in a timed partition, its time limit (R34, R359,
R368). An RSV releases the reservation the thread holds (R370); an AMO, which has no place for a second one, leaves it. -/
def issueAccess (s : State) (th : Thread) (pc : DWord) (a : Access) (replay : Option (BitVec 5)) : State :=
  let timed := if (part s (tidPart th.tid)).timed then accessWcl s th a else none
  let r := addOp th
    { id := 0, pc := pc, limit := th.wlimit.toNat, acc := some a, dest := a.dest, left := a.els.length, replay := replay,
      wcl := timed.getD 0 }
  let op := r.1
  let reserves := a.kind == .rsv
  let th := { r.2 with rsv := if reserves then some op else r.2.rsv }
  let s := setThr s th
  let held := s.rsv.filter fun x => x.2.holder == some th.tid
  let s := if reserves then held.foldl (fun s x => later s 0 (.reservationHoldExpiry x.1 th.tid.toNat)) s else s
  let s := a.els.foldl (fun s e => issueEl s th op a e) s
  let waits := match a.kind with | .take => true | .put => true | .readf => true | _ => false
  let s := if waits && th.wlimit != 0 then later s th.wlimit.toNat (.waitLimitExpiry th.tid.toNat op) else s
  let s := match timed with
    | some n => later s (n + 1) (.memTimeoutExpiry th.tid.toNat op)
    | none => s
  if a.els.isEmpty then later s 1 (.longOpComplete th.tid.toNat op) else s

end Sys2Proof.Machine
end

