-- ==== Sys2Proof/Machine/Ports.lean ====
section
/-! DEFINITION. Stream ports (R386 to R388) and the copy channels' element accesses (R379 to R384). -/

namespace Sys2Proof.Machine

/-! ### Ports -/

def portAt (s : State) (st p : Nat) : Port := vget (stn s st).ports p
def modPort (s : State) (st p : Nat) (f : Port → Port) : State :=
  modStn s st fun x => { x with ports := vset x.ports p (f (vget x.ports p)) }

/-- The port's other end is told that it gained data or room (R387). -/
def touchPort (s : State) (st p : Nat) : State := later s 1 (.streamWake st p)

/-- Entries pushed, when there is room for them. -/
def portPush (s : State) (st p : Nat) (es : List (BitVec 256 × BitVec 8)) : Option State :=
  if (portAt s st p).queue.length + es.length ≤ 32 then
    some (touchPort (modPort s st p fun q => { q with queue := q.queue ++ es }) st p)
  else none

/-- n entries popped, when they are there. -/
def portPop (s : State) (st p n : Nat) : Option (List (BitVec 256 × BitVec 8) × State) :=
  let q := (portAt s st p).queue
  if n ≤ q.length then some (q.take n, touchPort (modPort s st p fun q => { q with queue := q.queue.drop n, pos := 0 }) st p) else none

/-- The port whose consumer or producer end is kind k, index i of a station, for a register also of a thread (R386). -/
def portOf (s : State) (st : Nat) (cons : Bool) (k i : Nat) (tid : Word) : Option Nat :=
  (List.range 8).find? fun p =>
    match (if cons then (portAt s st p).cons else (portAt s st p).prod) with
    | some e => e.kind.toNat == k && e.idx.toNat == i && (k != 0 || e.tid == tid)
    | none => false

/-! ### Copy commands (R378 to R381) -/

def CopyCmd.w (c : CopyCmd) (i : Nat) : Nat := (c.words.getD i 0).toNat
def CopyCmd.esz (c : CopyCmd) : Nat := 2 ^ bits (c.w 0) 52 50
def CopyCmd.tile (c : CopyCmd) : Bool := bit (c.w 0) 53
def CopyCmd.scatter (c : CopyCmd) : Bool := bit (c.w 0) 54
def CopyCmd.soff (c : CopyCmd) : Nat := bits (c.w 0) 39 0
def CopyCmd.doff (c : CopyCmd) : Nat := bits (c.w 1) 39 0
/-- Extent k, run length, element count. -/
def CopyCmd.ext (c : CopyCmd) (k : Nat) : Nat := bits (c.w 2) (16 * k + 15) (16 * k) + 1
def CopyCmd.rl (c : CopyCmd) : Nat := bits (c.w 4) 39 32 + 1
def CopyCmd.count (c : CopyCmd) : Nat :=
  if c.indexed then bits (c.w 3) 39 0 * c.rl else c.ext 0 * c.ext 1 * c.ext 2 * c.ext 3

/-- A signed 32-bit stride: word 3 on for the source, word 5 on for the destination (R379). -/
def CopyCmd.stride (c : CopyCmd) (dst : Bool) (k : Nat) : Int :=
  let x := bits (c.w ((if dst then 5 else 3) + k / 2)) (32 * (k % 2) + 31) (32 * (k % 2))
  if 2 ^ 31 ≤ x then (x : Int) - 2 ^ 32 else x

/-- The side addressed by indices: the source of a gather, the destination of a scatter (R380). -/
def CopyCmd.idxSide (c : CopyCmd) (dst : Bool) : Bool := c.indexed && (c.scatter == dst)

/-- Offset of element n on a side, given the current index (R379, R380). -/
def CopyCmd.off (c : CopyCmd) (dst : Bool) (n : Nat) : Int :=
  let o : Int := if dst then c.doff else c.soff
  if !c.indexed then
    o + (n % c.ext 0 : Nat) * c.stride dst 0 + (n / c.ext 0 % c.ext 1 : Nat) * c.stride dst 1 +
      (n / (c.ext 0 * c.ext 1) % c.ext 2 : Nat) * c.stride dst 2 +
      (n / (c.ext 0 * c.ext 1 * c.ext 2) : Nat) * c.stride dst 3
  else if c.idxSide dst then o + (((c.index.getD 0).toNat * bits (c.w 4) 31 0 + n % c.rl * c.esz : Nat) : Int)
  else o + ((n * c.esz : Nat) : Int)

/-- The engine segment of a side: 0 source, 1 destination, 2 index. -/
def CopyCmd.seg (s : State) (st : Nat) (c : CopyCmd) (side : Nat) : Seg :=
  vget (stn s st).eng (match side with | 0 => bits (c.w 0) 46 44 | 1 => bits (c.w 0) 49 47 | _ => bits (c.w 2) 42 40)

/-- The limit of a side: for the B-store also the end of the partition's window, which no access leaves (R381). -/
def sideLimit (s : State) (pn : Nat) (g : Seg) : Nat :=
  if g.type = 3 then min g.limit (4096 * (part s pn).bsCount - g.base) else g.limit

/-- A channel's head command. -/
def headCmd (s : State) (st c : Nat) : Option CopyCmd := (vget (stn s st).ch c).queue.head?
/-- A change of a channel's running command. -/
def Chan.modHead (h : Chan) (f : CopyCmd → CopyCmd) : Chan :=
  { h with queue := match h.queue with | a :: l => f a :: l | [] => [] }
def modChan (s : State) (st c : Nat) (f : Chan → Chan) : State :=
  modStn s st fun x => { x with ch := vset x.ch c (f (vget x.ch c)) }
def modCmd (s : State) (st c : Nat) (f : CopyCmd → CopyCmd) : State := modChan s st c (·.modHead f)

/-- The element in progress: behind those performed and those gathered for an entry (R383, R387). -/
def CopyCmd.next (c : CopyCmd) : Nat := c.wp + c.acc.length / c.esz

/-- The time left for an element's access once the command's first element has been performed: element n is performed ⌈B/64⌉ or ⌈T/4⌉
cycles after the first at the latest, for the B bytes and T elements so far, and ⌈m/8⌉ more for m indices (R397; log 113). -/
def CopyCmd.pace (c : CopyCmd) (now : Nat) : Option Nat :=
  let n := c.next
  if n = 0 then none else some (c.t0 + max (n * c.esz / 64) (n / 4) + (if c.indexed then n / c.rl / 8 else 0) - now)

/-- The port that a channel's data come from or go to; the port that gives a CPYX its indices gives no data (R387). -/
def dataPort (s : State) (st c : Nat) (cmd : CopyCmd) (cons : Bool) : Option Nat :=
  (portOf s st cons 1 c 0).filter fun p => !(cons && cmd.indexed && bit (cmd.w 2) 43 && p == bits (cmd.w 2) 46 44)

/-- An element access of a channel sent, or the stop of its command (R384). -/
def chanReq (s : State) (st c : Nat) (cmd : CopyCmd) (side : Nat) (off : Int) (z val : Nat) (mask : BitVec 64) : State :=
  let g := cmd.seg s st side
  let o := off.toNat
  let base := if side = 1 then cmd.doff else cmd.soff
  if off < 0 ∨ sideLimit s cmd.part g < o + z ∨
      (cmd.tile ∧ g.type = 2 ∧ side ≠ 2 ∧ (o / 2 ^ 15 ≠ base / 2 ^ 15 ∨ (o + z - 1) / 2 ^ 15 ≠ base / 2 ^ 15)) then
    later s 0 (.copyCommandStop st c 0x03 (BitVec.ofNat 64 (g.base + o)))
  else
    let pa := if g.isLocal then some (localKey cmd.part st (g.base + o))
      else if g.type = 2 then some (tileKey st (bits o 18 15) (o % 2 ^ 15))
      else if g.type = 3 then some (bstorePlace s cmd.part st (g.base + o))
      else none
    sendReq s
      { id := 0, who := .chan st c side, part := cmd.part, st := st, path := 2,
        kind := if side = 1 then .write else .read, va := BitVec.ofNat 64 (g.base + o), z := z,
        data := BitVec.ofNat 2048 val, mask := mask, hashed := g.hashed, pinned := g.pinned,
        segIdx := if g.type = 1 then g.idx + 1 else 0, pa := pa, pace := cmd.pace s.time }

/-- The value of a channel's element from a port: the next esz bytes of its entries, with the mask of their valid lanes (R387). -/
def chanPull (s : State) (st c p : Nat) (cmd : CopyCmd) : Option State :=
  let q := portAt s st p
  let es := q.queue.take 2
  let end_ := q.pos + cmd.esz
  if 32 * es.length < end_ then none
  else
    let byteAt (i : Nat) : Byte × Bool := match es[i / 32]? with
      | some (d, v) => (d.extractLsb' (8 * (i % 32)) 8, v.getLsbD (i % 32 / 4))
      | none => (0, false)
    let l := (List.range cmd.esz).map fun i => byteAt (q.pos + i)
    let mask := (List.range cmd.esz).foldl (fun m i => if (l.getD i (0, false)).2 then m + 2 ^ i else m) 0
    let s := modCmd s st c fun x => { x with hold := some (l.map (·.1)), vmask := BitVec.ofNat 64 mask }
    (if 32 ≤ end_ then (portPop s st p 1).map (·.2) else some s).map fun s => modPort s st p fun q => { q with pos := end_ % 32 }

/-- The next 32-bit index from a port: the head entry's first valid lane, which is then consumed. -/
def indexPull (s : State) (st c p : Nat) : Option State :=
  match (portAt s st p).queue with
  | [] => none
  | (d, v) :: _ =>
    match (List.range 8).find? fun j => v.getLsbD j with
    | none => (portPop s st p 1).map (·.2)
    | some j =>
      let v' := v &&& ~~~((1 : BitVec 8) <<< j)
      let s := modCmd s st c fun x => { x with index := some (d.extractLsb' (32 * j) 32) }
      if v' = 0 then (portPop s st p 1).map (·.2)
      else some (modPort s st p fun q => { q with queue := match q.queue with | _ :: l => (d, v') :: l | [] => [] })

/-- The index of a run is spent once the run's last element, n, is taken. -/
def CopyCmd.spent (c : CopyCmd) (n : Nat) : Option Word := if c.indexed && (n + 1) % c.rl == 0 then none else c.index

/-- The leading n elements of a command are performed, and bytes of later ones wait for their entry (R383, R387). -/
def copyReached (s : State) (st c n : Nat) (rest : List (Byte × Bool)) : State :=
  modCmd s st c fun x =>
    { x with wp := n, acc := rest, hold := none, index := x.spent x.next
             t0 := if x.wp = 0 ∧ n ≠ 0 then s.time else x.t0 }

/-- An element of a channel's command has been performed. -/
def copyDone (s : State) (st c : Nat) : State :=
  match headCmd s st c with
  | some x => copyReached s st c (x.next + 1) []
  | none => s

/-- A port's entry of up to 32 bytes: invalid lanes as zero, and the entry padded with them (R387). -/
def accEntry (l : List (Byte × Bool)) : BitVec 256 × BitVec 8 :=
  (BitVec.ofNat 256 (leNat (l.map fun b => if b.2 then b.1 else 0)),
   BitVec.ofNat 8 ((List.range 8).foldl (fun m j =>
     let lane := (l.drop (4 * j)).take 4
     if !lane.isEmpty && lane.all (·.2) then m + 2 ^ j else m) 0))

/-- A command goes on with its next access: index, read, write, or its end (R383). Ports are served without a request, up to
fuel elements in one step. -/
def copyAdvance (st c : Nat) : Nat → State → State
  | 0, s => later s 1 (.streamWake st 8)
  | k + 1, s =>
    match headCmd s st c with
    | none => s
    | some cmd =>
      if cmd.state ≠ 1 ∨ (part s cmd.part).swapped then s
      else if cmd.count ≤ cmd.wp then later s 0 (.copyCommandEnd st c)
      else if cmd.indexed && cmd.index.isNone then
        if bit (cmd.w 2) 43 then
          match indexPull s st c (bits (cmd.w 2) 46 44) with
          | some s => copyAdvance st c k s
          | none => s
        else chanReq s st c cmd 2 ((bits (cmd.w 2) 39 0 + 4 * (cmd.next / cmd.rl) : Nat) : Int) 4 0 0
      else
        match cmd.hold with
        | none =>
          match dataPort s st c cmd true with
          | some p =>
            match chanPull s st c p cmd with
            | some s => copyAdvance st c k s
            | none => s
          | none => chanReq s st c cmd 0 (cmd.off false cmd.next) cmd.esz 0 0
        | some bytes =>
          match dataPort s st c cmd false with
          | some p =>
            let fromPort := (dataPort s st c cmd true).isSome
            let acc := cmd.acc ++ bytes.zipIdx.map fun b => (b.1, !fromPort || cmd.vmask.getLsbD b.2)
            if acc.length < 32 && cmd.next + 1 != cmd.count then copyAdvance st c k (copyReached s st c cmd.wp acc)
            else match portPush s st p [accEntry acc] with
              | some s => copyAdvance st c k (copyReached s st c (cmd.next + 1) [])
              | none => s
          | none =>
            if !cmd.acc.isEmpty then copyAdvance st c k (modCmd s st c fun x => { x with wp := x.next, acc := [] })
            else if cmd.vmask = 0 ∧ (dataPort s st c cmd true).isSome then copyAdvance st c k (copyDone s st c)
            else chanReq s st c cmd 1 (cmd.off true cmd.wp) cmd.esz (leNat bytes)
              (if (dataPort s st c cmd true).isSome then cmd.vmask else 0)

/-- A channel's access has been performed (R383, R384). -/
def chanReply (s : State) (st c side : Nat) (r : Except DFault Nat) : State :=
  match r with
  | .error f => later s 0 (.copyCommandStop st c f.cause f.addr)
  | .ok v =>
    let s := match side with
      | 0 => modCmd s st c fun x => { x with hold := some (natLe x.esz v), vmask := 0 }
      | 1 => copyDone s st c
      | _ => modCmd s st c fun x => { x with index := some (BitVec.ofNat 32 v) }
    copyAdvance st c 64 s

end Sys2Proof.Machine
end

