-- ==== Sys2Proof/Machine/Home.lean ====
section
/-! DEFINITION. What a bank does with a request that reaches it (R325): the order of one station's requests to one bank (R329),
dead homes and poison (R353, R501), recalls of holders (R351), seals (R347), reservations (R370 to R372), presence words (R366,
R367), tile-slot tags (R214), fills of the L1 (R327, R346) and monitors (R416); and the delivery of the answer to who asked. -/

namespace Sys2Proof.Machine

/-! ### Answers -/

/-- A cause that waits for a retry at a graph node (R301). -/
def pageCause (f : DFault) : Bool := f.cause == 0x06 || f.cause == 0x07

/-- A lane of a graph node's access has been performed or has faulted. After the last lane a store or presence access is answered;
a load or frame read waits for its scheduled latency, unless it is late or has faulted (R300 to R302, R307). -/
def graphLane (s : State) (fid lane : Nat) (r : Except DFault Nat) : State :=
  match kget s.gaccs fid with
  | none => s
  | some g =>
    let g := { g with left := g.left.filter (· != lane) }
    let g := match r with
      | .ok v => { g with res := kput g.res lane (BitVec.ofNat 64 v) }
      | .error f =>
        let g := if pageCause f then
            { g with faulted := g.faulted ++ g.els.filter (·.lane == lane), news := g.news ++ [{ f with lane := lane }] }
          else g
        { g with fault := match g.fault with
            | some h => if pageCause h && !pageCause f then some { f with lane := lane } else some h
            | none => some { f with lane := lane } }
    let s := { s with gaccs := kput s.gaccs fid g }
    if g.left.isEmpty || !g.news.isEmpty then
      match g.kind with
      | .write => later s 1 (.graphStoreAck fid)
      | .take => later s 1 (.graphPresenceReply fid)
      | .put => later s 1 (.graphPresenceReply fid)
      | _ => if g.late || g.fault.isSome then later s 1 (.graphLoadReply fid) else s
    else s

/-- The address of a lane of an operation, for a fault of the sector that held its store. -/
def laneVa (s : State) (t : Word) (op lane : Nat) (d : DWord) : DWord :=
  match (getThr s t).bind fun th => (th.ops.find? fun o => o.id == op).bind (·.acc) with
  | some a => ((a.els.find? fun e => e.lane == lane).map (·.va)).getD d
  | none => d

/-- A WRITE frame of a partition's store on host memory that its host has not acknowledged, or that a lockstep pair still holds back
(R335, R465, R470). -/
def hostWritesOut (s : State) (pn : Nat) : Bool :=
  let mine (f : Frame) : Bool := field f 1 1 == 1 && field f 26 1 == pn
  (s.sessions.any fun x => x.up && x.unacked.any fun u => mine u.2.2) || (part s pn).heldOut.any fun h => mine h.2

/-- A thread that waits in a fence or a barrier goes on once the sectors sent before it waited are performed, and for scope 6 the
stores to host memory as well (R335). -/
def drainWake (s : State) : State :=
  s.threads.foldl (fun s e =>
    match e.2.wait with
    | some { on := .drain far, pc := _, id := n, since := _, retry := _ } =>
      let sts := l1Stations s e.2.station
      if sts.any (fun st => (sectorsOut s st).any fun r => r.id < n) || (far && hostWritesOut s (tidPart e.2.tid)) then s
      else makeReady s { e.2 with relDone := true }
    | _ => s) s

/-- A host's frame has been performed: READRESP answers a READ, ERROR a fault; messages behind it may go (R470). -/
def hostDone (s : State) (o : HostOp) : State :=
  let s := { s with hostOps := s.hostOps.filter (·.id != o.id) }
  let s := match s.sessions.find? fun x => x.id == o.session && x.up, o.fault with
    | none, _ => s
    | some x, some f =>
      let d := draw s (2 ^ 32)
      sendFrame d.2 x 10 o.part (errorPayload (BitVec.ofNat 32 d.1) f.cause.toNat o.part 0)
    | some x, none => if o.type = 2 then sendFrame s x 3 o.part (natLe 8 o.va ++ o.res.flatMap (·.2)) else s
  wakeSession s o.session

/-- A piece of a host's frame has been performed or has faulted. -/
def hostLane (s : State) (id lane z : Nat) (r : Except DFault Nat) : State :=
  match s.hostOps.find? (·.id == id) with
  | none => s
  | some o =>
    let o := { o with left := o.left - 1 }
    let o : HostOp := match r with
      | .ok v => { o with res := kput o.res lane (natLe z v) }
      | .error f => { o with fault := some (o.fault.getD f) }
    if o.left = 0 then hostDone s o else { s with hostOps := s.hostOps.map fun x => if x.id = id then o else x }

/-- A fill of an instruction cache, or a prefetch, arrives with its bytes or its fault (R88, R89, R93). -/
def fillArrives (s : State) (st id : Nat) (pf : Bool) (res : Except DFault Nat) : State :=
  match (stn s st).fills.find? (·.id == id) with
  | none => s
  | some f =>
    let g := match res with
      | .ok v => { f with here := true, data := BitVec.ofNat 512 v }
      | .error e => { f with here := true, fault := some e }
    later (modStn s st fun x => { x with fills := x.fills.map fun y => if y.id = id then g else y }) 0
      (if pf then .prefetchFill st f.part f.line f.l1 else .icacheFill st f.part f.line)

/-- The answer to one request reaches who made it. A sector that faulted leaves no trace in the L1's lines nor in the footprint copies:
its stores have not been performed (R480). A reply to an engine or a graph tile of a partition swapped out waits for its return
(R498). -/
def deliverOne (s : State) (r : Req) (res : Except DFault Nat) : State :=
  let s := { s with reqs := kdel s.reqs r.id }
  let late : State :=
    { s with lateReplies := s.lateReplies ++ [match res with | .ok v => (r, none, v) | .error f => (r, some f, 0)] }
  let away := (part s r.part).swapped
  match r.who with
  | .thread t op lane => opLane s t op lane res
  | .sector ops =>
    let s := match res with
      | .error _ => footForget (modStn s r.st fun x => { x with l1 := x.l1.filter fun l => !(l.part == r.part && l.line == r.va.toNat / 256) }) r
      | .ok _ => s
    drainWake (ops.foldl (fun s o => opLane s o.1 o.2.1 o.2.2 (match res with
      | .ok v => .ok v
      | .error f => .error { f with addr := laneVa s o.1 o.2.1 o.2.2 f.addr })) s)
  | .graph fid lane => if away then late else graphLane s fid lane res
  | .chan st c side => if away then late else chanReply s st c side res
  | .host op lane => hostLane s op lane r.z res
  | .peer _ => s
  | .ifill st id pf => fillArrives s st id pf res
where
  footForget (s : State) (r : Req) : State :=
    { s with threads := s.threads.map fun e =>
        if tidPart e.2.tid = r.part ∧ tidHome e.2.tid = r.st ∧ !e.2.foot.isEmpty then
          let f (x : FootRange) : FootRange :=
            { x with copy := x.copy.filter fun b => !(b.1 / 64 == r.va.toNat / 64 && r.mask.getLsbD (b.1 % 64)) }
          (e.1, { e.2 with foot := e.2.foot.map f })
        else e }

/-- The requests that routers have combined into one, directly or by way of others (R13; fuel). -/
def mergedInto (s : State) : Nat → Nat → List Req
  | 0, _ => []
  | k + 1, id => (s.reqs.filter fun e => e.2.carrier == some id).flatMap fun e => e.2 :: mergedInto s k e.1

/-- The answer to a request reaches who made it, and by the routers' copies everyone whose read was combined into it: each gets its own
bytes of the word as they stand at that instant (R13). -/
def deliver (s : State) (r : Req) (res : Except DFault Nat) : State :=
  (mergedInto s 64 r.id).foldl (fun s m =>
    deliverOne s m (match res with
      | .ok _ => .ok (hRdN s r.bank (m.pa.getD 0) m.z)
      | .error f => .error { f with addr := m.va })) (deliverOne s r res)

/-! ### L1 fills (R327, R346) -/

/-- The seal count of a buffer changes by one line (R346). -/
def sealCount (s : State) (pn idx : Nat) (up : Bool) : State := modPart s pn fun p =>
  { p with seals := match kget p.seals idx with
      | some x => kput p.seals idx { x with count := if up then x.count + 1 else x.count - 1 }
      | none => p.seals }

/-- A line that the eviction schedule keeps resident, with the contents of this instant (R355). -/
def reload (s : State) (l : L1Line) : L1Line := { l with data := BitVec.ofNat 2048 (leNat (physL s l.pa 256)) }

/-- Lines of a station's L1 that satisfy a test are dropped, and sealed ones leave their counts (R346). One that the eviction schedule
keeps resident is read again instead, as an unsealed one (R355; log 42). -/
def dropLines (s : State) (st : Nat) (f : L1Line → Bool) : State :=
  let gone := (stn s st).l1.filter f
  let s := modStn s st fun x =>
    { x with l1 := (x.l1.filter fun l => !f l || l.sched).map fun l => if f l then { reload s l with sealedIdx := none } else l }
  gone.foldl (fun s l => match l.sealedIdx with | some i => sealCount s l.part i false | none => s) s

/-- A sealed buffer's index, for a fill through a segment of that buffer (R346). -/
def sealedNow (s : State) (pn segIdx : Nat) : Option Nat :=
  if segIdx = 0 then none
  else match kget (part s pn).seals (segIdx - 1) with
    | some x => if x.st = .isSealed then some (segIdx - 1) else none
    | none => none

/-- A byte of a line's fill: the home's, or that of a store of the station that the home has not performed yet (R327, R328). -/
def fillByte (s : State) (l1 pn va bank key : Nat) (hashed : Bool) : Byte := (combFind s l1 pn va hashed).getD (hRdB s bank key)

/-- A line enters the L1 that a station uses, with its home's bytes of this instant. An L1 holds 1,024 lines; which one
makes room is free (log 25). Unsealed lines expire within 16,384 cycles (R327). In a timed partition only the eviction schedule places lines (R355). -/
def installLine (s : State) (st pn va bank key segIdx : Nat) (hashed : Bool) : State :=
  let l1 := l1Station s st va
  let line := va / 256
  let base := key / 256 * 256
  if (part s pn).timed || poisoned s base 256 then s
  else
    let idx := sealedNow s pn segIdx
    let bytes := (List.range 256).map fun i => fillByte s l1 pn (line * 256 + i) bank (base + i) hashed
    let s := dropLines s l1 fun l => l.isOf pn line hashed
    let s :=
      if 1024 ≤ (stn s l1).l1.length then
        let d := draw s 1024
        match (stn s l1).l1[d.1]? with
        | some o => dropLines d.2 l1 fun l => l.isOf o.part o.line o.hashed
        | none => d.2
      else s
    let l : L1Line :=
      { part := pn, line := line, data := BitVec.ofNat 2048 (leNat bytes), filled := s.time, sealedIdx := idx, pa := base,
        hashed := hashed }
    let s := modStn s l1 fun x => { x with l1 := x.l1 ++ [l] }
    match idx with
    | some i => sealCount s pn i true
    | none => within s 16384 (.lineExpiry l1 pn line)

/-! ### Writes at a bank -/

/-- The bytes a write stores, with its mask: zero means all. -/
def writeBytes (s : State) (bank key z : Nat) (data : Nat) (mask : Nat) : State :=
  (List.range z).foldl (fun s i =>
    if mask = 0 ∨ bit mask i then hWrB s bank (key + i) (BitVec.ofNat 8 (data / 2 ^ (8 * i))) else s) s

/-- The presence tag of a word: full when listed (R366). -/
def tagFull (s : State) (key : Nat) : Bool := s.ptags.contains (key / 8)
def setTag (s : State) (key : Nat) (full : Bool) : State :=
  let l := s.ptags.filter (· != key / 8)
  { s with ptags := if full then (key / 8) :: l else l }

/-- A presence request's condition holds (R366). -/
def presenceReady (s : State) (r : Req) (key : Nat) : Bool :=
  match r.kind with
  | .take => tagFull s key
  | .readf => tagFull s key
  | .put => !tagFull s key
  | _ => true

/-- The new word of an AMO (R372). -/
def amoNew (fn z : Nat) (w o c : Nat) : Nat :=
  let m := 2 ^ (8 * z)
  let sg (x : Nat) : Int := if m / 2 ≤ x then (x : Int) - m else x
  match fn with
  | 2 => (w + o) % m
  | 3 => w &&& o
  | 4 => w ||| o
  | 5 => w ^^^ o
  | 6 => if sg w ≤ sg o then w else o
  | 7 => if sg w ≤ sg o then o else w
  | 8 => min w o
  | 9 => max w o
  | 10 => o
  | _ => if w = c then o else w

/-- Stores performed on host memory leave as a WRITE frame (R470). -/
def hostWrite (s : State) (r : Req) (key z : Nat) : State :=
  if isHost key then sendAgent s (hostOf key) 1 r.part (natLe 8 key ++ rdL s key z) else s

/-- The end of a write at a bank: monitors (R416), host memory. -/
def written (s : State) (r : Req) (key z : Nat) : State := hostWrite (trigger s key) r key z

/-- The agent that makes a request, when it is a holder's: a host, or a peer device (R351). -/
def agentOf (s : State) (r : Req) : Option Nat := match r.who with
  | .host op _ => (s.hostOps.find? (·.id == op)).map (·.agent + 64)
  | .peer d => some d
  | _ => none

/-- An access of a thread performed at a home slice itself: its L1's unsealed copy of the line goes, and for a monitor's arm a sealed
one too, so that no later load of the thread finds older contents (R329, R416; log 133). -/
def passL1 (s : State) (r : Req) : State :=
  let va := r.va.toNat
  let drop (all : Bool) : State :=
    dropLines s (l1Station s r.st va) fun l => l.part == r.part && l.line == va / 256 && (all || l.sealedIdx.isNone)
  match r.who, r.kind with
  | .thread _ _ _, .arm _ => drop true
  | .thread _ _ _, .fill => s
  | .thread _ _ _, _ => if r.bank < 256 then drop false else s
  | _, _ => s

/-- A request performed at its bank, nothing left to wait for: the new state and the answer. -/
def performReq (s : State) (r : Req) (key : Nat) : State × Except DFault Nat :=
  let s := passL1 s r
  let n := match r.kind with | .fill => 256 | .sector => 64 | _ => r.z
  let lo := match r.kind with | .fill => key / 256 * 256 | _ => key
  let s := touchSlice s r.bank r.part lo n r.kind.writes
  match r.kind with
  | .read => (s, .ok (hRdN s r.bank key r.z))
  | .hashed => (s, .ok (hRdN s r.bank key r.z))
  | .fill =>
    let l1 := l1Station s r.st r.va.toNat
    let v := leNat ((List.range r.z).map fun i => fillByte s l1 r.part (r.va.toNat + i) r.bank (key + i) r.hashed)
    (if r.dropped then s else installLine s r.st r.part r.va.toNat r.bank key r.segIdx r.hashed, .ok v)
  | .write =>
    if 2 ^ 61 ≤ key ∧ key < 2 ^ 62 then
      let st := (key - 2 ^ 61) / 2 ^ 19
      let slot := (key - 2 ^ 61) / 2 ^ 15 % 16
      let t := vget (stn s st).tiles slot
      let tag := t.tag
      let byThread := match r.who with | .thread _ _ _ => true | _ => false
      if byThread && (tag == .full || tag == .draining || (tag == .filling && t.eng)) then (s, .error { cause := 0x04, addr := r.va })
      else
        let s := if byThread && tag == .empty then
            modStn s st fun x => { x with tiles := vset x.tiles slot { vget x.tiles slot with tag := .filling, eng := false } }
          else s
        (writeBytes s r.bank key r.z (match r.who with | .chan _ _ _ => r.data.toNat | _ => r.val.toNat) r.mask.toNat, .ok 0)
    else
      let s := writeBytes s r.bank key r.z (match r.who with | .chan _ _ _ => r.data.toNat | _ => r.val.toNat) r.mask.toNat
      (written s r key r.z, .ok 0)
  | .sector => (written (writeBytes s r.bank key 64 r.data.toNat r.mask.toNat) r key 64, .ok 0)
  | .take => (written (setTag s key false) r key 0, .ok (hRdN s r.bank key 8))
  | .readf => (s, .ok (hRdN s r.bank key 8))
  | .put => (written (setTag (hWrN s r.bank key 8 r.val.toNat) key true) r key 8, .ok 0)
  | .pset => (if tagFull s key then s else written (setTag s key true) r key 0, .ok 0)
  | .pclr => (if tagFull s key then written (setTag s key false) r key 0 else s, .ok 0)
  | .rsv => (s, .ok (hRdN s r.bank key r.z))
  | .rls => (written (hWrN s r.bank key r.z r.val.toNat) r key r.z, .ok 0)
  | .amo fn =>
    let w := hRdN s r.bank key r.z
    let n := amoNew fn r.z w (r.val.toNat % 2 ^ (8 * r.z)) (r.cmp.toNat % 2 ^ (8 * r.z))
    if fn = 11 ∧ w ≠ r.cmp.toNat % 2 ^ (8 * r.z) then (s, .ok w)
    else (written (hWrN s r.bank key r.z n) r key r.z, .ok w)
  | .acq want =>
    let agent := (agentOf s r).getD 0
    let l := ((kget s.dirs (key / 64)).getD []).filter (·.agent != agent)
    ({ s with dirs := kput s.dirs (key / 64) (l ++ [{ agent := agent, st := want, part := r.part }]) }, .ok 0)
  | .hold wr => (if wr then { s with passed := s.passed ++ [key / 8] } else s, .ok 0)
  | .arm n =>
    match r.who with
    | .thread t _ _ =>
      let arms := s.arms.filter fun a => !(a.tid == t && a.n == n)
      let room := arms.countP (fun a => a.home == r.bank) < 1024
      let s := { s with arms := if room then arms ++ [{ line := key / 256, tid := t, n := n, home := r.bank }] else arms }
      let m : Mon := { line := some (BitVec.ofNat 64 (r.va.toNat / 256 * 256)), registered := room, trig := !room,
                       hashed := r.hashed, pinned := r.pinned }
      (modThr s t fun th => { th with mon := vset th.mon n m }, .ok (b2n room))
    | _ => (s, .ok 0)

/-! ### Waiting at a bank -/

/-- A kind that waits behind a reservation of another agent: a write, a presence operation, another reservation, an AMO (R371). -/
def AccKind.waits : AccKind → Bool
  | .readf => true
  | k => k.writes

/-- The first reserved word that makes a request wait: every writing request of
another agent (R371; the words "of other agents" are read as covering the whole list, so the holder's own are performed at once). -/
def reservedFor (s : State) (r : Req) (key : Nat) : Option Nat :=
  if r.kind.waits then
    (wordsOf r key).find? fun w => match kget s.rsv w with
      | none => false
      | some e => match e.holder with
        | none => false
        | some h => r.who.tid != some h
  else none

/-- A request waits behind the reservation of a word, in arrival order (R371). -/
def queueRsv (s : State) (r : Req) (key w : Nat) : State :=
  let e := (kget s.rsv w).getD {}
  { s with reqs := kdel s.reqs r.id, rsv := kput s.rsv w { e with queue := e.queue ++ [{ r with pa := some key }] } }

/-- The tag of a word changed: the oldest deferred request whose condition holds is performed, again and again (R367); one of another
agent than the holder of a reservation goes to wait behind that (R371). -/
def servePresence : Nat → State → Nat → State
  | 0, s, _ => s
  | k + 1, s, w =>
    match s.waits.find? fun r => r.pa.any fun key => key / 8 == w && presenceReady s r key with
    | none => s
    | some r =>
      let s := { s with waits := s.waits.filter fun x => x.id != r.id }
      let key := r.pa.getD 0
      match reservedFor s r key with
      | some v => servePresence k (queueRsv s r key v) w
      | none =>
        let p := performReq s r key
        servePresence k (deliver p.1 r p.2) w

/-- A presence request is performed or deferred at its home (R367). -/
def presenceReq (s : State) (r : Req) (key : Nat) : State :=
  if presenceReady s r key then
    let p := performReq s r key
    servePresence (p.1.waits.length + 1) (deliver p.1 r p.2) (key / 8)
  else if s.waits.countP (fun x => x.bank == r.bank) < 1024 then
    { s with reqs := kdel s.reqs r.id, waits := s.waits ++ [{ r with pa := some key }] }
  else later { s with reqs := kput s.reqs r.id { r with pa := some key } } 256 (.presenceResend r.id)

/-- The RSV that a thread issued last is still this one (R370). -/
def rsvWanted (s : State) (t : Word) (op : Nat) : Bool := (getThr s t).any fun th => th.rsv == some op

/-- A word is given to the thread of an RSV; an RSV that its thread has since given up is released at once (R370). -/
def grantRsv (s : State) (r : Req) (key : Nat) (t : Word) (op : Nat) : State :=
  let e := (kget s.rsv (key / 8)).getD {}
  let s := { s with rsv := kput s.rsv (key / 8) { e with holder := some t, op := op, granted := s.time } }
  let s := later s (if rsvWanted s t op then 4096 else 0) (.reservationHoldExpiry (key / 8) t.toNat)
  let p := performReq s r key
  deliver p.1 r p.2

/-- A request that a reservation no longer keeps waiting. -/
def unreserved (s : State) (r : Req) (key : Nat) : State :=
  match r.kind with
  | .rsv => match r.who with
    | .thread t op _ => grantRsv s r key t op
    | _ => deliver s r (.ok 0)
  | .take => presenceReq s r key
  | .put => presenceReq s r key
  | .readf => presenceReq s r key
  | .pset => presenceReq s r key
  | .pclr => presenceReq s r key
  | _ =>
    let p := performReq s r key
    deliver p.1 r p.2

/-- The waiters of a free word are served in arrival order until one holds it (R370, R371). -/
def serveRsv : Nat → State → Nat → State
  | 0, s, _ => s
  | k + 1, s, w =>
    match kget s.rsv w with
    | none => s
    | some e =>
      if e.holder.isSome then s
      else match e.queue with
        | [] => { s with rsv := kdel s.rsv w }
        | r :: q => serveRsv k (unreserved { s with rsv := kput s.rsv w { e with queue := q } } r (r.pa.getD 0)) w

/-- A reservation is released with its word as it stands, and the next waiter granted (R370). -/
def releaseRsv (s : State) (w : Nat) : State :=
  match kget s.rsv w with
  | none => s
  | some e => serveRsv (e.queue.length + 1) { s with rsv := kput s.rsv w { e with holder := none } } w

/-- The sectors that a request reads or writes: all four of its line for a fill. -/
def sectorsOf (r : Req) (key : Nat) : List Nat :=
  if r.kind = .fill then nats (key / 256 * 4) (key / 256 * 4 + 4) else nats (key / 64) ((key + max r.z 1 - 1) / 64 + 1)

/-- The recalls that a request waits for at its home, each an agent, a sector and whether the agent may keep it as a reader: the
holders of its own sectors (R351) and those of the line that it puts out of the slice (R350). A host does not wait for itself. -/
def recallSet (s : State) (r : Req) (key : Nat) : List (Nat × Nat × Bool) :=
  if 256 ≤ r.bank then []
  else
    let me := agentOf s r
    let mine := (sectorsOf r key).flatMap fun k =>
      ((recallsFor s k r.kind.writes).filter fun a => me != some a).map fun a => (a, k, !r.kind.writes)
    let out := (victimRecalls s r.bank r.part key).map fun x => (x.1, x.2, false)
    (mine ++ out).filter fun x => !(s.deadAgents.contains x.1)

/-- A buffer that is being sealed, is sealed or is being unsealed takes no write (R319, R347, R348). -/
def sealBars (s : State) (r : Req) : Bool :=
  r.kind.writes && r.segIdx != 0 && !r.early && (kget (part s r.part).seals (r.segIdx - 1)).isSome

/-- A kind that reads: the first to meet an uncorrectable error is told of it (R502). -/
def AccKind.reads : AccKind → Bool
  | .read => true | .hashed => true | .take => true | .readf => true | .rsv => true | .amo _ => true | .fill => true | .acq _ => true
  | _ => false

/-- What a bank does with a request for a place, once nothing of its own station comes before it. -/
def doHome (s : State) (r : Req) (key : Nat) : State :=
  let no (c : Byte) : State := deliver s r (.error { cause := c, addr := r.va })
  let home := r.bank < 256
  let host := home && isHost key
  let bytes := if r.kind = .sector then 64 else r.z
  let recalls := recallSet s r key
  if home && (stn s r.bank).dead then no 0x0A
  else if host && !agentKnown s (part s r.part) (hostOf key) then no 0x0A
  else if home && isPeer key && s.deadAgents.contains (peerOf key) then no 0x0A
  else if home && poisoned s key bytes then
    if r.kind.reads then
      deliver (told s key bytes) r (.error { cause := (badCause s key bytes).getD 0x09, addr := r.va })
    else no 0x09
  else if sealBars s r then no 0x04
  else if !recalls.isEmpty then
    let s := { s with reqs := kput s.reqs r.id { r with pa := some key, recalls := recalls.map (·.1) } }
    recalls.foldl (fun s x => sendRecall s x.1 r.part r.id x.2.1 (if x.2.2 then 1 else 0)) s
  else if host && r.recalls.isEmpty && !(r.kind == .write || r.kind == .sector) then
    let s := { s with reqs := kput s.reqs r.id { r with pa := some key, recalls := [64 + hostOf key] } }
    let line := if r.kind = .fill then key / 256 * 256 else key
    sendAgent s (hostOf key) 2 r.part (natLe 8 line ++ natLe 4 (if r.kind = .fill then 256 else r.z))
  else
    match r.kind with
    | .rls =>
      let e := (kget s.rsv (key / 8)).getD {}
      if e.holder.isSome && e.holder == r.who.tid then
        let p := performReq s r key
        releaseRsv (deliver p.1 r p.2) (key / 8)
      else no 0x0B
    | _ =>
      match reservedFor s r key with
      | some w => queueRsv s r key w
      | none => unreserved s r key

/-! ### The order of requests at a bank (R12, R329) -/

/-- Kinds that keep program order with their thread's other accesses of one word only: atomics and presence operations (R373). -/
def AccKind.wordOnly : AccKind → Bool
  | .take => true | .put => true | .readf => true | .pset => true | .pclr => true | .rsv => true | .rls => true | .amo _ => true
  | _ => false

/-- A request must let another go first: an earlier one of its station or of its thread, in a fused cluster sent from another station,
still on its way to the same bank (R12, R329, R356), or an earlier one of its thread that waits there for a recall, a reservation or a presence tag: a plain access at the same bank, an atomic or a presence
operation at the same word (R329, R373). A read that a router has combined takes its place with the read that was forwarded (R13). -/
def goesAfter (s : State) (r : Req) (key : Nat) : Bool :=
  let sameWord (x : Req) : Bool := x.pa.any fun k => k / 8 == key / 8
  let first (x : Req) : Bool := sameThread r x && x.id < r.id && (sameWord x || (x.bank == r.bank && !x.kind.wordOnly))
  (s.reqs.any fun e => let x := e.2
    x.id < r.id && (x.st == r.st || sameThread r x) && x.bank == r.bank && x.part == r.part &&
      (if x.recalls.isEmpty && x.carrier.isNone && !(s.agenda.any fun g => g.2 == .presenceResend x.id) then true
       else if x.carrier.isSome then sameThread r x && sameWord x else first x)) ||
    s.waits.any first || s.rsv.any fun e => e.2.queue.any first

end Sys2Proof.Machine
end

