-- ==== Sys2Proof/Machine/Rakes.lean ====
section
/-! DEFINITION. Parked threads and their waits (R37), the L1 part of acquire and release (R335, R336, R354), the rake table and
its barriers (R53 to R55, R345, R410 to R413). -/

namespace Sys2Proof.Machine

/-! ### Waits -/

/-- A thread parks at its instruction, for a reason, with a wait whose limit is cr.wlimit (R37, R408, R412, R420). -/
def startWait (s : State) (th : Thread) (on : WaitOn) (why : Park) (retry : Bool) : State :=
  let id := th.nextOp
  let w : Wait := { on := on, pc := th.pc, id := id, since := s.time, retry := retry }
  let s := parkThr s { th with nextOp := id + 1, wait := some w } why
  if th.wlimit ≠ 0 then later s th.wlimit.toNat (.waitLimitExpiry th.tid.toNat id) else s

/-- A wait ends: the instruction completes and the thread becomes READY behind it. -/
def endWait (s : State) (th : Thread) : State := makeReady s { th with pc := th.pc + 4, wait := none }

/-- A thread held while it waits keeps its answer; any other becomes READY (R490). -/
def wakeThr (s : State) (th : Thread) : State :=
  match th.st with
  | .parked .held => setThr s { th with wait := none }
  | _ => makeReady s { th with wait := none }

/-- A result that comes from another unit: the thread stays parked, for the reason of a marker, until it is written, within a
class (R404, R411, R419, R432). The instruction has had its effect. -/
def answer (s : State) (th : Thread) (d : BitVec 5) (v : DWord) (wcl : Nat) : State :=
  let r := addOp { th with pc := th.pc + 4 } { id := 0, pc := th.pc, dest := .g d, res := [(0, v)], hold := true }
  within (parkThr s r.2 .marker) wcl (.longOpComplete th.tid.toNat r.1)

/-! ### Acquire and release at the L1 -/

/-- The unsealed lines of the L1s that a station's threads use are invalidated (R336). -/
def invalUnsealed (s : State) (st : Nat) : State :=
  (l1Stations s st).foldl (fun s l1 => dropLines s l1 fun l => l.sealedIdx.isNone) s

/-- The bytes of a footprint range as they stand: the station's stores that their homes have not performed come first (R327, R354). -/
def footBytes (s : State) (st pn : Nat) (f : FootRange) : State × Except DFault (List Byte) :=
  match vread s st pn f.va.toNat f.len f.seg.hashed f.seg.pinned with
  | (s, .error e) => (s, .error e)
  | (s, .ok l) =>
    let one (i : Nat) : Byte := (combFind s (l1Station s st (f.va.toNat + i)) pn (f.va.toNat + i) f.seg.hashed).getD (l.getD i 0)
    (s, .ok ((List.range f.len).map one))

/-- A footprint copy's bytes read again, of the ranges that satisfy a test (R354). -/
def refetchIf (s : State) (th : Thread) (test : FootRange → Bool) : State :=
  let r := th.foot.foldl (fun (a : State × List FootRange) f =>
    if !test f then (a.1, a.2 ++ [f])
    else
      match footBytes a.1 (tidHome th.tid) (tidPart th.tid) f with
      | (s, .ok l) => (s, a.2 ++ [{ f with copy := f.copy.map fun e => (e.1, l.getD (e.1 - f.va.toNat) 0) }])
      | (s, .error _) => (s, a.2 ++ [f])) (s, [])
  modThr r.1 th.tid fun t => { t with foot := r.2 }

/-- A range of a footprint lies in a buffer that is SEALED now. -/
def footSealed (s : State) (pn : Nat) (f : FootRange) : Bool :=
  (sealedNow s pn (if f.seg.type = 1 then f.seg.idx + 1 else 0)).isSome

/-- A footprint copy's unsealed bytes read again (R354). -/
def refetch (s : State) (th : Thread) : State := refetchIf s th fun f => !footSealed s (tidPart th.tid) f

/-- The acquire of a fence, a barrier or a call (R336, R345, R354). -/
def acquire (s : State) (th : Thread) : State := refetch (invalUnsealed s th.station) th

/-- Sectors of the L1s of a station still on their way home. -/
def sectorsFlying (s : State) (st : Nat) : Bool := (l1Stations s st).any fun l1 => !(sectorsOut s l1).isEmpty

/-- Every dirty sector of the L1s that a station's threads use is sent home (R335). -/
def sendDirty (s : State) (st : Nat) : State := (l1Stations s st).foldl (fun s l1 => drainWhere s l1 fun _ => true) s

/-- The release of a fence or a barrier (R335, R338): every dirty sector goes home; when some are still to be performed, or for scope 6
stores to host memory are not acknowledged, the thread parks at its instruction until they are, and none answers then. -/
def release (s : State) (th : Thread) (far : Bool) : Option State × State :=
  if th.relDone then (some (setThr s { th with relDone := false }), s)
  else
    let s := sendDirty s th.station
    if sectorsFlying s th.station || (far && hostWritesOut s (tidPart th.tid)) then
      let w : Wait := { on := .drain far, pc := th.pc, id := s.fresh, since := s.time, retry := true }
      (none, parkThr s { th with wait := some w } .marker)
    else (some s, s)

/-! ### Rakes -/

def modRake (s : State) (pn i : Nat) (f : Rake → Rake) : State :=
  modPart s pn fun p => { p with rakes := kput p.rakes i (f ((kget p.rakes i).getD {})) }

/-- The live rake that an id names (R53). -/
def rakeFind (s : State) (pn : Nat) (id : Half) : Option Rake :=
  match kget (part s pn).rakes (bits id.toNat 9 0) with
  | some r => if id ≠ 0 ∧ r.live ∧ r.gen.toNat = bits id.toNat 15 10 then some r else none
  | none => none

/-- The station that holds a partition's rake table (R411). -/
def rakeTable (s : State) (pn : Nat) : Nat := (part s pn).stations.headD 0

/-- One member of a barrier goes on with its status (R54, R345, R412). -/
def barGo (s : State) (t : Word) (broken : Bool) (lost : Word) : State :=
  match getThr s t with
  | none => s
  | some th =>
    match th.wait with
    | some { on := .bar _ d mask, pc := _, id := _, since := _, retry := _ } =>
      let s := if mask.getLsbD 0 then acquire s th else s
      let th := (getThr s t).getD th
      let th := wg th d (BitVec.ofNat 64 (b2n broken * 2 ^ 60 + if broken then lost.toNat else 0))
      wakeThr s { th with pc := th.pc + 4 }
    | _ => s

/-- Every parked member is released in one cycle, and A returns to 0 (R54). -/
def barRelease (s : State) (pn i : Nat) (broken : Bool) (lost : Word) : State :=
  let r := (kget (part s pn).rakes i).getD {}
  let s := modRake s pn i fun r => { r with arrived := [] }
  r.arrived.foldl (fun s t => barGo s t broken lost) s

/-- The barrier completes when A = L (R54, R55). -/
def barCheck (s : State) (pn i : Nat) : State :=
  match kget (part s pn).rakes i with
  | some r => if r.arrived.length = r.members.length then barRelease s pn i r.broken r.lost else s
  | none => s

/-- A member leaves; an end by fault or kill marks the rake (R55). -/
def rakeLeave (s : State) (pn : Nat) (t : Word) (id : Half) (mark : Bool) : State :=
  let i := bits id.toNat 9 0
  match rakeFind s pn id with
  | none => s
  | some _ =>
    let s := modRake s pn i fun r =>
      { r with members := r.members.filter (· != t), arrived := r.arrived.filter (· != t),
               lost := if mark && !r.broken then t else r.lost, broken := r.broken || mark }
    let s := modThr s t fun th => { th with rakes := th.rakes.filter (· != id) }
    barCheck s pn i

/-- A thread joins a rake (R53). -/
def rakeJoin (s : State) (pn : Nat) (t : Word) (id : Half) : State :=
  let s := modRake s pn (bits id.toNat 9 0) fun r => { r with members := r.members ++ [t] }
  modThr s t fun th => { th with rakes := th.rakes ++ [id] }

/-- A new rake: an index not live, which one is free but for the first of a fresh table, index 1 (R515; log 43), its generation one
on; id 0 is never assigned (R53). -/
def rakeNew (s : State) (pn : Nat) : Option (Half × State) :=
  let p := part s pn
  let free := (List.range 1024).filter fun i => !((kget p.rakes i).any (fun (r : Rake) => r.live))
  if free.isEmpty then none
  else
    let d := draw s free.length
    let s := d.2
    let i := if p.rakes.isEmpty then 1 else free.getD d.1 0
    let g : BitVec 6 := match kget p.rakes i with | some r => r.gen + 1 | none => 0
    let g := if i = 0 ∧ g = 0 then 1 else g
    some (BitVec.ofNat 16 (g.toNat * 1024 + i), modRake s pn i fun _ => { gen := g, live := true })

/-- A rake ends: parked members go on with BROKEN and lost id 0 (R55). -/
def rakeFree (s : State) (pn : Nat) (id : Half) : State :=
  let i := bits id.toNat 9 0
  let m := ((kget (part s pn).rakes i).getD {}).members
  let s := barRelease s pn i true 0
  let s := m.foldl (fun s t => modThr s t fun th => { th with rakes := th.rakes.filter (· != id) }) s
  modRake s pn i fun r => { r with live := false, members := [], arrived := [], broken := false, lost := 0 }

end Sys2Proof.Machine
end

