-- ==== Sys2Proof/Machine/Sched.lean ====
section
/-! DEFINITION. The schedule units of the clusters (R422 to R434): tiles and grains of a block, placement, prepared tiles, tickets,
commits and the coverage map. -/

namespace Sys2Proof.Machine

/-! ### A block's words (R422) -/

def sbWord (b : SBWords) (i : Nat) : Nat := (vget b i).toNat
def sbNdim (b : SBWords) : Nat := bits (sbWord b 0) 2 0
def sbPolicy (b : SBWords) : Nat := bits (sbWord b 0) 5 4
def sbOrder (b : SBWords) (l : Nat) : Nat := bits (sbWord b 1) (3 * l + 2) (3 * l)
def sbE (b : SBWords) (k : Nat) : Nat := bits (sbWord b (k + 2)) 31 0
def sbG (b : SBWords) (k : Nat) : Nat := bits (sbWord b (k + 2)) 47 32
def sbT (b : SBWords) (k : Nat) : Nat := bits (sbWord b (k + 2)) 53 48 + 1
def sbNG (b : SBWords) (k : Nat) : Nat := if sbG b k = 0 then 0 else cdiv (sbE b k) (sbG b k)
def sbNT (b : SBWords) (k : Nat) : Nat := cdiv (sbNG b k) (sbT b k)
def sbDims (b : SBWords) : List Nat := List.range (sbNdim b)
def sbGrains (b : SBWords) : Nat := (sbDims b).foldl (fun n k => n * sbNG b k) 1
def sbTiles (b : SBWords) : Nat := (sbDims b).foldl (fun n k => n * sbNT b k) 1
def sbTileSize (b : SBWords) : Nat := (sbDims b).foldl (fun n k => n * sbT b k) 1

/-- The stations of the placement rectangle, ascending (R424). -/
def sbStations (b : SBWords) : List Nat :=
  let r := sbWord b 8
  (List.range 256).filter fun st =>
    bits r 7 0 ≤ xOf st && xOf st ≤ bits r 23 16 && bits r 15 8 ≤ yOf st && yOf st ≤ bits r 31 24

/-- Coordinates of a tile by dimension: level 0 of ORDER varies fastest (R422). -/
def sbCoord (b : SBWords) (t k : Nat) : Nat :=
  let below := (sbDims b).takeWhile fun l => sbOrder b l != k
  t / below.foldl (fun n l => n * sbNT b (sbOrder b l)) 1 % sbNT b k

/-- The first element of a tile, by dimension. -/
def sbOrigin (b : SBWords) (t : Nat) : List Nat := (sbDims b).map fun k => sbCoord b t k * sbT b k * sbG b k

/-- The grains of a tile: linear index with mask bit; grains past the edge of the grid have none (R422). -/
def sbTileGrains (b : SBWords) (t : Nat) : List (Nat × Nat) :=
  (List.range (sbTileSize b)).filterMap fun m =>
    let r := (sbDims b).foldl (fun (a : Option Nat × Nat × Nat) k =>
      let g := sbCoord b t k * sbT b k + a.2.1 % sbT b k
      ((if sbNG b k ≤ g then none else a.1.map (· + g * a.2.2)), a.2.1 / sbT b k, a.2.2 * sbNG b k)) (some 0, m, 1)
    r.1.map (·, m)

/-! ### Units and blocks -/

def sbGet (s : State) (c pn b : Nat) : SBlock := (kget (clus s c).sb (8 * pn + b)).getD {}
def modSb (s : State) (c pn b : Nat) (f : SBlock → SBlock) : State :=
  modClus s c fun x => { x with sb := kput x.sb (8 * pn + b) (f ((kget x.sb (8 * pn + b)).getD {})) }

/-- The lowest station of a cluster: where the unit's own accesses start. -/
def clusStation (c : Nat) : Nat := c / 8 * 32 + c % 8 * 2

/-- An engine segment named by a block's word. -/
def sbSeg (s : State) (c : Nat) (w : Nat) : Seg := vget (stn s (clusStation c)).eng (bits w 42 40)

/-- The station of a tile (R424). -/
def sbPlace (s : State) (c pn : Nat) (b : SBWords) (t : Nat) : State × Nat :=
  let l := sbStations b
  let rr := l.getD (t % l.length) 0
  let g := sbSeg s c (sbWord b 10)
  let off := bits (sbWord b 10) 39 0
  match sbPolicy b with
  | 1 =>
    let strideOf (k : Nat) : Int :=
      let x := bits (sbWord b (11 + k / 2)) (32 * (k % 2) + 31) (32 * (k % 2))
      if 2 ^ 31 ≤ x then (x : Int) - 2 ^ 32 else x
    let o := sbOrigin b t
    let va : Int := (g.base + off : Nat) + ((sbDims b).map fun k => (o.getD k 0 : Int) * strideOf k).sum
    let h := homeOf s pn (va.emod (2 ^ 56)).toNat g.hashed
    (s, if l.contains h then h else rr)
  | 2 =>
    match segCheck s pn g (off + 2 * t) 2 false with
    | some _ => (s, rr)
    | none =>
      match vread s (clusStation c) pn (g.base + off + 2 * t) 2 g.hashed g.pinned with
      | (s, .ok d) => (s, if l.contains (leNat d) then leNat d else rr)
      | (s, .error _) => (s, rr)
  | _ => (s, rr)

/-! ### Grains and the coverage map (R423) -/

def grainState (x : SBlock) (n : Nat) : BitVec 2 := (kget x.grains n).getD 0

/-- A word of the coverage map from the unit's own grain states. -/
def mapWord (x : SBlock) (w : Nat) : Nat :=
  let total := sbGrains x.comm
  (List.range 32).foldl (fun a i =>
    let n := 32 * w + i
    a + (if total ≤ n then 3 else (grainState x n).toNat) * 4 ^ i) 0

/-- One word of the map written; a failure is reported and changes nothing in the unit. -/
def mapWrite (s : State) (c pn b : Nat) (tid : Word) (w grain : Nat) : State :=
  let x := sbGet s c pn b
  let g := sbSeg s c (sbWord x.comm 9)
  let off := bits (sbWord x.comm 9) 39 0 + 8 * w
  let r : State × Option DFault := match segCheck s pn g off 8 true with
    | some cause => (s, some { cause := cause, addr := BitVec.ofNat 64 (g.base + off) })
    | none => vwrite s (clusStation c) pn (g.base + off) (natLe 8 (mapWord x w)) g.hashed g.pinned
  match r with
  | (s, none) => s
  | (s, some f) => later s 1 (.mapWriteFail pn c b tid f.cause (BitVec.ofNat 64 (g.base + off)) grain)

/-- Grains change state, and each word of the map that holds one is written. -/
def setGrains (s : State) (c pn b : Nat) (tid : Word) (ns : List Nat) (v : BitVec 2) : State :=
  let s := modSb s c pn b fun x =>
    { x with grains := ns.foldl (fun m n => if v = 0 then kdel m n else kput m n v) x.grains }
  let ws := (ns.map (· / 32)).eraseDups
  ws.foldl (fun s w => mapWrite s c pn b tid w ((ns.find? fun n => n / 32 == w).getD 0)) s

/-! ### Prepared tiles (R425) -/

/-- The first tile from t on, of n, that is assigned to a station and holds a free grain. -/
def scanTile (c pn b st : Nat) : Nat → State → Nat → State × Option Nat
  | 0, s, _ => (s, none)
  | n + 1, s, t =>
    let x := sbGet s c pn b
    let t := t % sbTiles x.comm
    match sbPlace s c pn x.comm t with
    | (s, p) =>
      if p = st && (sbTileGrains x.comm t).any fun g => grainState x g.1 == 0 then (s, some t)
      else scanTile c pn b st n s (t + 1)

/-- A station's next tile is prepared: its free grains become dispatched. -/
def prepare (s : State) (c pn b st : Nat) (tid : Word) : State :=
  let x := sbGet s c pn b
  let cur := ((x.preps.find? fun p => p.st == st).map (·.cursor)).getD 0
  let put (s : State) (p : Prep) : State :=
    modSb s c pn b fun x => { x with preps := x.preps.filter (fun q => q.st != st) ++ [p] }
  match scanTile c pn b st (sbTiles x.comm) s cur with
  | (s, none) => put s { st := st, tile := none, cursor := cur }
  | (s, some t) =>
    let gs := (sbTileGrains x.comm t).filter fun g => grainState (sbGet s c pn b) g.1 == 0
    let s := put s { st := st, tile := some (sbOrigin x.comm t, gs), cursor := t + 1 }
    setGrains s c pn b tid (gs.map (·.1)) 1

/-- The prepared tiles are released: their grains are free again. -/
def releasePreps (s : State) (c pn b : Nat) (tid : Word) : State :=
  let gs := (sbGet s c pn b).preps.flatMap fun p => (p.tile.map fun t => t.2.map (·.1)).getD []
  let s := modSb s c pn b fun x => { x with preps := [] }
  setGrains s c pn b tid gs 0

/-- The grains of a mask on a ticket. -/
def ticketGrains (t : Ticket) (m : DWord) : List Nat := (t.grains.filter fun g => m.getLsbD g.2).map (·.1)

/-- A commit applies (R428). -/
def applyCommit (s : State) (c pn b : Nat) (w : SBWords) (tid : Word) : State :=
  let first := (sbGet s c pn b).gen = 0
  let s := releasePreps s c pn b tid
  let placed := sbStations w
  let s := modSb s c pn b fun x =>
    { x with comm := w, pending := none, gen := x.gen + 1, grains := if first then [] else x.grains,
             tickets := x.tickets.map fun t =>
               if (getThr s t.tid).any fun th => placed.contains th.station then t else { t with handover := true } }
  let s := if first then
      (List.range (cdiv (sbGrains w) 32)).foldl (fun s i => mapWrite s c pn b tid i (32 * i)) s
    else s
  placed.foldl (fun s st => prepare s c pn b st tid) s

/-- A block is retired (R429). -/
def retire (s : State) (c pn b : Nat) (tid : Word) : State :=
  let gs := (sbGet s c pn b).tickets.flatMap fun t => ticketGrains t t.mask
  let s := releasePreps s c pn b tid
  let s := modSb s c pn b fun x => { x with tickets := [], pending := none }
  let s := setGrains s c pn b tid gs 0
  modSb s c pn b fun x => { x with gen := 0 }

/-- The tickets of a thread that ends return (R429). -/
def returnTickets (s : State) (tid : Word) : State :=
  let pn := tidPart tid
  s.clusters.foldl (fun s e => (List.range 8).foldl (fun s b =>
    let mine := (sbGet s e.1 pn b).tickets.filter fun t => t.tid == tid
    if mine.isEmpty then s
    else
      let s := modSb s e.1 pn b fun x => { x with tickets := x.tickets.filter fun t => t.tid != tid }
      setGrains s e.1 pn b tid (mine.flatMap fun t => ticketGrains t t.mask) 0) s) s

/-! ### The functions of SCHD (R431 to R434) -/

/-- What SBCOMMIT refuses (R432). -/
def sbIllegal (s : State) (c pn b : Nat) (w : SBWords) : Bool :=
  let x := sbGet s c pn b
  let n := sbNdim w
  let r := sbWord w 8
  let x0 := bits r 7 0
  let y0 := bits r 15 8
  let x1 := bits r 23 16
  let y1 := bits r 31 24
  let map := sbSeg s c (sbWord w 9)
  let ab := sbSeg s c (sbWord w 10)
  bits (sbWord w 0) 47 6 != 0 || bit (sbWord w 0) 3 || sbPolicy w == 3 || n == 7 ||
    (n != 0 &&
      (bits (sbWord w 1) 63 18 != 0 || sbWord w 1 / 2 ^ (3 * n) != 0 || sbWord w 8 / 2 ^ 32 != 0 ||
       sbWord w 9 / 2 ^ 43 != 0 || sbWord w 10 / 2 ^ 43 != 0 || sbWord w 14 != 0 || sbWord w 15 != 0 ||
       sbWord w 9 % 8 != 0 ||
       ((List.range 6).any fun k => if k < n then bits (sbWord w (k + 2)) 63 54 != 0 || sbE w k == 0 || sbG w k == 0
                                    else sbWord w (k + 2) != 0) ||
       ((List.range n).any fun k => !((List.range n).any fun l => sbOrder w l == k)) ||
       64 < sbTileSize w || 2 ^ 32 ≤ sbGrains w ||
       x1 < x0 || y1 < y0 || 15 < x1 || 15 < y1 || !((sbStations w).all (part s pn).hasStation) ||
       (x.gen != 0 && (sbNdim x.comm != n || sbWord x.comm 9 != sbWord w 9 ||
          (List.range 6).any fun k => sbE x.comm k != sbE w k || sbG x.comm k != sbG w k)) ||
       !map.engine || !map.write || (sbPolicy w != 0 && !ab.engine) ||
       map.limit < bits (sbWord w 9) 39 0 + 8 * cdiv (sbGrains w) 32))

/-- SBCOMMIT: the generation the commit carries, or none where it is refused (R428, R432). -/
def sbCommit (s : State) (c pn b : Nat) (tid : Word) : Option (State × Nat) :=
  let x := sbGet s c pn b
  if sbIllegal s c pn b x.staged then none
  else if sbNdim x.staged = 0 then some (retire s c pn b tid, 0)
  else if x.gen = 0 then some (applyCommit s c pn b x.staged tid, 1)
  else some (modSb s c pn b fun x => { x with pending := some x.staged }, (x.gen + 1).toNat)

/-- The first ticket number from n on that is not held (R426). -/
def freeTicket (l : List Ticket) : Nat → Half → Half
  | 0, n => n
  | k + 1, n => if l.any fun t => t.num == n then freeTicket l k (n + 1) else n

/-- TGET of a thread at a station: the eight result words (R425, R428, R433). -/
def tget (s : State) (c pn b st : Nat) (tid : Word) : State × List DWord :=
  let s := match (sbGet s c pn b).pending with
    | some w => applyCommit s c pn b w tid
    | none => s
  let x := sbGet s c pn b
  let word (s : State) (gen num state : Nat) : DWord :=
    let hold := (sbGet s c pn b).tickets.any fun t => t.tid == tid && t.handover
    BitVec.ofNat 64 (gen * 2 ^ 32 + b2n hold * 2 ^ 27 + state * 2 ^ 25 + b * 2 ^ 22 + c * 2 ^ 16 + num)
  let empty (s : State) (gen state : Nat) : State × List DWord := (s, List.replicate 7 0 ++ [word s gen 0 state])
  if x.gen = 0 ∨ !(sbStations x.comm).contains st ∨ 256 ≤ x.tickets.length then empty s x.gen.toNat 3
  else
    let has (s : State) := ((sbGet s c pn b).preps.find? fun p => p.st == st).bind (·.tile)
    let s := if (has s).isNone then prepare s c pn b st tid else s
    match has s with
    | none =>
      let x := sbGet s c pn b
      let finished := x.grains.countP (fun g => g.2 == 2) == sbGrains x.comm
      empty s x.gen.toNat (if finished then 2 else 1)
    | some (origin, gs) =>
      let x := sbGet s c pn b
      let num := freeTicket x.tickets 65536 x.nextTicket
      let mask := gs.foldl (fun m g => m ||| ((1 : DWord) <<< g.2)) 0
      let t : Ticket := { num := num, tid := tid, gen := x.gen, origin := origin, grains := gs, mask := mask }
      let s := modSb s c pn b fun x => { x with tickets := x.tickets ++ [t], nextTicket := num + 1 }
      let w := word s x.gen.toNat num.toNat 0
      (prepare s c pn b st tid, padTo 6 0 (origin.map fun o => BitVec.ofNat 64 o) ++ [mask, w])

/-- TDONE and TRET: the status word, or none where COVERAGE is taken (R434). -/
def ticketEnd (s : State) (pn : Nat) (tid : Word) (tw m : DWord) (isDone : Bool) : Option (State × Nat) :=
  let c := bits tw.toNat 21 16
  let b := bits tw.toNat 24 22
  match (sbGet s c pn b).tickets.find? fun t => t.num.toNat == bits tw.toNat 15 0 && t.tid == tid with
  | none => none
  | some t =>
    if m &&& ~~~t.mask ≠ 0 then none
    else
      let left := t.mask &&& ~~~m
      let s := modSb s c pn b fun x =>
        { x with tickets := x.tickets.filterMap fun y =>
            if y.num = t.num then (if left = 0 then none else some { y with mask := left }) else some y }
      let s := setGrains s c pn b tid (ticketGrains t m) (if isDone then 2 else 0)
      some (s, b2n t.handover + 2 * b2n (left == 0))

end Sys2Proof.Machine
end

