-- ==== Sys2Proof/Machine/Graph.lean ====
section
/-! DEFINITION. Consists, their holds and tiles (R56 to R61), frames and activations (R57, R64 to R69), tokens on their way and in
matching stores (R100 to R111), routes and converter legs (R18 to R21, R114 to R116). -/

namespace Sys2Proof.Machine

/-- The activation of a firing. -/
def Firing.act (f : Firing) : BitVec 12 := match f.a, f.b with
  | some t, _ => t.act
  | none, some t => t.act
  | none, none => 0
def Firing.iter (f : Firing) : Half := match f.a, f.b with
  | some t, _ => t.iter
  | none, some t => t.iter
  | none, none => 0

/-! ### Consists and tiles -/

def consistOf (s : State) (pn : Nat) (cid : Half) : Option Consist := (part s pn).consists.find? (·.cid == cid)
def modConsist (s : State) (pn : Nat) (cid : Half) (f : Consist → Consist) : State :=
  modPart s pn fun p => { p with consists := p.consists.map fun c => if c.cid = cid then f c else c }

/-- The consist that owns a tile, with its partition (R122). -/
def tileOwner (s : State) (st : Nat) : Option (Nat × Consist) :=
  (stn s st).owner.bind fun o => (consistOf s o.1 o.2).map fun c => (o.1, c)

/-- The instruction in a slot; none when it is empty. -/
def slotWord (s : State) (st e i : Nat) : Option RoszonWord :=
  match decodeRoszon (vget (elemAt s st e).slots i) with
  | .ok w => some w
  | .error _ => none

/-- Slots of a consist that hold an op. -/
def slotsWith (s : State) (c : Consist) (f : RoszonWord → Bool) : List (Nat × Nat × Nat) :=
  c.tiles.flatMap fun t => (List.range 16).flatMap fun e =>
    if t.elems.getLsbD e then (List.range 32).filterMap fun i =>
      match slotWord s t.st e i with
      | some w => if f w then some (t.st, e, i) else none
      | none => none
    else []

/-! ### Holds (R59) -/

/-- A tile's element is stopped: by a swap, or a hold that has spread to its tile and has not been released there; a freeze stops as a
hold does (R314). The element whose own store is full goes on. -/
def tileStopped (s : State) (pn : Nat) (c : Consist) (st e : Nat) : Bool :=
  (part s pn).swapped || c.holds.any fun h =>
    let d := hops h.st st
    decide (h.since + d ≤ s.time) && (match h.released with | none => true | some r => decide (s.time < r + d)) &&
      !(h.kind == 1 && h.st == st && h.elem == e)

/-- An element applies a hold, once for its cause. -/
def applyHold (s : State) (pn : Nat) (cid : Half) (st e kind key : Nat) : State :=
  modConsist s pn cid fun c =>
    if c.holds.any fun h => h.st == st && h.elem == e && h.kind == kind && h.key == key && h.released.isNone then c
    else { c with holds := c.holds ++ [{ st := st, elem := e, since := s.time, kind := kind, key := key }] }

/-- Holds of a cause are released in n cycles. -/
def releaseHold (s : State) (pn : Nat) (cid : Half) (n : Nat) (f : Hold → Bool) : State :=
  modConsist s pn cid fun c =>
    { c with holds := c.holds.map fun h => if f h && h.released.isNone then { h with released := some (s.time + n) } else h }

/-- Every hold at a station for a cause. -/
def releaseAt (s : State) (st kind key : Nat) : State :=
  match tileOwner s st with
  | none => s
  | some (pn, c) => releaseHold s pn c.cid 0 fun h => h.st == st && h.kind == kind && h.key == key

/-- Cycles for which a tile has been stopped: the tile's own time is the device's less these. -/
def stallOf (c : Consist) (st : Nat) : Nat := ((c.tiles.find? fun t => t.st == st).map (·.stall)).getD 0

/-- The tile whose own time an event belongs to, and its element; a reply to an activation that has ended has none (R313). -/
def tileEvent (s : State) (e : Event) : Option (Nat × Nat) :=
  match e with
  | .tokenArrival st el _ _ _ => some (st, el)
  | .graphLoadReply fid => (kget s.gaccs fid).bind fun g =>
    if g.late || ((consistOf s g.part g.cid).bind fun c => c.acts.find? fun x => x.id == g.f.act && !x.ended).isNone then none
    else some (g.f.st, g.f.elem)
  | _ => none

/-- An event that waits because its tile stands still. -/
def heldBack (s : State) (e : Event) : Bool :=
  match tileEvent s e with
  | none => false
  | some (st, el) => match tileOwner s st with
    | none => false
    | some (pn, c) => tileStopped s pn c st el

/-- A cycle in which a tile stands still: what is under way in it is due a cycle later (R59 step 4). -/
def stallTile (s : State) (pn : Nat) (c : Consist) (st : Nat) : State :=
  let shift (x : Nat × Event) : Nat × Event :=
    match tileEvent s x.2 with
    | some (st', el) => if st' = st && tileStopped s pn c st el then (x.1 + 1, x.2) else x
    | none => x
  let s := { s with agenda := s.agenda.map shift }
  let s := modStn s st fun x =>
    { x with rtBusy := x.rtBusy.map fun b => if s.time < b.2.2 then (b.1, b.2.1, b.2.2 + 1) else b }
  modConsist s pn c.cid fun c =>
    { c with tiles := c.tiles.map fun t => if t.st = st then { t with stall := t.stall + 1 } else t,
             holds := c.holds.filter fun h => match h.released with | none => true | some r => decide (s.time < r + 32) }

/-! ### Tokens -/

/-- A data token, an empty token of a kind, and a marker's level. -/
def dataTok (pay : BitVec 256) (valid : BitVec 8) (act : BitVec 12) (iter seq : Half) : Token :=
  { pay := pay, fmt := 0, sc := false, kind := 0, seq := seq, iter := iter, act := act, valid := valid }
def kindTok (k : BitVec 4) (t : Token) : Token := { t with pay := 0, kind := k, valid := 0 }
def Token.lane (t : Token) (j : Nat) : Word := t.pay.extractLsb' (32 * j) 32
def packLanes (l : List Word) : BitVec 256 :=
  BitVec.ofNat 256 ((List.range 8).foldl (fun a j => a + (l.getD j 0).toNat * 2 ^ (32 * j)) 0)
/-- A marker of a level 1 to 7. -/
def Token.marker (t : Token) : Bool := decide (1 ≤ t.kind.toNat ∧ t.kind.toNat ≤ 7)
/-- The level a token closes: a marker's own, and above all of them for End-of-stream (R102). -/
def Token.closes (t : Token) : Nat := if t.kind = 9 then 8 else if t.marker then t.kind.toNat else 0
/-- The header of R100, with the payload below it: 40 bytes. -/
def Token.bytes (t : Token) : List Byte :=
  natLe 32 t.pay.toNat ++ natLe 8 (t.valid.toNat + t.act.toNat * 2 ^ 8 + t.iter.toNat * 2 ^ 20 + t.seq.toNat * 2 ^ 36 +
    t.kind.toNat * 2 ^ 52 + b2n t.sc * 2 ^ 56 + t.fmt.toNat * 2 ^ 57)

/-! ### Legs (R18 to R21, R115) -/

/-- The converter station of a side of the die of a tile; north is the side of larger y (R17, R115; log 112). -/
def convStation (st side : Nat) : Nat :=
  let lx := xOf st % 8
  let ly := yOf st % 8
  let dx := xOf st - lx
  let dy := yOf st - ly
  match side with
  | 0 => yOf st * 16 + dx + 7
  | 1 => yOf st * 16 + dx
  | 2 => (dy + 7) * 16 + xOf st
  | 3 => dy * 16 + xOf st
  | _ => (dy + 7 * (ly / 4)) * 16 + dx + 7 * (lx / 4)

/-- The logical number of a device in a partition's chain: members of DEVMASK below it (R447). -/
def logicalDev (s : State) (pn dev : Nat) : Nat := (List.range dev).countP fun i => bit (pfield (part s pn) 40 8) i
/-- The device with a logical number. -/
def deviceOf (s : State) (pn n : Nat) : Nat := ((List.range 64).filter fun i => bit (pfield (part s pn) 40 8) i).getD n 64

/-- The side of the die that faces a side. -/
def facing (side : Nat) : Nat := match side with | 0 => 1 | 1 => 0 | 2 => 3 | 3 => 2 | _ => side

/-- The converter of a leg at its own tile's die, and the other one of its pair on this device: that of the far tile's die, or a
coupler's. A converter is a place, a station or 256 + a coupler port, and a side (R18, R20; logs 111, 112). -/
def dieConv (g : Leg) : Nat × Nat := (convStation g.src g.side, g.side)
def otherConv (g : Leg) : Nat × Nat :=
  if g.kind = 0 then (convStation g.far (facing g.side), facing g.side) else (256 + g.coup.getD 0, 0)
/-- The pair's near and far converter: a leg from a peer or a unit comes in by its coupler. -/
def nearConv (g : Leg) : Nat × Nat := if g.kind = 3 then otherConv g else dieConv g
def farConv (g : Leg) : Nat × Nat := if g.kind = 3 then dieConv g else otherConv g

/-- A converter passes one token per cycle: the first cycle from now on in which it can, taken (R18). -/
def convPass (s : State) (q : Nat × Nat) : Nat × State :=
  let n := max s.time ((kget s.convs (8 * q.1 + q.2)).getD 0)
  (n, { s with convs := kput s.convs (8 * q.1 + q.2) (n + 1) })

def modLeg (s : State) (pn : Nat) (cid : Half) (id : Nat) (f : Leg → Leg) : State :=
  modConsist s pn cid fun c => { c with legs := c.legs.map fun x => if x.id = id then f x else x }

/-- A leg by its number, with its partition and consist. -/
def legOf (s : State) (id : Nat) : Option (Nat × Half × Leg) :=
  s.parts.findSome? fun p => p.2.consists.findSome? fun c => (c.legs.find? fun g => g.id == id).map fun g => (p.1, c.cid, g)

/-- The dynamic network's class between the converters of a leg's pair (R19, R22). -/
def legClass (g : Leg) : Nat := if g.kind = 0 then distClass g.src g.far else 360

/-- The near converter of a pair packs a token: its number, 24 cycles and the network (R19). -/
def legSend (s : State) (pn : Nat) (cid : Half) (g : Leg) (tok : Token) : State :=
  let c := convPass s (nearConv g)
  let d := draw c.2 (legClass g)
  let s := modLeg d.2 pn cid g.id fun x => { x with seq := x.seq + 1, unacked := x.unacked + 1 }
  let st := (dieConv g).1
  let s := match g.kind with
    | 1 => foldEvent s pn st (portCorner st) 1 (deviceOf s pn g.dev * 2 ^ 56) tok.bytes
    | 2 => foldEvent s pn st (portCorner st) 1 (ownDev s * 2 ^ 56) tok.bytes
    | _ => s
  later s (c.1 - s.time + 24 + d.1) (.converterToken g.id 0 g.seq tok s.time)

/-- A token reaches the near converter of a leg: it goes on when the leg is claimed and its window open; else it waits there and its
consist holds (R19 step 3, R116). -/
def legNear (s : State) (pn : Nat) (cid : Half) (g : Leg) (tok : Token) : State :=
  if g.dead then s
  else if !g.claimed || decide (64 ≤ g.unacked) || !g.held.isEmpty then
    applyHold (modLeg s pn cid g.id fun x => { x with held := x.held ++ [tok] }) pn cid g.src 16 4 g.id
  else legSend s pn cid g tok

/-- Tokens that waited at a near converter go on as far as its window allows; when none is left the hold for them ends. -/
def legFree (id : Nat) : Nat → State → State
  | 0, s => s
  | k + 1, s =>
    match legOf s id with
    | none => s
    | some (pn, cid, g) =>
      if !g.claimed || decide (64 ≤ g.unacked) then s
      else match g.held with
        | [] => releaseHold s pn cid 0 fun h => h.kind == 4 && h.key == id
        | t :: rest => legFree id k (legSend (modLeg s pn cid id fun x => { x with held := rest }) pn cid g t)

/-- A token of a leg to a peer leaves across the coupler, as the next of that pair (R20). -/
def legAcross (s : State) (pn : Nat) (cid : Half) (g : Leg) (tok : Token) (t : Nat) : State :=
  { modLeg s pn cid g.id (fun x => { x with seq2 := x.seq2 + 1, unacked2 := x.unacked2 + 1 }) with
    toPeer := s.toPeer ++ [(t, g.id, g.seq2, tok)] }

/-- A token past the far converter of its pair: into the far mesh, to the collective unit, or on across the coupler. A Drain token
goes no farther than the die's mesh (R101). -/
def legOut (s : State) (pn : Nat) (cid : Half) (g : Leg) (tok : Token) : State :=
  let c := convPass s (farConv g)
  let s := within c.2 (legClass g) (.converterAck g.id 0)
  let wait := c.1 - s.time
  match g.kind with
  | 1 => if tok.kind = 10 then s else legAcross s pn cid g tok c.1
  | 2 => if tok.kind = 10 then s
    else later s (wait + 1) (.collectiveTokenCombine g.far (logicalDev s pn (ownDev s)) g.id tok)
  | _ =>
    let dst := if g.kind = 0 then g.far else g.src
    later s (wait + hops dst (farConv g).1 + 1) (.tokenArrival dst g.elem g.slot g.port tok)

/-- Tokens of a pair's window leave its far converter in sequence order (R19 step 2), each acknowledged; on the way to a peer as long
as the pair beyond has room. -/
def legDrain (id : Nat) : Nat → State → State
  | 0, s => s
  | k + 1, s =>
    match legOf s id with
    | none => s
    | some (pn, cid, g) =>
      match g.window.find? fun t => t.1 == g.expect with
      | none => s
      | some (_, tok) =>
        if g.kind = 1 ∧ 64 ≤ g.unacked2 then s
        else
          let s := modLeg s pn cid id fun x => { x with expect := x.expect + 1, window := x.window.filter fun t => t.1 != g.expect }
          legDrain id k (legOut s pn cid g tok)

/-- Tokens of a peer, or of a collective unit, pass the coupler converter in sequence order into the pair on this device, as long as
that has room (R20). -/
def legIn (id : Nat) : Nat → State → State
  | 0, s => s
  | k + 1, s =>
    match legOf s id with
    | none => s
    | some (pn, cid, g) =>
      match g.window2.find? fun t => t.1 == g.expect2 with
      | none => s
      | some (_, tok) =>
        if 64 ≤ g.unacked then s
        else
          let s := modLeg s pn cid id fun x => { x with expect2 := x.expect2 + 1, window2 := x.window2.filter fun t => t.1 != g.expect2 }
          legIn id k (legSend s pn cid g tok)

/-- A token enters the static mesh on its way to the near converter of its leg (R18, R114). -/
def sendLeg (s : State) (g : Leg) (tok : Token) (l : Nat) : State :=
  if g.dead then s else later s (l + hops g.src (dieConv g).1 + 1) (.converterToken g.id 2 0 tok s.time)

/-- A token leaves a route end of a tile l cycles from now (R114). -/
def sendRoute (s : State) (st rt : Nat) (tok : Token) (l : Nat) : State :=
  match tileOwner s st with
  | none => s
  | some (_, c) =>
    match c.routes.find? fun r => r.src == st && r.rt == rt with
    | some r =>
      later s (l + r.hops + 1 + stallOf c r.dst - stallOf c st) (.tokenArrival r.dst r.elem r.slot r.port tok)
    | none =>
      match c.legs.find? fun g => g.src == st && g.rt == rt && g.kind != 3 with
      | some g => sendLeg s g tok l
      | none => s

/-- The fields of a destination (R110). -/
def destV (d : BitVec 16) : Bool := d.getLsbD 15
def destK (d : BitVec 16) : Bool := d.getLsbD 14
def destE (d : BitVec 16) : Nat := bits d.toNat 13 10
def destSlot (d : BitVec 16) : Nat := bits d.toNat 9 5
def destP (d : BitVec 16) : Bool := d.getLsbD 4

/-- The route ends that destinations name. -/
def endsOf (l : List (Half × Token)) : List Nat := l.filterMap fun y => if destV y.1 && destK y.1 then some (destE y.1) else none

/-- The first latency from n on at which every one of some route ends is free (fuel). -/
def freeEnd (x : Station) (now : Nat) (ends : List Nat) : Nat → Nat → Nat
  | 0, n => n
  | k + 1, n => if x.rtBusy.any fun b => ends.contains b.1 && b.2.2 == now + n then freeEnd x now ends k (n + 1) else n

/-- A token leaves for a destination l cycles from now. -/
def leaves (s : State) (st : Nat) (d : Half) (tok : Token) (l : Nat) : State :=
  if !destV d then s
  else if destK d then sendRoute s st (destE d) tok l
  else later s (l + 1) (.tokenArrival st (destE d) (destSlot d) (destP d) tok)

/-- A route end is taken in this cycle, for a token that leaves l cycles from now (R111). -/
def takeEnd (s : State) (st : Nat) (d : Half) (l : Nat) : State :=
  if destV d && destK d then modStn s st fun x =>
    { x with rtBusy := (x.rtBusy.filter fun b => s.time ≤ b.2.2) ++ [(destE d, s.time, s.time + l)] }
  else s

/-- A token for a destination l cycles from now, which takes its route end. -/
def sendTo (s : State) (st : Nat) (d : Half) (tok : Token) (l : Nat) : State := leaves (takeEnd s st d l) st d tok l

/-- A result that no schedule places, or a return token: at once where it only has local destinations, else at its element's next turn
in which all its route ends accept (R111, R308). -/
def sendLate (s : State) (st e : Nat) (l : List (Half × Token)) : State :=
  if (endsOf l).isEmpty then l.foldl (fun s y => leaves s st y.1 y.2 0) s
  else modElem s st e fun x => { x with late := x.late ++ [l] }

/-- The links of a route to a stopped tile hold four tokens each; with all of them taken its next token stays at its sender (R59 step
3; log 124). -/
def linkFull (s : State) (c : Consist) (st rt : Nat) : Bool :=
  match c.routes.find? fun r => r.src == st && r.rt == rt with
  | none => false
  | some r =>
    tileStopped s (((stn s st).owner.map (·.1)).getD 0) c r.dst r.elem &&
      decide (4 * r.hops ≤ s.agenda.countP fun e => match e.2 with
        | .tokenArrival dst el slot port _ => dst == r.dst && el == r.elem && slot == r.slot && port == r.port
        | _ => false)

/-- A destination can accept the result of a firing in this cycle, of latency l where a schedule places it (R58, R111, R19 step 3). -/
def canAccept (s : State) (c : Consist) (st : Nat) (d : Half) (l : Option Nat) : Bool :=
  if !destV d || !destK d then true
  else
    !((stn s st).rtBusy.any fun b => b.1 == destE d && (b.2.1 == s.time || l.any fun n => b.2.2 == s.time + n)) && !linkFull s c st (destE d) &&
    (match c.legs.find? fun g => g.src == st && g.rt == destE d && g.kind != 3 with
     | some g => g.dead || (g.claimed && g.unacked < 64)
     | none => true)

/-- An element's waiting results leave in order, each in a cycle in which its route ends are all free, ranking with the element's
firings; one behind another that waits for the same end waits too (R12, R111, R308). -/
def lateOut (s : State) (c : Consist) (st e : Nat) : State :=
  ((elemAt s st e).late.foldl (fun (z : State × List Nat) g =>
    let ends := endsOf g
    if ends.any fun rt => z.2.contains rt || linkFull z.1 c st rt ||
        (stn z.1 st).rtBusy.any fun b => b.1 == rt && (b.2.1 == s.time || b.2.2 == s.time) then (z.1, z.2 ++ ends)
    else
      (g.foldl (fun s y => sendTo s st y.1 y.2 0) (modElem z.1 st e fun x => { x with late := x.late.erase g }), z.2)) (s, [])).1

/-- The leg whose closed window makes a destination refuse (R19 step 3, R116). -/
def shutLeg (c : Consist) (st : Nat) (d : BitVec 16) : Option Leg :=
  if destV d && destK d then
    c.legs.find? fun g => g.src == st && g.rt == destE d && g.kind != 3 && !g.dead && (!g.claimed || 64 ≤ g.unacked)
  else none

/-! ### Frames (R64) -/

/-- The virtual address of a station's frame, when its pool lies inside engine segment 6. -/
def frameVa (s : State) (pn st i : Nat) : Option DWord :=
  let p := part s pn
  let g := vget (stn s st).eng 6
  let off := pfield p 168 8 + 32768 * p.posOf st
  if off + 32768 ≤ g.limit then some (BitVec.ofNat 64 (g.base + off + 128 * i)) else none

/-- Bytes written to a frame. -/
def frameWrite (s : State) (pn : Nat) (fr : FrameRef) (off : Nat) (l : List Byte) : State × Option DFault :=
  let g := vget (stn s fr.station).eng 6
  vwrite s fr.station pn (fr.va.toNat + off) l g.hashed g.pinned

/-- A free frame of a station's pool; which one is free (R64; log 45). -/
def frameTake (s : State) (pn st : Nat) : Option (FrameRef × State) :=
  let free := (List.range 256).filter fun i => !(stn s st).frames.getLsbD i
  if free.isEmpty then none
  else
    let d := draw s free.length
    let i := free.getD d.1 0
    (frameVa s pn st i).map fun va =>
      ({ va := va, station := st, index := i },
       modStn d.2 st fun x => { x with frames := x.frames ||| ((1 : BitVec 256) <<< i) })

/-- Waiting calls of a partition try again (R57, R64). -/
def wakeCalls (s : State) (pn : Nat) : State :=
  (part s pn).calls.foldl (fun s c => if c.load.isNone then later s 1 (.callWaitResume pn c.n) else s) s

/-- A frame returns to its pool. -/
def frameFree (s : State) (pn : Nat) (fr : FrameRef) : State :=
  wakeCalls (modStn s fr.station fun x => { x with frames := x.frames &&& ~~~((1 : BitVec 256) <<< fr.index) }) pn

/-- The CALLER word (R64). -/
def Caller.word : Caller → DWord
  | .thread t => t.setWidth 64
  | .graph _ cid act iter _ _ _ => BitVec.ofNat 64 (2 ^ 62 + act.toNat + iter.toNat * 2 ^ 12 + cid.toNat * 2 ^ 28)

/-- A frame written for a call: CALLER, CALLEE, STATUS, RETURN, arguments (R65 step 2). -/
def frameStart (s : State) (pn : Nat) (fr : FrameRef) (caller : Caller) (ptr ret : DWord) (args : List DWord) :
    State × Option DFault :=
  frameWrite s pn fr 0 (natLe 8 caller.word.toNat ++ natLe 8 ptr.toNat ++ natLe 8 0 ++ natLe 8 ret.toNat ++
    (padTo 8 0 args).flatMap fun a => natLe 8 a.toNat)

/-- The RETURN word of a graph caller (R64). -/
def retWord (st e : Nat) (d : BitVec 16) : DWord := BitVec.ofNat 64 (d.toNat + st * 2 ^ 16 + e * 2 ^ 24)

/-- What a graph sends from a station to another arrives within its class, and never before what left earlier for the same place
(R12, R22). -/
def netSend (s : State) (src dst : Nat) (l : List Event) : State :=
  let d := draw s (distClass src dst)
  let k := 256 * src + dst
  let n := max (s.time + 1 + d.1) ((kget s.netLast k).getD 0)
  l.foldl (fun s e => later s (n - s.time) e) { d.2 with netLast := kput d.2.netLast k n }

/-! ### The caller resumes (R65 step 7, R66, R308) -/

/-- The end of a call for its caller: returns, or a cause. -/
def resumeCaller (s : State) (pn : Nat) (caller : Caller) (fr : FrameRef) (r : Except Byte (DWord × DWord)) : State :=
  match caller with
  | .thread t =>
    match getThr s t with
    | none => frameFree s pn fr
    | some th =>
      match th.gcall with
      | none => frameFree s pn fr
      | some g =>
        if g.frame.va ≠ fr.va ∨ th.st.live = false ∨ th.ending.isSome then frameFree s pn fr
        else
          let s := acquire s th
          let th := { (getThr s t).getD th with gcall := none, wait := none }
          match r with
          | .ok (r0, r1) =>
            frameFree (makeReady s { wgN (wgN th 1 r0) 2 r1 with pc := g.pc + 4 }) pn fr
          | .error c =>
            makeReady s (pendTrap { th with faultFrame := some fr }
              { cause := 0x1E, epc := g.pc, mpc := g.pc, faddr := fr.va, finfo := BitVec.ofNat 64 (3 + c.toNat * 256) })
  | .graph _ _ act iter st e dest =>
    let tok : Token := match r with
      | .ok (r0, r1) =>
        dataTok (packLanes [r0.truncate 32, r0.extractLsb' 32 32, r1.truncate 32, r1.extractLsb' 32 32]) 0x0F act iter 0
      | .error c => { dataTok (packLanes [c.setWidth 32]) 0 act iter 0 with kind := 11 }
    frameFree (netSend s fr.station st [.returnTokenArrival st e dest tok]) pn fr

/-! ### Activations (R57, R60, R67, R68) -/

def actOf (c : Consist) (a : BitVec 12) : Option Act := c.acts.find? fun x => x.id == a && !x.ended
def modAct (s : State) (pn : Nat) (cid : Half) (a : BitVec 12) (f : Act → Act) : State :=
  modConsist s pn cid fun c => { c with acts := c.acts.map fun x => if x.id = a then f x else x }

/-- Tokens that wait for room enter a matching store in arrival order; when none is left the hold for the full store ends in the
next cycle (R59, R106). -/
def enterWaiting (s : State) (pn : Nat) (cid : Half) (st e : Nat) : State :=
  let n := 64 - (elemAt s st e).store.length
  let s := if (elemAt s st e).link.isEmpty then s
    else modElem s st e fun x => { x with store := x.store ++ x.link.take n, link := x.link.drop n }
  if (elemAt s st e).link.isEmpty then releaseHold s pn cid 1 fun h => h.st == st && h.elem == e && h.kind == 1 else s

/-- A token of an ended activation keeps its place in a pair's sequence, and goes no farther than the end of it. -/
def voided (a : BitVec 12) (t : Token) : Token := if t.act = a then { t with kind := 10 } else t
/-- The packets of a consist's legs, with an activation's tokens in them voided. -/
def voidPackets (s : State) (c : Consist) (a : BitVec 12) : State :=
  let void (e : Event) : Event := match e with
    | .converterToken id k n t t0 => if c.legs.any (fun g => g.id == id) then .converterToken id k n (voided a t) t0 else e
    | _ => e
  { s with agenda := s.agenda.map fun e => (e.1, void e.2) }

/-- The stores and link buffers of a consist's tiles, token by token. -/
def modElems (s : State) (c : Consist) (f : Elem → Elem) : State :=
  c.tiles.foldl (fun s t => (List.range 16).foldl (fun s e =>
    if t.elems.getLsbD e then modElem s t.st e f else s) s) s

/-- The requests of graph nodes' accesses are withdrawn wherever they are (R302, R67). -/
def nodeWithdraw (s : State) (fids : List Nat) : State :=
  let of (r : Req) : Bool := match r.who with | .graph n _ => fids.contains n | _ => false
  { s with waits := s.waits.filter (fun r => !of r), reqs := s.reqs.filter (fun r => !of r.2),
           rsv := s.rsv.map fun e => (e.1, { e.2 with queue := e.2.queue.filter fun r => !of r }) }

/-- The accesses of an activation that ends: its presence requests are withdrawn, its lanes that met a page fault are not tried again, and
what it has under way as loads and stores is performed (R67). -/
def discardAccs (s : State) (pn : Nat) (cid : Half) (a : BitVec 12) : State :=
  let mine := s.gaccs.filter fun g => g.2.part == pn && g.2.cid == cid && g.2.f.act == a
  let pres := (mine.filter fun g => match g.2.kind with | .take => true | .put => true | _ => false).map (·.1)
  let gone := pres ++ (mine.filter fun g => !g.2.faulted.isEmpty && g.2.left.isEmpty).map (·.1)
  let fids := mine.map (·.1)
  let s := nodeWithdraw { s with gaccs := s.gaccs.filter fun g => !gone.contains g.1 } pres
  let s := { s with gaccs := s.gaccs.map fun g => (g.1, if fids.contains g.1 then { g.2 with faulted := [], news := [] } else g.2) }
  releaseHold s pn cid 0 fun h => h.kind == 0 && fids.contains h.key

/-- An activation's tokens are discarded wherever they are (R67 step 2). -/
def discardAct (s : State) (pn : Nat) (c : Consist) (a : BitVec 12) : State :=
  let s := modElems s c fun x =>
    { x with store := x.store.filter (·.tok.act != a), link := x.link.filter (·.tok.act != a),
             pairs := x.pairs.filter (·.act != a), late := x.late.filter fun g => g.all fun y => y.2.act != a }
  let mine (st : Nat) : Bool := c.tiles.any fun t => t.st == st
  let s := unplan s fun e => match e with
    | .tokenArrival st _ _ _ t => mine st && t.act == a
    | .converterToken id 2 _ t _ => t.act == a && c.legs.any fun g => g.id == id
    | .returnTokenArrival st _ _ t => mine st && t.act == a
    | _ => false
  let s := discardAccs (voidPackets s c a) pn c.cid a
  let s := modConsist s pn c.cid fun c =>
    { c with legs := c.legs.map fun g =>
               { g with window := g.window.map fun t => (t.1, voided a t.2), window2 := g.window2.map fun t => (t.1, voided a t.2)
                        held := g.held.filter fun t => t.act != a } }
  let s := c.legs.foldl (fun s g => legFree g.id 64 s) s
  c.tiles.foldl (fun s t => (List.range 16).foldl (fun s e =>
    if t.elems.getLsbD e then enterWaiting s pn c.cid t.st e else s) s) s

/-- Accesses of an activation still under way: its id stays taken (R57). -/
def actBusy (s : State) (pn : Nat) (cid : Half) (a : BitVec 12) : Bool :=
  s.gaccs.any fun g => g.2.part == pn && g.2.cid == cid && g.2.f.act == a

/-- The launch that an ended activation belongs to looks whether it is finished (R414). -/
def wakeLaunch (s : State) (pn : Nat) (c : Consist) (a : BitVec 12) : State :=
  match (c.acts.find? fun x => x.id == a && x.ended).bind (·.launch) with
  | some n => later s 1 (.launchStart pn n)
  | none => s

/-- An ended activation's id returns once nothing of it is left, and waiting calls go on (R57); a pending free may complete
(R313). -/
def reapAct (s : State) (pn : Nat) (cid : Half) (a : BitVec 12) : State :=
  match consistOf s pn cid with
  | none => s
  | some c =>
    let s := wakeLaunch s pn c a
    if c.acts.any (fun x => x.id == a && x.ended) && !actBusy s pn cid a then
      let s := modConsist s pn cid fun c => { c with acts := c.acts.filter fun x => !(x.id == a && x.ended) }
      let s := wakeCalls s pn
      match consistOf s pn cid with
      | some c => if c.freePending && c.acts.isEmpty then within s (200 + 64 * c.tiles.length) (.consistFreeComplete pn cid) else s
      | none => s
    else s

/-- An activation ends: the frame is written, its tokens are discarded, its caller resumes (R60, R67, R68). In a frozen consist it
ends with WATCHDOG (R313). -/
def endAct (s : State) (pn : Nat) (cid : Half) (a : Act) (r : Except Byte (DWord × DWord)) (fault : List Byte) : State :=
  match consistOf s pn cid with
  | none => s
  | some c =>
    let r := match r with | .error e => .error (if c.frozen then 0x16 else e) | .ok v => .ok v
    let s := match r with
      | .ok (r0, r1) =>
        let s := (frameWrite s pn a.frame 96 (natLe 8 r0.toNat ++ natLe 8 r1.toNat)).1
        (frameWrite s pn a.frame 16 (natLe 8 1)).1
      | .error cause =>
        let s := (frameWrite s pn a.frame 112 (padTo 16 0 fault)).1
        (frameWrite s pn a.frame 16 (natLe 8 (2 + cause.toNat * 256))).1
    let s := discardAct s pn c a.id
    let s := modAct s pn cid a.id fun x => { x with ended := true }
    let s := resumeCaller s pn a.caller a.frame r
    reapAct s pn cid a.id

/-- A fault inside an activation (R67): station, element, slot, iteration and address stand in the frame. -/
def faultAct (s : State) (pn : Nat) (cid : Half) (a : BitVec 12) (cause : Byte) (st e slot : Nat) (iter : Half) (va : DWord) :
    State :=
  match (consistOf s pn cid).bind (actOf · a) with
  | none => s
  | some x =>
    endAct s pn cid x (.error cause)
      (natLe 1 st ++ natLe 1 (e * 16) ++ natLe 1 slot ++ natLe 1 0 ++ natLe 2 iter.toNat ++ natLe 2 0 ++ natLe 8 va.toNat)

/-- An activation ends when its RETURN has fired, or else every SINK slot holds End-of-stream, and no store of it is left (R60,
R68, R308). A frozen consist's frame write waits for the thaw (R316). -/
def checkAct (s : State) (pn : Nat) (cid : Half) (a : BitVec 12) : State :=
  match (consistOf s pn cid).bind fun c => (actOf c a).map fun x => (c, x) with
  | none => s
  | some (c, x) =>
    if x.acks ≠ 0 ∨ c.frozen then s
    else match x.ret with
      | some r => endAct s pn cid x (.ok r) []
      | none =>
        let sinks := slotsWith s c fun w => w.op == .sink
        if sinks.isEmpty || !(slotsWith s c fun w => w.op == .ret).isEmpty then s
        else if sinks.all fun k => x.sinks.contains (k.1 * 512 + k.2.1 * 32 + k.2.2) then endAct s pn cid x (.ok (0, 0)) []
        else s

/-- A new activation: the lowest free id, and the frame's address on its way to every ARG slot, tile by tile (R57, R65 step 5). -/
def startAct (s : State) (pn : Nat) (c : Consist) (caller : Caller) (fr : FrameRef) (fromSt : Nat) (launch : Option Nat) :
    Option State :=
  match (List.range 4096).find? fun i => !(c.acts.any fun x => x.id.toNat == i) with
  | none => none
  | some i =>
    let a := BitVec.ofNat 12 i
    let s := modConsist s pn c.cid fun c =>
      { c with acts := c.acts ++ [{ id := a, frame := fr, caller := caller, launch := launch }], lastStart := some s.time }
    let tok := dataTok (packLanes [fr.va.truncate 32, fr.va.extractLsb' 32 32]) 0x03 a 0 0
    let args := slotsWith s c fun w => w.op == .arg
    some (c.tiles.foldl (fun s t =>
      match args.filter fun k => k.1 == t.st with
      | [] => s
      | l => netSend s fromSt t.st (l.map fun k => .tokenArrival k.1 k.2.1 k.2.2 false tok)) s)

/-! ### Calls (R65 steps 4 to 6, R57, R313, R442) -/

def dropCall (s : State) (pn n : Nat) : State := modPart s pn fun p => { p with calls := p.calls.filter (·.n != n) }

/-- A call fails at its load: the frame says why (R65 step 4). -/
def callFailed (s : State) (pn : Nat) (w : CallWait) (cause : Byte) (va : DWord) : State :=
  match w.frame with
  | none => dropCall s pn w.n
  | some fr =>
    let s := (frameWrite s pn fr 112 (natLe 8 0 ++ natLe 8 va.toNat)).1
    let s := (frameWrite s pn fr 16 (natLe 8 (2 + cause.toNat * 256))).1
    resumeCaller (dropCall s pn w.n) pn w.caller fr (.error cause)

/-- Bytes of an image, through the segment that named it; a graph call names it by address alone (R312, R320). -/
def imgRead (s : State) (pn : Nat) (l : Load) (off n : Nat) : State × Except DFault (List Byte) :=
  let va := l.va.toNat + off
  let g := l.seg
  if l.forCall.isNone && decide (g.base + g.limit < va + n) then (s, .error { cause := 0x03, addr := BitVec.ofNat 64 va })
  else if g.isLocal then (s, .ok (rdL s (localKey pn l.station va) n))
  else if g.type = 2 then (s, .ok (rdL s (tileKey l.station (bits va 18 15) (va % 2 ^ 15)) n))
  else vread s l.station pn va n g.hashed g.pinned

/-- The header of an image as it stands, for what must be known before the image is read. -/
def imgPeek (s : State) (pn : Nat) (l : Load) : Except DFault (List Byte) :=
  (imgRead { s with walked := (clusterOf l.station, pn, l.va.toNat / 4096) :: s.walked } pn l 0 64).2

/-- A load's bound: 800 cycles, 4 for each 64 bytes of the image, 64 for each tile, and the class of its address (R312). -/
def loadTime (s : State) (pn : Nat) (l : Load) : Nat :=
  let cls := if l.seg.isLocal || l.seg.type == 2 then 40 else distClass l.station (homeOf s pn l.va.toNat l.seg.hashed)
  800 + cls + (match imgPeek s pn l with
    | .ok h => 4 * cdiv (field h 36 4) 64 + 64 * field h 8 1
    | .error _ => 0)

/-- A load of an image put on its way (R312). -/
def startLoad (s : State) (pn : Nat) (va : DWord) (g : Seg) (issuer : Word) (st : Nat) (forCall : Option Nat) : State × Nat :=
  let id := freshId s
  let l : Load := { n := id.1, part := pn, va := va, seg := g, issuer := issuer, station := st, forCall := forCall }
  (within (modPart id.2 pn fun p => { p with loads := p.loads ++ [l] }) (loadTime s pn l) (.consistLoad pn id.1), id.1)

/-- A call with its frame goes on: it loads its consist, waits, or starts its activation. -/
def callGo (s : State) (pn : Nat) (w : CallWait) : State :=
  let keep (s : State) (w : CallWait) : State :=
    modPart s pn fun p =>
      { p with calls := if p.calls.any (·.n == w.n) then p.calls.map fun x => if x.n = w.n then w else x else p.calls ++ [w] }
  match w.frame with
  | none => s
  | some fr =>
    let va := BitVec.ofNat 64 (bits w.ptr.toNat 55 0)
    match (part s pn).consists.find? fun c => c.image == va || w.cid == some c.cid with
    | some c =>
      if c.freePending then keep s w
      else if (slotsWith s c fun x => x.op == .arg).isEmpty then callFailed s pn w 0x14 0
      else
        let due := match c.lastStart with
          | some t => if (part s pn).timed && c.cwcl != 0 then t + c.cint else 0
          | none => 0
        if s.time < due then later (keep s w) (due - s.time) (.activationInterval pn c.cid)
        else match startAct s pn c w.caller fr w.station w.launch with
          | none => keep s w
          | some s =>
            let s := dropCall s pn w.n
            match w.caller with
            | .thread t => modThr s t fun th => { th with wait := none }
            | .graph _ _ _ _ _ _ _ => s
    | none =>
      match (part s pn).loads.find? fun l => l.va == va with
      | some l => keep s { w with load := some l.n }
      | none =>
        let g := vget (stn s w.station).eng 6
        let r := startLoad s pn va { g with desc := g.desc &&& ~~~((3 : BitVec 128) <<< 115) } 0 w.station (some w.n)
        keep r.1 { w with load := some r.2 }

/-- A waiting call tries again (R57): it takes its frame first when it has none. -/
def callAgain (s : State) (pn : Nat) (w : CallWait) : State :=
  match w.frame with
  | some _ => callGo s pn w
  | none =>
    match frameTake s pn w.station with
    | none => s
    | some (fr, s) =>
      let ret := match w.caller with
        | .thread t => ((getThr s t).map fun th => th.pc + 4).getD 0
        | .graph _ _ _ _ st e d => retWord st e d
      let r := frameStart s pn fr w.caller w.ptr ret w.args
      let s := match w.caller with
        | .thread t => modThr r.1 t fun th => { th with gcall := some { frame := fr, pc := th.pc } }
        | .graph _ _ _ _ _ _ _ => r.1
      match r.2 with
      | some f => callFailed s pn { w with frame := some fr } f.cause f.addr
      | none => callGo s pn { w with frame := some fr }

/-! ### Matching stores (R105 to R108) -/

/-- Ports of an op keyed by SEQ as well (R273, R276). -/
def sequenced (w : RoszonWord) (port : Bool) : Bool :=
  match w.op with
  | .reduce => !port
  | .rowstat => !port
  | .delay => true
  | .sink => !port
  | .tileput => !port
  | _ => false

/-- Data tokens of one group, from a place of its sequence on as far as the places are filled (R298). -/
def groupRun (here : List Token) (lvl : Nat) : Nat → Half → Nat → Nat
  | 0, _, n => n
  | k + 1, at_, n => match here.find? fun y => y.seq == at_ with
    | none => n
    | some y => if lvl ≤ y.closes then n else groupRun here lvl k (at_ + 1) (if y.kind = 0 then n + 1 else n)

/-- A group of a DELAY pair holds more data tokens than its capacity: the one in hand, or one that begins behind a closing token in the
store (R298). -/
def delayOverflow (x : Elem) (w : RoszonWord) (slot : Nat) (t : Token) : Bool :=
  if w.op = .delay then
    let p := x.pairs.find? fun p => p.slot == slot && p.act == t.act && p.iter == t.iter
    let here := ((x.store ++ x.link).filter fun y => y.slot == slot && !y.port && y.tok.act == t.act && y.tok.iter == t.iter).map (·.tok)
    let lvl := bits w.imm.toNat 2 0
    let starts : List (Half × Nat) := ((p.map (·.next)).getD 0, (p.map (·.left)).getD 0) ::
      (here.filter fun y => lvl ≤ y.closes).map fun y => (y.seq + 1, 0)
    starts.any fun b => decide (bits w.imm.toNat 7 3 + 1 < groupRun here lvl here.length b.1 b.2)
  else false

/-- A control token of a CVT slot: the fault it causes, or none (R151). -/
def cvtControlFault (s : State) (st : Nat) (w : RoszonWord) (t : Token) : Bool :=
  let rule := bits (t.lane 0).toNat 5 4
  let dst := bits w.imm.toNat 3 0
  let ty := if dst < 8 then tyOfCode dst else fdTy (vget (stn s st).fd (dst - 8)).toNat
  decide (6 ≤ bits (t.lane 0).toNat 2 0) || rule == 3 || (rule == 1 && ty.isFp)

/-- A CVT slot's setting replaced by a control token, on its arrival (R151). -/
def cvtControl (s : State) (st e slot : Nat) (t : Token) : State :=
  modElem s st e fun x =>
    { x with cvt := x.cvt ++ [{ slot := slot, iter := t.iter, mode := (t.lane 0).extractLsb' 0 3, rule := (t.lane 0).extractLsb' 4 2 }] }

/-- A token enters a matching store; without room it waits for it, and its element holds the consist (R59, R106). -/
def putEntry (s : State) (pn : Nat) (cid : Half) (st e : Nat) (y : Ent) : State :=
  let x := elemAt s st e
  if 64 ≤ x.store.length ∨ !x.link.isEmpty then
    applyHold (modElem s st e fun x => { x with link := x.link ++ [y] }) pn cid st e 1 0
  else modElem s st e fun x => { x with store := x.store ++ [y] }

/-- A token that a port discards (R101, R151). -/
def dropsToken (w : RoszonWord) (port : Bool) (t : Token) : Bool :=
  t.kind == 10 || (w.op == .cvt && port && !(t.kind == 0 && t.valid.getLsbD 0))

/-- A slot that holds no op: a token for it is taken, and stays (R106). -/
def noOp : RoszonWord := { op := .pass, mod := 0, d0 := 0, d1 := 0, imm := 0 }

/-- A token reaches a port of a slot (R101, R106, R107, R298). -/
def arrive (s : State) (st e slot : Nat) (port : Bool) (t : Token) : State :=
  match tileOwner s st with
  | some (pn, c) =>
    let w := (slotWord s st e slot).getD noOp
    if (actOf c t.act).isNone then s
    else
      let x := elemAt s st e
      let fault (cause : Byte) : State := faultAct s pn c.cid t.act cause st e slot t.iter 0
      let same (y : Ent) : Bool := y.slot == slot && y.port == port && y.tok.act == t.act && y.tok.iter == t.iter &&
        (!sequenced w port || y.tok.seq == t.seq)
      if t.kind = 11 then
        let v := (t.lane 0).truncate 8
        fault (if v = 0 ∨ 0x25 ≤ v.toNat then 0x1D else v)
      else if 12 ≤ t.kind.toNat then fault 0x1D
      else if dropsToken w port t then s
      else if (x.store ++ x.link).any same then fault 0x1D
      else if w.op == .cvt && port && cvtControlFault s st w t then fault 0x14
      else
        let y : Ent := { tok := t, slot := slot, port := port, arr := s.time }
        let s := putEntry (if w.op == .cvt && port then cvtControl s st e slot t else s) pn c.cid st e y
        if delayOverflow (elemAt s st e) w slot t then faultAct s pn c.cid t.act 0x21 st e slot t.iter 0 else s
  | none => s

/-- A pair of converters finds the agent beyond one of them dead: it serves the leg no more, and every activation of its consist meets
a Fault, at the route that it feeds here or, where it feeds none, at once (R21, R69). -/
def killLeg (s : State) (pn : Nat) (cid : Half) (g : Leg) : State :=
  let s := modLeg s pn cid g.id fun x =>
    { x with dead := true, window := [], window2 := [], held := [], unacked := 0, unacked2 := 0 }
  let s := releaseHold s pn cid 0 fun h => h.kind == 4 && h.key == g.id
  match consistOf s pn cid with
  | none => s
  | some c => (c.acts.filter fun a => !a.ended).foldl (fun s a =>
      if g.kind = 1 ∨ g.kind = 2 then faultAct s pn cid a.id 0x0A g.src 0 0 0 0
      else later s 1 (.tokenArrival (if g.kind = 0 then g.far else g.src) g.elem g.slot g.port
        { dataTok (packLanes [0x0A]) 0 a.id 0 0 with kind := 11 })) s

end Sys2Proof.Machine
end

