-- ==== Sys2Proof/Machine/Ops.lean ====
section
/-! DEFINITION. Shared operations of the instructions: taking an exception (R483) and the return from one (R484), the wait marker
(R35, R481), the end of a thread (R406), the end of a long operation (R35), entry to a core's queues (R38, R46, R47), streams at
vector registers (R76, R387), and the frame of every Porlek instruction's meaning. -/

namespace Sys2Proof.Machine

/-! ### Entry to a core's queues (R46, R47) -/

/-- The head of the arrival queue may enter the run queue, in the next cycle that begins a rotation (R514). -/
def pumpArrivals (s : State) (st : Nat) : State :=
  if (stn s st).arrq.isEmpty || (s.agenda.any fun e => e.2 == .runQueueEntry st) then s
  else later s (16 - s.time % 16) (.runQueueEntry st)

def modLaunch (s : State) (pn n : Nat) (f : Launch → Launch) : State :=
  modPart s pn fun p => { p with launches := p.launches.map fun l => if l.n = n then f l else l }

/-- An entry of the certificate table: C in cycles (R471). -/
def certOf (s : State) (p : Partition) (i : Nat) : Nat := physN s (memKey s (pfield p 136 8 + 16 * i) + 8) 8

/-- A packet has entered a hardware entry of its core: that of a launch starts the launch's budget (R444). -/
def launchEnters (s : State) (k : Packet) : State :=
  let pn := tidPart k.tid
  match (part s pn).launches.find? fun l => l.state == 1 && !l.entered && l.root == k.tid with
  | none => s
  | some l =>
    let s := modLaunch s pn l.n fun l => { l with entered := true, start := s.time }
    if l.timed then later s (certOf s (part s pn) l.cert) (.budgetExpiry pn l.n) else s

/-- A packet takes its place at a core: a hardware entry when one is free and the spill ring empty, else the ring's tail (R47). -/
def queuePacket (s : State) (st : Nat) (k : Packet) : State :=
  let x := stn s st
  if x.arrq.length < x.arrcap && x.spill.isEmpty then
    pumpArrivals (launchEnters (modStn s st fun x => { x with arrq := x.arrq ++ [k] }) k) st
  else pumpArrivals (modStn s st fun x => { x with spill := x.spill ++ [k] }) st

/-- The router holds packets for a core in front of the one numbered n, or the spill ring of 1,024 is full (R47 step 5). -/
def ringShut (s : State) (st n : Nat) : Bool :=
  decide (1024 ≤ (stn s st).spill.length) || s.pkts.any fun e => e.2.way == 2 && e.2.target.toNat == st && decide (e.1 < n)

/-- A packet reaches a core, or is held by its router until the ring has room (R47). -/
def arrivePacket (s : State) (st : Nat) (k : Packet) : State :=
  if ringShut s st s.fresh then
    let id := freshId s
    later { id.2 with pkts := kput id.2.pkts id.1 { k with way := 2, target := BitVec.ofNat 16 st, foot := [] } } 1 (.migrationArrival id.1)
  else queuePacket s st k

/-- A packet sent earlier from the same station to the same one is still under way (R12). -/
def packetAhead (s : State) (n : Nat) (k : Packet) : Bool :=
  s.pkts.any fun e => decide (e.1 < n) && e.2.way == 0 && e.2.source == k.source && e.2.target == k.target

/-- A packet sent from a station to another: R48's class bounds its travel. -/
def sendPacket (s : State) (a b pn : Nat) (k : Packet) (e : Nat → Event) : State :=
  let id := freshId s
  let s := { id.2 with pkts := kput id.2.pkts id.1 { k with source := a } }
  let s := if a = b then s else foldEvent s pn a b 1 (ownDev s * 2 ^ 56 + b) (natLe 8 k.pcsw.toNat ++ natLe 8 k.pw.toNat ++
    k.g.flatMap (fun x => natLe 8 x.toNat) ++ natLe 4 k.tid.toNat)
  startWithin s pn (distClass a b) (e id.1)

/-! ### The end of a thread (R55, R66, R406, R408, R429) -/

/-- The outcome word of JOIN (R408). -/
def joinWord (th : Thread) : DWord :=
  match th.st with
  | .exited => BitVec.ofNat 64 (1 * 2 ^ 60 + th.exitCode.toNat % 2 ^ 32)
  | .faulted => BitVec.ofNat 64 (2 * 2 ^ 60 + th.endCause.toNat * 2 ^ 32)
  | .killed => BitVec.ofNat 64 (3 * 2 ^ 60)
  | .lost => BitVec.ofNat 64 (4 * 2 ^ 60)
  | _ => 0

/-- A JOIN of a thread in this mode reaps the record: that of a LOST thread is reaped by a supervisor (R37, R408). -/
def reaps (th : Thread) (sup : Bool) : Bool := th.st != .lost || sup

/-- Every JOIN parked on a thread is released with its outcome, and its record is reaped (R408). -/
def releaseJoins (s : State) (t : Word) : State :=
  match getThr s t with
  | none => s
  | some th =>
    let w := s.threads.filter fun e => match e.2.wait with
      | some { on := .join c _, pc := _, id := _, since := _, retry := _ } => c == t
      | _ => false
    if w.isEmpty then s
    else
      let s := w.foldl (fun s e => match e.2.wait with
        | some { on := .join _ d, pc := _, id := _, since := _, retry := _ } =>
          wakeThr s { wg e.2 d (joinWord th) with pc := e.2.pc + 4 }
        | _ => s) s
      if w.any fun e => reaps th e.2.sup then { s with threads := kdel s.threads t.toNat } else s

/-- Stream ends at a thread's vector registers are unbound; the port's other end is kept (R388). -/
def unbindThread (s : State) (st : Nat) (t : Word) : State :=
  let keep (e : Option PEnd) : Option PEnd := match e with
    | some x => if x.kind = 0 ∧ x.tid = t then none else some x
    | none => none
  modStn s st fun x => { x with ports := x.ports.map fun p => { p with prod := keep p.prod, cons := keep p.cons } }

/-- The monitors of a thread are disarmed (R405, R406, R417). -/
def disarmAll (s : State) (th : Thread) : State × Thread :=
  ({ s with arms := s.arms.filter fun a => a.tid != th.tid }, { th with mon := Vector.replicate 4 {} })

/-- The reservation a thread holds is released, its word unchanged (R406). -/
def dropReservations (s : State) (t : Word) : State :=
  let strip (e : Nat × Rsv) : Nat × Rsv := (e.1, { e.2 with queue := e.2.queue.filter fun r =>
    !(r.kind == .rsv && r.who.tid == some t) })
  let s := { s with rsv := s.rsv.map strip }
  (s.rsv.filter fun e => e.2.holder == some t).foldl (fun s e => releaseRsv s e.1) s

/-- The footprint's copies are unpinned and their storage returned (R50, R406). -/
def unpin (s : State) (th : Thread) : State × Thread :=
  let n := (th.foot.map (·.len)).sum
  let pn := tidPart th.tid
  if n = 0 then (s, th)
  else (modPart s pn fun p => { p with foot := kput p.foot (tidHome th.tid) (((kget p.foot (tidHome th.tid)).getD 0) - n) },
        { th with foot := [] })

/-- The activation that a thread's graph call started is aborted, or its waiting call dropped (R67). -/
def abortCall (s : State) (th : Thread) (cause : Byte) : State :=
  match th.gcall with
  | none => { s with parts := s.parts.map fun e => (e.1, { e.2 with calls := e.2.calls.filter fun w =>
      match w.caller with | .thread t => !(t == th.tid) | _ => true }) }
  | some g =>
    let pn := tidPart th.tid
    match (part s pn).consists.findSome? fun c => (c.acts.find? fun a => a.frame.va == g.frame.va && !a.ended).map fun a => (c, a) with
    | some (c, a) => endAct s pn c.cid a (.error cause) []
    | none =>
      let s := modPart s pn fun p => { p with calls := p.calls.filter fun w => w.frame != some g.frame }
      frameFree s pn g.frame

/-- A callout thread's end: its returns, or a Fault token, go to the CALLOUT, and the frame is freed (R66). -/
def calloutReturn (s : State) (th : Thread) (r : Except Byte (DWord × DWord)) : State :=
  match th.coframe, th.cocall with
  | some fr, some c =>
    let pn := tidPart th.tid
    let s := match r with
      | .ok (r0, r1) =>
        let s := (frameWrite s pn fr 96 (natLe 8 r0.toNat ++ natLe 8 r1.toNat)).1
        (frameWrite s pn fr 16 (natLe 8 1)).1
      | .error _ => s
    resumeCaller s pn c fr r
  | _, _ => s

/-- Reports that wait for room in an ended thread's mailbox go on to the supervisor (R70, R421). -/
def passReports (s : State) (t : Word) : State :=
  let pn := tidPart t
  let l := (part s pn).reports.filter fun x => x.1 == t
  l.foldl (fun s x => sendMsg s none (part s pn).supervisor { x.2 with step := none } (tidHome t))
    (modPart s pn fun p => { p with reports := p.reports.filter fun x => x.1 != t })

/-- The cause that an activation or a callout of an ended thread meets: the thread's own fault; a kill's; a lost thread's is that of its
dead station, or CTX_LOST (R67, R444, R501). -/
def endCauseOf (s : State) (th : Thread) (final : TState) : Byte := match final with
  | .faulted => th.endCause
  | .lost => if (stn s th.station).dead then 0x0A else 0x1F
  | _ => 0x18

/-- A launch keeps the first end that an ERROR frame has to answer: its root's by a fault, or a thread's by a dead agent (R444, log
130). -/
def noteEnd (s : State) (th : Thread) (final : TState) : State :=
  let c := endCauseOf s th final
  match th.launch with
  | none => s
  | some n => modLaunch s (tidPart th.tid) n fun l =>
      if l.cause.isNone && (final == .faulted || final == .lost) && (c == 0x0A || l.root == th.tid) then { l with cause := some c } else l

/-- The end of a thread once its stores are performed: everything it holds is returned, then the record shows its state. -/
def finishEnd (s : State) (t : Word) : State :=
  match getThr s t with
  | none => s
  | some th =>
    let final := th.ending.getD .killed
    let pn := tidPart t
    let mark := final != .exited
    let s := dropReservations s t
    let s := th.rakes.foldl (fun s id => rakeLeave s pn t id mark) s
    let th := (getThr s t).getD th
    let u := unpin s th
    let s := unbindThread u.1 th.station t
    let m := disarmAll s u.2
    let s := returnTickets m.1 t
    let s := abortCall s th (endCauseOf s th final)
    let s := match th.faultFrame with | some fr => frameFree s pn fr | none => s
    let s := if th.co then
        calloutReturn s th (match final with
          | .exited => .ok (th.g[1], th.g[2])
          | _ => .error (endCauseOf s th final))
      else s
    let s := setThr s { m.2 with st := final, ending := none, ops := [], kept := [], cur := none, pend := none, pends := [], wait := none,
                                 gcall := none, faultFrame := none, coframe := none, cocall := none }
    let s := passReports s t
    let s := if final = .faulted then supReport s pn th.endCause.toNat 0 th.station t th.faddr.toNat th.epc.toNat 0
      else if final = .lost then supReport s pn 0x1F 1 th.station t th.exitCode.toNat th.epc.toNat 0 else s
    let s := releaseJoins (noteEnd s th final) t
    let s := match th.launch with | some n => later s 1 (.launchStart pn n) | none => s
    pumpArrivals s th.station

/-- A kind that an ending thread withdraws on its way: one that would change something at its home, or wait there (R496). -/
def AccKind.withdrawn : AccKind → Bool
  | .readf => true | .arm _ => true | k => k.writes

/-- A thread begins to end: its waits are withdrawn, and a message that it has sent and that no mailbox has answered; its stores are sent
home; the end follows when they are performed, and when a CTXSV or CTXLD of its own has ended (R406, R496, R509). -/
def beginEnd (s : State) (th : Thread) (final : TState) (cause : Byte) (code : DWord) : State :=
  let t := th.tid
  let stores (o : LongOp) : Bool := !o.done && (o.ctx.isSome || match o.acc with
    | some a => match a.kind with
      | .write => true | .rls => true | .amo _ => true | .pset => true | .pclr => true | _ => false
    | none => false)
  let ops := th.ops.filter stores
  let mine (r : Req) : Bool := match r.who with
    | .thread t' op _ => t' == t && !(ops.any fun o => o.id == op)
    | _ => false
  let s := { s with waits := s.waits.filter (fun r => !mine r), reqs := s.reqs.filter (fun e => !(mine e.2 && e.2.kind.withdrawn)),
                    rsv := s.rsv.map fun e => (e.1, { e.2 with queue := e.2.queue.filter fun r => !mine r })
                    msgs := s.msgs.filter fun m => !(m.2.1.any fun a => a.1 == t) }
  let r := leaveSlot (leaveQueue s th) th
  let th := { r.2 with ending := some final, endCause := cause, exitCode := code, ops := ops, wait := none, pend := none, pends := [],
                       st := .parked .marker }
  let s := drainFor (setThr r.1 th) th
  if ((getThr s t).getD th).ops.isEmpty then finishEnd s t else s

/-- A CTXSV or CTXLD of a thread is under way. -/
def ctxOp (t : Word) (o : LongOp) : Bool := !o.done && o.ctx == some t

/-- A thread is killed, by a supervisor or at the end of a budget (R444, R496): one on its way ends on arrival, one that a CTXSV or
CTXLD works on at the end of that instruction (R509). -/
def killThr (s : State) (t : Word) : State :=
  match getThr s t with
  | none => s
  | some th =>
    if !th.st.live || th.ending.isSome then s
    else if s.threads.any fun e => e.2.ops.any (ctxOp t) then
      { s with threads := s.threads.map fun e =>
          (e.1, { e.2 with ops := e.2.ops.map fun o => if ctxOp t o then { o with kill := true } else o }) }
    else match th.st with
      | .migrating => setThr s { th with ending := some .killed }
      | _ => beginEnd s th .killed 0 0

/-- The kills that waited for the operations of a thread (R509). -/
def lateKills (s : State) (l : List LongOp) : State :=
  l.foldl (fun s o => match o.ctx with | some v => if o.kill then killThr s v else s | none => s) s

/-- An operation whose result a thread's CTXSV redirects has ended: the CTXSV is answered when it was the last one, and with status 2
when the context is lost (R493). -/
def savedOne (s : State) (t : Word) (lost : Bool) : State :=
  match getThr s t with
  | none => s
  | some th => match th.ops.find? fun x => x.hold && !x.done && x.ctx.isSome && x.left != 0 with
    | none => s
    | some x =>
      if lost then
        opLane (setThr s { th with ops := th.ops.map fun y => if y.id = x.id then { y with left := 1 } else y }) t x.id 0 (.ok 2)
      else opLane s t x.id 0 (.ok 0)

/-- A thread is lost with its station, or with its context by an error at an address; a CTXSV of it answers status 2 (R493, R501,
R502). -/
def loseThr (s : State) (t : Word) (addr : DWord) : State :=
  match getThr s t with
  | none => s
  | some th =>
    if !th.st.live then s
    else
      let r := leaveSlot (leaveQueue s th) th
      let s := finishEnd (setThr r.1 { r.2 with ending := some .lost, exitCode := addr, st := .parked .marker }) t
      lateKills ((s.threads.filter fun e => e.2.ops.any (ctxOp t)).foldl (fun s e => savedOne s e.2.tid true) s) th.ops

/-! ### Taking an exception and returning from it -/

/-- Bits [55:2] of an offset, as cr.epc, cr.mpc and cr.tvec hold them (R477). -/
def pcBits (x : DWord) : DWord := x &&& 0x00FFFFFFFFFFFFFC

/-- Trap entry (R483): the fault registers are written; without a handler the thread becomes FAULTED (R485). -/
def takeTrap (s : State) (th : Thread) (t : PendTrap) : State :=
  let th := { th with cause := BitVec.ofNat 64 (t.cause.toNat + b2n t.deferred * 256), epc := pcBits t.epc, mpc := pcBits t.mpc,
                      faddr := t.faddr, finfo := t.finfo, pend := none, relDone := false,
                      cur := t.acc.map fun a => { pc := t.epc, acc := a, kind := bits t.finfo.toNat 7 0,
                                                  fault := { cause := t.cause, addr := t.faddr } } }
  if th.inh || th.tvec == 0 then beginEnd s th .faulted t.cause 0
  else setThr s { th with ps := th.sup, sup := true, inh := true, pc := th.tvec }

/-- The trap of an issue-time check at the thread's instruction: KIND 2, cr.epc = cr.mpc = pc (R477, R479). -/
def trapOp (th : Thread) (cause : Byte) : PendTrap := { cause := cause, epc := th.pc, mpc := th.pc, finfo := 2 }
/-- A precise trap with an address. -/
def trapAt (th : Thread) (cause : Byte) (addr : DWord) : PendTrap := { trapOp th cause with faddr := addr }

/-- The cr.finfo fields of an access, without KIND and LANE (R477). -/
def finfoOf (a : Access) : Nat :=
  let w := match a.kind with
    | .write => true | .take => true | .put => true | .pset => true | .pclr => true | .rls => true | .amo _ => true
    | .sector => true | _ => false
  b2n a.vec * 2 ^ 36 + a.reg.toNat * 2 ^ 31 + b2n w * 2 ^ 30 + flog2 a.z * 2 ^ 27 + (if a.kind = .hashed then 2 ^ 24 else 0)

/-- The trap of an access that fails its checks at issue (R319, R364). -/
def trapAcc (th : Thread) (cause : Byte) (a : Access) (addr : DWord) (lane : Nat) : PendTrap :=
  { cause := cause, epc := th.pc, mpc := th.pc, faddr := addr, finfo := BitVec.ofNat 64 (finfoOf a + lane * 2 ^ 16 + 2) }

/-- The deferred faults of a thread whose long operations have all ended are reported at its marker: the one issued first, PEND
counting the others, which the core keeps (R480, R481). -/
def takeDeferred (s : State) (th : Thread) : State :=
  let l := th.ops.filterMap fun o => match o.fault, o.acc with
    | some f, some a => some ({ pc := o.pc, acc := a, fault := f } : Kept)
    | _, _ => none
  match l with
  | [] => setThr s { th with ops := [] }
  | k :: rest =>
    let th := { th with ops := [], kept := rest }
    let fin := finfoOf k.acc + k.fault.lane * 2 ^ 16 + min rest.length 15 * 2 ^ 40
    let s := takeTrap s th
      { cause := k.fault.cause, epc := k.pc, mpc := th.pc, faddr := k.fault.addr, finfo := BitVec.ofNat 64 fin, deferred := true,
        acc := some k.acc }
    modThr s th.tid fun t => { t with cur := t.cur.map fun c => { c with fault := k.fault } }

/-- What a marker does to a thread: it parks while a long operation is outstanding, or takes its deferred fault; with neither,
nothing (R35, R480). -/
def atMarker (s : State) (th : Thread) : Option State :=
  if outstanding th then some (drainFor (parkThr s th .marker) th)
  else if th.ops.isEmpty then none
  else some (takeDeferred s th)

/-- The return from an exception (R484), after its marker: an unreplayed access is discarded, a FRAME_FAULT's frame freed, and the
accesses kept are issued again in their order (R481). A further trap of a withdrawn access that was pending is taken before the next
instruction (R368; log 114). -/
def eret (s : State) (th : Thread) : State :=
  let s := match th.faultFrame with | some fr => frameFree s (tidPart th.tid) fr | none => s
  let th' := { th with sup := th.ps, inh := false, pc := th.mpc, cur := none, kept := [], faultFrame := none }
  let th' := { th' with pend := th.pends.head?.map fun p => { p with mpc := th.mpc }, pends := th.pends.drop 1 }
  th.kept.foldl (fun s k => match getThr s th.tid with
    | some t => issueAccess s t k.pc k.acc none
    | none => s) (setThr s th')

/-! ### The frame of an instruction -/

/-- The thread in the slot whose turn it is (R32). -/
def focus (s : State) : Option Thread :=
  if 256 ≤ s.cursor then none
  else match vget (stn s s.cursor).slots (s.time % 16) with
    | none => none
    | some t => match getThr s t with
      | some th => (match th.st with | .running _ => some th | _ => none)
      | none => none

/-- An instruction's answer: a trap, taken from the state before it (R479), or a new state. -/
abbrev Res := Except PendTrap State

/-- An instruction issued by the thread whose turn it is: with a marker it first waits (R35, R84). -/
def issue (w : Bool) (s : State) (k : State → Thread → Res) : Out :=
  perform s (match focus s with
    | none => none
    | some th => some (match if w then atMarker s th else none with
      | some s' => s'
      | none => match k s th with
        | .ok s' => s'
        | .error t => takeTrap s th t))

/-- The event in hand performed. -/
def onEvent (s : State) (k : Event → Option State) : Out :=
  perform s (match s.hand with
    | .event e => k e
    | _ => none)

/-- The thread goes on behind its instruction. -/
def nextPc (th : Thread) : Thread := { th with pc := th.pc + 4 }

/-- An instruction that only changes its thread. -/
def issueThr (w : Bool) (s : State) (f : Thread → Thread) : Out := issue w s fun s th => .ok (setThr s (nextPc (f th)))

/-- The privilege check (R86). -/
def supOnly (th : Thread) (k : Res) : Res := if th.sup then k else .error (trapOp th 0x02)

/-- A long operation whose result is computed at issue: written to its destination within a bound (R34, R36). -/
def longResult (s : State) (th : Thread) (o : LongOp) (wcl : Nat) : State :=
  let r := addOp (nextPc th) { o with pc := th.pc }
  within (setThr s r.2) wcl (.longOpComplete th.tid.toNat r.1)

/-! ### The combining node (R14, R71) -/

/-- The answer that a qualifying command of the thread's cluster got in this cycle with the same fields at the same engine (R71; the
register that each issuer names for its answer is no field of the command, log 123). -/
def combined (s : State) (th : Thread) (fields : List Nat) : Option DWord :=
  ((clus s (clusterOf th.station)).cmds.find? fun x => x.1 == s.time && x.2.1 == tidPart th.tid && x.2.2.1 == fields).map (·.2.2.2)

/-- A command passes its cluster's combining node, and v is its answer for this cycle. -/
def noteCmd (s : State) (th : Thread) (fields : List Nat) (v : DWord) : State :=
  modClus s (clusterOf th.station) fun c =>
    { c with cmds := (c.cmds.filter fun x => x.1 == s.time) ++ [(s.time, tidPart th.tid, fields, v)] }

/-- A qualifying command: merged with the same one of this cycle, whose one answer it gets, or performed by its engine (R14, R71). -/
def combine (s : State) (th : Thread) (fields : List Nat) (engine : State → State × DWord) : State × DWord :=
  match combined s th fields with
  | some v => (s, v)
  | none => let r := engine s; (noteCmd r.1 th fields r.2, r.2)

/-! ### Streams at vector registers (R76, R387, R388) -/

/-- 4-byte lanes that are not valid read as zero. -/
def validLanes (d : BitVec 256) (v : BitVec 8) : BitVec 256 :=
  BitVec.ofNat 256 ((List.range 8).foldl (fun a j =>
    if v.getLsbD j then a + (d.extractLsb' (32 * j) 32).toNat * 2 ^ (32 * j) else a) 0)

/-- The bits of the lanes that a 16-bit mask selects: mask bit j governs bits [32j+31:32j] (R75). -/
def maskBits (m : BitVec 16) : VReg :=
  BitVec.ofNat 512 ((List.range 16).foldl (fun a j => if m.getLsbD j then a + (2 ^ 32 - 1) * 2 ^ (32 * j) else a) 0)

/-- A thread parks at its instruction on a stream port (R387). -/
def streamPark (s : State) (th : Thread) (p : Nat) : State := startWait s th (.stream p) .stream true

/-- The values of the vector registers an instruction reads: a bound register pops one group, however often it is named (R76). -/
def popSources : List (BitVec 4) → State → Thread → Except Nat (State × List (BitVec 4 × VReg))
  | [], s, _ => .ok (s, [])
  | r :: rs, s, th =>
    match popSources rs s th with
    | .error p => .error p
    | .ok (s, l) =>
      if l.any fun x => x.1 == r then .ok (s, l)
      else if th.unbIn.contains r.toNat then .ok (s, (r, 0) :: l)
      else match portOf s th.station true 0 r.toNat th.tid with
        | none => .ok (s, (r, rv th r) :: l)
        | some p =>
          match portPop s th.station p 2 with
          | some ([(d0, v0), (d1, v1)], s) => .ok (s, (r, validLanes d1 v1 ++ validLanes d0 v0) :: l)
          | _ => .error p

/-- The port that takes a bound destination. -/
def pushPort (s : State) (th : Thread) (r : BitVec 4) : Option Nat :=
  if th.unbOut.contains r.toNat then none else portOf s th.station false 0 r.toNat th.tid

/-- An instruction with vector operands: it parks while a bound source lacks a group or a bound destination lacks room. -/
def withVec (s : State) (th : Thread) (srcs : List (BitVec 4)) (dst : Option (BitVec 4))
    (k : State → Thread → (BitVec 4 → VReg) → Res) : Res :=
  match popSources srcs s th with
  | .error p => .ok (streamPark s th p)
  | .ok (s', l) =>
    let full := (dst.bind fun d => pushPort s th d).filter fun p => 30 < (portAt s' th.station p).queue.length
    match full with
    | some p => .ok (streamPark s th p)
    | none => k s' th fun r => ((l.find? fun x => x.1 == r).map (·.2)).getD (rv th r)

/-- A group pushed to a port: masked-off lanes as zero, their valid bits 0 (R76, R387). -/
def pushGroup (s : State) (st p : Nat) (m : BitVec 16) (x : VReg) : Option State :=
  let x := x &&& maskBits m
  portPush s st p [(x.extractLsb' 0 256, m.extractLsb' 0 8), (x.extractLsb' 256 256, m.extractLsb' 8 8)]

/-- A vector result written: enabled lanes only, or pushed when the register is bound (R75, R76). The thread goes on. -/
def vecOut (s : State) (th : Thread) (d : BitVec 4) (m : BitVec 16) (x : VReg) : State :=
  let out := th.unbOut.contains d.toNat
  let th' := nextPc { th with unbIn := [], unbOut := [] }
  if out then setThr s th'
  else match portOf s th.station false 0 d.toNat th.tid with
    | some p => match pushGroup s th.station p m x with
      | some s => setThr s th'
      | none => s
    | none => setThr s (wv th' d ((rv th d &&& ~~~maskBits m) ||| (x &&& maskBits m)))

/-! ### The end of a long operation (R35, R36, R365, R487) -/

/-- A thread after one of its long operations has ended: an ending thread ends, one whose answer was awaited goes on, and one at a
marker goes on when none is outstanding (R35). -/
def afterOp (s : State) (t : Word) (answered : Bool) : State :=
  match getThr s t with
  | none => s
  | some th =>
    if th.ending.isSome then (if outstanding th then s else finishEnd s t)
    else match th.st with
      | .parked .marker =>
        if th.wait.isNone && !(th.ops.any fun o => o.hold && !o.done) && (answered || !outstanding th) then makeReady s th else s
      | _ => s

/-- The value of a lane of a long operation's access: sign- or zero-extended (R360). -/
def laneVal (o : LongOp) (i : Nat) : DWord :=
  let v := (kget o.res i).getD 0
  match o.acc with
  | some a => if a.sx then sextBytes a.z v else v
  | none => v

/-- The lanes a vector load delivers, and their mask. -/
def loadLanes (o : LongOp) (a : Access) : BitVec 16 × VReg :=
  let w := if a.half then 16 else 32
  let x := a.els.foldl (fun n e => n + ((kget o.res e.lane).getD 0).toNat % 2 ^ w * 2 ^ (w * e.lane)) 0
  let m := a.els.foldl (fun (n : BitVec 16) e => n ||| ((1 : BitVec 16) <<< (if a.half then e.lane / 2 else e.lane))) 0
  (m, BitVec.ofNat 512 x)

/-- A long operation writes its destination; none when a bound vector register's port is full (R365). -/
def writeDest (s : State) (th : Thread) (o : LongOp) : Option State :=
  match o.dest with
  | .nowhere => some (setThr s th)
  | .g r => some (setThr s (wg th r (laneVal o 0)))
  | .tget => some (setThr s ((List.range 8).foldl (fun t i => wgN t (i + 1) ((kget o.res i).getD 0)) th))
  | .v r =>
    let ml := match o.acc with
      | some a => loadLanes o a
      | none => ((kget o.res 0).elim 0xFFFF (·.truncate 16), o.vres)
    match portOf s th.station false 0 r.toNat th.tid with
    | some p => (pushGroup s th.station p ml.1 ml.2).map fun s => setThr s th
    | none => some (setThr s (wv th r ((rv th r &&& ~~~maskBits ml.1) ||| (ml.2 &&& maskBits ml.1))))

/-- The word of a MONWAIT (R418), and the thread with the marks it returns cleared. -/
def monResult (th : Thread) (timeout : Bool) : Thread × DWord :=
  let m := (List.range 4).foldl (fun n i =>
    let x := vget th.mon i
    if x.line.isSome && x.trig then n + 2 ^ i else n) 0
  ({ th with mon := th.mon.map fun x => { x with trig := x.trig && x.line.isNone } },
   BitVec.ofNat 64 (m + b2n (!th.mbox.isEmpty) * 2 ^ 8 + b2n timeout * 2 ^ 9))

/-- A monitor whose mark stood for a full slice is sent to its home again, the L1 copy of its line invalidated first: registered
when there is room, else marked again (R416). -/
def rearm (s : State) (th : Thread) (n : Nat) : State × Thread :=
  let m := vget th.mon n
  match m.line with
  | none => (s, th)
  | some va =>
    let pn := tidPart th.tid
    let s := dropLines s (l1Station s th.station va.toNat) fun l => l.part == pn && l.line == va.toNat / 256
    let full : Mon := { m with registered := false, trig := true }
    match translate s th.station pn va.toNat false false m.pinned with
    | (s, .error _) => (s, { th with mon := vset th.mon n full })
    | (s, .ok key) =>
      let home := homeOf s pn va.toNat m.hashed
      if s.arms.countP (fun a => a.home == home) < 1024 then
        ({ s with arms := s.arms ++ [{ line := key / 256, tid := th.tid, n := n, home := home }] },
         { th with mon := vset th.mon n { m with registered := true, trig := false } })
      else (s, { th with mon := vset th.mon n full })

/-- A MONWAIT returns (R418): its word, once the arms of the unregistered monitors it returns have been answered (R416). -/
def monReturn (s : State) (th : Thread) (d : BitVec 5) (timeout : Bool) : State :=
  let again := (List.range 4).filter fun n =>
    let x := vget th.mon n
    x.line.isSome && x.trig && !x.registered
  let r := monResult th timeout
  let th' := { wg r.1 d r.2 with wait := none }
  if again.isEmpty then
    match th.st with
    | .running _ => setThr s { th' with pc := th.pc + 4 }
    | _ => wakeThr s { th' with pc := th.pc + 4 }
  else
    let x := again.foldl (fun a n => rearm a.1 a.2 n) (s, th')
    match th.st with
    | .parked .held => setThr x.1 { x.2 with pc := th.pc + 4 }
    | _ => answer x.1 x.2 0 0 360

/-- SamePage of R487: a region of the same size, that which the failing entry covers, and the same one. -/
def samePage (f g : DFault) : Bool := f.region == g.region && f.addr.toNat / 2 ^ f.region == g.addr.toNat / 2 ^ f.region

/-- KIND of a fault that an access meets: a wait limit for a presence operation, else a memory access (R368, R477). -/
def faultKind (a : Access) (cause : Byte) : Nat :=
  if cause == 0x0B && (a.kind == .take || a.kind == .put || a.kind == .readf) then 4 else 0

/-- The answer of a REPLAY (R487, R488): done, the same page again, or another fault. A loaded group waits for room in the port of a bound
register (R365). -/
def replayEnd (s : State) (th : Thread) (o : LongOp) (d : BitVec 5) : State :=
  let th := { th with ops := th.ops.filter (·.id != o.id) }
  if th.ending.isSome then afterOp (setThr s th) th.tid false else
  let go (s : State) (th : Thread) (v : Nat) : State :=
    let th := wg { th with pc := o.pc + 4 } d (BitVec.ofNat 64 v)
    match th.st with
    | .parked .marker => makeReady s th
    | _ => setThr s th
  match o.fault with
  | none =>
    match writeDest s { th with cur := th.cur.map fun c => { c with replayed := true } } o with
    | some s' => go s' ((getThr s' th.tid).getD th) 0
    | none => s
  | some f =>
    let fi := th.finfo.toNat
    let page := f.cause == 0x06 || f.cause == 0x07
    if f.cause.toNat = bits th.cause.toNat 7 0 ∧ page ∧ th.cur.any (fun c => samePage f c.fault) then
      let n := bits fi 38 37 + 1
      let base := fi - bits fi 39 37 * 2 ^ 37
      if 3 ≤ n then
        let s := supReport s (tidPart th.tid) 0x22 2 th.station th.tid th.faddr.toNat th.epc.toNat ((base + (4 + 3) * 2 ^ 37) / 256 % 2 ^ 32)
        let r := leaveSlot s th
        setThr r.1 { r.2 with st := .parked .held, pc := o.pc, finfo := BitVec.ofNat 64 (base + 4 * 2 ^ 37) }
      else go s { th with finfo := BitVec.ofNat 64 (base + (4 + n) * 2 ^ 37) } (0x100 + f.cause.toNat)
    else
      let acc := (th.cur.map (·.acc)).getD { kind := .read, z := 8 }
      let k := faultKind acc f.cause
      let fin := finfoOf acc + f.lane * 2 ^ 16 + bits fi 43 40 * 2 ^ 40 + k
      go s { th with cause := BitVec.ofNat 64 (bits th.cause.toNat 8 8 * 256 + f.cause.toNat), faddr := f.addr,
                     finfo := BitVec.ofNat 64 fin, cur := th.cur.map fun c => { c with fault := f, kind := k } } f.cause.toNat

/-! ### Memory that an instruction reads or writes for itself on path T -/

/-- Bytes of a segment (R320): a station store, a tile slot, or memory as the station's L1 and its combining sectors show it
(R328). -/
def segRead (s : State) (th : Thread) (g : Seg) (off n : Nat) : State × Except DFault (List Byte) :=
  match placeOf (tidPart th.tid) th.station g off with
  | .phys key => (s, .ok (rdL s key n))
  | .tile _ key => (s, .ok (rdL s key n))
  | .virt va =>
    match vread s th.station (tidPart th.tid) va n g.hashed g.pinned with
    | (s, .ok l) => (s, .ok ((List.range n).map fun i => (l1Byte s th.station (tidPart th.tid) (va + i) g.hashed).getD (l.getD i 0)))
    | (s, .error f) => (s, .error f)

/-- Bytes just written to memory, put into the station's L1 lines, its combining sectors, those not yet performed at their homes and its
footprint copies (R328, R329, R354). -/
def ownWrite (s : State) (st pn va : Nat) (l : List Byte) (hashed : Bool) : State :=
  let put {w : Nat} (d : BitVec w) (lo : Nat) : BitVec w := (List.range l.length).foldl (fun d i =>
    if lo ≤ va + i ∧ va + i < lo + w / 8 then merge d (va + i - lo) 1 (l.getD i 0).toNat else d) d
  let l1s := l1Stations s st
  let s := l1s.foldl (fun s x => modStn s x fun y =>
    { y with l1 := y.l1.map fun n => if n.part = pn ∧ (n.hashed = hashed ∨ n.sched) then { n with data := put n.data (256 * n.line) } else n,
             comb := y.comb.map fun c => if c.part = pn ∧ c.hashed = hashed then { c with data := put c.data (64 * c.line) } else c }) s
  let fly (r : Req) : Req :=
    if r.kind == .sector && l1s.contains r.st && r.part == pn && r.hashed == hashed then
      { r with data := (put (r.data.setWidth 512) r.va.toNat).setWidth 2048 }
    else r
  let s := { s with reqs := s.reqs.map (fun e => (e.1, fly e.2)),
                    rsv := s.rsv.map fun e => (e.1, { e.2 with queue := e.2.queue.map fly }) }
  (List.range l.length).foldl (fun s i => footUpdate s st pn (va + i) 1 ((l.getD i 0).setWidth 64) hashed) s

/-- Bytes of a segment written. -/
def segWrite (s : State) (th : Thread) (g : Seg) (off : Nat) (l : List Byte) : State × Option DFault :=
  match placeOf (tidPart th.tid) th.station g off with
  | .phys key => (localWrite s (tidPart th.tid) key l, none)
  | .tile _ key => (localWrite s (tidPart th.tid) key l, none)
  | .virt va =>
    match vwrite s th.station (tidPart th.tid) va l g.hashed g.pinned with
    | (s, none) => (ownWrite s th.station (tidPart th.tid) va l g.hashed, none)
    | r => r

/-- CTXSV's redirected result goes into the save area as well (R493). -/
def saveResult (s : State) (t : Word) (o : LongOp) : State :=
  match o.saveAt, getThr s t with
  | some (u, off, g), some th =>
    let words : List (Nat × DWord) := match o.dest with
      | .g r => if r = 0 then [] else [(r.toNat, laneVal o 0)]
      | .tget => (List.range 8).map fun i => (i + 1, (kget o.res i).getD 0)
      | _ => []
    let r := words.foldl (fun (a : State × Option DFault) w => match a.2 with
      | some _ => a
      | none => segWrite a.1 th g (off.toNat + 8 * (w.1 + 1)) (natLe 8 w.2.toNat)) (s, none)
    (match r.2 with
     | none => savedOne r.1 u false
     | some f => loseThr r.1 t f.addr)
  | _, _ => s

/-- A long operation of a thread ends: its result or its fault (R35, R36, R480). -/
def completeOp (s : State) (t : Word) (id : Nat) : State :=
  match getThr s t with
  | none => s
  | some th =>
    match th.wait with
    | some { on := .mon d, pc := _, id := n, since := _, retry := _ } =>
      if n = id then monReturn s th d false else opEnd s th
    | _ => opEnd s th
where
  opEnd (s : State) (th : Thread) : State :=
    match th.ops.find? fun o => o.id == id && !o.done && o.left == 0 with
    | none => s
    | some o =>
      match o.replay with
      | some d => replayEnd s th o d
      | none =>
        match o.fault with
        | some f =>
          if o.hold then
            let trap : PendTrap := { cause := f.cause, epc := o.pc, mpc := o.pc, faddr := f.addr,
                                     finfo := BitVec.ofNat 64 ((o.acc.map finfoOf).getD 0 +
                                       if f.cause = 0x0A then 6 else if o.acc.isSome then 0 else 2) }
            lateKills (afterOp (setThr s (pendTrap { th with ops := th.ops.filter (·.id != id) } trap)) t true) [o]
          else
            let s := setThr s { th with ops := th.ops.map fun x => if x.id = id then { x with done := true } else x }
            afterOp (match o.saveAt with | some (u, _, _) => savedOne s u false | none => s) t false
        | none =>
          let th := { th with ops := th.ops.filter (·.id != id), fpcsr := th.fpcsr ||| (o.flags.setWidth 64 <<< 5) }
          match writeDest s th o with
          | some s => lateKills (afterOp (saveResult s t o) t o.hold) [o]
          | none => s

end Sys2Proof.Machine
end

