-- ==== Sys2Proof/Machine/Fire.lean ====
section
/-! DEFINITION. Which slot of an element fires in a cycle (R58, R61, R106 to R111, R273, R276), what a firing consumes, and the
frame of every graph op: the outcomes of R108, the tokens sent and the counters of R105. -/

namespace Sys2Proof.Machine

/-! ### Ports, latencies and pairs -/

/-- The op of a slot uses port b as an operand of the same pair (R276). -/
def usesB (w : RoszonWord) : Bool :=
  let bi := !w.mod.getLsbD 3
  let fl := w.mod.toNat / 64 != 1
  match w.op with
  | .iadd => bi | .isub => bi | .imul => bi | .imin => bi | .imax => bi | .graphAnd => bi | .graphOr => bi
  | .graphXor => bi | .shl => bi | .shr => bi | .icmp => bi
  | .graphFadd => fl | .graphFmul => fl | .graphFfma => fl | .graphFmin => fl | .graphFmax => fl | .fcmp => fl
  | .scale => w.mod.getLsbD 0
  | .steer => true
  | .settag => !w.mod.getLsbD 0
  | .graphStore => true | .graphPut => true | .ret => true | .callout => true
  | _ => false

/-- A port that a local destination may name (R110). -/
def portUsed (w : RoszonWord) (b : Bool) : Bool :=
  !b || usesB w || (match w.op with | .cvt => true | .merge => true | .carry => true | .delay => true | .sink => true | _ => false)

/-- LAT of a LOAD (R300). -/
def loadLat (w : RoszonWord) : Nat := match w.mod.toNat / 64 with | 0 => 40 | 1 => 48 | 2 => 200 | _ => 360

/-- The latency of an op's result (R276); 1 where the op's result is unscheduled. -/
def latOf (w : RoszonWord) : Nat :=
  match w.op with
  | .imul => 2
  | .graphFadd => 4 | .graphFmul => 4 | .graphFfma => 4
  | .sfu => 8 | .cvt => 3 | .scale => 4
  | .reduce => if w.mod.toNat / 4 % 4 = 2 then 16 else 4
  | .graphLoad => loadLat w
  | .arg => 48
  | _ => 1

/-- The results of an op leave at a cycle that its firing fixes. -/
def scheduledOut (w : RoszonWord) : Bool :=
  match w.op with
  | .graphStore => false | .graphTake => false | .graphPut => false | .ret => false | .callout => false
  | _ => true

/-- An op that keeps something for each pair of a slot (R271, R273, R293). -/
def keepsPairs (w : RoszonWord) : Bool :=
  match w.op with
  | .seq => true | .coalesce => true | .reduce => true | .rowstat => true | .delay => true | .sink => true | .tileput => true
  | _ => false

def pairOf (x : Elem) (i : Nat) (t : Token) : Option Pair := x.pairs.find? fun p => p.slot == i && p.act == t.act && p.iter == t.iter
/-- What a new pair starts with: SEQ numbers from imm16, every other op from 0 (R293). -/
def newPair (w : RoszonWord) (i : Nat) (t : Token) : Pair :=
  { slot := i, act := t.act, iter := t.iter, out := if w.op = .seq then w.imm else 0 }
def pairFor (x : Elem) (w : RoszonWord) (i : Nat) (t : Token) : Pair := (pairOf x i t).getD (newPair w i t)
def putPair (x : Elem) (p : Pair) : Elem :=
  { x with pairs := x.pairs.filter (fun q => !(q.slot == p.slot && q.act == p.act && q.iter == p.iter)) ++ [p] }
def dropPair (x : Elem) (p : Pair) : Elem :=
  { x with pairs := x.pairs.filter fun q => !(q.slot == p.slot && q.act == p.act && q.iter == p.iter) }

/-- The slot holds a COALESCE. -/
def coalesces (x : Elem) (i : Nat) : Bool := match decodeRoszon (vget x.slots i) with
  | .ok w => w.op == .coalesce
  | .error _ => false

/-- A slot may take a token of this pair: it holds the pair open, or fewer than four (R273); of COALESCE pairs an element holds four in
all (R271). -/
def pairRoom (x : Elem) (i : Nat) (t : Token) : Bool :=
  x.pairs.any (fun p => p.slot == i && p.act == t.act && p.iter == t.iter && !p.ended) ||
    decide (x.pairs.countP (fun p => (p.slot == i || (coalesces x i && coalesces x p.slot)) && !p.ended) < 4)

/-- The pair of a SINK that holds an activation's base, its oldest incomplete iteration and the iterations completed past it. -/
def sinkBase (x : Elem) (i : Nat) (act : BitVec 12) : Option Pair := x.pairs.find? fun p => p.slot == i && p.act == act && p.base.isSome

/-- The pair whose stream or tile a STREAM or TILEGET slot still emits. -/
def emitting (x : Elem) (i : Nat) : Option Pair := x.pairs.find? fun p => p.slot == i && p.left != 0

/-! ### Candidates (R58, R61, R108) -/

/-- A set of tokens on which a slot may fire: the arrival of its first token, and the tokens. -/
structure Cand where
  arr : Nat
  slot : Nat
  word : RoszonWord
  a : Option Token
  b : Option Token
  deriving DecidableEq, Repr

/-- Tokens of an activation on a port that arrived before entry n of the store. -/
def earlier (es : List Ent) (n : Nat) (y : Ent) (f : Ent → Bool) : Bool :=
  (es.take n).any fun z => z.port == y.port && z.tok.act == y.tok.act && f z

/-- An entry may be used: it waits behind no Barrier, and a Barrier behind no token (R61). -/
def free (es : List Ent) (n : Nat) (y : Ent) : Bool :=
  !y.wait && (if y.tok.kind = 8 then !earlier es n y (fun _ => true) else !earlier es n y fun z => z.tok.kind == 8)

/-- The usable entries of a port of a slot, in arrival order. -/
def ready (es : List Ent) (port : Bool) : List Ent :=
  (es.zipIdx.filter fun p => p.1.port == port && free es p.2 p.1).map (·.1)

/-- The partner on port b of a token on port a: a Barrier for a Barrier, else a token of the same pair. -/
def partner (bs : List Ent) (t : Token) : Option Ent :=
  let same := bs.find? fun y => y.tok.act == t.act && y.tok.iter == t.iter && !(t.kind == 8 && y.tok.kind == 8)
  if t.kind = 8 then (match bs.find? fun y => y.tok.act == t.act && y.tok.kind == 8 with | some y => some y | none => same) else same

/-- A DELAY token that may go: the next of its pair, its group released (R298). -/
def delayNext (x : Elem) (i : Nat) (bs : List Ent) (t : Token) : Option Ent :=
  let p := (pairOf x i t).getD { slot := i, act := t.act, iter := t.iter }
  if t.seq = p.next ∧ pairRoom x i t then
    bs.find? fun y => y.tok.act == t.act && y.tok.iter == t.iter && y.tok.seq == p.grp && y.tok.kind != 8
  else none

/-- A SINK token that may go: the next of its pair, less than 256 past the oldest incomplete iteration; where the data go on, that
iteration's own (R304). An iteration that a level-7 marker has completed is past: its pair goes on until its End-of-stream (R273). -/
def sinkNext (x : Elem) (w : RoszonWord) (i : Nat) (t : Token) : Bool :=
  let b := sinkBase x i t.act
  let old := (b.map (·.out)).getD 0
  let p := (pairOf x i t).getD { slot := i, act := t.act, iter := t.iter }
  let past := decide (32768 ≤ (t.iter - old).toNat) || b.any fun q => q.closed.contains t.iter
  t.seq == p.next && !p.ended && pairRoom x i t && (past || (decide ((t.iter - old).toNat < 256) && (w.d0 == 0 || t.iter == old)))

/-- The sets of tokens on which a slot may fire. -/
def cands (x : Elem) (i : Nat) (w : RoszonWord) : List Cand :=
  let es := x.store.filter fun y => y.slot == i
  let as := ready es false
  let bs := ready es true
  let one (y : Ent) : Cand := { arr := y.arr, slot := i, word := w, a := some y.tok, b := none }
  let oneB (y : Ent) : Cand := { arr := y.arr, slot := i, word := w, a := none, b := some y.tok }
  let two (y z : Ent) : Cand := { arr := min y.arr z.arr, slot := i, word := w, a := some y.tok, b := some z.tok }
  let next (y : Ent) : Bool := y.tok.kind == 8 || (y.tok.seq == (pairFor x w i y.tok).next && pairRoom x i y.tok)
  match w.op with
  | .merge => as.map one ++ (bs.filter fun y => !as.any fun z => z.tok.act == y.tok.act && z.tok.iter == y.tok.iter).map oneB
  | .carry => as.map one ++ (bs.filter fun y => !as.any fun z => z.tok.act == y.tok.act && z.tok.iter == y.tok.iter).map oneB
  | .cvt => as.map one ++ bs.map oneB
  | .reduce => (as.filter next).map one
  | .rowstat => (as.filter next).map one
  | .tileput => (as.filter next).map one
  | .seq => (as.filter fun y => y.tok.kind == 8 || pairRoom x i y.tok).map one
  | .coalesce => (as.filter fun y => y.tok.kind == 8 || pairRoom x i y.tok).map one
  | .delay => as.filterMap fun y =>
      if y.tok.kind = 8 then (bs.find? fun z => z.tok.kind == 8 && z.tok.act == y.tok.act).map (two y)
      else (delayNext x i bs y.tok).map fun z => { two y z with arr := y.arr }
  | .sink => as.filterMap fun y =>
      if y.tok.kind = 8 then
        (match es.find? fun z => z.port && z.tok.kind == 8 && z.tok.act == y.tok.act with
         | some z => some { two y z with arr := y.arr }
         | none => some (one y))
      else if !sinkNext x w i y.tok then none
      else if (sinkBase x i y.tok.act).isSome then some (one y)
      else (bs.find? fun z => z.tok.act == y.tok.act && z.tok.iter == 0 && z.tok.seq == 0 && z.tok.kind == 0).map (two y)
  | .stream => (match emitting x i with
      | some p => [{ arr := p.arr, slot := i, word := w, a := none, b := none }]
      | none => []) ++ as.map one
  | .tileget => (match emitting x i with
      | some p => [{ arr := p.arr, slot := i, word := w, a := none, b := none }]
      | none => []) ++ as.map one
  | _ => if usesB w then as.filterMap fun y => (partner bs y.tok).map (two y) else as.map one

/-- A firing on a set sends something at a cycle that the firing fixes, with its latency: an op's scheduled result, or the marker that
any op passes on (R108, R276). -/
def outLat (x : Elem) (c : Cand) : Option Nat :=
  let closing (t : Token) : Bool := decide (bits c.word.imm.toNat 2 0 ≤ t.closes) || t.kind == 8
  match c.word.op with
  | .reduce => if c.a.any closing then some (latOf c.word) else none
  | .rowstat => if c.a.any closing then
      some (8 + 2 * ((c.a.bind (pairOf x c.slot)).map fun p => p.toks.length).getD 0) else none
  | .cvt => if c.a.isSome then some 3 else none
  | .stream => if c.a.any fun t => t.kind == 0 then none else some 1
  | .tileget => if c.a.any fun t => t.kind == 0 then none else some 1
  | _ => if scheduledOut c.word then some (latOf c.word) else if c.a.all fun t => t.kind == 0 then none else some 1

/-- A firing on a set sends something: at a latency that the firing fixes, or, once its access or call has been performed, at none; none
is a firing that sends nothing (R58, R108, R276, R300, R302, R309). -/
def sendLat (x : Elem) (c : Cand) : Option (Option Nat) :=
  match outLat x c with
  | some l => some (some l)
  | none => if !scheduledOut c.word && c.word.op != .ret then some none else none

/-- Something of the consist is sent to a port of a slot: a local destination, a route or a leg (R110, R119, R120). -/
def portFed (s : State) (c : Consist) (st e i : Nat) (b : Bool) : Bool :=
  (c.routes.any fun r => r.dst == st && r.elem == e && r.slot == i && r.port == b) ||
  (c.legs.any fun g => ((g.kind == 0 && g.far == st) || (g.kind == 3 && g.src == st)) && g.elem == e && g.slot == i && g.port == b) ||
  (List.range 16).any fun k => (List.range 32).any fun j => match slotWord s st k j with
    | some w => [w.d0, w.d1].any fun d => destV d && !destK d && destE d == e && destSlot d == i && destP d == b
    | none => false

/-- A stream port's end is the graph tile's (R386). -/
def graphEnd (o : Option PEnd) : Bool := o.any fun x => x.kind == 2

/-- A CALLOUT's tokens wait: for a frame, for an activation id of a resident callee (R57, R64), or for the stores that its activation
issued before (R65 step 3). -/
def callWaits (s : State) (st : Nat) (a : Option Token) : Bool :=
  ((List.range 256).all fun i => (stn s st).frames.getLsbD i) ||
    (match a, tileOwner s st with
     | some t, some (pn, c) =>
       let ptr := (t.lane 0).toNat + (t.lane 1).toNat * 2 ^ 32
       (actOf c t.act).any (fun x => x.acks != 0) ||
         (bits ptr 63 62 == 1 && (part s pn).consists.any fun d => d.image.toNat == bits ptr 55 0 && decide (4096 ≤ d.acts.length))
     | _, _ => false)

/-- A late item or a full unit that keeps a set from firing, as the kind and key of a hold (R303, R305); some 6 is a wait without
a hold (R57, R61, R64, R306). -/
def blocked (s : State) (cs : Consist) (st e : Nat) (x : Elem) (c : Cand) : Option (Nat × Nat) :=
  let imm := c.word.imm.toNat
  let data := c.a.any fun t => t.kind == 0
  match c.word.op with
  | .stream =>
    let q := portAt s st (bits imm 2 0)
    let r := bits imm 10 3
    if c.word.mod.getLsbD 0 then
      if data && graphEnd q.prod && decide (32 ≤ q.queue.length) then some (2, bits imm 2 0) else none
    else match c.a, emitting x c.slot with
      | none, some p => if 1 < p.left ∧ (r = 0 ∨ p.next.toNat ≠ r) ∧ q.queue.isEmpty ∧ graphEnd q.cons then some (2, bits imm 2 0)
          else none
      | some _, some _ => some (6, 0)
      | _, none => none
  | .tileput =>
    let t := vget (stn s st).tiles (bits imm 3 0)
    let mine := c.a.any fun t => (pairOf x c.slot t).any fun p => p.base.isSome
    if data && !mine && t.tag != .empty then some (3, bits imm 3 0) else none
  | .tileget =>
    if c.a.isNone then none
    else if (emitting x c.slot).isSome || (data && (vget (stn s st).tiles (bits imm 3 0)).tag != .full) then some (6, 0) else none
  | .callout =>
    if data && (c.b.any fun t => t.kind == 0) && callWaits s st c.a then some (6, 0) else none
  | .sink =>
    if c.b.isNone && (c.a.any fun t => t.kind == 8) && portFed s cs st e c.slot true then some (6, 0) else none
  | _ => none

/-- A set fires in this cycle: nothing blocks it and its destinations accept (R58, R111). -/
def mayFire (s : State) (cs : Consist) (st e : Nat) (x : Elem) (c : Cand) : Bool :=
  (blocked s cs st e x c).isNone && (match sendLat x c with
    | none => true
    | some l => canAccept s cs st c.word.d0 l && canAccept s cs st c.word.d1 l)

/-- The first of the sets whose first token arrived first; ties go to the lower slot (R58). -/
def firstCand (l : List Cand) : Option Cand :=
  l.foldl (fun (m : Option Cand) c => match m with
    | none => some c
    | some d => if c.arr < d.arr ∨ (c.arr = d.arr ∧ c.slot < d.slot) then some c else m) none

/-- All candidates of an element. -/
def elemCands (x : Elem) : List Cand :=
  ((List.range 32).filter fun i => x.store.any (fun y => y.slot == i) || (emitting x i).isSome).flatMap fun i =>
    match decodeRoszon (vget x.slots i) with
    | .ok w => cands x i w
    | .error _ => []

/-- The holds that an element's tokens call for: what is late or full, or a leg that is shut (R59, R19). -/
def elemHolds (s : State) (cs : Consist) (st e : Nat) : List (Nat × Nat) :=
  let x := elemAt s st e
  (elemCands x).filterMap fun c => match blocked s cs st e x c with
    | some (6, _) => none
    | some h => some h
    | none => if (sendLat x c).isSome then
        ((shutLeg cs st c.word.d0).orElse fun _ => shutLeg cs st c.word.d1).map fun g => (4, g.id) else none

/-- The holds of a tile's elements at the start of a cycle: those that an element which runs calls for begin, and those that no token
of their element calls for any more end (R59, R67). -/
def tileHolds (s : State) (pn : Nat) (cs : Consist) (st : Nat) : State :=
  let es := (List.range 16).filter fun e => cs.tiles.any fun t => t.st == st && t.elems.getLsbD e
  let wants := es.map fun e => (e, elemHolds s cs st e)
  let own (h : Hold) : Bool := h.st == st && (h.kind == 2 || h.kind == 3 || (h.kind == 4 && decide (h.elem < 16)))
  let idle (h : Hold) : Bool := own h && !wants.any fun w => w.1 == h.elem && w.2.contains (h.kind, h.key)
  let s := if cs.holds.any fun h => h.released.isNone && idle h then releaseHold s pn cs.cid 0 idle else s
  wants.foldl (fun s w => if tileStopped s pn cs st w.1 then s
    else w.2.foldl (fun s h => applyHold s pn cs.cid st w.1 h.1 h.2) s) s

/-- The firing of an element that is not stopped in this cycle. -/
def elemChoice (s : State) (cs : Consist) (st e : Nat) : Option Firing :=
  let x := elemAt s st e
  (firstCand ((elemCands x).filter (mayFire s cs st e x))).map fun c =>
    { st := st, elem := e, slot := c.slot, word := c.word, a := c.a, b := c.b }

/-! ### The frame of a firing -/

/-- The route ends that a firing's result uses l cycles from now are taken (R111). -/
def reserveEnds (s : State) (f : Firing) (l : Nat) : State := takeEnd (takeEnd s f.st f.word.d0 l) f.st f.word.d1 l

/-- Entries of a firing leave the matching store; a DELAY keeps its release token until its group ends, and TAKE and PUT keep their
tokens until their request has been performed (R302). A firing whose result comes later takes its route ends for this cycle (R58). -/
def consume (s : State) (f : Firing) : State :=
  let hit (port : Bool) (o : Option Token) (y : Ent) : Bool :=
    y.slot == f.slot && y.port == port && !y.wait && (match o with | some t => y.tok == t | none => false)
  let keepB := f.word.op == .delay && (f.b.any fun t => t.kind != 8)
  let data := (f.a.any fun t => t.kind == 0) && (f.b.all fun t => t.kind == 0)
  let stays := (f.word.op == .graphTake || f.word.op == .graphPut) && data
  let s := if data && !scheduledOut f.word then reserveEnds s f 0 else s
  modElem s f.st f.elem fun x =>
    { x with store :=
        if stays then x.store.map fun y => if hit false f.a y || hit true f.b y then { y with wait := true } else y
        else x.store.filter fun y => !hit false f.a y && !(hit true f.b y && !keepB) }

/-- What a firing sends: the destination (0 or 1), the token and its latency. -/
abbrev Sent := List (Nat × Token × Nat)

/-- A token to both destinations. -/
def both (t : Token) (l : Nat) : Sent := [(0, t, l), (1, t, l)]

/-- The tokens of a firing that leave at one latency, by destination. -/
def sentAt (f : Firing) (out : Sent) (l : Nat) : List (Half × Token) :=
  (out.filter fun o => o.2.2 == l).map fun o => (if o.1 = 0 then f.word.d0 else f.word.d1, o.2.1)

/-- The tokens of a firing leave: the first at its latency; later ones, in their order, in the first cycle from theirs on in which all
their route ends are free (R111). -/
def sendOut (s : State) (f : Firing) (out : Sent) : State :=
  let first := (out.head?.map (·.2.2)).getD 0
  ((out.map (·.2.2)).eraseDups.foldl (fun (z : State × Nat) l =>
    let g := sentAt f out l
    let n := if l = first then l else freeEnd (stn z.1 f.st) s.time (endsOf g) 64 (max l z.2)
    (g.foldl (fun s y => sendTo s f.st y.1 y.2 n) z.1, n)) (s, 0)).1

/-- The tokens of a firing leave, and a firing of a data token is counted (R105): LANES by the lanes of its first result. -/
def sendAll (s : State) (f : Firing) (out : Sent) (count : Bool) : State :=
  let n := match out with | (_, t, _) :: _ => if t.kind = 0 then (List.range 8).countP fun j => t.valid.getLsbD j else 0 | [] => 0
  let s := if count then modElem s f.st f.elem fun x => { x with firings := x.firings + 1, lanes := x.lanes + BitVec.ofNat 32 n }
    else s
  sendOut s f out

/-- The firing in hand, with its partition and consist. -/
def firingOf (s : State) : Option (Firing × Nat × Consist) :=
  match s.hand with
  | .firing f => (tileOwner s f.st).map fun o => (f, o.1, o.2)
  | _ => none

/-- A fault of a firing's activation, naming element and slot (R67, R275). -/
def fireFault (s : State) (pn : Nat) (c : Consist) (f : Firing) (cause : Byte) (va : DWord) : State :=
  faultAct s pn c.cid f.act cause f.st f.elem f.slot f.iter va

/-- A firing performed: its tokens consumed and the watchdog's counter cleared (R436). -/
def withFiring (s : State) (k : State → Nat → Consist → Firing → State) : Out :=
  perform s (match firingOf s with
    | none => none
    | some (f, pn, c) =>
      let now := s.time
      let s := modConsist (consume s f) pn c.cid fun c => { c with lastFire := now, wcnt := 0 }
      let s := k s pn c f
      some (if (elemAt s f.st f.elem).link.isEmpty then s else enterWaiting s pn c.cid f.st f.elem))

/-- The outcomes of R108: data executes, equal markers, End-of-stream and Barriers go on as one token, a mixture faults. -/
def byKind (s : State) (pn : Nat) (c : Consist) (f : Firing) (l : Nat) (k : Token → Token → State) : State :=
  match f.a with
  | none => s
  | some a =>
    let b := f.b.getD a
    if a.kind ≠ b.kind then fireFault s pn c f 0x1D 0
    else if a.kind = 0 then k a b
    else sendAll s f (both (kindTok a.kind a) l) false

/-- A graph op that computes its tokens from its operands. -/
def fireOp (s : State) (k : Elem → Firing → Token → Token → Except Byte Sent) : Out :=
  withFiring s fun s pn c f => byKind s pn c f (latOf f.word) fun a b =>
    match k (elemAt s f.st f.elem) f a b with
    | .ok out => sendAll s f out true
    | .error cause => fireFault s pn c f cause 0

/-- The operands of an op with two data operands agree in SC (R146, R275). -/
def sameSc (f : Firing) (a b : Token) : Bool := f.b.isNone || a.sc == b.sc

end Sys2Proof.Machine
end

