-- ==== Sys2Proof/Machine/Array.lean ====
section
/-! DEFINITION. The matrix array of a station (R202 to R230, R254 to R262): templates and their checks, tile-slot tags, which step
fires, the arithmetic of a stream, and write-back. -/

namespace Sys2Proof.Machine

/-! ### Templates (R207 to R210, R254, R259) -/

/-- The four words of a template as one number, and the fields of a step. -/
structure Fields where
  n : Nat
  deriving DecidableEq, Repr

def Fields.b (f : Fields) (hi lo : Nat) : Nat := bits f.n hi lo
def Fields.accg (f : Fields) : Nat := f.b 51 49
def Fields.m (f : Fields) : Nat := f.b 48 43 + 1
def Fields.k (f : Fields) : Nat := f.b 42 32 + 1
def Fields.bpos (f : Fields) : Nat := f.b 28 16
def Fields.asc (f : Fields) : Bool := bit f.n 14
def Fields.fdb (f : Fields) : Nat := f.b 13 11
def Fields.fda (f : Fields) : Nat := f.b 10 8
def Fields.aslot (f : Fields) : Nat := f.b 7 4
def Fields.ovw (f : Fields) : Bool := bit f.n 2
def Fields.bt (f : Fields) : Bool := bit f.n 1
def Fields.ovfa (f : Fields) : Bool := bit f.n 60
def Fields.p (f : Fields) : Nat := f.b 59 52 + 1
def Fields.asoff (f : Fields) : Nat := f.b 122 112
def Fields.fdbs (f : Fields) : Nat := f.b 111 109
def Fields.fdas (f : Fields) : Nat := f.b 108 106
def Fields.bsf (f : Fields) : Nat := f.b 105 104
def Fields.asf (f : Fields) : Nat := f.b 103 102
def Fields.pat (f : Fields) : Nat := f.b 101 99
def Fields.arel (f : Fields) : Bool := bit f.n 98
def Fields.tagsrc (f : Fields) : Bool := bit f.n 97
def Fields.lastBit (f : Fields) : Bool := bit f.n 96
def Fields.seq (f : Fields) : Nat := f.b 95 80
def Fields.iter (f : Fields) : Nat := f.b 79 64
def Fields.param (f : Fields) : Nat := f.b 175 144
def Fields.bspos (f : Fields) : Nat := f.b 140 128
def Fields.nmn (f : Fields) : Nat := f.b 210 207
def Fields.nmm (f : Fields) : Nat := match f.b 206 205 with | 0 => 0 | 1 => 4 | 2 => 8 | _ => 16
def Fields.oscale (f : Fields) : Bool := bit f.n 204
def Fields.wsat (f : Fields) : Nat := f.b 203 202
def Fields.wrm (f : Fields) : Nat := f.b 201 199
def Fields.fdo (f : Fields) : Nat := f.b 198 196
def Fields.oslot (f : Fields) : Nat := f.b 195 192
/-- PAT 3: group size, values kept, first metadata half-row. -/
def Fields.mc (f : Fields) : Nat := match f.b 165 164 with | 0 => 0 | 1 => 4 | 2 => 8 | _ => 16
def Fields.nmKept (f : Fields) : Nat := f.b 163 160
def Fields.mpos (f : Fields) : Nat := f.b 156 144
/-- Groups of the accumulator set. -/
def Fields.groups (f : Fields) : List Nat := nats f.accg (f.accg + cdiv f.m 8)

def templateFields (t : BitVec 256) : Fields := { n := t.toNat }

/-- The widths of a pair of descriptors: containers and column dot depth (R203). -/
def fdWidth (d : Word) : Nat := (fdTy d.toNat).width
def fdCont (d : Word) : Nat := container (fdWidth d)
def fdHalf (d : Word) : Bool := bits d.toNat 23 20 == 1 || bits d.toNat 23 20 == 2
/-- The column dot depth of a pair (R203). A pair outside R203's table, of a CLASS 3 or 4 operand, meets the checks of R212 step 1 with
D = 32 and on the floating-point path (log 146). -/
def depthOf (da db : Word) : Nat :=
  if fdHalf da || fdHalf db then 8
  else if fdWidth da ≤ 4 ∧ fdWidth db ≤ 4 ∧ fdNarrow da.toNat ∧ fdNarrow db.toNat then 64
  else 32
/-- Both operands are integer-mode: the integer path (R211). -/
def intPath (da db : Word) : Bool := fdNarrow da.toNat && fdNarrow db.toNat && bit da.toNat 19 && bit db.toNat 19

/-- Half-rows of B and of metadata a k-step reads (R203, R259). -/
def Fields.q (f : Fields) (da db : Word) : Nat :=
  let d := depthOf da db
  if f.pat = 3 then cdiv (d * f.nmKept * fdCont db) (128 * max 1 f.mc) else cdiv (d * fdCont db) 128
def Fields.qm (f : Fields) (da db : Word) : Nat := cdiv (depthOf da db * f.nmKept) (32 * max 1 f.mc)

/-- Bytes of a row of A (R205). -/
def Fields.rb (f : Fields) (da db : Word) : Nat :=
  if f.bt then 32 * fdCont da else f.k * (depthOf da db * fdCont da / 8)

/-- Bytes of a row of results, and of all of them with metadata and scales (R224, R225). -/
def Fields.kept (f : Fields) : Nat := if f.nmm = 0 then 256 else 256 * f.nmn / f.nmm
def Fields.ob (f : Fields) (d : Word) : Nat := f.kept * fdCont d / 8
def align16 (n : Nat) : Nat := cdiv n 16 * 16
def scaleBlock (d : Word) : Nat := if fdWidth d ≤ 4 then 64 else 32
def Fields.metaAt (f : Fields) (d : Word) : Nat := align16 (f.m * f.ob d)
def Fields.scalesAt (f : Fields) (d : Word) : Nat :=
  if f.nmm = 0 then align16 (f.m * f.ob d) else align16 (f.metaAt d + cdiv (f.m * f.kept) 2)
def Fields.outSize (f : Fields) (d : Word) : Nat :=
  if f.oscale then f.scalesAt d + f.m * (256 / scaleBlock d)
  else if f.nmm = 0 then f.m * f.ob d else f.metaAt d + cdiv (f.m * f.kept) 2

/-- The checks of word 3 that read the output's format register (R212 step 1, R213). -/
def fdoIllegal (f : Fields) (d : Word) : Bool :=
  let wb := f.lastBit || f.tagsrc
  wb && ((f.wsat == 1 && (fdTy d.toNat).isFp) || (f.oscale && !fdNarrowFloat d.toNat))

/-- FORMAT_ILLEGAL of R212 step 2. -/
def formatIllegal (f : Fields) (fd : Nat → Word) : Bool :=
  let input (d : Word) : Bool := 3 ≤ bits d.toNat 23 20
  input (fd f.fda) || input (fd f.fdb) || (f.asf == 2 && !fdNarrowFloat (fd f.fdas).toNat) ||
    (f.bsf == 2 && !fdNarrowFloat (fd f.fdbs).toNat)

/-- The format pairs that the array implements (R211). -/
def pairOk (da db : Word) : Bool :=
  let c (d : Word) : Nat := bits d.toNat 23 20
  (c da == 0 && c db == 0) || (c da == 1 && c db == 1) || (c da == 2 && c db == 2) ||
    ((c da == 1 || c da == 2) && c db == 0 && fdWidth db ≤ 4)

/-- CFG_ILLEGAL of R212 step 1, R254 and R259, with the partition's half-rows. -/
def templateIllegal (f : Fields) (fd : Nat → Word) (window : Nat) : Bool :=
  let da := fd f.fda
  let db := fd f.fdb
  let dn := fd f.fdo
  let d := depthOf da db
  let wb := f.lastBit || f.tagsrc
  let ip := intPath da db
  let scales := f.asf != 0 || f.bsf != 0
  let rows := f.m * f.rb da db
  f.b 63 61 != 0 || f.b 31 29 != 0 || f.b 15 15 != 0 || f.b 3 3 != 0 || f.b 127 123 != 0 || f.b 191 176 != 0 ||
    f.b 143 141 != 0 || f.bsf == 3 || f.asf == 3 || 4 ≤ f.pat ||
    (f.tagsrc && (f.iter != 0 || f.seq != 0 || f.lastBit)) || (f.bsf == 0 && f.bspos != 0) ||
    (f.pat == 0 && f.param != 0) || ((f.pat == 1 || f.pat == 2) && f.b 175 160 != 0) ||
    (f.pat == 3 && (f.b 175 166 != 0 || f.b 159 157 != 0 || f.mc == 0 || f.nmKept == 0 || f.mc ≤ f.nmKept || d % f.mc != 0 ||
      window < f.mpos + f.qm da db * f.k)) ||
    (if wb then f.b 255 211 != 0 || f.wsat == 3 || 6 ≤ f.wrm || (f.nmm == 0 && f.nmn != 0) ||
        (f.nmm != 0 && (f.nmn == 0 || f.nmm ≤ f.nmn))
      else f.b 255 192 != 0) ||
    64 < f.accg * 8 + f.m || (wb && f.oslot == f.aslot) ||
    32768 < rows || (f.asf != 0 && (16 * f.asoff < rows || 32768 < 16 * f.asoff + f.m * f.k)) ||
    (f.q da db == 2 && f.bpos % 2 == 1) || window < f.bpos + f.q da db * f.k ||
    (f.bsf != 0 && window < f.bspos + cdiv f.k 16) ||
    (!ip && (f.p != 1 || f.ovfa)) ||
    (scales && (ip || fdHalf da || fdHalf db ||
      (fdNarrow da.toNat && fdNarrow db.toNat && decide (fdWidth da ≤ 4) != decide (fdWidth db ≤ 4)))) ||
    (f.bt && (f.pat != 0 || f.asf != 0 || ip || 256 / d < f.k)) ||
    fdoIllegal f dn || (wb && 32768 < f.outSize dn)

/-- The first failing check of a template (R212). -/
def templateFault (f : Fields) (fd : Nat → Word) (window : Nat) : Option Byte :=
  if templateIllegal f fd window then some 0x14
  else if formatIllegal f fd then some 0x24
  else if !pairOk (fd f.fda) (fd f.fdb) then some 0x0C
  else none

/-! ### Tile slots (R214) -/

def tileAt (s : State) (st sl : Nat) : Tile := vget (stn s st).tiles sl
def modTile (s : State) (st sl : Nat) (f : Tile → Tile) : State :=
  modStn s st fun x => { x with tiles := vset x.tiles sl (f (vget x.tiles sl)) }

/-- A step streams a slot. -/
def streamsSlot (s : State) (st sl : Nat) : Bool :=
  (stn s st).streams.any fun x => !x.ended && (templateFields x.bits).aslot == sl

/-- A copy channel in tile mode or a TILEGET drains a slot. -/
def drainsSlot (s : State) (st sl : Nat) : Bool :=
  ((stn s st).ch.any fun h => match h.queue with
    | c :: _ => c.state == 1 && c.tile && ((c.seg s st 0).type == 2) && bits (c.w 0) 18 15 == sl
    | [] => false) ||
  (List.range 16).any fun e => (elemAt s st e).pairs.any fun p => p.left != 0 &&
    (match slotWord s st e p.slot with | some w => w.op == .tileget && bits w.imm.toNat 3 0 == sl | none => false)

/-- The write-back unit may start on the head of its queue (R223). -/
def tryWriteback (s : State) (st n : Nat) : State :=
  let x := stn s st
  match x.pipe with
  | p :: _ =>
    if !x.wbBusy && (vget x.tiles (templateFields p.bits).oslot).tag == .empty then later s n (.writebackStart st) else s
  | [] => s

/-- What waits for a slot of a station is told that its tag changed. -/
def tileChanged (s : State) (st sl : Nat) : State :=
  let s := if (tileAt s st sl).tag = .empty then releaseAt s st 3 sl else s
  let s := tryWriteback s st 1
  (List.range 8).foldl (fun s c => match headCmd s st c with
    | some h => if h.state = 0 ∧ h.tile then later s 1 (.copyCommandStart st c) else s
    | none => s) s

/-- A DRAINING slot whose drain has ended and that no step streams becomes EMPTY. -/
def settleSlot (s : State) (st sl : Nat) : State :=
  if (tileAt s st sl).tag == .draining && !streamsSlot s st sl && !drainsSlot s st sl then
    tileChanged (modTile s st sl fun t => { t with tag := .empty }) st sl
  else s

/-- A fill ends: the slot goes FULL with its tags and the epoch is raised (R214). -/
def fillSlot (s : State) (st sl : Nat) (iter seq : Half) (last sc : Bool) : State :=
  tileChanged (modTile s st sl fun t =>
    { t with tag := .full, iter := iter, seq := seq, last := last, sc := sc, epoch := t.epoch + 1, fullAt := s.time }) st sl

/-! ### Which step fires (R218, R219, R226, R255, R261) -/

/-- What a template comes to in this cycle. -/
inductive Look where
  | nothing
  | wait
  | fault (cause : Byte)
  | ready
  deriving DecidableEq, Repr

/-- ITER, SEQ and LAST of a step (R208). -/
def stepTags (f : Fields) (t : Tile) : Half × Half × Bool :=
  if f.tagsrc then (t.iter, t.seq, t.last) else (BitVec.ofNat 16 f.iter, BitVec.ofNat 16 f.seq, f.lastBit)

/-- The tag check of R219: none lets the step go on. -/
def tagLook (gs : List Group) (iter seq : Half) : Option Look :=
  match gs with
  | [] => none
  | g :: rest =>
    let same := rest.all fun h => h.tag == g.tag && (g.tag == .empty || (h.iter == g.iter && h.next == g.next))
    if !same then some (.fault 0x11)
    else match g.tag with
      | .done => some .wait
      | t =>
        if t = .accum ∧ g.iter ≠ iter then some .wait
        else
          let d := (seq - (if t = .empty then 0 else g.next)).toNat
          if d = 0 then none else if d ≤ 15 then some .wait else some (.fault 0x11)

/-- A step's outcome in this cycle, in the order of R226, up to its metadata scan. -/
def stepLook (s : State) (st n : Nat) : Look :=
  let x := stn s st
  let t := vget x.tms n
  let f := templateFields t.bits
  let a := vget x.tiles f.aslot
  let p := part s t.part
  if !t.valid || t.faulted || t.reporting || a.tag != .full || decide (s.time ≤ a.fullAt) || t.firedOn == some a.epoch ||
      p.st != .running || p.swapped || !onDutyArray || released then .nothing
  else if a.sc != f.asc then .fault 0x0D
  else
    let tags := stepTags f a
    let gs := f.groups.map fun g => vget x.groups g
    match tagLook gs tags.1 tags.2.1 with
    | some l => l
    | none =>
      let mode : BitVec 2 := if intPath (vget x.fd f.fda) (vget x.fd f.fdb) then 2 else 1
      if !f.ovw && gs.any (fun g => g.mode != 0 && g.mode != mode) then .fault 0x1D
      else if f.pat = 1 ∨ f.pat = 2 then
        let g := vget x.ig (f.pat - 1)
        if g.eid.toNat ≠ bits f.param 15 0 then .wait
        else match g.st with
          | .ready => if g.dest then .wait else if bits g.window.toNat 47 32 = f.k then .ready else .fault 0x13
          | .faulted => .fault g.cause
          | _ => .wait
      else .ready
where
  onDutyArray : Bool := onDuty s (vget (stn s st).tms n).part
  /-- A releasing step streams the slot: another one waits for its next fill (R229). -/
  released : Bool := (stn s st).streams.any fun x =>
    !x.ended && (templateFields x.bits).arel && (templateFields x.bits).aslot == (templateFields (vget (stn s st).tms n).bits).aslot

/-- A stream or a scan occupies the cycle after this one. -/
def arrayBusy (s : State) (st : Nat) : Bool :=
  (stn s st).streams.any (fun x => decide (s.time + 1 ≤ x.start + x.len - 1)) ||
    (stn s st).tms.any fun t => t.scan.any fun x => decide (s.time < x.1)

/-- The template whose metadata scan ends so that it fires now, if it is still ready (R261). -/
def scannedNow (s : State) (st : Nat) : Option Nat := (List.range 16).find? fun n =>
  (vget (stn s st).tms n).scan.any fun x => x.1 == s.time && x.2.1 == (tileAt s st (templateFields (vget (stn s st).tms n).bits).aslot).epoch

/-- Something happens at an array in this cycle: a fault, a firing or a scan. -/
def arrayActs (s : State) (st : Nat) : Bool :=
  (stn s st).tms.any (·.valid) && (List.range 16).any fun n => match stepLook s st n with
    | .fault _ => true
    | .ready => !arrayBusy s st
    | _ => false

/-- A step of template n takes a fault (R226, R227): t is the template as the step has it, which MXCFG may since have rewritten
(R229). -/
def stepFault (s : State) (st n : Nat) (t : Template) (cause : Byte) (iter seq : Half) (col ncol : Nat) : State :=
  let f := templateFields t.bits
  let data := reportBytes [(1, cause.toNat), (1, n), (1, f.aslot), (1, f.accg), (2, iter.toNat), (2, seq.toNat), (2, st), (2, 0),
    (4, t.owner.toNat), (2, col), (2, ncol)]
  let s := modStn s st fun x =>
    { x with tms := vset x.tms n { vget x.tms n with faulted := true, cause := cause, scan := none } }
  let live := (getThr s t.owner).any fun th => th.st.live
  sendMsg s none (if live then t.owner else (part s t.part).supervisor)
    { sender := 0, data := data, sys := true, step := some (st, n) } st

/-- A step fires: everything it reads is captured, its tags advance, its stream begins (R206, R216, R218, R256). -/
def stepFires (s : State) (st n : Nat) : State :=
  let x := stn s st
  let t := vget x.tms n
  let f := templateFields t.bits
  let a := vget x.tiles f.aslot
  let (iter, seq, last) := stepTags f a
  let da := vget x.fd f.fda
  let db := vget x.fd f.fdb
  let lists := if f.pat = 1 ∨ f.pat = 2 then some (vget x.ig (f.pat - 1)).lists else none
  let depth := match lists with
    | some l => max 1 ((l.map (·.length)).foldl max 0)
    | none => f.k
  let len := f.m * depth
  let sm : Stream :=
    { tm := n, bits := t.bits, owner := t.owner, part := t.part, fda := da, fdb := db, fdas := vget x.fd f.fdas,
      fdbs := vget x.fd f.fdbs, fdo := vget x.fd f.fdo, sA := t.sA, sB := t.sB, iter := iter, seq := seq, last := last,
      lists := lists, start := s.time + 1, len := len }
  let mode : BitVec 2 := if intPath da db then 2 else 1
  let s := modStn s st fun x =>
    { x with
      tms := vset x.tms n { t with fires := t.fires + 1, lseq := seq, ovf := false, firedOn := some a.epoch, scan := none }
      streams := x.streams ++ [sm]
      groups := f.groups.foldl (fun v g =>
        let o := vget v g
        vset v g { o with tag := if last then .done else .accum, iter := iter, next := seq + 1, mode := mode,
                          since := if o.tag = .empty then [] else o.since, bad := o.tag != .empty && o.bad }) x.groups }
  let s := later s (len + 1) (.stepStreamEnd st)
  later s (len + (if f.bt then 20 else 12)) (.stepAccumulationComplete st sm.start)

/-- One cycle of an array (R218): every fault is taken, then the lowest ready step fires, or its scan begins. -/
def arrayCycle (s : State) (st : Nat) : State :=
  let s := (List.range 16).foldl (fun s n => match stepLook s st n with
    | .fault c =>
      let t := vget (stn s st).tms n
      let f := templateFields t.bits
      let tags := stepTags f (tileAt s st f.aslot)
      stepFault s st n t c tags.1 tags.2.1 0 0
    | _ => s) s
  if arrayBusy s st then s
  else
    let readies := (List.range 16).filter fun n => stepLook s st n == .ready
    let pick := match scannedNow s st with
      | some n => if readies.contains n then some n else readies.head?
      | none => readies.head?
    match pick with
    | none => s
    | some n =>
      let t := vget (stn s st).tms n
      let f := templateFields t.bits
      if f.pat = 3 ∧ scannedNow s st ≠ some n then
        let da := vget (stn s st).fd f.fda
        let db := vget (stn s st).fd f.fdb
        let c := cdiv (f.k * f.qm da db) 2
        let s := modStn s st fun x =>
          { x with tms := vset x.tms n { t with scan := some (s.time + c + 1, (tileAt s st f.aslot).epoch, []) } }
        later s c (.nmMetaScan st n)
      else stepFires s st n

/-! ### Operands of a stream (R203 to R205, R257, R260) -/

/-- w bits from bit position pos on of a byte function. -/
def bitsFrom (rd : Nat → Nat) (pos w : Nat) : Nat :=
  let n := (pos % 8 + w + 7) / 8
  (List.range n).foldl (fun a i => a + rd (pos / 8 + i) * 256 ^ i) 0 / 2 ^ (pos % 8) % 2 ^ w

/-- A byte of the A slot, and byte i of a column's half-rows from h on, relative to the partition's window. Where MXCFG.FD has made a
template's operands larger than its slot or window (R213), a firing reads the bytes that follow (log 147). -/
def aByte (s : State) (st slot i : Nat) : Nat := (rdB s (tileKey st slot i)).toNat
def bByte (s : State) (st pn h col i : Nat) : Nat := (rdB s (bstoreKey st ((part s pn).bsFirst + h + i / 16) col (i % 16))).toNat

/-- Chunk j of row i of A (R205). -/
def aChunk (s : State) (st : Nat) (x : Stream) (i j : Nat) : List Nat :=
  let f := templateFields x.bits
  let d := depthOf x.fda x.fdb
  let c := fdCont x.fda
  (List.range d).map fun l => bitsFrom (aByte s st f.aslot) (8 * (i * f.rb x.fda x.fdb) + (j * d + l) * c) (fdWidth x.fda)

/-- The D/M groups of packed values and indices of a k-step of N:M metadata: pairs of index within the chunk and place (R260). -/
def nmIndex (s : State) (st : Nat) (x : Stream) (j c g u : Nat) : Nat :=
  let f := templateFields x.bits
  let k := g * f.nmKept + u
  let b := bByte s st x.part (f.mpos + j * f.qm x.fda x.fdb) c (k / 2)
  b / 16 ^ (k % 2) % 16

/-- The slice of column c for the block of rank t, k-step j (R203, R257, R260, R262). -/
def bSlice (s : State) (st : Nat) (x : Stream) (t j c : Nat) : List Nat :=
  let f := templateFields x.bits
  let d := depthOf x.fda x.fdb
  let q := f.q x.fda x.fdb
  let cb := fdCont x.fdb
  let rd := bByte s st x.part (f.bpos + t * q) c
  let at_ (l : Nat) : Nat := bitsFrom rd (l * cb) (fdWidth x.fdb)
  if f.pat = 3 then
    (List.range d).map fun l =>
      let g := l / f.mc
      (List.range f.nmKept).foldl (fun v u => if nmIndex s st x j c g u = l % f.mc then some (at_ (g * f.nmKept + u)) else v) none
        |>.getD (zeroCode x.fdb)
  else (List.range d).map at_
where
  /-- The code of a zero of the format: every format reads code 0 as zero. -/
  zeroCode (_ : Word) : Nat := 0

/-- A block scale byte under its format field (R144, R220). -/
def scaleNum (kind : Nat) (d : Word) (v : Nat) : Num :=
  match kind with
  | 0 => .fin false 1 0 false
  | 1 => e8m0 v
  | _ => (fdTy d.toNat).num v

def scaleA (s : State) (st : Nat) (x : Stream) (i j : Nat) : Num :=
  let f := templateFields x.bits
  scaleNum f.asf x.fdas (if f.asf = 0 then 0 else aByte s st f.aslot (16 * f.asoff + i * f.k + j))
def scaleB (s : State) (st : Nat) (x : Stream) (t c : Nat) : Num :=
  let f := templateFields x.bits
  scaleNum f.bsf x.fdbs (if f.bsf = 0 then 0 else bByte s st x.part (f.bspos + t / 16) c (t % 16))

/-- The blocks of a column group in order: rank and k-step (R220, R256). -/
def blocksOf (x : Stream) (g : Nat) : List (Nat × Nat) :=
  match x.lists with
  | some l => (l.getD g []).zipIdx.map fun p => (p.2, p.1)
  | none => (List.range (templateFields x.bits).k).map fun j => (j, j)

/-! ### Arithmetic of a stream (R152, R153, R217, R220 to R222) -/

/-- The value of a code as an integer. -/
def codeInt (d : Word) (c : Nat) : Int :=
  match (fdTy d.toNat).num c with
  | .fin n m e _ => let v : Int := (m * 2 ^ e.toNat : Nat); if n then -v else v
  | _ => 0

/-- An accumulator element of the integer path: W96I, inner accumulator, held at a bound, whether a W96I addition wrapped. -/
structure IntAcc where
  acc : W96
  inner : Int
  held : Bool
  wrapped : Bool := false
  saturated : Bool := false
  deriving DecidableEq, Repr

/-- The inner accumulator is added into the W96I accumulator and cleared (R153). -/
def IntAcc.promote (a : IntAcc) : IntAcc :=
  let v := a.acc.toInt + a.inner
  { a with acc := BitVec.ofInt 96 v, inner := 0, held := false,
           wrapped := a.wrapped || decide (v < -(2 ^ 95)) || decide (2 ^ 95 ≤ v) }

/-- One k-step (R153, R222): n is its count from the first k-step of the accumulation. -/
def IntAcc.step (p n : Nat) (a : IntAcc) (sum : Int) : IntAcc :=
  let v := a.inner + sum
  let hi : Int := 2 ^ 23 - 1
  let lo : Int := -(2 ^ 23)
  let a := if a.held then { a with saturated := true }
    else if v < lo then { a with inner := lo, held := true, saturated := true }
    else if hi < v then { a with inner := hi, held := true, saturated := true }
    else { a with inner := v }
  if n % p = 0 then a.promote else a

/-- An element of the floating-point path after block b of its column (R152). -/
def floatElem (s : State) (st : Nat) (x : Stream) (i c : Nat) (b : Nat × Nat) (base : W96) : W96 :=
  let as := (aChunk s st x i b.2).map (fdTy x.fda.toNat).num
  let bs := (bSlice s st x b.1 b.2 c).map (fdTy x.fdb.toNat).num
  (w96Add base (kStep as bs (scaleA s st x i b.2) (scaleB s st x b.1 c))).1

/-- The pairwise tree of a list of column results (R155), by levels. -/
def pairSum : Nat → List W96 → List W96
  | 0, l => l
  | n + 1, l => pairSum n (halves l)
where
  halves : List W96 → List W96
    | a :: b :: r => (w96Add a b).1 :: halves r
    | l => l

/-- Element j·D + l of row i of a Bᵀ step (R221). -/
def btElem (s : State) (st : Nat) (x : Stream) (i j l : Nat) (base : W96) : W96 :=
  let f := templateFields x.bits
  let cols := (List.range 256).map fun c =>
    let a := (fdTy x.fda.toNat).num (bitsFrom (aByte s st f.aslot) (8 * (i * f.rb x.fda x.fdb) + c * fdCont x.fda) (fdWidth x.fda))
    let b := (fdTy x.fdb.toNat).num ((bSlice s st x j j c).getD l 0)
    kStep [a] [b] (.fin false 1 0 false) (scaleB s st x j c)
  (w96Add base ((pairSum 8 cols).headD 0)).1

/-- Accumulator entries of the rows of a step, replaced. -/
def replaceRange {α : Type} (m : KMap α) (lo hi : Nat) (l : List (Nat × α)) : KMap α :=
  m.filter (fun e => e.1 < lo) ++ l ++ m.filter fun e => hi ≤ e.1

/-- An element of a row on the floating-point path after the row's cycle of block rank t (R220, R221, R256). -/
def floatCell (s : State) (st : Nat) (x : Stream) (i t c : Nat) (old : W96) : W96 :=
  let d := depthOf x.fda x.fdb
  if (templateFields x.bits).bt then (if c / d = t then btElem s st x i t (c % d) old else old)
  else match (blocksOf x (c / 16))[t]? with
    | some b => floatElem s st x i c b old
    | none => old

/-- The same on the integer path, whose k-steps are counted from the first one of the accumulation (R153, R220). -/
def intCell (s : State) (st : Nat) (x : Stream) (i t c : Nat) (old : IntAcc) : IntAcc :=
  let f := templateFields x.bits
  match (blocksOf x (c / 16))[t]? with
  | some b =>
    let n := (kget (vget (stn s st).groups f.accg).since (c / 16)).getD 0
    old.step f.p (n + t + 1) (((aChunk s st x i b.2).zip (bSlice s st x b.1 b.2 c)).map fun p => codeInt x.fda p.1 * codeInt x.fdb p.2).sum
  | none => old

/-- One cycle of a stream: row done mod M of the blocks of rank done / M, with its operands as they stand in this cycle (R220, R228,
R256). -/
def streamRow (s : State) (st : Nat) (x : Stream) : State :=
  let f := templateFields x.bits
  let y := stn s st
  let i := x.done % f.m
  let t := x.done / f.m
  let lo := 256 * (8 * f.accg + i)
  let zero := f.ovw && t == 0
  let old (c : Nat) : W96 := if zero then 0 else (kget y.acc (lo + c)).getD 0
  let put (x' : Stream) (y : Station) : Station := { y with streams := y.streams.map fun z => if z = x then x' else z }
  if intPath x.fda x.fdb then
    let elems : List (Nat × IntAcc) := (List.range 256).map fun c =>
      let inn := if zero then (0, false) else (kget y.inner (lo + c)).getD (0, false)
      (lo + c, intCell s st x i t c { acc := old c, inner := inn.1.toInt, held := inn.2 })
    let cols (p : IntAcc → Bool) : BitVec 256 :=
      (elems.filter fun e => p e.2).foldl (fun v e => v ||| ((1 : BitVec 256) <<< (e.1 % 256))) 0
    modStn s st fun y => put { x with done := x.done + 1, sat := x.sat ||| cols (·.saturated) }
      { y with acc := replaceRange y.acc lo (lo + 256) (elems.map fun e => (e.1, e.2.acc))
               inner := replaceRange y.inner lo (lo + 256) (elems.map fun e => (e.1, (BitVec.ofInt 24 e.2.inner, e.2.held)))
               ovf := y.ovf ||| cols fun e => e.saturated || e.wrapped }
  else
    let elems : List (Nat × W96) := (List.range 256).map fun c => (lo + c, floatCell s st x i t c (old c))
    modStn s st fun y => put { x with done := x.done + 1 } { y with acc := replaceRange y.acc lo (lo + 256) elems }

/-- The cycle of the stream that an array has under way, if any (R218). -/
def streamCycle (s : State) (st : Nat) : State :=
  match (stn s st).streams.find? fun x => !x.ended && decide (x.done < x.len) && decide (x.start ≤ s.time) with
  | some x => if (part s x.part).swapped then s else streamRow s st x
  | none => s

/-- What stands after a stream on the integer path: its k-steps are counted, and saturation is marked and may be a fault (R220, R222,
R226). -/
def streamSum (s : State) (st : Nat) (x : Stream) : State :=
  let f := templateFields x.bits
  let sat := (List.range 256).filter x.sat.getLsbD
  if intPath x.fda x.fdb then
    let since (g : Nat) : Nat := (kget (vget (stn s st).groups f.accg).since g).getD 0
    let s := modStn s st fun y =>
      { y with groups := f.groups.foldl (fun v g =>
                 let o := vget v g
                 vset v g { o with since := (List.range 16).map fun c => (c, since c + (blocksOf x c).length),
                                   bad := o.bad || (f.ovfa && !sat.isEmpty) }) y.groups
               tms := vset y.tms x.tm { vget y.tms x.tm with ovf := (vget y.tms x.tm).ovf || !sat.isEmpty } }
    if f.ovfa && !sat.isEmpty then stepFault s st x.tm (ownTemplate x) 0x12 x.iter x.seq (sat.headD 0) sat.length else s
  else s
where
  /-- The template under which a stream runs. -/
  ownTemplate (x : Stream) : Template := { valid := true, bits := x.bits, owner := x.owner, part := x.part }

/-- A stream ends (R215): a releasing step empties its slot. -/
def streamEnd (s : State) (st : Nat) : State :=
  match (stn s st).streams.find? fun x => !x.ended with
  | none => s
  | some x =>
    let f := templateFields x.bits
    let s := streamSum s st x
    let s := modStn s st fun y => { y with streams := y.streams.map fun z => if z = x then { z with ended := true } else z }
    let s := if f.arel && (tileAt s st f.aslot).tag == .full then
        tileChanged (modTile s st f.aslot fun t => { t with tag := .empty }) st f.aslot
      else s
    settleSlot s st f.aslot

/-- A step's last addition completes (R223, R226): a LAST step's set waits for its write-back, or goes EMPTY when a step of it took
ACC_OVERFLOW. The inner sums of the LAST step's rows are promoted, not those of rows that only an earlier step had (R153; log 118), also where
an ACC_OVERFLOW keeps the set from being written back (log 148). -/
def accComplete (s : State) (st start : Nat) : State :=
  match (stn s st).streams.find? fun x => x.start == start with
  | none => s
  | some x =>
    let f := templateFields x.bits
    let lo := 256 * (8 * f.accg)
    let hi := lo + 256 * f.m
    let s := modStn s st fun y => { y with streams := y.streams.filter (· != x) }
    if !x.last then s
    else
      let y := stn s st
      let s := if intPath x.fda x.fdb then
          let all := (nats lo hi).map fun k =>
            let inn := (kget y.inner k).getD (0, false)
            (k, ({ acc := (kget y.acc k).getD 0, inner := inn.1.toInt, held := inn.2 } : IntAcc).promote)
          let mark := (all.filter fun e => e.2.wrapped).foldl (fun (v : BitVec 256) e => v ||| ((1 : BitVec 256) <<< (e.1 % 256))) 0
          modStn s st fun y => { y with acc := replaceRange y.acc lo hi (all.map fun e => (e.1, e.2.acc)),
                                        inner := replaceRange y.inner lo hi [], ovf := y.ovf ||| mark }
        else s
      if (vget y.groups f.accg).bad then emptySet s f
      else tryWriteback (modStn s st fun y => { y with pipe := y.pipe ++ [x] }) st 1
where
  /-- The groups of a set become EMPTY, their modes unchanged. -/
  emptySet (s : State) (f : Fields) : State := modStn s st fun y =>
    let clear (v : Vector Group 8) (g : Nat) : Vector Group 8 :=
      vset v g { vget v g with tag := .empty, next := 0, since := [], bad := false }
    { y with groups := f.groups.foldl clear y.groups }

/-! ### Write-back (R223 to R225) -/

/-- The exact value of an accumulator element under the two per-tensor scales (R145). -/
def scaledAcc (x : Stream) (a : W96) : Num :=
  let v : Num := if intPath x.fda x.fdb then .fin (decide (a.toInt < 0)) a.toInt.natAbs 0 false
    else match w96f.num a.toNat with | .nan _ => .nan false | n => n
  (mulNum (mulNum v (f32.num x.sA.toNat)).1 (f32.num x.sB.toNat)).1

/-- The largest finite magnitude of a list, as an exponent: floor of its log2 (R224, R287). -/
def maxExp (l : List Num) : Option Int := (l.filterMap leadExp).max?

/-- A block's scale byte (R224, R287). -/
def blockScale (d : Word) (l : List Num) : Nat :=
  match maxExp l with
  | none => 127
  | some e => (max 0 (min 254 (e - topExp d.toNat + 127))).toNat

/-- A value divided by 2^(v − 127). -/
def unscale (v : Nat) (x : Num) : Num := match x with
  | .fin n m e st => .fin n m (e - ((v : Int) - 127)) st
  | y => y

/-- Result b ranks before result a by magnitude: NaN first, the lower column on a tie (R225). -/
def outRanks (t : Ty) (a b : Nat) : Bool :=
  match t.num a, t.num b with
  | .nan _, _ => true
  | _, .nan _ => false
  | .inf _, _ => true
  | _, .inf _ => false
  | .fin _ ma ea _, .fin _ mb eb _ =>
    let q := min ea eb
    decide (mb * 2 ^ (eb - q).toNat ≤ ma * 2 ^ (ea - q).toNat)

/-- Position of the result that ranks first among those not yet kept. -/
def bestOf (t : Ty) (l : List Nat) (skip : List Nat) : Nat :=
  (List.range l.length).foldl (fun b i =>
    if skip.contains i then b
    else if l.length ≤ b then i
    else if outRanks t (l.getD b 0) (l.getD i 0) then b else i) l.length

/-- The n positions kept of a group, ascending. -/
def keepN (t : Ty) (l : List Nat) : Nat → List Nat → List Nat
  | 0, k => (List.range l.length).filter k.contains
  | n + 1, k => keepN t l n (bestOf t l k :: k)

/-- Numbers of w bits each packed from the lowest byte on. -/
def packBits (w : Nat) (l : List Nat) : List Byte :=
  natLe (cdiv (w * l.length) 8) (l.foldr (fun v a => v + a * 2 ^ w) 0)

/-- The bytes of an output slot, by offset (R224, R225). -/
def outBytes (s : State) (st : Nat) (x : Stream) : List (Nat × List Byte) :=
  let f := templateFields x.bits
  let t := fdTy x.fdo.toNat
  let c := fdCont x.fdo
  let l := scaleBlock x.fdo
  let row (i : Nat) : List Num := (List.range 256).map fun col =>
    scaledAcc x ((kget (stn s st).acc (256 * (8 * f.accg + i) + col)).getD 0)
  let scales (r : List Num) : List Nat := (List.range (256 / l)).map fun k => blockScale x.fdo ((r.drop (k * l)).take l)
  let code (i : Nat) (r : List Num) : List Nat :=
    let sc := scales r
    r.zipIdx.map fun p =>
      let v := if f.oscale then unscale (sc.getD (p.2 / l) 127) p.1 else p.1
      (convert t f.wrm f.wsat (wbState x.iter i p.2) v).1
  let rows := (List.range f.m).map fun i => let r := row i; (code i r, scales r)
  if f.nmm = 0 then
    let body := rows.zipIdx.map fun p => (p.2 * f.ob x.fdo, packBits c p.1.1)
    if f.oscale then body ++ [(f.scalesAt x.fdo, rows.flatMap fun r => r.2.map (BitVec.ofNat 8))] else body
  else
    let pruned := rows.map fun r =>
      let ks := (List.range (256 / f.nmm)).map fun u => keepN t ((r.1.drop (u * f.nmm)).take f.nmm) f.nmn []
      (ks.zipIdx.flatMap fun k => k.1.map fun i => r.1.getD (k.2 * f.nmm + i) 0, ks.flatten)
    let body := pruned.zipIdx.map fun p => (p.2 * f.ob x.fdo, packBits c p.1.1)
    let meta_ := [(f.metaAt x.fdo, packBits 4 (pruned.flatMap (·.2)))]
    body ++ meta_ ++ (if f.oscale then [(f.scalesAt x.fdo, rows.flatMap fun r => r.2.map (BitVec.ofNat 8))] else [])

/-- Write-back starts on the head of the queue: the slot goes FILLING with filler engine (R223). -/
def wbStart (s : State) (st : Nat) : State :=
  let x := stn s st
  match x.pipe with
  | p :: _ =>
    let f := templateFields p.bits
    if x.wbBusy || (vget x.tiles f.oslot).tag != .empty then s
    else
      let s := modTile s st f.oslot fun t => { t with tag := .filling, eng := true }
      let s := modStn s st fun x => { x with wbBusy := true }
      later s ((if f.nmm = 0 then 4 else 8) * f.m + 7) (.writebackComplete st)
  | [] => s

/-- Write-back ends: the slot goes FULL, the set EMPTY, and the unit turns to the next (R223). -/
def wbComplete (s : State) (st : Nat) : State :=
  match (stn s st).pipe with
  | x :: rest =>
    let f := templateFields x.bits
    let s := (outBytes s st x).foldl (fun s p => wrL s (tileKey st f.oslot p.1) p.2) s
    let s := modStn s st fun y => { y with pipe := rest, wbBusy := false }
    let s := accComplete.emptySet st s f
    fillSlot s st f.oslot x.iter 0 true f.oscale
  | [] => s

/-- A cycle of a metadata scan: the next two half-rows of every column are read (R261). -/
def scanRead (s : State) (st n : Nat) : State :=
  let y := stn s st
  let t := vget y.tms n
  match t.scan with
  | none => s
  | some (due, epoch, seen) =>
    let f := templateFields t.bits
    let rows := f.k * f.qm (vget y.fd f.fda) (vget y.fd f.fdb)
    let half (h c : Nat) : BitVec 128 := BitVec.ofNat 128 ((List.range 16).foldl (fun v i => v + bByte s st t.part (f.mpos + h) c i * 256 ^ i) 0)
    let h := seen.length / 256
    let now := ((List.range 2).filter fun k => decide (h + k < rows)).flatMap fun k => (List.range 256).map fun c => half (h + k) c
    modStn s st fun x => { x with tms := vset x.tms n { t with scan := some (due, epoch, seen ++ now) } }

/-- Scans under way go on; the cycle in which one ends is that of NM_META_SCAN. -/
def scanCycle (s : State) (st : Nat) : State :=
  (List.range 16).foldl (fun s n =>
    let t := vget (stn s st).tms n
    if (t.scan.any fun x => decide (s.time + 1 < x.1)) && !(part s t.part).swapped then scanRead s st n else s) s

/-- The metadata that the scan of a PAT-3 step has read are bad: an index at or above M, or twice in a group (R260, R261). -/
def nmScanBad (s : State) (st n : Nat) : Bool :=
  let y := stn s st
  let t := vget y.tms n
  let f := templateFields t.bits
  let da := vget y.fd f.fda
  let db := vget y.fd f.fdb
  let seen := (t.scan.map (·.2.2)).getD []
  let index (j c k : Nat) : Nat := (seen.getD ((j * f.qm da db + k / 32) * 256 + c) 0).toNat / 16 ^ (k % 32) % 16
  (List.range f.k).any fun j => (List.range 256).any fun c => (List.range (depthOf da db / f.mc)).any fun g =>
    let ix := (List.range f.nmKept).map fun u => index j c (g * f.nmKept + u)
    ix.any (f.mc ≤ ·) || decide (ix.eraseDups.length < ix.length)

end Sys2Proof.Machine
end

