-- ==== Sys2Proof/Machine/Flags.lean ====
section
/-! DEFINITION. The rounding mode an instruction uses, the sticky flags it raises and the generators it steps (R130, R131, R134,
R169). -/

namespace Sys2Proof.Machine

/-- The mode of a field RMF: a static mode, or for 7 the mode of cr.fpcsr at issue (R169, R188). -/
def modeOf (th : Thread) (r : BitVec 3) : Nat := if r = 7 then bits th.fpcsr.toNat 2 0 else r.toNat

/-- Flags raised are ORed into cr.fpcsr [9:5] (R131). -/
def raise (th : Thread) (fl : Flags) : Thread := { th with fpcsr := th.fpcsr ||| (fl.setWidth 64 <<< 5) }

/-- The state of generator j (R134). -/
def genAt (th : Thread) (j : Nat) : Word := vget th.gens j

/-- Generator j after a rounding in a mode: it steps in mode SR only (R134). -/
def stepGen (mode j : Nat) (th : Thread) : Thread :=
  if mode = 5 then { th with gens := vset th.gens j (xorShift (vget th.gens j)) } else th

/-- The generators of the lanes of a list, each stepped once (R134). -/
def stepGens (mode : Nat) (l : List Nat) (th : Thread) : Thread := l.foldl (fun th j => stepGen mode j th) th

/-- The flags of a list of lanes together (R131). -/
def orFlags (l : List Flags) : Flags := l.foldl (· ||| ·) 0

end Sys2Proof.Machine
end

