-- ==== Sys2Proof/Machine/Operands.lean ====
section
/-! DEFINITION. Operand forms of Porlek instructions: immediates (R80), floats in general registers (R170), lanes of vector
registers and their masks (R74, R75, R185), the elements of VCVT (R194), and offsets in segments (R319). -/

namespace Sys2Proof.Machine

/-! ### Immediates and floats in general registers -/

/-- An immediate of 15 or 20 bits, sign-extended (R80). -/
def imm15 (i : BitVec 15) : DWord := i.signExtend 64
def imm20 (i : BitVec 20) : DWord := i.signExtend 64
/-- An offset in instructions of 15 or 20 bits, in bytes (R80). -/
def off15 (o : BitVec 15) : DWord := o.signExtend 64 <<< 2
def off20 (o : BitVec 20) : DWord := o.signExtend 64 <<< 2
/-- An offset in a segment: a register and an immediate of 12 bits (R80). -/
def memOff (th : Thread) (a : BitVec 5) (i : BitVec 12) : DWord := rg th a + i.signExtend 64

/-- A float of a precision in a register's low bits (R170). -/
def fpIn (f : Fmt) (x : DWord) : Nat := x.toNat % 2 ^ f.width
/-- A Boolean result (R165, R173). -/
def boolWord (b : Bool) : DWord := if b then 1 else 0

/-! ### Lanes -/

/-- Width and number of the lanes: L = 0 or 1 (R184). -/
def laneW (l : Bool) : Nat := if l then 16 else 32
def laneN (l : Bool) : Nat := if l then 32 else 16
/-- Lane i of a register. -/
def lane (l : Bool) (x : VReg) (i : Nat) : Nat := x.toNat / 2 ^ (laneW l * i) % 2 ^ laneW l
/-- A register from its lanes. -/
def ofLanes (l : Bool) (xs : List Nat) : VReg :=
  BitVec.ofNat 512 (xs.foldr (fun v a => v % 2 ^ laneW l + a * 2 ^ laneW l) 0)
/-- The governing mask bit of lane i (R75). -/
def kbit (l : Bool) (m : BitVec 16) (i : Nat) : Bool := m.getLsbD (if l then i / 2 else i)
/-- The enabled lanes, ascending. -/
def enabled (l : Bool) (m : BitVec 16) : List Nat := (List.range (laneN l)).filter (kbit l m)
/-- A register whose lane i is f i. -/
def lanesOf (l : Bool) (f : Nat → Nat) : VReg := ofLanes l ((List.range (laneN l)).map f)
/-- The two's complement value of a lane. -/
def sgnOf (w x : Nat) : Int := if 2 ^ (w - 1) ≤ x then (x : Int) - 2 ^ w else x
/-- The low w bits of an integer. -/
def wrapOf (w : Nat) (v : Int) : Nat := (v % (2 ^ w : Nat)).toNat
/-- An exact integer clamped to a lane's range (R186). -/
def clampOf (w : Nat) (u : Bool) (v : Int) : Nat :=
  if u then (max 0 (min v (2 ^ w - 1))).toNat else wrapOf w (max (-(2 ^ (w - 1))) (min v (2 ^ (w - 1) - 1)))
/-- The value of a lane, unsigned or signed. -/
def laneInt (w : Nat) (u : Bool) (x : Nat) : Int := if u then x else sgnOf w x

/-- The format of VFLT's lanes (R188). -/
def vfltFmt (l f : Bool) : Fmt := if l then (if f then bf16 else f16) else f32

/-! ### Elements of VCVT (R194) -/

/-- A type, its width, its container and the container of element i, by type code and the station's format registers. -/
structure ElemTy where
  ty : Ty
  w : Nat
  c : Nat
  deriving DecidableEq, Repr

def elemTy (s : State) (st code : Nat) : ElemTy :=
  if code < 8 then
    let t := tyOfCode code
    { ty := t, w := t.width, c := t.width }
  else
    let t := fdTy (vget (stn s st).fd (code - 8)).toNat
    { ty := t, w := t.width, c := container t.width }

/-- A type code that names a format register of a class (R138). -/
def codeClass (s : State) (st code : Nat) : Nat := bits (vget (stn s st).fd (code - 8)).toNat 23 20

/-- Element i of a register. -/
def ElemTy.get (e : ElemTy) (x : VReg) (i : Nat) : Nat := x.toNat / 2 ^ (e.c * i) % 2 ^ e.w

/-! ### Vector results with a mask of bits -/

/-- A vector result of which a mask of bits is written, the others unchanged; pushed when the register is bound, 4-byte lanes without
a written bit having valid bit 0 (R76, R192, R195). -/
def vecBits (s : State) (th : Thread) (d : BitVec 4) (mask x : VReg) : State :=
  let lanes : BitVec 16 := (List.range 16).foldl (fun m j =>
    if mask.extractLsb' (32 * j) 32 = 0 then m else m ||| ((1 : BitVec 16) <<< j)) 0
  if th.unbOut.contains d.toNat || (portOf s th.station false 0 d.toNat th.tid).isSome then vecOut s th d lanes (x &&& mask)
  else
    let th := { nextPc th with unbIn := [], unbOut := [] }
    setThr s (wv th d ((rv th d &&& ~~~mask) ||| (x &&& mask)))

/-! ### Accesses through a segment (R319, R360, R364) -/

/-- The virtual address of an offset (R319). -/
def vaOf (g : Seg) (off : DWord) : DWord := BitVec.ofNat 64 ((g.base + off.toNat) % 2 ^ 56)

/-- The element access of an offset (R320): for a station store or the tile file BASE + off is an offset there. -/
def elAt (g : Seg) (lane : Nat) (off : DWord) (v : DWord) : El := { lane := lane, va := vaOf g off, val := v }

/-- A scalar access issued: its checks, then the long operation (R34, R360). -/
def scalarAccess (s : State) (th : Thread) (a : Access) (off v : DWord) (wr : Bool) : Res :=
  match segCheck s (tidPart th.tid) a.seg off.toNat a.z wr with
  | some c => .error (trapAcc th c a (vaOf a.seg off) 0)
  | none => .ok (issueAccess s (nextPc th) th.pc { a with els := [elAt a.seg 0 off v] } none)

end Sys2Proof.Machine
end

