-- ==== Sys2Proof/Machine/Matrix.lean ====
section
/-! DEFINITION. The instructions of MTX (R231 to R237) and the steps of a matrix array (R215, R218, R223, R226, R261). -/

namespace Sys2Proof.Machine

/-! ### MXCFG, MXCFG.FD and MXSCL (R232 to R234) -/

/-- The half-rows of the B-store that a thread's partition has (R204). -/
def bWindow (s : State) (th : Thread) : Nat := (part s (tidPart th.tid)).bsCount

/-- The format registers of a station by number. -/
def fdOf (s : State) (st i : Nat) : Word := vget (stn s st).fd i

/-- MXCFG (R212, R232). A written template starts anew, with no firing counted and none made on the slot's fill (log 116); a report of
the old one that waits still keeps it from firing (R227). -/
def execMxcfg (w : Bool) (a b : BitVec 5) (s : State) : Out :=
  issue w s fun s th =>
    let n := (rg th b).toNat
    let t : BitVec 256 := rgN th (a.toNat + 3) ++ rgN th (a.toNat + 2) ++ rgN th (a.toNat + 1) ++ rg th a
    let put (x : Template) : State := setThr (modStn s th.station fun y => { y with tms := vset y.tms n x }) (nextPc th)
    if 15 < n then .error (trapOp th 0x14)
    else if !t.getLsbD 0 then .ok (put { vget (stn s th.station).tms n with valid := false, scan := none })
    else match templateFault (templateFields t) (fdOf s th.station) (bWindow s th) with
      | some c => .error (trapOp th c)
      | none =>
        let old := vget (stn s th.station).tms n
        .ok (put { valid := true, bits := t, owner := th.tid, part := tidPart th.tid, reporting := old.reporting })

/-- A valid template that fails the checks of R213 with other format registers. -/
def templateSpoilt (x : Template) (fd : Nat → Word) : Bool :=
  let f := templateFields x.bits
  x.valid && (formatIllegal f fd || !pairOk (fd f.fda) (fd f.fdb) || fdoIllegal f (fd f.fdo))

/-- MXCFG.FD (R213, R233). -/
def execMxcfgFd (w : Bool) (b : BitVec 5) (n : BitVec 3) (s : State) : Out :=
  issue w s fun s th =>
    let d : Word := (rg th b).truncate 32 &&& 0x00FFFFFF
    let fd (i : Nat) : Word := if i = n.toNat then d else fdOf s th.station i
    if fdIllegal d.toNat then .error (trapOp th 0x24)
    else if (stn s th.station).tms.any fun x => templateSpoilt x fd then .error (trapOp th 0x0C)
    else .ok (setThr (modStn s th.station fun x => { x with fd := vset x.fd n.toNat d }) (nextPc th))

/-- MXSCL (R234). -/
def execMxscl (w : Bool) (a b c : BitVec 5) (s : State) : Out :=
  issue w s fun s th =>
    let n := (rg th a).toNat
    let t := vget (stn s th.station).tms n
    if 15 < n ∨ !t.valid then .error (trapOp th 0x14)
    else
      let x := { t with sA := (rg th b).truncate 32, sB := (rg th c).truncate 32 }
      .ok (setThr (modStn s th.station fun y => { y with tms := vset y.tms n x }) (nextPc th))

/-! ### TFULL and TEMPTY (R235) -/

def TTag.code : TTag → Nat
  | .empty => 0 | .filling => 1 | .full => 2 | .draining => 3

/-- The status of TFULL and TEMPTY. -/
def tagStatus (t : Tile) (ok : Bool) : DWord := BitVec.ofNat 64 (t.tag.code + if ok then 0 else 4)

/-- A thread may close its own fill. -/
def threadFills (t : Tile) : Bool := t.tag == .filling && !t.eng

/-- TFULL (R214, R235). Behind TFULL of an EMPTY slot R235 names no filler: the model's is the thread (log 145). -/
def execTfull (w : Bool) (d a : BitVec 5) (n : BitVec 4) (s : State) : Out :=
  issue w s fun s th =>
    let t := tileAt s th.station n.toNat
    let x := rg th a
    let ok := t.tag == .empty || threadFills t
    let s := if ok then
        fillSlot (modTile s th.station n.toNat fun t => { t with eng := false }) th.station n.toNat (x.extractLsb' 0 16)
          (x.extractLsb' 16 16) (x.getLsbD 32) (x.getLsbD 33)
      else s
    .ok (setThr s (nextPc (wg th d (tagStatus t ok))))

/-- TEMPTY (R214, R235). -/
def execTempty (w : Bool) (d : BitVec 5) (n : BitVec 4) (s : State) : Out :=
  issue w s fun s th =>
    let t := tileAt s th.station n.toNat
    let s := if t.tag = .full then
        settleSlot (modTile s th.station n.toNat fun t => { t with tag := .draining }) th.station n.toNat
      else if threadFills t then
        tileChanged (modTile s th.station n.toNat fun t => { t with tag := .empty }) th.station n.toNat
      else s
    .ok (setThr s (nextPc (wg th d (tagStatus t (t.tag == .full || threadFills t)))))

/-! ### TSTAT (R236) -/

/-- The station and the index of a selector, and its first failing check. -/
def selector (s : State) (th : Thread) (x : DWord) (count : Nat) : Except Byte (Nat × Nat) :=
  let st := if x.getLsbD 24 then bits x.toNat 23 16 else th.station
  let n := bits x.toNat 15 0
  if !(part s (tidPart th.tid)).hasStation st then .error 0x04
  else if count ≤ n then .error 0x14
  else .ok (st, n)

/-- A group's accumulation has completed and its write-back is pending (R223). -/
def writebackPending (s : State) (st n : Nat) : Bool := (stn s st).pipe.any fun x => (templateFields x.bits).groups.contains n

/-- The words of TSTAT. -/
def tstatWord (s : State) (st kind n : Nat) : Nat :=
  let x := stn s st
  match kind with
  | 0 =>
    let t := vget x.tiles n
    t.seq.toNat * 2 ^ 32 + t.iter.toNat * 2 ^ 16 + t.epoch.toNat * 2 ^ 8 + b2n t.last * 16 + b2n t.sc * 8 + b2n t.eng * 4 + t.tag.code
  | 1 =>
    let g := vget x.groups n
    let tag := match g.tag with | .empty => 0 | .accum => 1 | .done => 2
    g.next.toNat * 2 ^ 32 + g.iter.toNat * 2 ^ 16 + g.mode.toNat * 16 + b2n (writebackPending s st n) * 4 + tag
  | 2 =>
    let t := vget x.tms n
    t.fires.toNat * 2 ^ 32 + t.lseq.toNat * 2 ^ 16 + t.cause.toNat * 2 ^ 8 + b2n t.ovf * 8 + b2n (t.valid && fullSlot x t && stepLook s st n != .ready) * 4 +
      b2n t.faulted * 2 + b2n t.valid
  | _ => bits x.ovf.toNat (64 * n + 63) (64 * n)
where
  /-- The A slot of a template is FULL. -/
  fullSlot (x : Station) (t : Template) : Bool := (vget x.tiles (templateFields t.bits).aslot).tag == .full

/-- TSTAT at its engine: the word, and .ovfc clears the bits it returns (R236). -/
def tstat (s : State) (st n kind : Nat) (c : Bool) : State × DWord :=
  let v := BitVec.ofNat 64 (tstatWord s st kind n)
  (if c && kind == 3 then modStn s st fun x => { x with ovf := x.ovf &&& ~~~((v.setWidth 256 : BitVec 256) <<< (64 * n)) } else s, v)

/-- The bound of a status read of another station (R237, R268). -/
def statClass (a b : Nat) : Nat := if a = b then 40 else distClass a b

/-- TSTAT (R236, R71): the state of this cycle, written within its class. -/
def execTstat (w : Bool) (d a : BitVec 5) (c : Bool) (k : BitVec 2) (s : State) : Out :=
  issue w s fun s th =>
    match selector s th (rg th a) (match k.toNat with | 0 => 16 | 1 => 8 | 2 => 16 | _ => 4) with
    | .error e => .error (trapOp th e)
    | .ok (st, n) =>
      let r := combine s th [2, st, n, k.toNat, b2n c] fun s => tstat s st n k.toNat c
      .ok (longResult r.1 th { id := 0, pc := th.pc, dest := .g d, res := [(0, r.2)] } (statClass th.station st))

/-! ### The array's own steps -/

/-- STEP_FIRE (R218). -/
def execStepFire (s : State) : Out := onEvent s fun e => match e with
  | .stepFire st => some (arrayCycle s st)
  | _ => none

/-- A metadata scan ends: bad metadata fault the step, any other fires in the next cycle if it is still ready (R261). -/
def scanEnds (s : State) (st n : Nat) : State :=
  let s := scanRead s st n
  let t := vget (stn s st).tms n
  match t.scan with
  | none => s
  | some (due, epoch, _) =>
    let f := templateFields t.bits
    let a := tileAt s st f.aslot
    if due ≠ s.time + 1 ∨ epoch ≠ a.epoch ∨ stepLook s st n ≠ .ready then
      modStn s st fun x => { x with tms := vset x.tms n { t with scan := none } }
    else if nmScanBad s st n then
      let tags := stepTags f a
      stepFault s st n t 0x0E tags.1 tags.2.1 0 0
    else s

/-- NM_META_SCAN (R261). -/
def execNmMetaScan (s : State) : Out := onEvent s fun e => match e with
  | .nmMetaScan st n => some (scanEnds s st n)
  | _ => none

/-- STEP_ACCUMULATION_COMPLETE (R223). -/
def execStepAccumulationComplete (s : State) : Out := onEvent s fun e => match e with
  | .stepAccumulationComplete st n => some (accComplete s st n)
  | _ => none

/-- WRITEBACK_START (R223). -/
def execWritebackStart (s : State) : Out := onEvent s fun e => match e with
  | .writebackStart st => some (wbStart s st)
  | _ => none

/-- WRITEBACK_COMPLETE (R223). -/
def execWritebackComplete (s : State) : Out := onEvent s fun e => match e with
  | .writebackComplete st => some (wbComplete s st)
  | _ => none

end Sys2Proof.Machine
end

