-- ==== Sys2Proof/Machine/Control.lean ====
section
/-! DEFINITION. Branches, jumps, calls and function pointers (R178 to R183, R62 to R65). -/

namespace Sys2Proof.Machine

/-! ### Branches and jumps -/

/-- A branch on a condition of g[a] and g[b] (R178). -/
def branchOp (w : Bool) (a b : BitVec 5) (o : BitVec 15) (f : DWord → DWord → Bool) (s : State) : Out :=
  issue w s fun s th => .ok (setThr s (if f (rg th a) (rg th b) then { th with pc := th.pc + off15 o } else nextPc th))

/-- BEQ (R178). -/
def execBeq (w : Bool) (a b : BitVec 5) (o : BitVec 15) (s : State) : Out := branchOp w a b o (fun x y => x == y) s
/-- BNE (R178). -/
def execBne (w : Bool) (a b : BitVec 5) (o : BitVec 15) (s : State) : Out := branchOp w a b o (fun x y => x != y) s
/-- BLT (R178). -/
def execBlt (w : Bool) (a b : BitVec 5) (o : BitVec 15) (s : State) : Out := branchOp w a b o (fun x y => x.slt y) s
/-- BGE (R178). -/
def execBge (w : Bool) (a b : BitVec 5) (o : BitVec 15) (s : State) : Out := branchOp w a b o (fun x y => !x.slt y) s
/-- BLTU (R178). -/
def execBltu (w : Bool) (a b : BitVec 5) (o : BitVec 15) (s : State) : Out := branchOp w a b o (fun x y => x.ult y) s
/-- BGEU (R178). -/
def execBgeu (w : Bool) (a b : BitVec 5) (o : BitVec 15) (s : State) : Out := branchOp w a b o (fun x y => !x.ult y) s

/-- JAL (R179). -/
def execJal (w : Bool) (d : BitVec 5) (o : BitVec 20) (s : State) : Out :=
  issue w s fun s th => .ok (setThr s { wg th d (th.pc + 4) with pc := th.pc + off20 o })

/-- The end of a thread by a jump to 0, which waits as a marker (R52, R180). -/
def threadEnd (s : State) (th : Thread) (code : DWord) : State := (atMarker s th).getD (beginEnd s th .exited 0 code)

/-- JALR (R180). -/
def execJalr (w : Bool) (d a : BitVec 5) (i : BitVec 15) (s : State) : Out :=
  issue w s fun s th =>
    let t := rg th a + imm15 i
    if t = 0 then .ok (threadEnd s th th.g[1])
    else if t.toNat % 4 ≠ 0 then .error (trapAt th 0x05 (vaOf (rseg th 0) t))
    else .ok (setThr s { wg th d (th.pc + 4) with pc := t })

/-! ### Calls (R181, R182, R65) -/

/-- The checks of a Porlek pointer against a segment 0 (R62, R182): the first failing cause, or the offset. -/
def porlekEntry (g : Seg) (fp : DWord) : Except Byte DWord :=
  let e := bits fp.toNat 55 0
  if e % 4 ≠ 0 then .error 0x05
  else if !g.exec then .error 0x04
  else if e < g.base ∨ g.limit ≤ e - g.base then .error 0x03
  else .ok (BitVec.ofNat 64 (e - g.base))

/-- A tag that names no code, or nonzero bits above the entry (R62). -/
def badTag (fp : DWord) : Bool := decide (2 ≤ bits fp.toNat 63 62) || bits fp.toNat 61 56 != 0

/-- A graph call (R65 steps 2 to 6): the caller parks; its call takes a frame and goes on, or waits for one. The caller's own stores
have been performed at the marker; the other dirty sectors of its L1 are sent, and not waited for (R201, R335; log 109). -/
def graphCall (s : State) (th : Thread) (fp : DWord) : Res :=
  let pn := tidPart th.tid
  if (frameVa s pn th.station 0).isNone then .error (trapOp th 0x03)
  else
    let s := sendDirty s th.station
    let th := (getThr s th.tid).getD th
    let id := freshId (startWait s th (.call fp) .call false)
    let w : CallWait :=
      { n := id.1, part := pn, ptr := fp, caller := .thread th.tid, station := th.station,
        args := (List.range 8).map fun i => rgN th (i + 1), launch := th.launch }
    .ok (callAgain (modPart id.2 pn fun p => { p with calls := p.calls ++ [w] }) pn w)

/-- CALLT (R181, R182): always a marker. -/
def execCallt (_w : Bool) (a : BitVec 5) (s : State) : Out :=
  issue true s fun s th =>
    let fp := rg th a
    if badTag fp then .error (trapAt th 0x1D (BitVec.ofNat 64 (bits fp.toNat 55 0)))
    else if bits fp.toNat 63 62 = 0 then
      match porlekEntry (rseg th 0) fp with
      | .error c => .error (trapAt th c (BitVec.ofNat 64 (bits fp.toNat 55 0)))
      | .ok off => .ok (setThr s { wgN th 31 (th.pc + 4) with pc := off })
    else graphCall s th fp

/-- MKFP with TAG 00 (R183). -/
def execMkfpP (w : Bool) (d a : BitVec 5) (s : State) : Out :=
  issue w s fun s th =>
    let off := rg th a
    let g := rseg th 0
    if off.toNat % 4 ≠ 0 then .error (trapAt th 0x05 (vaOf g off))
    else if !g.exec then .error (trapAt th 0x04 (vaOf g off))
    else if g.limit ≤ off.toNat then .error (trapAt th 0x03 (vaOf g off))
    else .ok (setThr s (nextPc (wg th d (vaOf g off))))

/-- MKFP with TAG 01 (R183). -/
def execMkfpR (w : Bool) (d a : BitVec 5) (sg : BitVec 3) (s : State) : Out :=
  issue w s fun s th =>
    let off := rg th a
    let g := rseg th sg
    if off.toNat % 64 ≠ 0 then .error (trapAt th 0x05 (vaOf g off))
    else if !g.read then .error (trapAt th 0x04 (vaOf g off))
    else if g.limit < off.toNat + 64 then .error (trapAt th 0x03 (vaOf g off))
    else .ok (setThr s (nextPc (wg th d (BitVec.ofNat 64 (2 ^ 62) ||| vaOf g off))))

end Sys2Proof.Machine
end

