-- ==== Sys2Proof/Machine/Spawn.lean ====
section
/-! DEFINITION. The making and moving of threads: ids (R41), packets (R43, R44), spawn blocks and refusals (R401 to R404), arrival
at a core (R47) and footprints (R50). -/

namespace Sys2Proof.Machine

/-! ### Ids and records (R41, R42) -/

/-- A thread id. -/
def tidOf (pn st n : Nat) : Word := BitVec.ofNat 32 (pn * 2 ^ 28 + st * 2 ^ 20 + n)

/-- The serial with which a station's search begins: 1 after the partition's COMMIT (R41, R510). -/
def nextSerial (s : State) (pn st : Nat) : Nat := (kget (stn s st).serial pn).getD 1

/-- The first serial from n on whose record has been reaped. -/
def freeSerial (s : State) (pn st : Nat) : Nat → Nat → Option Nat
  | 0, _ => none
  | k + 1, n =>
    if (getThr s (tidOf pn st n)).isSome then freeSerial s pn st k (if n = 0xFFFFF then 1 else n + 1) else some n

/-- A thread with a fresh id of a home station, and its record. -/
def createThr (s : State) (pn st : Nat) (th : Thread) : Option (Word × State) :=
  (freeSerial s pn st (s.threads.length + 1) (nextSerial s pn st)).map fun n =>
    let t := tidOf pn st n
    (t, setThr (modStn s st fun x => { x with serial := kput x.serial pn (if n = 0xFFFFF then 1 else n + 1) }) { th with tid := t, station := st })

/-- Live threads of a partition (R403). -/
def liveThreads (s : State) (pn : Nat) : Nat := s.threads.countP fun e => tidPart e.2.tid == pn && e.2.st.live

/-- A new thread is refused (R403): cap, serial, context area, spill ring, footprint quota, station. -/
def spawnRefused (s : State) (pn st : Nat) (foot : List FootRange) : Bool :=
  let p := part s pn
  let x := stn s st
  decide (pfield p 48 4 ≤ liveThreads s pn) || (freeSerial s pn st (s.threads.length + 1) (nextSerial s pn st)).isNone ||
    decide (256 ≤ contexts s st) || !x.spill.isEmpty || x.dead || x.outOfService || !p.stations.contains st ||
    (!foot.isEmpty && decide (p.ssq < ((kget p.foot st).getD 0) + (foot.map (·.len)).sum))

/-! ### Packets (R43 to R45) -/

/-- The fields of a pc/status word put into a thread (R31). -/
def withPcsw (th : Thread) (x : DWord) : Thread :=
  { th with sup := x.getLsbD 63, prio := x.extractLsb' 61 2, bprio := x.extractLsb' 59 2, te := x.getLsbD 58, co := x.getLsbD 57,
            pc := pcBits x }

/-- Byte 103 of a packet from cr.fpcsr and back. -/
def fpByte (x : DWord) : Byte := x.extractLsb' 5 5 ++ x.extractLsb' 0 3
def fpOfByte (b : Byte) : DWord := BitVec.ofNat 64 (b.toNat % 8 + b.toNat / 8 * 32)

/-- The packet of a migrating thread, its PC that of the instruction behind MIGR. -/
def packetOf (th : Thread) (target : Nat) : Packet :=
  { tid := th.tid, pcsw := pcswOf th, pw := pwOf th, g := (List.range 10).map fun i => rgN th (i + 1), sset := th.sset,
    fpcsr := fpByte th.fpcsr, wlimit := th.wlimit, target := BitVec.ofNat 16 target, source := th.station }

/-- A context rebuilt from a packet (R44, R45). -/
def rebuild (s : State) (st : Nat) (th : Thread) (k : Packet) : Thread :=
  let th := withPcsw { th with g := Vector.replicate 32 0, v := Vector.replicate 16 0 } k.pcsw
  let th := setPw ((List.range 10).foldl (fun t i => wgN t (i + 1) (k.g.getD i 0)) th) k.pw
  let th := if k.kind = 2 then wgN (wgN th 30 (k.ext.getD 0 0)) 29 (k.ext.getD 1 0) else th
  { th with
    seg := segSet s (tidPart th.tid) k.sset.toNat, sset := k.sset, fpcsr := fpOfByte k.fpcsr, wlimit := k.wlimit, srseed := 0
    gens := seeded 0, mon := Vector.replicate 4 {}, inh := false, ps := false, cause := 0, epc := 0, mpc := 0, faddr := 0, finfo := 0
    station := st, st := .ready, ops := [], cur := none, kept := [], pend := none, pends := [], wait := none, readySince := s.time }

/-- The head of the spill ring moves into a free hardware entry (R47). -/
def fillArrq (s : State) (st : Nat) : State :=
  let x := stn s st
  let n := x.arrcap - x.arrq.length
  (x.spill.take n).foldl launchEnters (modStn s st fun x => { x with arrq := x.arrq ++ x.spill.take n, spill := x.spill.drop n })

/-- The head of the arrival queue enters the run queue when a context entry is free (R47 step 4). Packets of a partition swapped out
wait for its turn (R452). -/
def enterRunQueue (s : State) (st : Nat) : State :=
  match (stn s st).arrq.find? fun k => !(part s (tidPart k.tid)).swapped with
  | none => s
  | some k =>
    if 256 ≤ contexts s st then s
    else
      let s := fillArrq (modStn s st fun x => { x with arrq := x.arrq.erase k }) st
      let s := match getThr s k.tid with
        | none => s
        | some th =>
          if th.ending.isSome then finishEnd s k.tid
          else
            let s := if k.sset.toNat < (part s (tidPart th.tid)).segCount / 8 then tableRead s (tidPart th.tid) (128 * k.sset.toNat) 128 else s
            makeReady (setThr s (rebuild s st th k)) (rebuild s st th k)
      pumpArrivals s st

/-! ### SPAWN (R401 to R404) -/

/-- A precise trap of a fault met while an instruction read memory for itself. -/
def trapMem (th : Thread) (f : DFault) : PendTrap := { cause := f.cause, epc := th.pc, mpc := th.pc, faddr := f.addr }

/-- The footprint entries of a spawn block that are used: offset, segment, length. -/
def footEntries (b : List Byte) : List (Nat × Nat × Nat) :=
  (List.range 4).filterMap fun i =>
    let n := field b (136 + 16 * i) 4
    if n = 0 then none else some (field b (128 + 16 * i) 5, field b (133 + 16 * i) 1 % 8, n)

/-- What a spawn block refuses, in the entry's order (R402). -/
def blockTrap (s : State) (th : Thread) (b : List Byte) : Option PendTrap :=
  let target := field b 96 2
  let foot := footEntries b
  let segOf (e : Nat × Nat × Nat) : Seg := vget th.seg e.2.1
  if field b 98 1 / 4 ≠ 0 ∨ field b 99 29 ≠ 0 ∨
      ((List.range 4).any fun i => field b (133 + 16 * i) 1 / 8 != 0 || field b (134 + 16 * i) 2 != 0 || field b (140 + 16 * i) 4 != 0) then
    some (trapOp th 0x14)
  else if !th.sup && decide (th.bprio.toNat < field b 98 1) then some (trapOp th 0x02)
  else if target ≠ 0xFFFF ∧ !(part s (tidPart th.tid)).hasStation target then some (trapOp th 0x04)
  else (foot.findSome? fun e =>
    let g := segOf e
    if !g.read || !g.translated then some (trapAt th 0x04 (vaOf g (BitVec.ofNat 64 e.1)))
    else if g.limit < e.1 + e.2.2 then some (trapAt th 0x03 (vaOf g (BitVec.ofNat 64 e.1)))
    else none)

/-- The packet of a spawn (R49). -/
def spawnPacket (s : State) (th : Thread) (fp : DWord) (b : List Byte) (t : Bool) (answer target : Nat) : Packet :=
  let base := (vget (segSet s (tidPart th.tid) th.sset.toNat) 0).base
  let prio := BitVec.ofNat 2 (field b 98 1)
  let new : Thread := { sup := th.sup, prio := prio, bprio := prio, pc := BitVec.ofNat 64 (bits fp.toNat 55 0) - BitVec.ofNat 64 base }
  { pcsw := pcswOf new, pw := pwOf new, g := (List.range 10).map fun i => BitVec.ofNat 64 (field b (8 * i) 8), sset := th.sset, kind := 2
    target := BitVec.ofNat 16 target, ext := [BitVec.ofNat 64 (field b 80 8), BitVec.ofNat 64 (field b 88 8)], parent := th.tid
    answer := answer, trap := t, tvec := th.tvec, launch := th.launch, source := th.station
    foot := (footEntries b).map fun e =>
      { va := vaOf (vget th.seg e.2.1) (BitVec.ofNat 64 e.1), len := e.2.2, seg := vget th.seg e.2.1 } }

/-- SPAWN (R400 to R402): its checks, the block, and the packet to the target core; the thread stays parked for the answer. -/
def execSpawn (_w : Bool) (d a b : BitVec 5) (t : Bool) (g : BitVec 3) (s : State) : Out :=
  issue true s fun s th =>
    let fp := rg th a
    let sg := rseg th g
    let off := rg th b
    if badTag fp then .error (trapAt th 0x1D (BitVec.ofNat 64 (bits fp.toNat 55 0)))
    else if bits fp.toNat 63 62 = 1 then .error (trapAt th 0x04 (BitVec.ofNat 64 (bits fp.toNat 55 0)))
    else match porlekEntry (rseg th 0) fp with
      | .error c => .error (trapAt th c (BitVec.ofNat 64 (bits fp.toNat 55 0)))
      | .ok _ =>
        if !sg.read || sg.type == 3 then .error (trapAt th 0x04 (vaOf sg off))
        else if sg.limit < off.toNat + 192 then .error (trapAt th 0x03 (vaOf sg off))
        else if off.toNat % 64 ≠ 0 then .error (trapAt th 0x05 (vaOf sg off))
        else match segRead s th sg off.toNat 192 with
          | (s, .error f) => .ok (takeTrap s th (trapMem th f))
          | (s, .ok blk) => match blockTrap s th blk with
            | some p => .ok (takeTrap s th p)
            | none =>
              let target := if field blk 96 2 = 0xFFFF then th.station else field blk 96 2
              let r := addOp (nextPc th) { id := 0, pc := th.pc, dest := .g d, left := 1, hold := true }
              let s := parkThr s r.2 .marker
              .ok (sendPacket s th.station target (tidPart th.tid) (spawnPacket s th fp blk t r.1 target) .spawnDelivery)

/-- The partition of a packet that makes a thread. -/
def packetPart (k : Packet) : Nat := match k.cocall with
  | some (.graph pn _ _ _ _ _ _) => pn
  | _ => tidPart k.parent

/-- A new thread's packet goes to its core's queues, after its footprint has been brought in (R50). -/
def letIn (s : State) (pn st : Nat) (k : Packet) : State :=
  if k.foot.isEmpty then arrivePacket s st k
  else
    let n := (k.foot.map (·.len)).sum
    let s := modPart s pn fun p => { p with foot := kput p.foot st (((kget p.foot st).getD 0) + n) }
    let id := freshId s
    within { id.2 with pkts := kput id.2.pkts id.1 { k with way := 1 } } (1800 + 1200 + 360) (.footprintReady k.tid.toNat)

/-- SPAWN_DELIVERY (R404): the target core accepts or refuses. -/
def spawnDelivered (s : State) (pk : Nat) : State :=
  match kget s.pkts pk with
  | none => s
  | some k =>
   if packetAhead s pk k then later s 1 (.spawnDelivery pk)
   else
    let s := { s with pkts := kdel s.pkts pk }
    let pn := packetPart k
    let st := k.target.toNat
    let refuse (s : State) : State := match k.coframe, k.cocall with
      | some fr, some c => resumeCaller s pn c fr (.error 0x20)
      | _, _ => opLane s k.parent k.answer 0 (if k.trap then .error { cause := 0x20, addr := 0 } else .ok 0)
    if spawnRefused s pn st k.foot then refuse s
    else match createThr s pn st { st := .migrating, launch := k.launch, parent := k.parent, tvec := k.tvec, coframe := k.coframe,
                                   cocall := k.cocall } with
      | none => refuse s
      | some (t, s) =>
        let s := letIn s pn st { k with tid := t }
        match k.cocall with
        | some _ => s
        | none => opLane s k.parent k.answer 0 (.ok t.toNat)

/-- SPAWN_DELIVERY (R404). -/
def execSpawnDelivery (s : State) : Out := onEvent s fun e => match e with
  | .spawnDelivery pk => some (spawnDelivered s pk)
  | _ => none

/-- The ranges of a footprint read in order: their copies, or the first fault. -/
def footRead (s : State) (st pn : Nat) : List FootRange → State × Except DFault (List FootRange)
  | [] => (s, .ok [])
  | f :: l =>
    match footBytes s st pn f with
    | (s, .error e) => (s, .error e)
    | (s, .ok b) =>
      match footRead s st pn l with
      | (s, .error e) => (s, .error e)
      | (s, .ok r) => (s, .ok ({ f with copy := (List.range b.length).map fun i => (f.va.toNat + i, b.getD i 0) } :: r))

/-- FOOTPRINT_READY (R50): the ranges are in and pinned, or the thread becomes FAULTED and never runs. -/
def footprintReady (s : State) (t : Nat) : State :=
  match getThr s (BitVec.ofNat 32 t), s.pkts.find? fun e => e.2.tid.toNat == t && !e.2.foot.isEmpty with
  | some th, some (id, k) =>
    let s := { s with pkts := kdel s.pkts id }
    let th := { th with foot := k.foot }
    if th.ending.isSome then finishEnd (setThr s th) th.tid
    else match footRead s th.station (tidPart th.tid) k.foot with
      | (s, .error f) => beginEnd (setThr s th) { th with faddr := f.addr } .faulted f.cause 0
      | (s, .ok l) => arrivePacket (setThr s { th with foot := l }) th.station k
  | _, _ => s

/-- FOOTPRINT_READY (R50). -/
def execFootprintReady (s : State) : Out := onEvent s fun e => match e with
  | .footprintReady t => some (footprintReady s t)
  | _ => none

/-! ### MIGR (R43 to R45, R405) -/

/-- MIGR (R405): the thread leaves as a packet for the home of the line it names. -/
def execMigr (_w : Bool) (a : BitVec 5) (g : BitVec 3) (s : State) : Out :=
  issue true s fun s th =>
    let sg := rseg th g
    let off := rg th a
    let pn := tidPart th.tid
    if !sg.translated || !sg.read then .error (trapAt th 0x04 (vaOf sg off))
    else if sg.limit ≤ off.toNat then .error (trapAt th 0x03 (vaOf sg off))
    else if th.inh then .error (trapOp th 0x01)
    else
      let home := homeOf s pn (vaOf sg off).toNat sg.hashed
      let r := leaveSlot s (nextPc th)
      let m := disarmAll (unbindThread r.1 th.station th.tid) r.2
      let s := setThr m.1 { m.2 with st := .migrating, station := home }
      .ok (pumpArrivals (sendPacket s th.station home pn (packetOf m.2 home) .migrationArrival) th.station)

/-- MIGRATION_ARRIVAL (R47): the packet enters the core's queues; a thread killed on its way ends, one whose station has died is
lost (R37). -/
def migrationArrived (s : State) (pk : Nat) : State :=
  match kget s.pkts pk with
  | none => s
  | some k =>
    let home := k.target.toNat
    if (if k.way = 2 then ringShut s home pk else packetAhead s pk k) then later s 1 (.migrationArrival pk)
    else
      let s := { s with pkts := kdel s.pkts pk }
      match getThr s k.tid with
      | none => s
      | some th =>
        if !th.st.live then s
        else
          let s := setThr s { th with station := home }
          if (stn s home).dead then loseThr s k.tid 0
          else if th.ending.isSome then finishEnd s k.tid
          else if k.way = 2 then queuePacket s home k else arrivePacket s home k

/-- MIGRATION_ARRIVAL (R47). -/
def execMigrationArrival (s : State) : Out := onEvent s fun e => match e with
  | .migrationArrival pk => some (migrationArrived s pk)
  | _ => none

/-- RUN_QUEUE_ENTRY (R47 step 4). -/
def execRunQueueEntry (s : State) : Out := onEvent s fun e => match e with
  | .runQueueEntry st => some (enterRunQueue s st)
  | _ => none

end Sys2Proof.Machine
end

