-- ==== Sys2Proof/Machine/Igen.lean ====
section
/-! DEFINITION. Pattern programs, enumerations and the index generators (R239 to R253, R263 to R267). -/

namespace Sys2Proof.Machine

/-! ### Pattern programs (R240, R241) -/

/-- A pattern tree. A PHASH says whether a PINVT precedes it (R247). -/
inductive Pat where
  | dense
  | band (l u : Nat)
  | dil (d o : Nat)
  | bdiag (n : Nat)
  | kron (hB wB : Nat) (a b : Pat)
  | hash (seed k : Nat) (inv : Bool)
  | nm (n m : Nat)
  | stride (sr sc : Nat) (t : Pat)
  | off (or_ oc : Nat) (t : Pat)
  | union (a b : Pat)
  | inter (a b : Pat)
  deriving DecidableEq, Repr

/-- What the words read so far have built: the stack, top first, the PINVT mark and the least PLIMIT. -/
structure PatRead where
  stack : List Pat := []
  inv : Bool := false
  limit : Nat := 2 ^ 20
  deriving DecidableEq, Repr

/-- A leaf is pushed on a stack of depth 4. -/
def PatRead.push (r : PatRead) (p : Pat) (ok : Bool) : Option PatRead :=
  if ok ∧ r.stack.length < 4 then some { r with stack := p :: r.stack } else none

/-- One word, not a PEND, read (R241, R243). -/
def patWord (r : PatRead) (w : Nat) : Option PatRead :=
  let hi := bits w 23 12
  let lo := bits w 11 0
  match w / 2 ^ 28 with
  | 1 => r.push .dense (bits w 27 0 == 0)
  | 2 => r.push (.band hi lo) (bits w 27 24 == 0)
  | 3 => r.push (.dil hi lo) (bits w 27 24 == 0 && hi != 0)
  | 4 => r.push (.bdiag lo) (bits w 27 12 == 0 && lo != 0)
  | 5 => match r.stack with
    | b :: a :: l => if bits w 27 24 = 0 ∧ hi ≠ 0 ∧ lo ≠ 0 then some { r with stack := .kron hi lo a b :: l } else none
    | _ => none
  | 6 => r.push (.hash (bits w 27 16) (bits w 4 0) r.inv) (bits w 15 5 == 0 && decide (1 ≤ bits w 4 0 ∧ bits w 4 0 ≤ 16))
  | 7 => r.push (.nm (bits w 15 8) (bits w 7 0)) (bits w 27 16 == 0 && decide (1 ≤ bits w 15 8 ∧ bits w 15 8 ≤ bits w 7 0))
  | 8 => match r.stack with
    | t :: l => if bits w 27 24 = 0 ∧ hi ≠ 0 ∧ lo ≠ 0 then some { r with stack := .stride hi lo t :: l } else none
    | _ => none
  | 9 => match r.stack with
    | t :: l => if bits w 27 24 = 0 then some { r with stack := .off hi lo t :: l } else none
    | _ => none
  | 10 => match r.stack with
    | b :: a :: l => if bits w 27 0 = 0 then some { r with stack := .union a b :: l } else none
    | _ => none
  | 11 => match r.stack with
    | b :: a :: l => if bits w 27 0 = 0 then some { r with stack := .inter a b :: l } else none
    | _ => none
  | 12 => if bits w 27 0 = 0 then some { r with inv := true } else none
  | 13 => if bits w 27 20 = 0 ∧ bits w 19 0 ≠ 0 then some { r with limit := min r.limit (bits w 19 0) } else none
  | _ => none

/-- A program read up to its first PEND: its tree and its entry limit (R240, R243). -/
def patRead : List Nat → PatRead → Option (Pat × Nat)
  | [], _ => none
  | w :: ws, r =>
    if w / 2 ^ 28 = 0 then
      match r.stack with
      | [p] => if w = 0 then some (p, r.limit) else none
      | _ => none
    else (patWord r w).bind (patRead ws)

/-! ### Members (R239 to R242) -/

/-- The first column from b on that is not chosen yet. -/
def hashFree (w : Nat) (chosen : List Nat) : Nat → Nat → Nat
  | 0, b => b
  | n + 1, b => if chosen.contains b then hashFree w chosen n ((b + 1) % w) else b

/-- The columns chosen for a row (R242). -/
def hashCols (w : Nat) : Nat → Word → List Nat → List Nat
  | 0, _, chosen => chosen
  | k + 1, x, chosen =>
    let x := xorShift x
    hashCols w k x (chosen ++ [hashFree w chosen w (x.toNat % w)])

def hashRow (seed k a w : Nat) : List Nat :=
  hashCols w k (nonZero ((BitVec.ofNat 32 seed <<< 20) ^^^ BitVec.ofNat 32 a ^^^ 0x9E3779B9)) []

/-- Coordinates (a, b) are a member in a context of extents (h, w) (R241). -/
def Pat.mem : Pat → Nat → Nat → Nat → Nat → Bool
  | .dense, _, _, h, w => h != 0 && w != 0
  | .band l u, a, b, h, w => h != 0 && w != 0 && decide (a ≤ b + l) && decide (b ≤ a + u)
  | .dil d o, a, b, h, w => h != 0 && w != 0 && b == (d * a + o) % w
  | .bdiag n, a, b, h, w => h != 0 && w != 0 && a / n == b / n
  | .kron hB wB x y, a, b, h, w => x.mem (a / hB) (b / wB) (cdiv h hB) (cdiv w wB) && y.mem (a % hB) (b % wB) hB wB
  | .hash seed k _, a, b, h, w => h != 0 && w != 0 && (hashRow seed k a w).contains b
  | .nm n m, a, b, h, w => h != 0 && w != 0 && decide (((b : Int) - a) % m < n)
  | .stride sr sc t, a, b, h, w => a % sr == 0 && b % sc == 0 && t.mem (a / sr) (b / sc) (cdiv h sr) (cdiv w sc)
  | .off x y t, a, b, h, w => decide (x ≤ a) && decide (y ≤ b) && t.mem (a - x) (b - y) (h - x) (w - y)
  | .union x y, a, b, h, w => x.mem a b h w || y.mem a b h w
  | .inter x y, a, b, h, w => x.mem a b h w && y.mem a b h w

/-- The leaves of a tree with their contexts, in program order (R241). -/
def Pat.leaves : Pat → Nat → Nat → List (Pat × Nat × Nat)
  | .kron hB wB x y, h, w => x.leaves (cdiv h hB) (cdiv w wB) ++ y.leaves hB wB
  | .stride sr sc t, h, w => t.leaves (cdiv h sr) (cdiv w sc)
  | .off x y t, h, w => t.leaves (h - x) (w - y)
  | .union x y, h, w => x.leaves h w ++ y.leaves h w
  | .inter x y, h, w => x.leaves h w ++ y.leaves h w
  | p, h, w => [(p, h, w)]

/-! ### The context image (R249) -/

def Igen.fld (x : Igen) (lo n : Nat) : Nat := bits x.image.toNat (8 * (lo + n) - 1) (8 * lo)
def Igen.nr (x : Igen) : Nat := x.fld 64 2
def Igen.nc (x : Igen) : Nat := x.fld 66 2
def Igen.prog (x : Igen) : List Nat := (List.range 16).map fun i => x.fld (4 * i) 4

/-- The inverse tables of a transposed enumeration, each leaf with its context and its place in the area, a multiple of 64, and the end
of the last one (R247). -/
def invTables (l : List (Pat × Nat × Nat)) : List (Nat × Nat × Nat × Nat × Nat) × Nat :=
  l.foldl (fun a e => match e with
    | (.hash seed k true, h, w) =>
      let at_ := cdiv a.2 64 * 64
      (a.1 ++ [(seed, k, h, w, at_)], at_ + 4 * (w + 1) + 2 * h * k)
    | _ => a) ([], 0)

/-- The cycles that a transposed start takes for its tables (R268). -/
def invTime (l : List (Nat × Nat × Nat × Nat × Nat)) : Nat :=
  (l.map fun t => match t with | (_, k, h, w, _) => 64 + w + 2 * h * k).sum

/-- The bytes of one inverse table (R247). -/
def invBytes (seed k h w : Nat) : List Byte :=
  let rows (b : Nat) : List Nat := (List.range h).filter fun a => (hashRow seed k a w).contains b
  let cols := (List.range w).map rows
  let starts := cols.foldl (fun (l : List Nat) c => l ++ [l.getLastD 0 + c.length]) [0]
  starts.flatMap (natLe 4) ++ cols.flatten.flatMap (natLe 2)

/-- The tree and the entry limit of a start, or its cause (R243, R248). -/
def patCheck (s : State) (x : Igen) (tr mat : Bool) : Except Byte (Pat × Nat) :=
  match patRead x.prog {} with
  | none => .error 0x10
  | some (p, lim) =>
    let ls := p.leaves x.nr x.nc
    let limit := x.fld 68 4
    let tab := (invTables ls).2
    let ill := x.nr == 0 || x.nc == 0 || limit == 0 || decide (2 ^ 20 ≤ limit) || x.fld 80 48 != 0 ||
      ls.any (fun e => match e with | (.hash _ k _, h, w) => h != 0 && w != 0 && decide (w < k) | _ => false) ||
      (tr && ((tab != 0 && (decide (x.fld 76 4 < tab) || x.fld 72 4 % 64 != 0)) ||
        ((tab != 0 || x.fld 76 4 != 0) && decide ((part s x.part).ssq < x.fld 72 4 + x.fld 76 4))))
    let non := tr && ls.any fun e => match e with
      | (.hash _ _ inv, h, w) => h != 0 && w != 0 && !inv
      | (.dil d _, h, w) => h != 0 && w != 0 && Nat.gcd d w != 1
      | _ => false
    if ill then .error 0x10
    else if non then .error 0x0F
    else .ok (p, min (min lim limit) (if mat then 4096 else 2 ^ 20))

/-! ### Enumerations (R245, R246, R248) -/

def winR0 (w : DWord) : Nat := bits w.toNat 15 0
def winC0 (w : DWord) : Nat := bits w.toNat 31 16
def winW (w : DWord) : Nat := bits w.toNat 47 32
def winH (w : DWord) : Nat := bits w.toNat 63 48

/-- A cell is in the set. -/
def inSet (x : Igen) (p : Pat) (r c : Nat) : Bool := decide (r < x.nr) && decide (c < x.nc) && p.mem r c x.nr x.nc

/-- The entries of a line: row, column, rank (R245). Of the two readings that R247 allows of an inverse-table entry which a thread has
overwritten, the model takes the entry as it was built (log 149). -/
def lineOf (x : Igen) (p : Pat) (tr : Bool) (i : Nat) : List (Nat × Nat × Nat) :=
  let c0 := winC0 x.window
  let rank (r c : Nat) : Nat := (nats c0 c).countP fun b => inSet x p r b
  if tr then
    let c := c0 + i
    ((nats (winR0 x.window) (winR0 x.window + winH x.window)).filter fun r => inSet x p r c).map fun r => (r, c, rank r c)
  else
    let r := winR0 x.window + i
    (((nats c0 (c0 + winW x.window)).filter fun c => inSet x p r c).zipIdx).map fun e => (r, e.1, e.2)

/-- The lines that an entry limit lets through, and the first entry beyond it (R248). -/
def cutLines : Nat → List (List (Nat × Nat × Nat)) → List (List (Nat × Nat × Nat)) × Option (Nat × Nat × Nat)
  | _, [] => ([], none)
  | n, l :: ls =>
    if n < l.length then ([l.take n], l[n]?)
    else
      let r := cutLines (n - l.length) ls
      (l :: r.1, r.2)

/-- An enumeration: its lines, and the entry at which it fails. -/
def enumerate (x : Igen) (p : Pat) (limit : Nat) : List (List (Nat × Nat × Nat)) × Option (Nat × Nat × Nat) :=
  cutLines limit ((List.range (if x.dir then winW x.window else winH x.window)).map (lineOf x p x.dir))

/-! ### The generators (R249 to R253) -/

def igAt (s : State) (st g : Nat) : Igen := vget (stn s st).ig g
def modIg (s : State) (st g : Nat) (f : Igen → Igen) : State :=
  modStn s st fun x => { x with ig := vset x.ig g (f (vget x.ig g)) }

/-- A step streams from a generator's lists (R251). -/
def igStreams (s : State) (st g : Nat) : Bool :=
  (stn s st).streams.any fun x => !x.ended && x.lists.isSome && (templateFields x.bits).pat == g + 1

/-- The next queued command takes effect once nothing of the one before it is left (R251). -/
def igNext (s : State) (st g : Nat) : State :=
  let x := igAt s st g
  let busy := x.st == .loading || x.st == .building || !x.recs.isEmpty || (x.st == .ready && igStreams s st g)
  let e : Option Event := x.queue.head?.map fun c => match c with
    | .load _ _ _ _ => .generatorLoad st g
    | .start _ _ _ _ => .enumerationStart st g
  match e with
  | none => s
  | some e => if busy || s.agenda.any fun y => y.2 == e then s else later s 1 e

/-- A command accepted by a generator (R70, R251). -/
def igAccept (s : State) (st g : Nat) (c : ICmd) : State := igNext (modIg s st g fun x => { x with queue := x.queue ++ [c] }) st g

/-- The report of a generator's fault (R253). -/
def igReport (s : State) (st g : Nat) (cause : Byte) (eid : Half) (addr : DWord) : State :=
  let x := igAt s st g
  report s x.part x.issuer st (reportBytes [(1, cause.toNat), (1, g), (2, eid.toNat), (2, st), (2, 0), (4, x.issuer.toNat),
    (2, x.rowCur.toNat), (2, x.colCur.toNat), (4, x.count), (8, addr.toNat)])

/-- Bytes of an engine's segment read on its path: a station store, a tile slot or translated memory (R320). -/
def engRead (s : State) (st pn : Nat) (g : Seg) (va n : Nat) : State × Except DFault (List Byte) :=
  if g.isLocal then (s, .ok (rdL s (localKey pn st va) n))
  else if g.type = 2 then (s, .ok (rdL s (tileKey st (bits va 18 15) (va % 2 ^ 15)) n))
  else vread s st pn va n g.hashed g.pinned

/-- The class of an image's address for its generator (R268, R359); the walk of a translation miss comes when it is read. -/
def imageClass (s : State) (st pn : Nat) (g : Seg) (va : Nat) : Nat :=
  if g.isLocal || g.type == 2 then 40
  else match (translate s st pn va false false g.pinned).2 with
    | .error _ => 360
    | .ok key => keyClass s st (homeOf s pn va g.hashed) key false

/-- A queued IGLOAD takes effect (R250). IGSTAT's DIR, DEST, PORT and WINDOW keep what the last enumeration had (R266; log 150). -/
def igLoad (s : State) (st g : Nat) : State :=
  let x := igAt s st g
  match x.queue with
  | .load issuer pn va sg :: q =>
    if x.st = .ready ∧ igStreams s st g then s
    else
      let s := modIg s st g fun x =>
        { x with st := .loading, image := 0, lists := [], lines := [], recs := [], cause := 0, rowCur := 0, colCur := 0, count := 0,
                 issuer := issuer, part := pn, addr := va, seg := sg, queue := q }
      within s (64 + imageClass s st pn sg va.toNat) (.generatorLoadComplete st g)
  | _ => s

/-- GENERATOR_LOAD (R251). -/
def execGeneratorLoad (s : State) : Out := onEvent s fun e => match e with
  | .generatorLoad st g => some (igLoad s st g)
  | _ => none

/-- The image is read: LOADED, or EMPTY with a report (R250, R253). -/
def igLoaded (s : State) (st g : Nat) : State :=
  let x := igAt s st g
  if x.st ≠ .loading then s
  else match engRead s st x.part x.seg x.addr.toNat 128 with
    | (s, .ok l) => igNext (modIg s st g fun x => { x with st := .loaded, image := BitVec.ofNat 1024 (leNat l) }) st g
    | (s, .error f) => igNext (igReport (modIg s st g fun x => { x with st := .empty }) st g f.cause 0 f.addr) st g

/-- GENERATOR_LOAD_COMPLETE (R250). -/
def execGeneratorLoadComplete (s : State) : Out := onEvent s fun e => match e with
  | .generatorLoadComplete st g => some (igLoaded s st g)
  | _ => none

/-- A start that fails its checks: FAULTED, with a report and a fault record when its destination is a port (R243, R253). -/
def igFail (s : State) (st g : Nat) (cause : Byte) : State :=
  let x := igAt s st g
  let c := draw s 65536
  let r := draw c.2 65536
  let s := modIg r.2 st g fun x =>
    { x with st := .faulted, cause := cause,
             recs := if x.dest then x.recs ++ [{ kind := 3, rank := cause.toNat, col := c.1, row := r.1 }] else [] }
  if x.dest then later (igReport s st g cause x.eid 0) 0 (.generatorRecordPush st g) else igNext s st g

/-- The last row and column of an enumeration's window. -/
def Igen.corner (x : Igen) : Nat × Nat := (winR0 x.window + winH x.window - 1, winC0 x.window + winW x.window - 1)

/-- The records of an enumeration (R252): its entries and ends of lines, without the last record. -/
def recsOf (x : Igen) (ls : List (List (Nat × Nat × Nat))) (whole : Bool) : List IRec :=
  ls.zipIdx.flatMap fun l =>
    let i := l.2
    let r := winR0 x.window + i
    let c := winC0 x.window + i
    let entries := l.1.map fun e : Nat × Nat × Nat =>
      ({ kind := 0, rank := e.2.2, col := e.2.1, row := e.1, pos := (e.1, e.2.1) } : IRec)
    let eol : IRec :=
      { kind := 1, rank := l.1.length, col := if x.dir then c else 0, row := if x.dir then 0 else r
        pos := if x.dir then (x.corner.1, c) else (r, x.corner.2) }
    if whole || decide (i + 1 < ls.length) then entries ++ [eol] else entries

/-- A queued IGSTART takes effect: its checks, its inverse tables and its enumeration (R243, R245, R247). -/
def igStart (s : State) (st g : Nat) : State :=
  let x := igAt s st g
  match x.queue with
  | .start issuer pn ctl win :: q =>
    if x.st = .ready ∧ igStreams s st g then s
    else
      let y : Igen :=
        { x with st := .building, eid := ctl.extractLsb' 0 16, dir := ctl.getLsbD 16, dest := ctl.getLsbD 17,
                 port := bits ctl.toNat 20 18, window := win, rowCur := BitVec.ofNat 16 (winR0 win),
                 colCur := BitVec.ofNat 16 (winC0 win), count := 0, cause := 0, lists := [], lines := [], recs := [],
                 issuer := issuer, part := pn, queue := q }
      let s := modIg s st g fun _ => y
      if x.st = .empty then igFail s st g 0x10
      else match patCheck s y y.dir (!y.dest) with
        | .error c => igFail s st g c
        | .ok (p, limit) =>
          let ls := p.leaves y.nr y.nc
          let tabs := if y.dir then invTables ls else ([], 0)
          let s := tabs.1.foldl (fun s t => match t with
            | (seed, k, h, w, at_) => localWrite s pn (localKey pn st (y.fld 72 4 + at_)) (invBytes seed k h w)) s
          let en := enumerate y p limit
          let n := (en.1.map (·.length)).sum
          let nhash := ls.countP fun e => match e.1 with | .hash _ _ _ => true | _ => false
          let bound := 64 + winH win + winW win + 2 * n + 16 * winH win * nhash + invTime tabs.1
          if y.dest then
            let c := draw s 65536
            let r := draw c.2 65536
            let last : IRec := match en.2 with
              | none => { kind := 2, rank := n % 65536, col := c.1, row := r.1, pos := y.corner }
              | some e => { kind := 3, rank := 0x13, col := c.1, row := r.1, pos := (e.1, e.2.1) }
            let s := modIg r.2 st g fun x => { x with recs := recsOf x en.1 en.2.isNone ++ [last] }
            within s bound (.generatorRecordPush st g)
          else within s bound (.enumerationEnd st g)
  | _ => s

/-- ENUMERATION_START (R243). -/
def execEnumerationStart (s : State) : Out := onEvent s fun e => match e with
  | .enumerationStart st g => some (igStart s st g)
  | _ => none

/-- An enumeration ends READY, DONE or FAULTED (R250). Until then a matrix enumeration reads COUNT 0 and its window's corner: all its
entries are found when it ends (R266; log 151). -/
def igEnd (s : State) (st g : Nat) : State :=
  let x := igAt s st g
  if x.st ≠ .building then s
  else match patCheck s x x.dir (!x.dest) with
    | .error c => igFail s st g c
    | .ok (p, limit) =>
      let en := enumerate x p limit
      let n := (en.1.map (·.length)).sum
      let s := modIg s st g fun x => { x with lines := en.1.map (·.length), count := n }
      match en.2 with
      | some e =>
        let s := modIg s st g fun x =>
          { x with st := .faulted, cause := 0x13, rowCur := BitVec.ofNat 16 e.1, colCur := BitVec.ofNat 16 e.2.1 }
        igNext (if x.dest then igReport s st g 0x13 x.eid 0 else s) st g
      | none =>
        let w := x.window
        let s := modIg s st g fun x =>
          { x with
            st := if x.dest then .done else .ready
            lists := if x.dest then [] else en.1.map fun l => l.map fun e => e.2.1 - winC0 w
            rowCur := BitVec.ofNat 16 (if x.dir then winR0 w else winR0 w + winH w)
            colCur := BitVec.ofNat 16 (if x.dir then winC0 w + winW w else winC0 w) }
        igNext s st g

/-- ENUMERATION_END (R250). -/
def execEnumerationEnd (s : State) : Out := onEvent s fun e => match e with
  | .enumerationEnd st g => some (igEnd s st g)
  | _ => none

/-- A record as a word (R252). -/
def IRec.word (r : IRec) : Nat := r.kind * 2 ^ 48 + r.rank % 65536 * 2 ^ 32 + r.col % 65536 * 2 ^ 16 + r.row % 65536

/-- Four records as a port's entry; lanes without a record are invalid. -/
def recEntry (l : List IRec) : BitVec 256 × BitVec 8 :=
  (BitVec.ofNat 256 (l.foldr (fun r n => r.word + n * 2 ^ 64) 0), BitVec.ofNat 8 (2 ^ (2 * l.length) - 1))

/-- Groups of eight records pushed while the port has room (R252). -/
def igPush (st g : Nat) : Nat → State → State
  | 0, s => s
  | k + 1, s =>
    let x := igAt s st g
    if x.recs.isEmpty then
      if x.st = .building then later s 1 (.enumerationEnd st g) else igNext s st g
    else if !((portAt s st x.port).prod.any fun e => e.kind == 3 && e.idx.toNat == g) then s
    else
      let l := x.recs.take 8
      match portPush s st x.port [recEntry (l.take 4), recEntry (l.drop 4)] with
      | none => s
      | some s =>
        let rest := x.recs.drop 8
        let s := modIg s st g fun x =>
          { x with recs := rest, count := x.count + l.countP fun r => r.kind == 0,
                   rowCur := match rest with | r :: _ => BitVec.ofNat 16 r.pos.1 | [] => x.rowCur,
                   colCur := match rest with | r :: _ => BitVec.ofNat 16 r.pos.2 | [] => x.colCur }
        igPush st g k s

/-- GENERATOR_RECORD_PUSH (R252). -/
def execGeneratorRecordPush (s : State) : Out := onEvent s fun e => match e with
  | .generatorRecordPush st g => some (igPush st g 17 s)
  | _ => none

/-- STEP_STREAM_END (R215): a generator's command that waited for the stream may take effect (R251). -/
def execStepStreamEnd (s : State) : Out := onEvent s fun e => match e with
  | .stepStreamEnd st => some (igNext (igNext (streamEnd s st) st 0) st 1)
  | _ => none

/-! ### IXG (R263 to R266) -/

/-- IGLOAD (R264). -/
def execIgload (w : Bool) (a : BitVec 5) (sg : BitVec 3) (g : Bool) (s : State) : Out :=
  issue w s fun s th =>
    let x := rseg th sg
    let off := rg th a
    let va := vaOf x off
    if !x.read || !x.engine then .error (trapAt th 0x04 va)
    else if off.toNat % 64 ≠ 0 then .error (trapAt th 0x05 va)
    else if x.limit < off.toNat + 128 then .error (trapAt th 0x03 va)
    else .ok (igAccept (setThr s (nextPc th)) th.station (b2n g) (.load th.tid (tidPart th.tid) va x))

/-- IGSTART (R265). -/
def execIgstart (w : Bool) (a b : BitVec 5) (g : Bool) (s : State) : Out :=
  issue w s fun s th =>
    let ctl := rg th a
    let win := rg th b
    if winW win = 0 ∨ winH win = 0 ∨
        (ctl.getLsbD 17 = false ∧ (ctl.getLsbD 16 = true ∨ winH win ≠ 16 ∨ 2048 < winW win)) then .error (trapOp th 0x14)
    else .ok (igAccept (setThr s (nextPc th)) th.station (b2n g) (.start th.tid (tidPart th.tid) ctl win))

/-- The words of IGSTAT (R266). -/
def igstatWord (x : Igen) (kind : Nat) : Nat :=
  let idle := x.st == .empty || x.st == .loading || x.st == .loaded
  match kind with
  | 0 =>
    let st := match x.st with
      | .empty => 0 | .loaded => 1 | .building => 2 | .ready => 3 | .done => 4 | .faulted => 5 | .loading => 6
    min x.queue.length 16 * 2 ^ 32 + x.eid.toNat * 2 ^ 16 + (if x.st = .faulted then x.cause.toNat else 0) * 2 ^ 8 +
      x.port * 32 + b2n x.dest * 16 + b2n x.dir * 8 + st
  | 1 => x.count * 2 ^ 32 + if idle then 0 else x.colCur.toNat * 2 ^ 16 + x.rowCur.toNat
  | 2 => x.window.toNat
  | _ =>
    let top := x.lines.foldl max 0
    x.lines.countP (· == 0) * 2 ^ 32 + (if x.lines.isEmpty then 0 else x.lines.findIdx (· == top)) * 2 ^ 16 + top

/-- IGSTAT (R266). -/
def execIgstat (w : Bool) (d a : BitVec 5) (k : BitVec 2) (g : Bool) (s : State) : Out :=
  issue w s fun s th =>
    match selector s th (rg th a) 65536 with
    | .error c => .error (trapOp th c)
    | .ok (st, _) =>
      let r := combine s th [1, st, b2n g, k.toNat] fun s => (s, BitVec.ofNat 64 (igstatWord (igAt s st (b2n g)) k.toNat))
      .ok (longResult r.1 th { id := 0, pc := th.pc, dest := .g d, res := [(0, r.2)] } (statClass th.station st))

end Sys2Proof.Machine
end

