-- ==== Sys2Proof/Machine/Copy.lean ====
section
/-! DEFINITION. Copy commands, stream-port bindings (R377 to R388) and collectives (R389 to R393). -/

namespace Sys2Proof.Machine

/-! ### The checks of CPY and CPYX (R382) -/

/-- Lowest offset and one past the highest offset of a side that is not addressed by indices. -/
def CopyCmd.range (c : CopyCmd) (dst : Bool) : Int × Int :=
  let o : Int := if dst then c.doff else c.soff
  if c.indexed then (o, o + (c.count * c.esz : Nat))
  else
    let reach (k : Nat) : Int := ((c.ext k : Int) - 1) * c.stride dst k
    let ks := List.range 4
    (o + (ks.map fun k => min 0 (reach k)).sum, o + (ks.map fun k => max 0 (reach k)).sum + c.esz)

/-- A side reaches a slot of the tile file outside that of its offset. -/
def CopyCmd.leaves (c : CopyCmd) (dst : Bool) : Bool :=
  let r := c.range dst
  let lo : Int := ((if dst then c.doff else c.soff) / 2 ^ 15 * 2 ^ 15 : Nat)
  !(c.idxSide dst) && decide (r.1 < lo ∨ lo + 2 ^ 15 < r.2)

/-- The index segment counts: the command reads its indices from memory. -/
def CopyCmd.memIndex (c : CopyCmd) : Bool := c.indexed && !bit (c.w 2) 43

/-- CFG_ILLEGAL of R382 step 2. -/
def copyIllegal (s : State) (st : Nat) (c : CopyCmd) : Bool :=
  let sg := c.seg s st 0
  let dg := c.seg s st 1
  let b := sg.type == 3 || dg.type == 3 || (c.memIndex && (c.seg s st 2).type == 3)
  let off16 (x : Int) : Bool := x % 16 != 0
  bits (c.w 0) 63 56 != 0 || bits (c.w 0) 43 40 != 0 || (!c.indexed && bit (c.w 0) 54) || bits (c.w 1) 63 40 != 0 ||
    bits (c.w 7) 63 34 != 0 || (!c.tile && c.w 7 != 0) ||
    (c.indexed && (bits (c.w 2) 63 47 != 0 || bits (c.w 3) 63 40 != 0 || bits (c.w 4) 63 40 != 0 || c.w 5 != 0 || c.w 6 != 0 ||
      bits (c.w 3) 39 0 == 0)) ||
    decide (6 ≤ bits (c.w 0) 52 50) || decide (2 ^ 40 ≤ c.count) ||
    (b && (bits (c.w 0) 52 50 != 4 && bits (c.w 0) 52 50 != 5 || c.soff % 16 != 0 || c.doff % 16 != 0 || c.tile ||
      (if c.indexed then bits (c.w 4) 31 0 % 16 != 0
       else (List.range 4).any fun k => off16 (c.stride false k) || off16 (c.stride true k)))) ||
    (c.tile && ((sg.type == 2) == (dg.type == 2) || (sg.type == 2 && c.leaves false) || (dg.type == 2 && c.leaves true)))

/-- SEG_RIGHTS of R382 step 3. -/
def copyRights (s : State) (st : Nat) (c : CopyCmd) : Bool :=
  let sg := c.seg s st 0
  let dg := c.seg s st 1
  !sg.engine || !dg.engine || (sg.type != 3 && !sg.read) || (dg.type != 3 && !dg.write) ||
    (c.memIndex && (!(c.seg s st 2).engine || !(c.seg s st 2).read))

/-- ALIGN of R382 step 4. ISTR is the stride of the indexed side (DEDUCED: log 14). -/
def copyAlign (c : CopyCmd) : Bool :=
  let odd (x : Int) : Bool := x % c.esz != 0
  c.soff % c.esz != 0 || c.doff % c.esz != 0 || (c.memIndex && bits (c.w 2) 39 0 % 4 != 0) ||
    (if c.indexed then bits (c.w 4) 31 0 % c.esz != 0
     else (List.range 4).any fun k => odd (c.stride false k) || odd (c.stride true k))

/-- SEG_LIMIT of R382 step 5. -/
def copyLimit (s : State) (st : Nat) (c : CopyCmd) : Bool :=
  let out (dst : Bool) (side : Nat) : Bool :=
    let r := c.range dst
    !(c.idxSide dst) && decide (r.1 < 0 ∨ (sideLimit s c.part (c.seg s st side) : Int) < r.2)
  out false 0 || out true 1 ||
    (c.memIndex && decide ((c.seg s st 2).limit < bits (c.w 2) 39 0 + 4 * bits (c.w 3) 39 0))

/-- The first failing check of a copy command (R382). -/
def copyFault (s : State) (st : Nat) (c : CopyCmd) : Option Byte :=
  if copyIllegal s st c then some 0x14
  else if copyRights s st c then some 0x04
  else if copyAlign c then some 0x05
  else if copyLimit s st c then some 0x03
  else none

/-- A channel's next queued command may start. -/
def chanNext (s : State) (st c : Nat) : State :=
  match headCmd s st c with
  | some h => if h.state = 0 then later s 1 (.copyCommandStart st c) else s
  | none => s

/-- CPY and CPYX: the checks, the serial, and the command in its channel's queue (R382). -/
def copyOp (w indexed : Bool) (d a : BitVec 5) (c : BitVec 3) (s : State) : Out :=
  issue w s fun s th =>
    let st := th.station
    let n := vget (stn s st).serials c.toNat + 1
    let cmd : CopyCmd :=
      { serial := n, indexed := indexed, words := (List.range 8).map fun i => rgN th (a.toNat + i), issuer := th.tid,
        part := tidPart th.tid }
    match copyFault s st cmd with
    | some e => .error (trapOp th e)
    | none =>
      let s := modStn s st fun x => { x with serials := vset x.serials c.toNat n }
      let s := modChan s st c.toNat fun h => { h with queue := h.queue ++ [cmd] }
      .ok (setThr (chanNext s st c.toNat) (nextPc (wg th d (n.setWidth 64))))

/-- CPY (R379, R382). -/
def execCpy (w : Bool) (d a : BitVec 5) (c : BitVec 3) (s : State) : Out := copyOp w false d a c s
/-- CPYX (R380, R382). -/
def execCpyx (w : Bool) (d a : BitVec 5) (c : BitVec 3) (s : State) : Out := copyOp w true d a c s

/-- The word of CPYWP (R385). -/
def cpywpWord (h : Chan) (n : Half) : Nat :=
  match (h.queue ++ h.ended).find? fun c => c.serial == n with
  | some c => c.state * 2 ^ 62 + (if c.state = 3 then c.cause.toNat * 2 ^ 48 else 0) + c.wp % 2 ^ 40
  | none => 2 * 2 ^ 62 + (2 ^ 40 - 1)

/-- CPYWP (R385). -/
def execCpywp (w : Bool) (d a : BitVec 5) (c : BitVec 3) (s : State) : Out :=
  issue w s fun s th =>
    let v := BitVec.ofNat 64 (cpywpWord (vget (stn s th.station).ch c.toNat) ((rg th a).truncate 16))
    .ok (longResult s th { id := 0, pc := th.pc, dest := .g d, res := [(0, v)] } 40)

/-! ### A channel's commands (R383, R384) -/

/-- The tile slot of a side in tile mode. -/
def CopyCmd.tileSlot (s : State) (st : Nat) (c : CopyCmd) (dst : Bool) : Option Nat :=
  if c.tile && (c.seg s st (b2n dst)).type == 2 then some (bits (if dst then c.doff else c.soff) 18 15) else none

/-- A command starts, once its tile slot is EMPTY to fill or FULL to drain (R383). -/
def copyStart (s : State) (st c : Nat) : State :=
  match headCmd s st c with
  | none => s
  | some cmd =>
    if cmd.state ≠ 0 ∨ (part s cmd.part).swapped then s
    else
      let go (s : State) : State := copyAdvance st c 64 (modCmd s st c fun x => { x with state := 1 })
      match cmd.tileSlot s st true, cmd.tileSlot s st false with
      | some n, _ =>
        if (tileAt s st n).tag = .empty then go (modTile s st n fun t => { t with tag := .filling, eng := true }) else s
      | none, some n =>
        if (tileAt s st n).tag = .full then go (modTile s st n fun t => { t with tag := .draining }) else s
      | none, none => go s

/-- COPY_COMMAND_START (R383). -/
def execCopyCommandStart (s : State) : Out := onEvent s fun e => match e with
  | .copyCommandStart st c => some (copyStart s st c)
  | _ => none

/-- The head command leaves the queue for the sixteen ended last, and the next one may start. -/
def copyRetire (s : State) (st c : Nat) (cmd : CopyCmd) : State :=
  let s := modChan s st c fun h =>
    let l := h.ended ++ [cmd]
    { h with queue := h.queue.drop 1, ended := l.drop (l.length - 16) }
  chanNext s st c

/-- The message of a command's end (R384). -/
def copyReport (s : State) (st c : Nat) (cmd : CopyCmd) : State :=
  report s cmd.part cmd.issuer st (reportBytes [(1, cmd.cause.toNat), (1, c), (2, cmd.serial.toNat), (2, st), (2, 0),
    (4, cmd.issuer.toNat), (4, 0), (8, cmd.wp), (8, cmd.addr.toNat)])

/-- A command's writes are all performed: its tags are set and its completion sent (R383, R384). -/
def copyEnd (s : State) (st c : Nat) : State :=
  match headCmd s st c with
  | none => s
  | some cmd =>
    if cmd.state ≠ 1 ∨ cmd.wp < cmd.count then s
    else
      let cmd' := { cmd with state := 2, hold := none }
      let x := cmd.w 7
      let dst := cmd.tileSlot s st true
      let src := cmd.tileSlot s st false
      let s := copyRetire s st c cmd'
      let s := match dst with
        | some n => fillSlot s st n (BitVec.ofNat 16 x) (BitVec.ofNat 16 (x / 2 ^ 16)) (bit x 32) (bit x 33)
        | none => s
      let s := match src with
        | some n => settleSlot s st n
        | none => s
      if bit (cmd.w 0) 55 then copyReport s st c cmd' else s

/-- COPY_COMMAND_END (R384). -/
def execCopyCommandEnd (s : State) : Out := onEvent s fun e => match e with
  | .copyCommandEnd st c => some (copyEnd s st c)
  | _ => none

/-- What a command has gathered for an entry goes into its port before the command ends, the entry padded; none while the port is full
(R384, R387). -/
def copyFlush (s : State) (st c : Nat) (cmd : CopyCmd) : Option State :=
  match cmd.acc, dataPort s st c cmd false with
  | [], _ => some s
  | _, none => some (modCmd s st c fun x => { x with wp := x.next, acc := [] })
  | acc, some p => (portPush s st p [accEntry acc]).map fun s => modCmd s st c fun x => { x with wp := x.next, acc := [] }

/-- A command stops at an element it cannot complete (R384). -/
def copyStop (s : State) (st c : Nat) (cause : Byte) (addr : DWord) : State :=
  match (headCmd s st c).bind fun cmd => (copyFlush s st c cmd).map fun s => (cmd, s) with
  | none => if (headCmd s st c).any (·.state == 1) then later s 1 (.copyCommandStop st c cause addr) else s
  | some (x, t) =>
    if x.state ≠ 1 then s
    else
      let s := t
      let cmd := (headCmd s st c).getD x
      let cmd' := { cmd with state := 3, cause := cause, addr := addr, hold := none }
      let dst := cmd.tileSlot s st true
      let src := cmd.tileSlot s st false
      let s := copyRetire s st c cmd'
      let s := match dst with
        | some n => tileChanged (modTile s st n fun t => { t with tag := .empty }) st n
        | none => s
      let s := match src with
        | some n => settleSlot s st n
        | none => s
      copyReport s st c cmd'

/-- COPY_COMMAND_STOP (R384). -/
def execCopyCommandStop (s : State) : Out := onEvent s fun e => match e with
  | .copyCommandStop st c cause addr => some (copyStop s st c cause addr)
  | _ => none

/-! ### Bindings (R386, R388) -/

/-- The end that a binding byte names, for a thread. -/
def bindEnd (th : Thread) (b : Nat) (cons : Bool) : Option PEnd :=
  let k := bits b 7 4
  let i := bits b 3 0
  let ok := match k with
    | 0 => decide (12 ≤ i)
    | 1 => decide (i < 8)
    | 2 => i == 0
    | 3 => decide (i < 2) && !cons
    | _ => false
  if ok then some { kind := BitVec.ofNat 4 k, idx := BitVec.ofNat 4 i, tid := if k = 0 then th.tid else 0 } else none

/-- A channel or register already bound at the same end of some port. -/
def endTaken (s : State) (th : Thread) (cons : Bool) (e : PEnd) : Bool :=
  decide (e.kind.toNat < 2) && (portOf s th.station cons e.kind.toNat e.idx.toNat e.tid).isSome

/-- STRBIND (R386). -/
def execStrbind (w : Bool) (a : BitVec 5) (p : BitVec 3) (s : State) : Out :=
  issue w s fun s th =>
    let x := (rg th a).toNat
    let q := portAt s th.station p.toNat
    match bindEnd th (bits x 7 0) false, bindEnd th (bits x 15 8) true with
    | some prod, some cons =>
      if q.prod.isSome || q.cons.isSome || endTaken s th false prod || endTaken s th true cons then .error (trapOp th 0x14)
      else
        let s := modPort s th.station p.toNat fun q => { q with prod := some prod, cons := some cons }
        .ok (setThr (touchPort s th.station p.toNat) (nextPc th))
    | _, _ => .error (trapOp th 0x14)

/-- A thread parked on a port that is unbound goes on: its register reads as zero or drops its push once (R388). -/
def unparkStream (s : State) (st p : Nat) (q : Port) : State :=
  s.threads.foldl (fun s e =>
    match e.2.wait with
    | some { on := .stream n, pc := _, id := _, since := _, retry := _ } =>
      if e.2.station = st ∧ n = p then
        let mine (o : Option PEnd) : List Nat := match o with
          | some x => if x.kind = 0 ∧ x.tid = e.2.tid then [x.idx.toNat] else []
          | none => []
        wakeThr s { e.2 with unbIn := e.2.unbIn ++ mine q.cons, unbOut := e.2.unbOut ++ mine q.prod }
      else s
    | _ => s) s

/-- STRUNB (R388). -/
def execStrunb (w : Bool) (p : BitVec 3) (s : State) : Out :=
  issue w s fun s th =>
    let q := portAt s th.station p.toNat
    let s := modPort s th.station p.toNat fun _ => {}
    let s := releaseAt (unparkStream s th.station p.toNat q) th.station 2 p.toNat
    .ok (modThr (touchPort s th.station p.toNat) th.tid nextPc)

/-! ### Collectives (R389 to R393) -/

/-- Operation and format of a COLLOP byte, and the element's size in bytes (R390). -/
def collOp (b : Nat) : Nat := bits b 1 0
def collFmt (b : Nat) : Nat := bits b 3 2
def collSize (b : Nat) : Nat := match collFmt b with | 1 => 2 | 2 => 12 | _ => 4

/-- An element that meets no other: a NaN comes out as that of its format (R129). -/
def collQuiet (b x : Nat) : Nat := match collFmt b with | 0 => f32.quiet x | 1 => bf16.quiet x | 2 => w96f.quiet x | _ => x

/-- One combination of two elements (R157). -/
def collCombine (b : Nat) (x y : Nat) : Nat :=
  let mx := collOp b == 1
  match collFmt b with
  | 0 => if collOp b = 0 then (fpOp f32 0 0 0 x y 0).1 else (minMax f32 mx x y).1
  | 1 => if collOp b = 0 then (fpOp bf16 0 0 0 x y 0).1 else (minMax bf16 mx x y).1
  | 2 => (w96Add (BitVec.ofNat 96 x) (BitVec.ofNat 96 y)).1.toNat
  | _ =>
    let i (n : Nat) : Int := (BitVec.ofNat 32 n).toInt
    if collOp b = 0 then (x + y) % 2 ^ 32 else if (if mx then i y < i x else i x < i y) then x else y

/-- Fields of the command words. -/
structure CollCmd where
  op : Nat
  dseg : Nat
  sseg : Nat
  soff : Nat
  doff : Nat
  npart : Nat
  cid : Nat
  count : Nat
  rdev : Nat
  rstn : Nat
  deriving DecidableEq, Repr

def collCmd (ws : List DWord) : CollCmd :=
  let w (i : Nat) : Nat := (ws.getD i 0).toNat
  { op := bits (w 0) 55 48, dseg := bits (w 0) 45 43, sseg := bits (w 0) 42 40, soff := bits (w 0) 39 0, doff := bits (w 1) 39 0,
    npart := bits (w 2) 55 48 + 1, cid := bits (w 2) 47 32, count := bits (w 2) 31 0, rdev := bits (w 3) 23 16, rstn := bits (w 3) 15 0 }

/-- This device and a station are a broadcast's root. -/
def isRoot (s : State) (pn st : Nat) (c : CollCmd) : Bool := c.rdev == logicalDev s pn (ownDev s) && c.rstn == st

/-- The checks of a collective's command (R390). R390 gives the segment checks no order of its own: the model takes them in the order of
R382, behind CFG_ILLEGAL (log 142). -/
def collFault (s : State) (pn st : Nat) (bc : Bool) (ws : List DWord) : Option Byte :=
  let w (i : Nat) : Nat := (ws.getD i 0).toNat
  let c := collCmd ws
  let sg := vget (stn s st).eng c.sseg
  let dg := vget (stn s st).eng c.dseg
  let src := !bc || isRoot s pn st c
  let al := if collFmt c.op = 2 then 4 else collSize c.op
  let n := c.count * collSize c.op
  if bits (w 0) 63 56 != 0 || bits (w 0) 47 46 != 0 || bits (w 1) 63 40 != 0 || bits (w 2) 63 56 != 0 || bits (w 3) 63 24 != 0 ||
      (!bc && w 3 != 0) || bits c.op 7 4 != 0 || collOp c.op == 3 || (collFmt c.op == 2 && collOp c.op != 0) ||
      (bc && collOp c.op != 0) || c.count == 0 then some 0x14
  else if !dg.engine || !dg.write || (src && (!sg.engine || !sg.read)) then some 0x04
  else if c.doff % al != 0 || (src && c.soff % al != 0) then some 0x05
  else if decide (dg.limit < c.doff + n) || (src && decide (sg.limit < c.soff + n)) then some 0x03
  else none

def modColl (s : State) (pn : Nat) (cid : Half) (f : Coll → Coll) : State :=
  modPart s pn fun p =>
    { p with colls := if p.colls.any (·.cid == cid) then p.colls.map fun c => if c.cid = cid then f c else c
                      else p.colls ++ [f { cid := cid, state := 0 }] }

/-- COLLRED and COLLBC: a contribution on its way to the collective unit (R391). -/
def collOpIssue (w bc : Bool) (a : BitVec 5) (s : State) : Out :=
  issue w s fun s th =>
    let pn := tidPart th.tid
    let ws := (List.range 4).map fun i => rgN th (a.toNat + i)
    match collFault s pn th.station bc ws with
    | some e => .error (trapOp th e)
    | none =>
      let cid := (collCmd ws).cid
      let k : CollIn := { st := th.station, tid := th.tid, bc := bc, words := ws, n := s.fresh }
      let s := modColl { s with fresh := s.fresh + 1 } pn (BitVec.ofNat 16 cid) fun c => { c with waiting := c.waiting ++ [k] }
      let s := foldEvent s pn th.station (portCorner th.station) 1 (ownDev s * 2 ^ 56) (ws.flatMap fun x => natLe 8 x.toNat)
      .ok (within (setThr s (nextPc th)) 360 (.collectiveContribution pn cid))

/-- COLLRED (R391). -/
def execCollred (w : Bool) (a : BitVec 5) (s : State) : Out := collOpIssue w false a s
/-- COLLBC (R391). -/
def execCollbc (w : Bool) (a : BitVec 5) (s : State) : Out := collOpIssue w true a s

/-- n free bytes. -/
def freeBytes : Nat → State → List Byte × State
  | 0, s => ([], s)
  | n + 1, s =>
    let d := draw s 256
    let r := freeBytes n d.2
    (BitVec.ofNat 8 d.1 :: r.1, r.2)

/-- A collective fails: every issuer is told its cause (R391, R392). The report's other fields are not stated; it holds the issuer's id
where the reports of other engines have it (R70; log 65). -/
def collFail (s : State) (pn : Nat) (c : Coll) (cause : Byte) : State :=
  let s := modColl s pn c.cid fun x => { x with state := 3, cause := cause }
  c.contribs.foldl (fun s k =>
    let a := freeBytes 11 s
    let b := freeBytes 16 a.2
    report b.2 pn k.2.1 k.1 (cause :: a.1 ++ natLe 4 k.2.1.toNat ++ b.1)) s

/-- Devices of a partition's chain (R447). -/
def chainOf (s : State) (pn : Nat) : List Nat := (List.range 64).filter fun i => bit (pfield (part s pn) 40 8) i || i == ownDev s

/-- A contribution registers; with NPART of them the operation runs (R391). -/
def register (s : State) (pn : Nat) (c : Coll) (k : CollIn) : State :=
  let item : Nat × Word × List DWord := (k.st, k.tid, k.words)
  let rest := c.waiting.filter fun x => x.n != k.n
  let c' : Coll :=
    if c.state = 1 then { c with contribs := c.contribs ++ [item], waiting := rest }
    else { c with state := 1, cause := 0, bc := k.bc, contribs := [item], waiting := rest }
  let s := modColl s pn c.cid fun _ => c'
  let cmds := c'.contribs.map fun x => collCmd x.2.2
  let m := collCmd item.2.2
  if c'.bc != k.bc || cmds.any fun x => x.op != m.op || x.count != m.count || x.npart != m.npart then collFail s pn c' 0x1D
  else if c'.contribs.length < m.npart then s
  else if c'.bc && m.rdev == logicalDev s pn (ownDev s) && !(c'.contribs.any fun x => x.1 == m.rstn) then s
  else
    let d := (chainOf s pn).length
    within s (400 + 2 * (d - 1) * 4600 + cdiv (m.count * collSize m.op) 256 * 4) (.collectiveDone pn c.cid 0)

/-- A contribution may register: the earliest of its issuer, and neither the operation before its own nor one of 64 places has to be waited
for (R70, R391). -/
def mayRegister (s : State) (pn : Nat) (c : Coll) (k : CollIn) : Bool :=
  let l := (part s pn).colls
  (if c.state = 1 then !(c.contribs.any fun x => decide ((collCmd x.2.2).npart ≤ c.contribs.length))
   else decide (l.countP (·.state == 1) < 64)) &&
    !l.any fun d => d.waiting.any fun y => y.tid == k.tid && decide (y.n < k.n)

/-- A collective unit's queue: that of the unit, which a timed partition has to itself (R70, R447, R463; log 143). -/
def unitOf (s : State) (pn : Nat) : Nat := pfield (part s pn) 37 1 + if (part s pn).timed then 256 * (pn + 1) else 0

/-- The partitions whose commands stand in one queue (R391). -/
def unitParts (s : State) (u : Nat) : List Nat := (s.parts.map (·.1)).filter fun pn => unitOf s pn == u

/-- The contributions to a unit that stand at a place, with their operations and partitions, the earliest issued first. -/
def unitQueue (s : State) (u place : Nat) : List (Nat × Coll × CollIn) :=
  let l := (unitParts s u).flatMap fun pn => (part s pn).colls.flatMap fun c => (c.waiting.filter (·.place == place)).map fun k => (pn, c, k)
  l.foldr (fun x l => l.takeWhile (fun y => y.2.2.n < x.2.2.n) ++ x :: l.dropWhile fun y => y.2.2.n < x.2.2.n) []

/-- The contributions of a partition that meet a condition get another place. -/
def placeColl (s : State) (pn : Nat) (f : CollIn → Bool) (place : Nat) : State :=
  modPart s pn fun p => { p with colls := p.colls.map fun c =>
    { c with waiting := c.waiting.map fun k => if f k then { k with place := place } else k } }

/-- A unit's work on its queue: it takes commands from the channel while it has fewer than 16, and registers what may register, the
earliest issued first (R70, R391; fuel). -/
def unitGo (u : Nat) : Nat → State → State
  | 0, s => s
  | n + 1, s =>
    let q := unitQueue s u 2
    match unitQueue s u 1, decide (q.length < 16), q.find? fun x => mayRegister s x.1 x.2.1 x.2.2 with
    | (pn, _, k) :: _, true, _ => unitGo u n (placeColl s pn (fun y => y.n == k.n) 2)
    | _, _, some (pn, c, k) => unitGo u n (register s pn c k)
    | _, _, none => s

/-- The unit of a partition goes on. -/
def collGo (s : State) (pn : Nat) : State :=
  let u := unitOf s pn
  unitGo u (2 * ((unitQueue s u 1).length + (unitQueue s u 2).length)) s

/-- The commands of a station up to one of them have reached the collective unit, in their order of issue (R12, R70). -/
def collReach (s : State) (pn st n : Nat) : State :=
  collGo (placeColl s pn (fun k => k.place == 0 && k.st == st && decide (k.n ≤ n)) 1) pn

/-- The word of COLLSTAT (R393). -/
def collWord (s : State) (pn : Nat) (cid : Half) : DWord := BitVec.ofNat 64 (match (part s pn).colls.find? fun c => c.cid == cid with
  | some c => c.state + (if c.state = 3 then c.cause.toNat else 0) * 2 ^ 8 + c.contribs.length * 2 ^ 16
  | none => 0)

/-- Commands of a station are on their way to the collective unit. -/
def collOut (s : State) (pn st : Nat) : Bool := (part s pn).colls.any fun c => c.waiting.any fun k => k.st == st && k.place == 0

/-- COLLSTAT (R393): behind the cluster's earlier commands to the unit, so that the cores whose equal commands are merged with it find
their own there too (R70, R71; log 123). -/
def execCollstat (w : Bool) (d a : BitVec 5) (s : State) : Out :=
  issue w s fun s th =>
    let pn := tidPart th.tid
    let cid : Half := (rg th a).truncate 16
    let near := (List.range 256).filter fun st => clusterOf st == clusterOf th.station && collOut s pn st
    let s := near.foldl (fun s st => collReach s pn st s.fresh) s
    let r := combine s th [3, cid.toNat] fun s => (s, collWord s pn cid)
    .ok (longResult r.1 th { id := 0, pc := th.pc, dest := .g d, res := [(0, r.2)] } 360)

/-- A contribution reaches the unit: the earliest of its id that has not. -/
def contribute (s : State) (pn cid : Nat) : State :=
  match ((part s pn).colls.find? fun c => c.cid.toNat == cid).bind fun c => c.waiting.find? fun k => k.place == 0 with
  | none => s
  | some k => collReach s pn k.st k.n

/-- COLLECTIVE_CONTRIBUTION (R391). -/
def execCollectiveContribution (s : State) : Out := onEvent s fun e => match e with
  | .collectiveContribution pn cid => some (contribute s pn cid)
  | _ => none

/-- Elements of a byte string. -/
def elemsOf (z : Nat) (l : List Byte) (n : Nat) : List Nat := (List.range n).map fun i => leNat ((l.drop (z * i)).take z)

/-- The sources of a device's contributors, in ascending station order, or the first fault. -/
def collSources (s : State) (pn : Nat) : List (Nat × CollCmd) → State × Except DFault (List (List Nat))
  | [] => (s, .ok [])
  | (st, c) :: l =>
    let g := vget (stn s st).eng c.sseg
    match engRead s st pn g ((vaOf g (BitVec.ofNat 64 c.soff)).toNat) (c.count * collSize c.op) with
    | (s, .error f) => (s, .error f)
    | (s, .ok b) => match collSources s pn l with
      | (s, .ok r) => (s, .ok (elemsOf (collSize c.op) b c.count :: r))
      | (s, .error f) => (s, .error f)

/-- Bytes of an engine's segment written on its path (R320). -/
def engWrite (s : State) (st pn : Nat) (g : Seg) (va : Nat) (l : List Byte) : State × Option DFault :=
  if g.isLocal then (localWrite s pn (localKey pn st va) l, none)
  else if g.type = 2 then (localWrite s pn (tileKey st (bits va 18 15) (va % 2 ^ 15)) l, none)
  else vwrite s st pn va l g.hashed g.pinned

/-- The results written to every contributor, or the first fault (R391 step 4). -/
def collWrites (pn : Nat) (res : List Nat) : List (Nat × CollCmd) → State → State × Option DFault
  | [], s => (s, none)
  | (st, c) :: l, s =>
    let g := vget (stn s st).eng c.dseg
    let seal_ := g.type == 1 && (kget (part s pn).seals g.idx).isSome
    if seal_ then (s, some { cause := 0x04, addr := vaOf g (BitVec.ofNat 64 c.doff) })
    else match engWrite s st pn g ((vaOf g (BitVec.ofNat 64 c.doff)).toNat) (res.flatMap (natLe (collSize c.op))) with
      | (s, some f) => (s, some f)
      | (s, none) => collWrites pn res l s

/-- The value of a peer device's result for an element (R157 step 2; log 8). -/
def peerElems (s : State) (n z : Nat) : List Nat × State :=
  ((List.range n).map fun i => Config.draw (s.freeCtr + i) % 2 ^ (8 * z), { s with freeCtr := s.freeCtr + n })

/-- The per-device results combined from the lowest logical device on; a NaN of one device alone is made the format's (R129, R157). -/
def collAcross (s : State) (c : CollCmd) (own : List Nat) (ds : List Nat) : List Nat × State :=
  ds.foldl (fun (a : List Nat × State) d =>
    let p : List Nat × State := if d = ownDev s then (own, a.2) else peerElems a.2 c.count (collSize c.op)
    (if a.1.isEmpty then p.1.map (collQuiet c.op) else (a.1.zip p.1).map fun e => collCombine c.op e.1 e.2, p.2)) ([], s)

/-- A collective's reads, combinations and writes on this device, or its failure (R391, R392). -/
def collRun (s : State) (pn : Nat) (cid : Half) (cause : Byte) : State :=
  match (part s pn).colls.find? fun c => c.cid == cid && c.state == 1 with
  | none => s
  | some c =>
    if (part s pn).swapped then later s 1 (.collectiveDone pn cid cause)
    else if cause ≠ 0 then collGo (collFail s pn c cause) pn
    else
      let members := (List.range 256).flatMap fun st => (c.contribs.filter fun x => x.1 == st).map fun x => (st, collCmd x.2.2)
      match members with
      | [] => s
      | (_, m) :: _ =>
        let root := if c.bc then members.filter fun x => isRoot s pn x.1 x.2 else members
        match collSources s pn root with
        | (s, .error f) => collGo (collFail s pn c f.cause) pn
        | (s, .ok srcs) =>
          let own := match srcs with
            | [] => []
            | r :: rest => rest.foldl (fun a b => (a.zip b).map fun e => collCombine m.op e.1 e.2) r
          let r : List Nat × State :=
            if c.bc then (if own.isEmpty then peerElems s m.count (collSize m.op) else (own, s))
            else collAcross s m own (chainOf s pn)
          match collWrites pn r.1 members r.2 with
          | (s, some f) => collGo (collFail s pn c f.cause) pn
          | (s, none) =>
            collGo (modColl s pn cid fun x => { x with state := 2, cause := 0 }) pn

/-- COLLECTIVE_DONE (R392). -/
def execCollectiveDone (s : State) : Out := onEvent s fun e => match e with
  | .collectiveDone pn cid cause => some (collRun s pn cid cause)
  | _ => none

end Sys2Proof.Machine
end

