-- ==== Sys2Proof/Machine/Ctx.lean ====
section
/-! DEFINITION. The functions of CTX: saving, loading, holding, releasing and killing threads (R490 to R497). -/

namespace Sys2Proof.Machine

/-- A thread of the caller's partition that is held on the caller's core (R490). -/
def heldHere (s : State) (th : Thread) (t : Word) : Option Thread :=
  (getThr s t).filter fun x =>
    x.st == .parked .held && x.station == th.station && tidPart t == tidPart th.tid && x.ending.isNone

/-- The thread that a register names. -/
def tidArg (th : Thread) (a : BitVec 5) : Word := (rg th a).truncate 32

/-- The checks of a save area of 264 bytes (R492). -/
def areaTrap (s : State) (th : Thread) (g : Seg) (off : DWord) (wr : Bool) : Option PendTrap :=
  if !g.pinned || (if wr then !g.write || sealedSeg s (tidPart th.tid) g else !g.read) then some (trapAt th 0x04 (vaOf g off))
  else if off.toNat % 8 ≠ 0 then some (trapAt th 0x05 (vaOf g off))
  else if g.limit < off.toNat + 264 then some (trapAt th 0x03 (vaOf g off))
  else none

/-- The 33 words of a context (R491). -/
def saveImage (th : Thread) : Frame :=
  natLe 8 (pcswOf th).toNat ++ natLe 8 (pwOf th).toNat ++ (List.range 31).flatMap fun i => natLe 8 (rgN th (i + 1)).toNat

/-- An operation still to write a general register (R493). -/
def writesG (o : LongOp) : Bool := !o.done && o.replay.isNone && (match o.dest with | .g r => r != 0 | .tget => true | _ => false)

/-- The class of a path-T access of a context instruction (R359). -/
def pathTClass : Nat := 1800 + 1200 + 360

/-- The answer of a context instruction that works on a thread: a kill of that thread waits for it (R509). -/
def answerCtx (s : State) (t : Word) (d : BitVec 5) (v : DWord) (x : Word) : State :=
  let s := answer s ((getThr s t).getD {}) d v pathTClass
  modThr s t fun th => { th with ops := th.ops.map fun o => if o.id + 1 = th.nextOp then { o with ctx := some x } else o }

/-- CTXSV (R493): the image, and the results still to come redirected into it; the answer waits for them. -/
def execCtxsv (w : Bool) (d a b : BitVec 5) (n : BitVec 3) (s : State) : Out :=
  issue w s fun s th => supOnly th <|
    let g := rseg th n
    let off := rg th b
    match areaTrap s th g off true with
    | some t => .error t
    | none => match heldHere s th (tidArg th a) with
      | none => .ok (answer s th d 1 1)
      | some x => match segWrite s th g off.toNat (saveImage x) with
        | (s, some f) => .ok (answerCtx (loseThr s x.tid f.addr) th.tid d 2 x.tid)
        | (s, none) =>
          let left := x.ops.countP writesG
          if left = 0 then .ok (answerCtx s th.tid d 0 x.tid)
          else
            let x := (getThr s x.tid).getD x
            let th := (getThr s th.tid).getD th
            let s := setThr s { x with ops := x.ops.map fun o => if writesG o then { o with saveAt := some (th.tid, off, g) } else o }
            let r := addOp (nextPc th) { id := 0, pc := th.pc, dest := .g d, left := left, hold := true, ctx := some x.tid }
            .ok (parkThr s r.2 .marker)

/-- A context loaded into a held thread (R494): CO is kept, cr.srseed is 0 and the generators are seeded from it. -/
def loadImage (th : Thread) (b : Frame) : Thread :=
  let word (i : Nat) : DWord := BitVec.ofNat 64 (field b (8 * i) 8)
  let th := { withPcsw th (word 0) with co := th.co, srseed := 0, gens := seeded 0 }
  (List.range 31).foldl (fun t i => wgN t (i + 1) (word (i + 2))) (setPw th (word 1))

/-- CTXLD (R494). -/
def execCtxld (w : Bool) (d a b : BitVec 5) (n : BitVec 3) (s : State) : Out :=
  issue w s fun s th => supOnly th <|
    let g := rseg th n
    let off := rg th b
    match areaTrap s th g off false with
    | some t => .error t
    | none => match heldHere s th (tidArg th a) with
      | none => .ok (answer s th d 1 1)
      | some x => match segRead s th g off.toNat 264 with
        | (s, .error _) => .ok (answerCtx s th.tid d 3 x.tid)
        | (s, .ok l) => .ok (answerCtx (setThr s (loadImage x l)) th.tid d 0 x.tid)

/-- RQPUSH (R495). -/
def execRqpush (w : Bool) (d a b : BitVec 5) (s : State) : Out :=
  issue w s fun s th => supOnly th <| match heldHere s th (tidArg th a) with
    | none => .ok (answer s th d 1 1)
    | some x => .ok (answer (makeReady s { x with prio := (rg th b).truncate 2 }) th d 0 1)

/-- READY threads of the caller's partition and core with a priority, in their order (R38). -/
def readyAt (s : State) (th : Thread) (p : BitVec 2) : List Thread :=
  ((stn s th.station).runq.filterMap (getThr s)).filter fun x => x.prio == p && tidPart x.tid == tidPart th.tid

/-- A thread READY or RUNNING is held (R490, R495). -/
def holdThr (s : State) (x : Thread) : State := parkThr (leaveQueue s x) x .held

/-- RQPOP by priority (R495). -/
def execRqpop (w : Bool) (d a : BitVec 5) (s : State) : Out :=
  issue w s fun s th => supOnly th <| match readyAt s th ((rg th a).truncate 2) with
    | [] => .ok (answer s th d 0 1)
    | x :: _ => .ok (answer (holdThr s x) th d (x.tid.setWidth 64) 1)

/-- A thread READY or RUNNING on the caller's core. -/
def popTarget (s : State) (th : Thread) (t : Word) : Option Thread :=
  (getThr s t).filter fun x => x.station == th.station && tidPart t == tidPart th.tid &&
    (match x.st with | .ready => true | .running _ => true | _ => false)

/-- RQPOP by id (R495): a thread at trap entry is held after it (R509). The caller may hold itself. -/
def execRqpopId (w : Bool) (d a : BitVec 5) (s : State) : Out :=
  issue w s fun s th => supOnly th <|
    let t := tidArg th a
    match popTarget s th t with
    | none => .ok (answer s th d 0 1)
    | some x =>
      if t = th.tid then .ok (holdThr s (nextPc (wg th d (t.setWidth 64))))
      else
        let s := match x.st, x.pend with
          | .running _, some p => takeTrap s x (if p.acc.isSome then { p with mpc := x.pc } else p)
          | _, _ => s
        match popTarget s th t with
        | none => .ok (answer s th d 0 1)
        | some x => .ok (answer (holdThr s x) th d (t.setWidth 64) 64)

/-- RQPOP with K = 1 (R495, R496): the caller itself is killed at once, without a result. -/
def execRqpopKill (w : Bool) (d a : BitVec 5) (s : State) : Out :=
  issue w s fun s th => supOnly th <|
    let t := tidArg th a
    if t = th.tid then .ok (killThr s t)
    else match getThr s t with
      | none => .ok (answer s th d 0 360)
      | some x =>
        if !x.st.live || x.ending.isSome || tidPart t ≠ tidPart th.tid then .ok (answer s th d 0 360)
        else
          let s := killThr s t
          .ok (answer s ((getThr s th.tid).getD th) d (t.setWidth 64) 360)

/-- RQPEEK (R497). -/
def execRqpeek (w : Bool) (d a : BitVec 5) (s : State) : Out :=
  issue w s fun s th => supOnly th <|
    let l := readyAt s th ((rg th a).truncate 2)
    let held := s.threads.countP fun e => e.2.st == .parked .held && e.2.station == th.station
    .ok (setThr s (nextPc (wg th d (BitVec.ofNat 64
      (((l.head?).map (·.tid.toNat)).getD 0 + l.length * 2 ^ 32 + held * 2 ^ 48)))))

end Sys2Proof.Machine
end

