-- ==== Sys2Proof/Machine/Fetch.lean ====
section
/-! DEFINITION. The instruction cache and the fetch of an instruction (R87 to R94, R441), and what a thread slot's turn does: take a
waiting thread, an interrupt of the timer, a pending trap, an instruction or nothing (R32, R38, R40, R83, R84). -/

namespace Sys2Proof.Machine

/-! ### Instruction cache -/

/-- The byte that the cache of a station holds at a virtual address. -/
def icByte (s : State) (st pn va : Nat) : Option Byte :=
  ((stn s st).icache.find? fun l => l.part == pn && l.line == va / 64).map fun l => l.data.extractLsb' (8 * (va % 64)) 8

/-- The instruction word at a virtual address, when its line or lines are there. -/
def icWord (s : State) (st pn va : Nat) : Option (BitVec 32) :=
  match icByte s st pn va, icByte s st pn (va + 1), icByte s st pn (va + 2), icByte s st pn (va + 3) with
  | some a, some b, some c, some d => some (d ++ c ++ b ++ a)
  | _, _, _, _ => none

/-- The line of an instruction that the cache does not hold. -/
def icMissing (s : State) (st pn va : Nat) : Nat :=
  if (icByte s st pn va).isNone then va / 64 else (va + 3) / 64

/-- A line is used (R87): the order of last use within its set. -/
def icTouch (s : State) (st pn line : Nat) : State :=
  modStn s st fun x => { x with icache :=
    (x.icache.filter fun l => !(l.part == pn && l.line == line)) ++ (x.icache.filter fun l => l.part == pn && l.line == line) }

/-- A line enters the cache: 4 ways of 256 sets, the least recently used line of the set out. Ways 0 and 1 are those of a timed
partition whose rectangle holds the core, so that its lines take two ways of a set and those of all others the other two (R87, R441,
R463; log 134). -/
def icInstall (s : State) (st pn line : Nat) (data : BitVec 512) : State :=
  let timedHere (q : Nat) : Bool := (part s q).timed && (part s q).st == .running
  let shared := s.parts.any fun p => timedHere p.1 && p.2.hasStation st
  let inSet (y : ILine) : Bool := y.line % 256 == line % 256
  let mine (y : ILine) : Bool := inSet y && (!shared || timedHere y.part == timedHere pn)
  let ways := if shared then 2 else 4
  let trim (f : ILine → Bool) (n : Nat) (l : List ILine) : List ILine := (List.range n).foldl (fun l _ => l.eraseP f) l
  modStn s st fun x =>
    let l := x.icache.filter fun y => !(y.part == pn && y.line == line)
    let l := trim mine (l.countP mine + 1 - ways) l
    let l := trim (fun y => inSet y && !mine y) (l.countP inSet + 1 - 4) l
    { x with icache := l ++ [{ part := pn, line := line, data := data }] }

/-- Lines that satisfy a test leave the cache, and their fills in flight are discarded on arrival (R91, R92, R94). -/
def icKill (s : State) (st : Nat) (f : Nat → Nat → Bool) : State :=
  modStn s st fun x =>
    { x with icache := x.icache.filter fun l => !f l.part l.line,
             fills := (x.fills.filter fun y => !(y.done && f y.part y.line)).map fun y =>
               if !y.l1 && f y.part y.line then { y with killed := true } else y }

/-- A fill of the instruction cache or a prefetch sent to the line's home as a request on path T, by way of the cluster's memory port
(R88, R93, R457, R459). -/
def sendFill (s : State) (st : Nat) (f : Fill) : State :=
  let f := { f with id := s.fresh }
  let s := modStn { s with fresh := s.fresh + 1 } st fun x => { x with fills := x.fills ++ [f] }
  sendReq s
    { id := 0, who := .ifill st f.id f.prefetch, part := f.part, st := st, path := 0, kind := if f.l1 then .fill else .read,
      va := BitVec.ofNat 64 ((if f.l1 then 256 else 64) * f.line), z := if f.l1 then 1 else 64, hashed := f.seg.hashed,
      pinned := f.seg.pinned, segIdx := if f.l1 && f.seg.type == 1 then f.seg.idx + 1 else 0, code := !f.l1 }

/-- A demand fill sent, unless one of the line is under way; prefetches in flight neither serve it nor delay it (R88, R95). -/
def icMiss (s : State) (st pn line : Nat) (g : Seg) : State :=
  if (stn s st).fills.any fun y => !y.l1 && !y.prefetch && !y.next && !y.killed && !y.done && y.part == pn && y.line == line then s
  else sendFill s st { part := pn, line := line, seg := g }

/-- After a missing line the next sequential line is filled, if it lies inside the limit and within the page of the missing line (R88).
A line counts as inside the limit when its first byte is (log 110). -/
def icNext (s : State) (st pn line : Nat) (g : Seg) : State :=
  let va := 64 * (line + 1)
  let samePage := match tlbFind s st pn (64 * line) with
    | some t => va / 2 ^ t.size == 64 * line / 2 ^ t.size
    | none => false
  if samePage && decide (va < g.base + g.limit) && !(stn s st).icache.any (fun l => l.part == pn && l.line == line + 1) then
    sendFill s st { part := pn, line := line + 1, seg := g, next := true }
  else s

/-- The threads of a station that wait in their slots for a line (R88). -/
def icWaiters (s : State) (st pn line : Nat) : List Word :=
  ((s.threads.map (·.2)).filter fun th => (match th.st with | .running _ => true | _ => false) && th.station == st && tidPart th.tid == pn &&
    icMissing s st pn ((rseg th 0).base + th.pc.toNat) == line).map (·.tid)

/-- A fill of a line has arrived (R88, R94). One that failed stands until the threads that waited for it take their fault (R89); that
of a next line leaves no trace. -/
def icFill (s : State) (st pn line : Nat) : State :=
  match (stn s st).fills.find? fun y => y.here && !y.l1 && !y.prefetch && !y.done && y.part == pn && y.line == line with
  | none => s
  | some f =>
    let gone := modStn s st fun x => { x with fills := x.fills.erase f }
    if f.killed then gone
    else match f.fault with
      | none =>
        let s := icInstall gone st pn line f.data
        if f.next then s else icNext s st pn line f.seg
      | some _ =>
        let w := icWaiters s st pn line
        let g : Fill := { f with done := true, failAt := s.time, waiters := w }
        if f.next || w.isEmpty then gone else modStn s st fun x => { x with fills := x.fills.map fun y => if y = f then g else y }

/-! ### A slot's turn -/

/-- The thread runs for a timed launch (R399). -/
def timedThread (s : State) (t : Word) : Bool :=
  match (getThr s t).bind (·.launch) with
  | some n => (part s (tidPart t)).launches.any fun l => l.n == n && l.timed
  | none => false

/-- A thread may take a slot: the lowest-numbered slots of a timed partition are those its record reserves (R399). A
partition that is swapped out has none (R498). -/
def maySit (s : State) (t : Word) (sl : Nat) : Bool :=
  let p := part s (tidPart t)
  !p.swapped && (!p.timed || decide (pfield p 34 1 ≤ sl) || timedThread s t)

/-- The thread that an empty slot takes: the head of the highest non-empty priority (R38). A thread takes its first turn at the
earliest one cycle after it became READY (R35). -/
def refillHead (s : State) (st sl : Nat) : Option Word :=
  let l := (stn s st).runq.filter fun t => maySit s t sl && (getThr s t).any fun th => decide (th.readySince < s.time)
  let prio (t : Word) : Nat := ((getThr s t).map (·.prio.toNat)).getD 0
  l.foldl (fun (m : Option Word) t => match m with
    | none => some t
    | some u => if prio u < prio t then some t else some u) none

/-- The slot of a running thread. -/
def slotOf (th : Thread) : Nat := match th.st with | .running sl => sl | _ => 0

/-- The thread that a waiting one of higher priority displaces: the running thread of lowest PRIO with TE = 1, among equals the one
that entered its slot last, in a slot that the waiting thread may take (R398, R399). -/
def preemptVictim (s : State) (st : Nat) : Option Thread :=
  let x := stn s st
  let running := x.slots.toList.filterMap fun o => o.bind (getThr s)
  if running.length < 16 then none
  else
    let waiting := x.runq.filterMap (getThr s)
    (running.filter fun v => v.te && waiting.any fun t => decide (v.prio.toNat < t.prio.toNat) && maySit s t.tid (slotOf v)).foldl
      (fun (m : Option Thread) t => match m with
      | none => some t
      | some v => if t.prio.toNat < v.prio.toNat ∨ (t.prio = v.prio ∧ v.slotSince < t.slotSince) then some t else some v) none

/-- The fault of a fetch that cannot be completed (R89). -/
def fetchTrap (th : Thread) (cause : Byte) (addr : DWord) : PendTrap :=
  { cause := cause, epc := th.pc, mpc := th.pc, faddr := addr, finfo := 1 }

/-- What a slot's turn comes to: nothing more, or a row of the table. -/
abbrev Turn := State × Option Instr

/-- A precise trap that first waits as a marker (R84, R89). -/
def trapTurn (s : State) (th : Thread) (w : Bool) (sl : Nat) (t : PendTrap) : Turn :=
  match if w then atMarker s th else none with
  | some s' => (s', none)
  | none => ({ setThr s { th with pend := some t } with hand := .event (.trapEntry th.station sl) }, some .trapEntry)

/-- The word that the thread would issue (R83, R84, R183). -/
def issueTurn (s : State) (th : Thread) (sl : Nat) (w : BitVec 32) : Turn :=
  match decodePorlek w with
  | .ok i => (s, some i)
  | .error .pointerTag => trapTurn s th w.msb sl (trapOp th 0x1D)
  | .error _ => trapTurn s th w.msb sl (trapOp th 0x01)

/-- The fetch of a thread's next instruction (R88, R89). -/
def fetchTurn (s : State) (th : Thread) (sl : Nat) : Turn :=
  let g := rseg th 0
  let pn := tidPart th.tid
  let va := g.base + th.pc.toNat
  let no (s : State) (c : Byte) : Turn := trapTurn s th true sl (fetchTrap th c (BitVec.ofNat 64 va))
  if !g.exec then no s 0x04
  else if g.limit ≤ th.pc.toNat then no s 0x03
  else match icWord s th.station pn va with
    | some w => issueTurn (icTouch s th.station pn (va / 64)) th sl w
    | none =>
      let line := icMissing s th.station pn va
      match (stn s th.station).fills.find? fun y => y.done && y.part == pn && y.line == line && y.waiters.contains th.tid &&
          decide (th.slotSince ≤ y.failAt) with
      | some f =>
        let w := f.waiters.filter (· != th.tid)
        let s := modStn s th.station fun x =>
          { x with fills := if w.isEmpty then x.fills.erase f else x.fills.map fun y => if y = f then { y with waiters := w } else y }
        no s ((f.fault.map (·.cause)).getD 0x08)
      | none => (icMiss s th.station pn line g, none)

/-- The thread is the running one of a slot (R37). -/
def TState.inSlot : TState → Bool
  | .running _ => true
  | _ => false

/-- A thread slot's turn. -/
def slotTurn (s : State) (st sl : Nat) : Turn :=
  let x := stn s st
  if x.dead || x.outOfService then (s, none)
  else match vget x.slots sl with
    | none =>
      if (refillHead s st sl).isSome then ({ s with hand := .event (.slotRefill st sl) }, some .slotRefill) else (s, none)
    | some t =>
      match getThr s t with
      | none => (s, none)
      | some th =>
        if !th.st.inSlot then (s, none)
        else if th.te && x.quantum != 0 && decide (th.slotSince + x.quantum.toNat ≤ s.time) then
          ({ s with hand := .event (.timerPreempt st sl) }, some .timerPreempt)
        else if (preemptVictim s st).any (·.tid == t) then ({ s with hand := .event (.priorityPreempt st) }, some .priorityPreempt)
        else if !onDuty s (tidPart t) then (s, none)
        else if th.pend.isSome then ({ s with hand := .event (.trapEntry st sl) }, some .trapEntry)
        else fetchTurn s th sl

end Sys2Proof.Machine
end

