-- ==== Sys2Proof/Machine/Threads.lean ====
section
/-! DEFINITION. The end, the joining and the priority of threads (R406 to R409). -/

namespace Sys2Proof.Machine

/-- EXIT (R406): a marker, then the end of the thread. -/
def execExit (_w : Bool) (a : BitVec 5) (s : State) : Out :=
  issue true s fun s th => .ok (beginEnd s th .exited 0 (rg th a))

/-- The class of an answer that comes from another station; one cycle from the own one (R22). -/
def classOf (a b : Nat) : Nat := if a = b then 1 else distClass a b

/-- JOIN (R408): an outcome that is known comes back as an answer; else the caller parks until the child ends. -/
def execJoin (w : Bool) (d a : BitVec 5) (s : State) : Out :=
  issue w s fun s th =>
    let c : Word := (rg th a).truncate 32
    let wcl := classOf th.station (tidHome c)
    if c = th.tid then .ok (answer s th d (BitVec.ofNat 64 (5 * 2 ^ 60)) wcl)
    else if c = 0 ∨ tidPart c ≠ tidPart th.tid then .ok (answer s th d 0 wcl)
    else match getThr s c with
      | none => .ok (answer s th d 0 wcl)
      | some ch =>
        if (stn s (tidHome c)).dead then .ok (answer s th d (BitVec.ofNat 64 (4 * 2 ^ 60)) wcl)
        else if ch.st.live then .ok (startWait s th (.join c d) .join false)
        else
          let s := answer s th d (joinWord ch) wcl
          .ok (if reaps ch th.sup then { s with threads := kdel s.threads c.toNat } else s)

/-- YIELD (R407): a marker, then the tail of the thread's priority. -/
def execYield (_w : Bool) (s : State) : Out := issue true s fun s th => .ok (makeReady s (nextPc th))

/-- SETPRIO (R409). -/
def execSetprio (w : Bool) (a : BitVec 5) (s : State) : Out :=
  issue w s fun s th =>
    let p := (rg th a).truncate 2
    if !th.sup && decide (th.bprio < p) then .error (trapOp th 0x02)
    else .ok (setThr s (nextPc { th with prio := p, bprio := p }))

end Sys2Proof.Machine
end

