-- ==== Sys2Proof/Machine/Slots.lean ====
section
/-! DEFINITION. What happens to slots, the run queue and the instruction cache without an instruction: refill, pre-emption, aging,
trap entry, the ends of long operations and fills (R35, R38 to R40, R88, R93, R398, R483). -/

namespace Sys2Proof.Machine

/-- A slot takes its head thread (R38). -/
def refill (s : State) (st sl : Nat) : State :=
  match vget (stn s st).slots sl, (refillHead s st sl).bind (getThr s) with
  | none, some th =>
    let s := modStn s st fun x => { x with slots := vset x.slots sl (some th.tid), runq := x.runq.filter (· != th.tid) }
    setThr s { th with st := .running sl, slotSince := s.time }
  | _, _ => s

/-- SLOT_REFILL (R38). -/
def execSlotRefill (s : State) : Out := onEvent s fun e => match e with
  | .slotRefill st sl => some (refill s st sl)
  | _ => none

/-- LONG_OP_COMPLETE (R35). -/
def execLongOpComplete (s : State) : Out := onEvent s fun e => match e with
  | .longOpComplete t op => some (completeOp s (BitVec.ofNat 32 t) op)
  | _ => none

/-- The thread in a slot. -/
def slotThr (s : State) (st sl : Nat) : Option Thread := (vget (stn s st).slots sl).bind (getThr s)

/-- TIMER_PREEMPT (R40). -/
def execTimerPreempt (s : State) : Out := onEvent s fun e => match e with
  | .timerPreempt st sl => some (match slotThr s st sl with | some th => makeReady s th | none => s)
  | _ => none

/-- PRIORITY_PREEMPT (R398). -/
def execPriorityPreempt (s : State) : Out := onEvent s fun e => match e with
  | .priorityPreempt st => some (match preemptVictim s st with | some th => makeReady s th | none => s)
  | _ => none

/-- A thread that has been READY for a further 2^20 cycles rises by one priority (R39). -/
def age (s : State) (t : Word) : State :=
  match getThr s t with
  | none => s
  | some th =>
    let n := s.time - th.readySince
    if th.st = .ready ∧ n ≠ 0 ∧ n % 2 ^ 20 = 0 then
      let s := setThr s { th with prio := if th.prio = 3 then 3 else th.prio + 1 }
      let s := modStn s th.station fun x =>
        if x.runq.contains t then { x with runq := x.runq.filter (· != t) ++ [t] } else x
      later s (2 ^ 20) (.priorityAging t.toNat)
    else s

/-- PRIORITY_AGING (R39). -/
def execPriorityAging (s : State) : Out := onEvent s fun e => match e with
  | .priorityAging t => some (age s (BitVec.ofNat 32 t))
  | _ => none

/-- ICACHE_FILL (R88). -/
def execIcacheFill (s : State) : Out := onEvent s fun e => match e with
  | .icacheFill st pn line => some (icFill s st pn line)
  | _ => none

/-- A prefetch has arrived: its buffer is free, and its line enters the instruction cache, unless it was discarded, failed or is
present by now; a line of the L1 was entered when its home served it (R93, R94, R395). -/
def prefetched (s : State) (st pn line : Nat) (l1 : Bool) : State :=
  match (stn s st).fills.find? fun y => y.here && y.prefetch && y.l1 == l1 && y.part == pn && y.line == line with
  | none => s
  | some f =>
    let s := modStn s st fun x => { x with fills := x.fills.erase f }
    if f.killed || l1 || f.fault.isSome || (stn s st).icache.any (fun l => l.part == pn && l.line == line) then s
    else icInstall s st pn line f.data

/-- PREFETCH_FILL (R93). -/
def execPrefetchFill (s : State) : Out := onEvent s fun e => match e with
  | .prefetchFill st pn line l1 => some (prefetched s st pn line l1)
  | _ => none

/-- The pending trap of the thread in a slot is taken; one of a withdrawn access resumes at the instruction not yet issued (R368,
R483). -/
def trapPending (s : State) (st sl : Nat) : State :=
  match slotThr s st sl with
  | none => s
  | some th => match th.pend with
    | none => s
    | some p => takeTrap s th (if p.acc.isSome then { p with mpc := th.pc } else p)

/-- TRAP_ENTRY (R483). -/
def execTrapEntry (s : State) : Out := onEvent s fun e => match e with
  | .trapEntry st sl => some (trapPending s st sl)
  | _ => none

end Sys2Proof.Machine
end

