-- ==== Sys2Proof/Machine/Cfg.lean ====
section
/-! DEFINITION. The functions of CFG (R311 to R316): load, free, freeze, thaw and the reading of consists. -/

namespace Sys2Proof.Machine

/-- A message of the loader (R312). -/
structure CfgMsg where
  cause : Byte := 0
  result : Nat
  cid : Nat := 0
  anchor : Nat := 0xFFFF
  check : Nat := 0
  entry : Nat := 0
  addr : DWord := 0
  deriving DecidableEq, Repr

/-- The 32 bytes of a message of the loader, to its issuer or the supervisor (R312). -/
def cfgReport (s : State) (pn : Nat) (issuer : Word) (from_ : Nat) (m : CfgMsg) : State :=
  report s pn issuer from_ (reportBytes [(1, m.cause.toNat), (1, m.result), (2, m.cid), (2, m.anchor), (1, m.check), (1, 0),
    (4, issuer.toNat), (2, m.entry), (2, 0), (8, m.addr.toNat)])

/-- A command that names no resident consist, or thaws one that is not frozen. -/
def cfgRefuse (s : State) (th : Thread) (cid : Half) (anchor : Nat) : State :=
  cfgReport s (tidPart th.tid) th.tid th.station { cause := 0x14, result := 2, cid := cid.toNat, anchor := anchor }

/-- CFGLOAD (R312). -/
def execCfgload (w : Bool) (a : BitVec 5) (n : BitVec 3) (s : State) : Out :=
  issue w s fun s th =>
    let g := rseg th n
    let off := rg th a
    if !g.read then .error (trapAt th 0x04 (vaOf g off))
    else if off.toNat % 64 ≠ 0 then .error (trapAt th 0x05 (vaOf g off))
    else if g.limit < off.toNat + 64 then .error (trapAt th 0x03 (vaOf g off))
    else .ok (startLoad (setThr s (nextPc th)) (tidPart th.tid) (vaOf g off) g th.tid th.station none).1

/-- The time in which a free completes once nothing is live (R313). -/
def freeTime (c : Consist) : Nat := 200 + 64 * c.tiles.length

/-- A frozen consist whose free is pending aborts the activations it has (R313). -/
def abortFrozen (s : State) (pn : Nat) (cid : Half) : State :=
  match consistOf s pn cid with
  | none => s
  | some c =>
    if c.frozen && c.freePending then
      (c.acts.filter fun a => !a.ended).foldl (fun s a => faultAct s pn cid a.id 0x16 c.anchor 0 0 0 0) s
    else s

/-- CFGFREE (R313): from now on the consist admits no activation; a frozen one aborts those it has. -/
def cfgFree (s : State) (th : Thread) (cid : Half) : State :=
  let pn := tidPart th.tid
  match consistOf s pn cid with
  | none => cfgRefuse s th cid 0xFFFF
  | some c =>
    let s := abortFrozen (modConsist s pn cid fun c => { c with freePending := true, freeing := c.freeing ++ [th.tid] }) pn cid
    if c.acts.isEmpty ∧ !c.freePending then within s (freeTime c) (.consistFreeComplete pn cid) else s

/-- CFGFREE (R313). -/
def execCfgfree (w : Bool) (a : BitVec 5) (s : State) : Out :=
  issue w s fun s th => .ok (cfgFree (setThr s (nextPc th)) th ((rg th a).truncate 16))

/-- The readout of a consist that stops: once the stop has come to all its tiles, within 2,048 cycles (R59, R314). -/
def planReadout (s : State) (pn : Nat) (c : Consist) : State :=
  let far := c.tiles.foldl (fun n t => max n (hops c.anchor t.st)) 0
  let d := draw s (2047 - far)
  later d.2 (far + 1 + d.1) (.freezeComplete pn c.cid)

/-- A consist stops as under a hold that spreads from its anchor and is never released, and its readout follows; a free that is pending
then aborts its activations (R313, R314). With the watchdog's readout under way the freeze completes once, for both (R316). -/
def freezeConsist (s : State) (pn : Nat) (cid : Half) (r : Readout) : State :=
  match consistOf s pn cid with
  | none => s
  | some c =>
    if c.freezing.any (·.ring) then
      modConsist s pn cid fun c => { c with freezing := c.freezing.map fun x => if x.ring then { r with wdog := true } else x }
    else
      let s := applyHold (modConsist s pn cid fun c => { c with frozen := true, freezing := c.freezing ++ [r] }) pn cid c.anchor 16 5 0
      planReadout (abortFrozen s pn cid) pn c

/-- CFGFREEZE (R314): the consist stops, and its readout follows. -/
def execCfgfreeze (w : Bool) (a b : BitVec 5) (n : BitVec 3) (s : State) : Out :=
  issue w s fun s th => supOnly th <|
    let g := rseg th n
    let off := rg th b
    let pn := tidPart th.tid
    let cid : Half := (rg th a).truncate 16
    if !g.write || !g.engine then .error (trapAt th 0x04 (vaOf g off))
    else
      let s := setThr s (nextPc th)
      match consistOf s pn cid with
      | none => .ok (cfgRefuse s th cid 0xFFFF)
      | some _ =>
        .ok (freezeConsist s pn cid { issuer := th.tid, st := th.station, off := off, seg := g })

/-- Frames that waited for a thaw are written (R316). -/
def checkActs (s : State) (pn : Nat) (cid : Half) : State :=
  match consistOf s pn cid with
  | none => s
  | some c => c.acts.foldl (fun s a => checkAct s pn cid a.id) s

/-- CFGFREEZE with THAW (R314). What the watchdog has frozen stays so until a CFGFREE (R69, R437): a THAW of it is refused as of a consist
that is not frozen (log 141). -/
def execCfgfreezeThaw (w : Bool) (a : BitVec 5) (s : State) : Out :=
  issue w s fun s th => supOnly th <|
    let pn := tidPart th.tid
    let cid : Half := (rg th a).truncate 16
    let s := setThr s (nextPc th)
    match consistOf s pn cid with
    | none => .ok (cfgRefuse s th cid 0xFFFF)
    | some c =>
      if !c.frozen ∨ c.wdog then .ok (cfgRefuse s th cid c.anchor)
      else
        let s := modConsist s pn cid fun c => { c with frozen := false }
        let s := releaseHold s pn cid 0 fun h => h.kind == 5
        .ok (checkActs (cfgReport s pn th.tid th.station
          { result := 5, cid := cid.toNat, anchor := c.anchor, addr := c.image }) pn cid)

/-- Some lane of an element's firings waits on a page fault (R315). -/
def faultWait (s : State) (pn : Nat) (cid : Half) (st e : Nat) : Bool :=
  s.gaccs.any fun g => g.2.part == pn && g.2.cid == cid && g.2.f.st == st && g.2.f.elem == e && !g.2.faulted.isEmpty

/-- An element applies a hold (R59). -/
def holding (c : Consist) (st e : Nat) : Bool := c.holds.any fun h => h.st == st && h.elem == e && h.released.isNone

/-- The word of CFGREAD (R315), and the station that answers. -/
def cfgWord (s : State) (th : Thread) (sel : Nat) (k : Nat) : Nat × Nat :=
  match consistOf s (tidPart th.tid) (BitVec.ofNat 16 (bits sel 15 0)) with
  | none => (0, th.station)
  | some c =>
    if k = 0 then
      (1 + b2n c.frozen * 2 + b2n c.freePending * 4 + b2n c.wdog * 8 + c.acts.countP (fun a => !a.ended) * 2 ^ 8, c.anchor)
    else match c.tiles[bits sel 23 16]? with
      | none => (0, c.anchor)
      | some t =>
        let e := bits sel 27 24
        if !t.elems.getLsbD e then (0, t.st)
        else
          let x := elemAt s t.st e
          if k = 1 then (x.firings.toNat + x.lanes.toNat * 2 ^ 32, t.st)
          else (x.store.length + b2n (holding c t.st e) * 2 ^ 8 + b2n (faultWait s (tidPart th.tid) c.cid t.st e) * 2 ^ 9, t.st)

/-- CFGREAD (R315): a long operation. -/
def execCfgread (w : Bool) (d a : BitVec 5) (k : BitVec 2) (s : State) : Out :=
  issue w s fun s th =>
    let at_ := (cfgWord s th (rg th a).toNat k.toNat).2
    let r := combine s th [4, (rg th a).toNat, k.toNat] fun s => (s, BitVec.ofNat 64 (cfgWord s th (rg th a).toNat k.toNat).1)
    let wcl := if at_ = th.station then 40 else distClass th.station at_
    .ok (longResult r.1 th { id := 0, pc := th.pc, dest := .g d, res := [(0, r.2)] } wcl)

end Sys2Proof.Machine
end

