-- ==== Sys2Proof/Machine/Load.lean ====
section
/-! DEFINITION. The loader: images (R117 to R120), their validation, placement and claims (R114, R115, R122 to R124), frees, freezes,
readouts and watchdogs (R313, R314, R437), and calls that wait (R57, R442). -/

namespace Sys2Proof.Machine

/-! ### Images -/

/-- A load that is refused: cause, failing check, failing entry, the consist id read, and a faulting address (R122, R312). -/
structure LoadErr where
  cause : Byte
  check : Nat := 0
  entry : Nat := 0
  cid : Nat := 0
  va : DWord := 0
  deriving DecidableEq, Repr

/-- A tile entry with its element blocks (R118). -/
structure ImgTile where
  dx : Nat
  dy : Nat
  elems : Nat
  readout : Nat
  blocks : List (Nat × Elem)
  deriving DecidableEq, Repr, Inhabited

/-- A route entry (R119). -/
structure ImgRoute where
  stile : Nat
  rt : Nat
  dtile : Nat
  elem : Nat
  slot : Nat
  port : Bool
  track : Nat
  deriving DecidableEq, Repr, Inhabited

/-- A converter entry (R120). -/
structure ImgConv where
  stile : Nat
  rt : Nat
  track : Nat
  side : Nat
  kind : Nat
  dev : Nat
  fartile : Nat
  elem : Nat
  slot : Nat
  port : Bool
  fartrack : Nat
  collop : Nat
  deriving DecidableEq, Repr, Inhabited

/-- An image that has passed checks 1 and 2. -/
structure Image where
  cid : Nat
  ax : Nat
  ay : Nat
  diemask : Nat
  cwcl : Nat
  cint : Nat
  csset : Nat
  cstn : Nat
  tiles : List ImgTile
  routes : List ImgRoute
  convs : List ImgConv
  deriving DecidableEq, Repr, Inhabited

/-- Check 1: the header (R117). -/
def headerOk (h : Frame) (va : DWord) : Bool :=
  let len := field h 36 4
  let table (off n : Nat) : Bool := off % 8 == 0 && decide (off + n ≤ len)
  va.toNat % 64 == 0 && field h 0 4 == 0x4E5A5934 && field h 4 2 == 1 && field h 6 2 != 0 &&
    decide (1 ≤ field h 8 1 ∧ field h 8 1 ≤ 64) && decide (1 ≤ field h 9 1 ∧ field h 9 1 ≤ 16) &&
    decide (1 ≤ field h 10 1 ∧ field h 10 1 ≤ 16) && decide (field h 11 1 ≤ 1) &&
    ((field h 12 1 == 0xFF) == (field h 13 1 == 0xFF)) && decide (field h 14 1 ≤ 15) && field h 15 1 == 0 &&
    decide (field h 16 2 ≤ 1024) && decide (field h 18 2 ≤ 256) && field h 20 4 == 0 && field h 56 8 == 0 &&
    table (field h 24 4) (16 * field h 8 1) && table (field h 28 4) (8 * field h 16 2) && table (field h 32 4) (16 * field h 18 2)

/-- An element block (R118): slots and constants. -/
def imgElem (b : Frame) : Elem :=
  { slots := Vector.ofFn fun i : Fin 32 => BitVec.ofNat 64 (field b (8 * i.val) 8),
    consts := Vector.ofFn fun i : Fin 4 => BitVec.ofNat 256 (field b (256 + 32 * i.val) 32) }

/-- A tile entry and its blocks, or none where the entry is illegal (R118). -/
def imgTile (b h : Frame) (off : Nat) : Option ImgTile :=
  let e := b.drop off
  let elems := field e 2 2
  let used := (List.range 16).filter (bit elems)
  let at_ := field e 8 4
  if field e 0 1 < field h 9 1 ∧ field e 1 1 < field h 10 1 ∧ (List.range 16).all (fun k => !bit (field e 4 2) k || bit elems k) ∧
      field e 6 2 = 0 ∧ field e 12 4 = 0 ∧ at_ % 64 = 0 ∧ at_ + 384 * used.length ≤ field h 36 4 then
    some { dx := field e 0 1, dy := field e 1 1, elems := elems, readout := field e 4 2,
           blocks := used.zipIdx.map fun x => (x.1, imgElem ((b.drop (at_ + 384 * x.2)).take 384)) }
  else none

/-- A route entry (R119). -/
def imgRoute (b : Frame) (n off : Nat) : Option ImgRoute :=
  let e := b.drop off
  if field e 0 1 < n ∧ field e 1 1 < 16 ∧ field e 2 1 < n ∧ field e 0 1 ≠ field e 2 1 ∧ field e 3 1 < 16 ∧ field e 4 1 < 32 ∧
      field e 5 1 < 2 ∧ field e 6 1 < 8 ∧ field e 7 1 = 0 then
    some { stile := field e 0 1, rt := field e 1 1, dtile := field e 2 1, elem := field e 3 1, slot := field e 4 1,
           port := field e 5 1 == 1, track := field e 6 1 }
  else none

/-- An operation and format code of a collective unit (R390). -/
def collopOk (x : Nat) : Bool := decide (x < 16) && bits x 1 0 != 3 && (bits x 3 2 != 2 || bits x 1 0 == 0)

/-- A converter entry (R120). -/
def imgConv (b : Frame) (n off : Nat) : Option ImgConv :=
  let e := b.drop off
  let k := field e 4 1
  if field e 0 1 < n ∧ field e 1 1 < 16 ∧ field e 2 1 < 8 ∧ field e 3 1 < 5 ∧ k < 4 ∧
      (k = 1 ∨ k = 3 ∨ field e 5 1 = 0) ∧ (k ≠ 0 ∨ field e 6 1 < n) ∧ (k ≠ 2 ∨ field e 6 1 < 16) ∧ field e 7 1 < 16 ∧
      field e 8 1 < 32 ∧ (k ≠ 2 ∨ (field e 7 1 = 0 ∧ field e 8 1 = 0)) ∧ field e 9 1 < 2 ∧ field e 10 1 < 8 ∧
      (if k = 2 then collopOk (field e 11 1) else field e 11 1 == 0) ∧ field e 12 4 = 0 then
    some { stile := field e 0 1, rt := field e 1 1, track := field e 2 1, side := field e 3 1, kind := k, dev := field e 5 1,
           fartile := field e 6 1, elem := field e 7 1, slot := field e 8 1, port := field e 9 1 == 1, fartrack := field e 10 1,
           collop := field e 11 1 }
  else none

/-- The members of a table, or the index of the first entry that is illegal. -/
def imgTable {α : Type} (n : Nat) (f : Nat → Option α) : Except Nat (List α) :=
  (List.range n).foldr (fun i r => match f i with
    | none => .error i
    | some x => r.map (x :: ·)) (.ok [])

/-- Route ends of a tile that start something, as far as the tables say (R115). -/
def startsAt (routes : List ImgRoute) (convs : List ImgConv) : List (Nat × Nat) :=
  routes.map (fun r => (r.stile, r.rt)) ++ (convs.filter fun c => c.kind != 3).map fun c => (c.stile, c.rt)

/-- A destination of a slot is legal in its image (R110). -/
def imgDest (t : ImgTile) (i : Nat) (ends : List (Nat × Nat)) (d : BitVec 16) : Bool :=
  if !destV d then true
  else if destK d then ends.contains (i, destE d)
  else match t.blocks.find? fun b => b.1 == destE d with
    | none => false
    | some b => match decodeRoszon (vget b.2.slots (destSlot d)) with
      | .ok w => portUsed w (destP d)
      | .error _ => false

/-- The first illegal slot of a tile (R109, R110, R113). -/
def imgBadSlot (t : ImgTile) (i : Nat) (ends : List (Nat × Nat)) : Option Nat :=
  t.blocks.findSome? fun b => (List.range 32).find? fun k =>
    let x := vget b.2.slots k
    x != 0 && (match decodeRoszon x with
      | .ok w => !(imgDest t i ends w.d0 && imgDest t i ends w.d1)
      | .error _ => true)

/-- Check 2: every table entry, element block and slot (R118 to R120); an index of the failing one. -/
def imgParse (b h : Frame) : Except Nat Image := do
  let n := field h 8 1
  let tiles ← imgTable n fun i => imgTile b h (field h 24 4 + 16 * i)
  match (List.range n).find? fun i => (tiles.take i).any fun t => t.dx == (tiles.getD i default).dx && t.dy == (tiles.getD i default).dy with
  | some i => throw i
  | none => pure ()
  let routes ← imgTable (field h 16 2) fun i => imgRoute b n (field h 28 4 + 8 * i)
  let convs ← imgTable (field h 18 2) fun i => imgConv b n (field h 32 4 + 16 * i)
  let ends := startsAt routes convs
  match (List.range ends.length).find? fun i => (ends.take i).contains (ends.getD i (0, 0)) with
  | some i => throw (if i < routes.length then i else i - routes.length)
  | none => pure ()
  match tiles.zipIdx.findSome? fun t => imgBadSlot t.1 t.2 ends with
  | some i => throw i
  | none => pure ()
  return { cid := field h 6 2, ax := field h 12 1, ay := field h 13 1, diemask := field h 14 1, cwcl := field h 40 8,
           cint := field h 48 4, csset := field h 52 2, cstn := field h 54 2, tiles := tiles, routes := routes, convs := convs }

/-! ### Placement and claims -/

/-- The station of a tile of an image whose rectangle has its lower corner at (x, y). -/
def imgStation (x y : Nat) (t : ImgTile) : Nat := 16 * (y + t.dy) + x + t.dx
def Image.stationOf (m : Image) (x y i : Nat) : Nat := imgStation x y (m.tiles.getD i default)

/-- The links from one station to another, each as the station that it leaves and a direction: x first, then y (R11, R114). -/
def linkPath (a b : Nat) : List (Nat × Nat) :=
  let row := 16 * yOf a
  let xs := if xOf a ≤ xOf b then (nats (xOf a) (xOf b)).map fun x => (row + x, 0)
    else (nats (xOf b + 1) (xOf a + 1)).map fun x => (row + x, 1)
  let ys := if yOf a ≤ yOf b then (nats (yOf a) (yOf b)).map fun y => (16 * y + xOf b, 2)
    else (nats (yOf b + 1) (yOf a + 1)).map fun y => (16 * y + xOf b, 3)
  xs ++ ys

/-- The tracks of a path. -/
def trackPath (a b t : Nat) : List (Nat × Nat) := (linkPath a b).map fun l => (l.1, 8 * l.2 + t)

/-- A side of a die that carries a bridge; north is the side of larger y (R16, R115; log 112). -/
def sideBridged (st side : Nat) : Bool :=
  let d := dieOf st
  match side with | 0 => d % 2 == 0 | 1 => d % 2 == 1 | 2 => d < 2 | 3 => 2 ≤ d | _ => true

/-- The tracks that a converter entry needs: to the near converter, and from the far one (R115, R120; log 111). -/
def convTracks (m : Image) (x y : Nat) (c : ImgConv) : List (Nat × Nat) :=
  let a := m.stationOf x y c.stile
  if c.kind = 3 then trackPath (convStation a c.side) a c.fartrack
  else
    trackPath a (convStation a c.side) c.track ++
      (if c.kind = 0 then
        let b := m.stationOf x y c.fartile
        trackPath (convStation b (facing c.side)) b c.fartrack
      else [])

/-- The coupler port of a converter entry: a collective unit's own, or that of the peer device (R18, R20, R451). -/
def couplerOf (s : State) (pn : Nat) (c : ImgConv) : Option Nat :=
  if c.kind = 0 then none
  else if c.kind = 2 ∨ c.dev = logicalDev s pn (ownDev s) then some (c.fartile % 16)
  else some (bits (vget s.domain (deviceOf s pn c.dev)).toNat 5 2)

/-- A converter entry as a leg. -/
def legFor (s : State) (pn : Nat) (m : Image) (x y : Nat) (c : ImgConv) : Leg :=
  { src := m.stationOf x y c.stile, rt := c.rt, side := c.side, kind := c.kind, dev := c.dev,
    far := if c.kind = 0 then m.stationOf x y c.fartile else c.fartile, elem := c.elem, slot := c.slot, port := c.port,
    collop := BitVec.ofNat 8 c.collop, track := c.track, fartrack := c.fartrack, num := 0, coup := couplerOf s pn c,
    claimed := c.kind != 1 }

/-- The converters of a leg on this device: the one that numbers its route, and the other one of its pair. -/
def legPlaces (g : Leg) : List (Nat × Nat) := [dieConv g, otherConv g]

/-- Every resident leg of the device. -/
def allLegs (s : State) : List Leg := s.parts.flatMap fun p => p.2.consists.flatMap (·.legs)

/-- The class of a format register that SCALE may quantise into: a narrow float (R286). -/
def narrowFloat (fd : Word) : Bool := fdNarrowFloat fd.toNat

/-- A CVT slot that wraps names a format register that holds a floating-point format (R149, R284). -/
def badCvt (x : Station) (w : RoszonWord) : Bool :=
  w.op == .cvt && bits w.imm.toNat 9 8 == 1 && decide (8 ≤ bits w.imm.toNat 3 0) && (fdTy (vget x.fd (bits w.imm.toNat 2 0)).toNat).isFp

/-- Check 3: placement at a lower corner; the index of a tile, route or converter entry that fails (R115, R117, R122, R286). -/
def placeBad (s : State) (pn : Nat) (m : Image) (x y : Nat) : Option Nat :=
  let p := part s pn
  let badTile (t : ImgTile) : Bool :=
    decide (16 ≤ x + t.dx) || decide (16 ≤ y + t.dy) || !p.hasStation (imgStation x y t) || !bit m.diemask (dieOf (imgStation x y t))
  let badScale (t : ImgTile) : Bool := t.blocks.any fun b => b.2.slots.any fun w => match decodeRoszon w with
    | .ok w => (w.op == .scale && !w.mod.getLsbD 0 && !narrowFloat (vget (stn s (imgStation x y t)).fd (bits w.imm.toNat 2 0))) ||
        badCvt (stn s (imgStation x y t)) w
    | .error _ => false
  let die (i : Nat) : Nat := dieOf (m.stationOf x y i)
  let badConv (c : ImgConv) : Bool := !sideBridged (m.stationOf x y c.stile) c.side || (c.kind == 0 && die c.stile == die c.fartile)
  if m.cstn ≠ 0xFFFF ∧ !p.hasStation m.cstn then some 0
  else (m.tiles.findIdx? badTile).orElse fun _ => (m.tiles.findIdx? badScale).orElse fun _ =>
    (m.routes.findIdx? fun r => die r.stile != die r.dtile).orElse fun _ => m.convs.findIdx? badConv

/-- Claims of tracks taken one after another on a die: the index of the first that meets a track already taken. -/
def claimTracks (s : State) (d : Nat) : List (List (Nat × Nat)) → List (Nat × Nat) → Nat → Option Nat
  | [], _, _ => none
  | l :: ls, mine, i =>
    let l := l.filter fun t => dieOf t.1 == d
    if l.any fun t => mine.contains t || (kget (stn s t.1).tracks t.2).isSome then some i
    else claimTracks s d ls (mine ++ l) (i + 1)

/-- The die of a converter: the port die, after the others, for a coupler's. -/
def convDie (q : Nat × Nat) : Nat := if q.1 < 256 then dieOf q.1 else 4

/-- Converters of a die that serve too many routes: 16 at most (R115). -/
def claimConvs (s : State) (d : Nat) : List Leg → List (Nat × Nat) → Nat → Option Nat
  | [], _, _ => none
  | g :: gs, mine, i =>
    let here := (legPlaces g).filter fun q => convDie q == d
    if here.any fun q => 16 ≤ (allLegs s).countP (fun g => (legPlaces g).contains q) + mine.countP (· == q) then some i
    else claimConvs s d gs (mine ++ here) (i + 1)

/-- Check 4 on one die: tiles, tracks and converters are free. A tile of a station that is dead or out of service cannot be had (log
115). -/
def claimOnDie (s : State) (pn : Nat) (m : Image) (x y d : Nat) : Option Nat :=
  let routes := m.routes.map fun r => trackPath (m.stationOf x y r.stile) (m.stationOf x y r.dtile) r.track
  (m.tiles.findIdx? fun t =>
    let st := stn s (imgStation x y t)
    dieOf (imgStation x y t) == d && (st.owner.isSome || st.dead || st.outOfService)).orElse fun _ =>
  (claimTracks s d routes [] 0).orElse fun _ =>
  (claimTracks s d (m.convs.map (convTracks m x y)) (routes.flatMap fun l => l.filter fun t => dieOf t.1 == d) 0).orElse fun _ =>
  claimConvs s d (m.convs.map (legFor s pn m x y)) [] 0

/-- Check 4: the claims, in ascending die number (R122, R123). -/
def claimBad (s : State) (pn : Nat) (m : Image) (x y : Nat) : Option Nat := (List.range 5).findSome? (claimOnDie s pn m x y)

/-- The anchors that the loader tries: the fixed one, or every station of the partition in ascending order (R122). -/
def anchors (p : Partition) (m : Image) : List (Nat × Nat) :=
  if m.ax = 0xFF then p.rectangle.map fun st => (xOf st, yOf st)
  else [(2 * pfield p 4 1 + m.ax, 2 * pfield p 5 1 + m.ay)]

/-- The first anchor that passes checks 3 and 4, or the failure of the last one tried. -/
def chooseAnchor (s : State) (pn : Nat) (m : Image) : List (Nat × Nat) → LoadErr → Except LoadErr (Nat × Nat)
  | [], e => .error e
  | (x, y) :: l, _ =>
    match placeBad s pn m x y with
    | some i => chooseAnchor s pn m l { cause := 0x14, check := 3, entry := i, cid := m.cid }
    | none => match claimBad s pn m x y with
      | some i => chooseAnchor s pn m l { cause := 0x15, check := 4, entry := i, cid := m.cid }
      | none => .ok (x, y)

/-- Legs numbered: the lowest free route number at the near converter, and a number on the device (R115). -/
def makeLegs (pn : Nat) (m : Image) (x y : Nat) : List ImgConv → State → List Leg → State × List Leg
  | [], s, l => (s, l)
  | c :: cs, s, l =>
    let id := freshId s
    let g := legFor s pn m x y c
    let taken := ((allLegs s ++ l).filter fun k => dieConv k == dieConv g).map (·.num)
    let num := ((List.range 16).find? fun i => !taken.contains i).getD 0
    makeLegs pn m x y cs id.2 (l ++ [{ g with num := num, id := id.1 }])

/-- An image that has passed every check becomes resident (R56, R118, R122). -/
def install (s : State) (pn : Nat) (m : Image) (va : DWord) (x y : Nat) : State :=
  let cid := BitVec.ofNat 16 m.cid
  let s := m.tiles.foldl (fun s t =>
    let st := imgStation x y t
    let s := modStn s st fun z => { z with owner := some (pn, cid), rtBusy := [] }
    (List.range 16).foldl (fun s e =>
      modElem s st e fun _ => ((t.blocks.find? fun b => b.1 == e).map (·.2)).getD {}) s) s
  let tracks := m.routes.flatMap (fun r => trackPath (m.stationOf x y r.stile) (m.stationOf x y r.dtile) r.track) ++
    m.convs.flatMap (convTracks m x y)
  let s := tracks.foldl (fun s t => modStn s t.1 fun z => { z with tracks := kput z.tracks t.2 (pn, cid) }) s
  let legs := makeLegs pn m x y m.convs s []
  let routes := m.routes.map fun r =>
    let a := m.stationOf x y r.stile
    let b := m.stationOf x y r.dtile
    ({ src := a, rt := r.rt, dst := b, elem := r.elem, slot := r.slot, port := r.port, track := r.track, hops := hops a b } : Route)
  let c : Consist :=
    { cid := cid, image := va, anchor := 16 * y + x, routes := routes, legs := legs.2, cint := m.cint, cwcl := m.cwcl,
      csset := BitVec.ofNat 16 m.csset, cstn := BitVec.ofNat 16 m.cstn, lastFire := s.time,
      tiles := m.tiles.map fun t =>
        { st := imgStation x y t, elems := BitVec.ofNat 16 t.elems, readout := BitVec.ofNat 16 t.readout } }
  modPart legs.1 pn fun p => { p with consists := p.consists ++ [c] }

/-- MI after a load (R474). -/
def measureImage (s : State) (pn : Nat) (b : Frame) : State := modPart s pn fun p =>
  { p with mi := BitVec.ofNat 512 (leNat (Config.shake256 (natLe 64 p.mi.toNat ++ Config.shake256 b 64) 64)) }

/-- The outcome of a load: the consist, its anchor, and the image that was loaded, or none where it was resident before; or why it was
refused. -/
abbrev LoadEnd := Except LoadErr (Half × Nat × Option Frame)

/-- A load carried out (R122, R124). -/
def loadNow (s : State) (pn : Nat) (l : Load) : State × LoadEnd :=
  match imgRead s pn l 0 64 with
  | (s, .error f) => (s, .error { cause := f.cause, va := f.addr })
  | (s, .ok h) =>
    let cid := field h 6 2
    if !headerOk h l.va then (s, .error { cause := 0x14, check := 1, cid := cid })
    else match consistOf s pn (BitVec.ofNat 16 cid) with
      | some c => (s, .ok (c.cid, c.anchor, none))
      | none => match imgRead s pn l 0 (field h 36 4) with
        | (s, .error f) => (s, .error { cause := f.cause, cid := cid, va := f.addr })
        | (s, .ok b) => match imgParse b h with
          | .error i => (s, .error { cause := 0x14, check := 2, entry := i, cid := cid })
          | .ok m => match chooseAnchor s pn m (anchors (part s pn) m) { cause := 0x14, check := 3, cid := cid } with
            | .error e => (s, .error e)
            | .ok (x, y) =>
              (install s pn m l.va x y, .ok (BitVec.ofNat 16 cid, 16 * y + x, some b))

/-- A load's outcome reaches its issuer, or the calls that wait for it (R65, R124, R312). Each CFGLOAD with RESULT 0 is measured, the
load of a graph call is not (R474). -/
def loadEnded (s : State) (pn : Nat) (l : Load) (r : LoadEnd) : State :=
  let s := modPart s pn fun p => { p with loads := p.loads.filter (·.n != l.n) }
  let s := match l.forCall, r with
    | none, .ok (_, _, some b) => measureImage s pn b
    | _, _ => s
  let s := if l.forCall.isSome then s
    else cfgReport s pn l.issuer l.station (match r with
      | .ok (cid, a, b) => { result := b2n b.isNone, cid := cid.toNat, anchor := a, addr := l.va }
      | .error e => { cause := e.cause, result := 2, cid := e.cid, check := e.check, entry := e.entry, addr := l.va })
  ((part s pn).calls.filter fun w => w.load == some l.n).foldl (fun s w => match r with
    | .ok (cid, _, _) =>
      let w := { w with load := none, cid := some cid }
      callGo (modPart s pn fun p => { p with calls := p.calls.map fun y => if y.n = w.n then w else y }) pn w
    | .error e => callFailed s pn w e.cause e.va) s

/-- The consist id in an image's header. -/
def peekCid (s : State) (pn : Nat) (l : Load) : Option Nat := match imgPeek s pn l with
  | .ok h => some (field h 6 2)
  | .error _ => none

/-- CONSIST_LOAD (R122): loads of the same consist id in progress share the outcome (R124). -/
def execConsistLoad (s : State) : Out := onEvent s fun e => match e with
  | .consistLoad pn n => some (match (part s pn).loads.find? (·.n == n) with
    | none => s
    | some l =>
      let same := (part s pn).loads.filter fun x => x.n != n && (x.va == l.va || (peekCid s pn x).isSome && peekCid s pn x == peekCid s pn l)
      let r := loadNow s pn l
      (l :: same).foldl (fun s x => loadEnded s pn x r.2) r.1)
  | _ => none

/-! ### Frees, freezes and the watchdog -/

/-- A consist's tiles, tracks and legs are released (R313). -/
def unloadConsist (s : State) (pn : Nat) (c : Consist) : State :=
  let mine (st : Nat) : Bool := c.tiles.any fun t => t.st == st
  let s := unplan s fun e => match e with
    | .tokenArrival st _ _ _ _ => mine st
    | .returnTokenArrival st _ _ _ => mine st
    | .converterToken id _ _ _ _ => c.legs.any fun g => g.id == id
    | .converterAck id _ => c.legs.any fun g => g.id == id
    | .collectiveTokenCombine _ _ id _ => c.legs.any fun g => g.id == id
    | _ => false
  let s := c.tiles.foldl (fun s t =>
    let s := modStn s t.st fun z => { z with owner := none, rtBusy := [] }
    (List.range 16).foldl (fun s e => modElem s t.st e fun _ => {}) s) s
  let s := { s with stations := s.stations.map fun z =>
    (z.1, { z.2 with tracks := z.2.tracks.filter fun t => t.2 != (pn, c.cid) }) }
  modPart s pn fun p => { p with consists := p.consists.filter (·.cid != c.cid) }

/-- A store entry of a readout: 48 bytes (R314). -/
def readEntry (o : Option Ent) : Frame := match o with
  | none => List.replicate 48 0
  | some y => y.tok.bytes ++ natLe 8 (y.slot + b2n y.port * 32 + 64)

/-- An event put in its place in a list by due cycle, behind those of its cycle. -/
def byDue (x : Nat × Event) : List (Nat × Event) → List (Nat × Event)
  | [] => [x]
  | y :: l => if y.1 ≤ x.1 then y :: byDue x l else x :: y :: l

/-- What the links keep for an element of a consist that stands still: tokens that wait for room, and those on their way to its tile, in
arrival order (R59 step 3; log 124). -/
def linkEntries (s : State) (st e : Nat) : List Ent :=
  (elemAt s st e).link ++ (s.agenda.foldl (fun l x => byDue x l) []).filterMap fun x => match x.2 with
    | .tokenArrival a b slot port t => if a = st ∧ b = e then some { tok := t, slot := slot, port := port, arr := x.1 } else none
    | _ => none

/-- The 4,096-byte block of an element (R314). -/
def readBlock (s : State) (pn : Nat) (c : Consist) (st e : Nat) : Frame :=
  let x := elemAt s st e
  let links := linkEntries s st e
  padTo 4096 0 ((List.range 64).flatMap (fun i => readEntry x.store[i]?) ++ natLe 4 x.firings.toNat ++ natLe 4 x.lanes.toNat ++
    natLe 8 (b2n (holding c st e) + 2 * b2n (faultWait s pn c.cid st e)) ++ (List.range 16).flatMap fun i => readEntry links[i]?)

/-- The elements of a readout, in tile-table order and ascending element order. -/
def readElems (c : Consist) : List (Nat × Nat) :=
  c.tiles.flatMap fun t => ((List.range 16).filter fun e => t.readout.getLsbD e).map fun e => (t.st, e)

/-- A readout's bytes with n of its blocks (R314). -/
def readoutBytes (s : State) (pn : Nat) (c : Consist) (n : Nat) : Frame :=
  (List.range 64).map (Config.readoutHeader c.cid.toNat c.tiles.length c.anchor n) ++
    ((readElems c).take n).flatMap fun x => readBlock s pn c x.1 x.2

/-- Bytes written for a device through a segment: its limit, then its place. -/
def areaWrite (s : State) (pn st : Nat) (g : Seg) (off : Nat) (l : Frame) : State × Option Byte :=
  if g.limit < off + l.length then (s, some 0x03)
  else
    let th : Thread := { tid := BitVec.ofNat 32 (pn * 2 ^ 28), station := st }
    match segWrite s th g off l with
    | (s, none) => (s, none)
    | (s, some f) => (s, some f.cause)

/-- The watchdog's readout into its ring: the address where it stands, or 0 where its write fails and nothing is written (R437). -/
def ringWrite (s : State) (pn : Nat) (c : Consist) : State × DWord :=
  let p := part s pn
  let off := pfield p 176 8
  let len := pfield p 184 4
  let g := vget (stn s c.anchor).eng 7
  let n := min (readElems c).length ((len - 64) / 4096)
  let b := readoutBytes s pn c n
  let pos := if p.wdpos + b.length ≤ len then p.wdpos else 0
  if len = 0 ∨ !g.engine ∨ !g.write then (s, 0)
  else match areaWrite s pn c.anchor g (off + pos) b with
    | (s, none) => (modPart s pn fun p => { p with wdpos := cdiv (pos + b.length) 64 * 64 },
                    vaOf g (BitVec.ofNat 64 (off + pos)))
    | (t, some _) => ({ s with held := t.held, needs := t.needs, shut := t.shut }, 0)

/-- One freeze and its readout complete (R314, R437). -/
def freezeDone (s : State) (pn : Nat) (c : Consist) (r : Readout) : State :=
  let m : CfgMsg := { result := 4, cid := c.cid.toNat, anchor := c.anchor }
  if r.ring then
    match ringWrite s pn c with
    | (s, va) => cfgReport s pn 0 c.anchor { m with cause := 0x16, addr := va }
  else
    match areaWrite s pn r.st r.seg r.off.toNat (readoutBytes s pn c (readElems c).length) with
    | (s, x) =>
      let s := cfgReport s pn r.issuer c.anchor { m with cause := x.getD 0, addr := vaOf r.seg r.off }
      if r.wdog then cfgReport s pn 0 c.anchor { m with cause := 0x16, addr := if x.isNone then vaOf r.seg r.off else 0 } else s

/-- CONSIST_FREE_COMPLETE (R313): readouts still under way complete first (R314). -/
def execConsistFreeComplete (s : State) : Out := onEvent s fun e => match e with
  | .consistFreeComplete pn cid => some (match consistOf s pn cid with
    | none => s
    | some c =>
      if c.freePending && c.acts.isEmpty then
        let s := unloadConsist (c.freezing.foldl (fun s r => freezeDone s pn c r) s) pn c
        let s := c.freeing.foldl (fun s t => cfgReport s pn t (c.anchor % 256)
          { result := 3, cid := cid.toNat, anchor := c.anchor, addr := c.image }) s
        wakeCalls s pn
      else s)
  | _ => none

/-- FREEZE_COMPLETE (R314). -/
def execFreezeComplete (s : State) : Out := onEvent s fun e => match e with
  | .freezeComplete pn cid => some (match consistOf s pn cid with
    | none => s
    | some c => match c.freezing with
      | [] => s
      | r :: l => freezeDone (modConsist s pn cid fun c => { c with freezing := l }) pn c r)
  | _ => none

/-- The watchdog expires: the consist freezes for good, and its readout follows; one that is already being frozen is read out once
(R316, R437). -/
def watchdogDone (s : State) (pn : Nat) (c : Consist) : State :=
  let s := modConsist s pn c.cid fun c => { c with wdog := true }
  match c.freezing with
  | [] => freezeConsist s pn c.cid { ring := true }
  | r :: l => modConsist s pn c.cid fun c => { c with freezing := { r with wdog := true } :: l }

/-- WATCHDOG_EXPIRY (R437). -/
def execWatchdogExpiry (s : State) : Out := onEvent s fun e => match e with
  | .watchdogExpiry pn cid => some (match consistOf s pn cid with
    | some c => watchdogDone s pn c
    | none => s)
  | _ => none

/-! ### Calls that wait -/

/-- CALL_WAIT_RESUME (R57). -/
def execCallWaitResume (s : State) : Out := onEvent s fun e => match e with
  | .callWaitResume pn n => some (match (part s pn).calls.find? (·.n == n) with
    | none => s
    | some w => if w.load.isSome then s else callAgain s pn w)
  | _ => none

/-- ACTIVATION_INTERVAL (R442): the first call that waits for the consist. -/
def execActivationInterval (s : State) : Out := onEvent s fun e => match e with
  | .activationInterval pn cid => some (match consistOf s pn cid with
    | none => s
    | some c => match (part s pn).calls.find? fun w =>
        w.frame.isSome && w.load.isNone && (BitVec.ofNat 64 (bits w.ptr.toNat 55 0) == c.image || w.cid == some cid) with
      | none => s
      | some w => callGo s pn w)
  | _ => none

end Sys2Proof.Machine
end

