-- ==== Sys2Proof/Machine/Fence.lean ====
section
/-! DEFINITION. Fences (R332 to R344, R374, R375) and seals (R346 to R349). -/

namespace Sys2Proof.Machine

/-! ### Fences -/

/-- What a fence's scope refuses (R333). -/
def scopeBad (s : State) (pn : Nat) (x : DWord) : Bool :=
  let n := x.toNat
  let p := part s pn
  let x0 := bits n 7 0
  let y0 := bits n 15 8
  let x1 := bits n 23 16
  let y1 := bits n 31 24
  decide (7 ≤ bits n 63 60) ||
    (bits n 63 60 == 0 && (decide (x1 < x0) || decide (y1 < y0) || decide (15 < x1) || decide (15 < y1) ||
      !p.hasStation (16 * y0 + x0) || !p.hasStation (16 * y1 + x1)))

/-- The kind of a scope (R332). -/
def scopeKind (x : DWord) : Nat := bits x.toNat 63 60

/-- A fence with its release and acquire parts (R335, R336): a marker, then the scope's check. -/
def fenceOp (a : BitVec 5) (rel acq : Bool) (s : State) : Out :=
  issue true s fun s th =>
    let x := rg th a
    if scopeBad s (tidPart th.tid) x then .error (trapOp th 0x04)
    else if scopeKind x = 1 then .ok (setThr s (nextPc th))
    else
      let fin (s : State) : State :=
        let s := if acq then acquire s ((getThr s th.tid).getD th) else s
        modThr s th.tid nextPc
      if rel then match release s th (scopeKind x == 6) with
        | (some s, _) => .ok (fin s)
        | (none, s) => .ok s
      else .ok (fin s)

/-- FENCE.ACQ (R336). -/
def execFenceAcq (_w : Bool) (a : BitVec 5) (s : State) : Out := fenceOp a false true s
/-- FENCE.REL (R335). -/
def execFenceRel (_w : Bool) (a : BitVec 5) (s : State) : Out := fenceOp a true false s
/-- FENCE.AR (R336). -/
def execFenceAr (_w : Bool) (a : BitVec 5) (s : State) : Out := fenceOp a true true s

/-- FENCEX (R344): every write stands at its home once it has been performed, whatever its path; for readers on path T the issuer's
unsealed lines are invalidated as well, and its footprint copy's unsealed bytes read again (R354). -/
def execFencex (_w : Bool) (p q : BitVec 3) (s : State) : Out :=
  issue true s fun s th =>
    .ok (modThr (if q = 0 ∧ p ≠ 0 then acquire s th else s) th.tid nextPc)

/-! ### Seals -/

/-- What SEAL and UNSEAL refuse (R375, R346). -/
def sealBad (s : State) (pn : Nat) (g : Seg) (isSeal : Bool) : Bool :=
  g.type != 1 || !g.bySet || !g.write ||
    (isSeal && (kget (part s pn).seals g.idx).isNone && decide (256 ≤ (part s pn).seals.length))

/-- A change of an entry of the seal table. -/
def putSeal (s : State) (pn idx : Nat) (x : Seal) : State := modPart s pn fun p => { p with seals := kput p.seals idx x }

/-- The thread parks at a seal operation: it goes on behind it when the operation completes, or tries again (R347 to R349). -/
def sealPark (s : State) (th : Thread) (idx : Nat) (retry : Bool) : State :=
  let w : Wait := { on := .seal idx, pc := th.pc, id := s.fresh, since := s.time, retry := retry }
  parkThr s { th with wait := some w } .marker

/-- Lines of a buffer in every L1 of a partition are dropped. -/
def dropBuffer (s : State) (pn : Nat) (x : Seal) (unsealedOnly : Bool) : State :=
  let here (l : L1Line) : Bool := l.part == pn && decide (256 * l.line < x.base.toNat + x.limit) &&
    decide (x.base.toNat < 256 * l.line + 256) && (!unsealedOnly || l.sealedIdx.isNone)
  ((part s pn).stations).foldl (fun s st => dropLines s st here) s

/-- The sealed mark of a buffer in every segment register of its partition (R347, R348, R507). -/
def markSeal (s : State) (pn idx : Nat) (b : Bool) : State :=
  let f (g : Seg) : Seg := if g.type = 1 ∧ g.idx = idx then { g with seal_ := b } else g
  { s with threads := s.threads.map fun e =>
      if tidPart e.2.tid = pn then (e.1, { e.2 with seg := e.2.seg.map f }) else e }

/-- The footprint copies of a buffer just SEALED hold its sealed contents (R347, R354). -/
def sealFoot (s : State) (pn idx : Nat) : State :=
  (s.threads.filter fun e => tidPart e.2.tid == pn && e.2.foot.any fun f => f.seg.type == 1 && f.seg.idx == idx).foldl
    (fun s e => refetchIf s e.2 fun f => f.seg.type == 1 && f.seg.idx == idx) s

/-- A request or a combining sector that stores into a buffer. -/
def Req.into (r : Req) (pn idx : Nat) : Bool := r.part == pn && r.segIdx == idx + 1 && r.kind.writes

/-- The seal meets the stores on their way: those in the issuer's own combining sectors are sent and reach the home before it; every
other store of the partition to the buffer that is not performed is refused (R347 steps 1 to 3). -/
def sealMeets (s : State) (pn st idx : Nat) : State :=
  let own := l1Stations s st
  let s := own.foldl (fun s l1 => drainWhere s l1 fun c => c.part == pn && c.segIdx == idx + 1) s
  let mine (r : Req) : Bool := r.into pn idx && r.kind == .sector && own.contains r.st
  let keep (r : Req) : Req := if mine r then { r with early := true } else r
  let s := { s with reqs := s.reqs.map (fun e => (e.1, keep e.2)),
                    rsv := s.rsv.map fun e => (e.1, { e.2 with queue := e.2.queue.map keep }) }
  let s := (part s pn).stations.foldl (fun s l1 =>
    if own.contains l1 then s else drainWhere s l1 fun c => c.part == pn && c.segIdx == idx + 1) s
  let gone (r : Req) : Bool := r.into pn idx && !r.early
  let rs := ((s.reqs.map (·.2)) ++ s.rsv.flatMap fun e => e.2.queue).filter gone
  let s := { s with reqs := s.reqs.filter (fun e => !gone e.2),
                    rsv := s.rsv.map fun e => (e.1, { e.2 with queue := e.2.queue.filter fun r => !gone r }) }
  rs.foldl (fun s r => deliver s r (.error { cause := 0x04, addr := r.va })) s

/-- SEAL (R347, R349, R375). -/
def execSeal (_w : Bool) (g : BitVec 3) (s : State) : Out :=
  issue true s fun s th =>
    let pn := tidPart th.tid
    let sg := rseg th g
    if sealBad s pn sg true then .error (trapOp th 0x04)
    else match kget (part s pn).seals sg.idx with
      | none =>
        let s := putSeal (sealPark s th sg.idx false) pn sg.idx { st := .sealing, base := BitVec.ofNat 64 sg.base, limit := sg.limit }
        .ok (within (markSeal (sealMeets s pn th.station sg.idx) pn sg.idx true) 600 (.sealComplete pn sg.idx))
      | some x => match x.st with
        | .isSealed => .ok (setThr s (nextPc th))
        | .sealing => .ok (sealPark s th sg.idx false)
        | .unsealing => .ok (sealPark s th sg.idx true)

/-- A fill of a buffer's line in flight completes and its line is dropped (R348). -/
def dropFills (s : State) (pn idx : Nat) : State :=
  let f (r : Req) : Req := if r.kind = .fill ∧ r.part = pn ∧ r.segIdx = idx + 1 then { r with dropped := true } else r
  let g (x : Fill) : Fill := if x.l1 && x.part == pn && x.seg.type == 1 && x.seg.idx == idx then { x with killed := true } else x
  { s with reqs := s.reqs.map fun e => (e.1, f e.2),
           stations := s.stations.map fun e => (e.1, { e.2 with fills := e.2.fills.map g }) }

/-- UNSEAL (R348, R349, R375). -/
def execUnseal (_w : Bool) (g : BitVec 3) (s : State) : Out :=
  issue true s fun s th =>
    let pn := tidPart th.tid
    let sg := rseg th g
    if sealBad s pn sg false then .error (trapOp th 0x04)
    else match kget (part s pn).seals sg.idx with
      | none => .ok (setThr s (nextPc th))
      | some x => match x.st with
        | .sealing => .ok (sealPark s th sg.idx true)
        | .unsealing => .ok (sealPark s th sg.idx false)
        | .isSealed =>
          let s := putSeal s pn sg.idx { x with st := .unsealing }
          let s := dropFills (dropBuffer s pn x false) pn sg.idx
          .ok (within (sealPark s th sg.idx false) 800 (.unsealComplete pn sg.idx))

end Sys2Proof.Machine
end

