-- ==== Sys2Proof/Machine/Traffic.lean ====
section
/-! DEFINITION. What reaches a home, a core or a port without an instruction: requests performed, recalls, deferred presence requests,
reservations, combining sectors and lines, walks, time and wait limits, ports, and seals (R325 to R329, R346 to R352, R359, R367 to
R371, R387, R457). -/

namespace Sys2Proof.Machine

/-! ### Requests -/

/-- A request on its way: at the next router of its route (R13), or at its bank, where it is performed behind earlier requests of its
station and of its thread (R12, R325, R329). One that a router has combined waits for the reply of its carrier. -/
def reqTurn (s : State) (q : Req) : State :=
  match q.pa with
  | none => s
  | some key =>
    if q.carrier.isSome then s
    else match q.route with
      | st :: rest => atRouter s q key st rest
      | [] =>
        if goesAfter s q key then
          let late := q.bank < 256 && decide (s.time = q.sent + 4 * placeClass s q key)
          later (if late then later s 0 (.transactionLate (256 + q.bank) q.id) else s) 1 (.accessPerformed q.id)
        else doHome s q key

/-- A peer that held a sector in E or M writes it back: bytes that are not of this device (R351; log 1). -/
def peerGives (s : State) (bank sector agent : Nat) : State :=
  if agent < 64 ∧ ((kget s.dirs sector).getD []).any (fun h => h.agent == agent && decide (2 ≤ h.st)) then
    let s := { s with freeCtr := s.freeCtr + 1 }
    hWrL s bank (64 * sector) ((List.range 64).map fun j => Config.peerByte s.freeCtr (64 * sector + j))
  else s

/-- A holder has given a sector up, or keeps it as a reader (R351). -/
def dropHolder (s : State) (sector agent : Nat) (toS : Bool) : State :=
  let l := (kget s.dirs sector).getD []
  let l := if toS then l.map fun h => if h.agent = agent then { h with st := 1 } else h else l.filter (·.agent != agent)
  { s with dirs := if l.isEmpty then kdel s.dirs sector else kput s.dirs sector l }

/-- A recall is acknowledged; the last acknowledgement lets the request be performed (R351). -/
def recallAcked (s : State) (r agent : Nat) : State :=
  match kget s.reqs r with
  | none => s
  | some q => match q.pa with
    | none => s
    | some key =>
      let s := (recallSet s q key).foldl (fun s x => if x.1 = agent then dropHolder (peerGives s q.bank x.2.1 agent) x.2.1 agent x.2.2 else s) s
      let q := { q with recalls := q.recalls.filter (· != agent) }
      let s := { s with reqs := kput s.reqs r q }
      if q.recalls.isEmpty then doHome s q key else s

/-- A coupler request of a peer device for a partition's memory: it becomes a holder of a sector in state 1 S, 2 E or 3 M, or gives one up
(R351). -/
def peerActs (s : State) (pn dev key want : Nat) : State :=
  let home := homeOf s pn key false
  let sector := key / 64
  if s.deadAgents.contains dev then s
  else if want = 0 then dropHolder (peerGives s home sector dev) sector dev false
  else
    let id := freshId s
    let r : Req :=
      { id := id.1, who := .peer dev, part := pn, st := home, path := 0, kind := .acq (min want 3), va := BitVec.ofNat 64 (64 * sector),
        z := 64, pa := some (64 * sector), bank := home, issued := s.time }
    reqTurn { id.2 with reqs := kput id.2.reqs r.id r } r

/-- The same as it arrives: the home of a place is that of the partition whose memory it is (log 105), and for a lockstep pair it is an
input (R464). -/
def peerRequest (s : State) (dev key want : Nat) : State :=
  match s.parts.find? fun p => decide (pfield p.2 8 8 ≤ key ∧ key < pfield p.2 8 8 + pfield p.2 16 8) with
  | none => s
  | some p =>
    if p.2.inStep then
      throughPair s p.1 (inputNote p.1 13 dev (natLe 8 key ++ natLe 1 want)) fun s => peerActs s p.1 dev key want
    else peerActs s p.1 dev key want

/-- ACCESS_PERFORMED (R325), and a peer's coupler request at its home (R351). -/
def execAccessPerformed (s : State) : Out := onEvent s fun e => match e with
  | .accessPerformed r => some (((kget s.reqs r).map (reqTurn s)).getD s)
  | .peerAccess dev key want => some (peerRequest s dev key want)
  | _ => none

/-- RECALL_ACK (R351). -/
def execRecallAck (s : State) : Out := onEvent s fun e => match e with
  | .recallAck r agent => some (recallAcked s r agent)
  | _ => none

/-- PRESENCE_RESEND (R367). -/
def execPresenceResend (s : State) : Out := onEvent s fun e => match e with
  | .presenceResend r => some (match kget s.reqs r with
    | none => s
    | some q => match q.pa with
      | none => s
      | some key => doHome s q key)
  | _ => none

/-- RESERVATION_HOLD_EXPIRY (R370): the limit of 4,096 cycles, or the holder has issued another RSV. -/
def execReservationHoldExpiry (s : State) : Out := onEvent s fun e => match e with
  | .reservationHoldExpiry key t => some (match kget s.rsv key with
    | none => s
    | some x =>
      let t := BitVec.ofNat 32 t
      if x.holder = some t ∧ (x.granted + 4096 ≤ s.time ∨ !rsvWanted s t x.op) then releaseRsv s key else s)
  | _ => none

/-- SECTOR_DRAIN (R327). -/
def execSectorDrain (s : State) : Out := onEvent s fun e => match e with
  | .sectorDrain st pn line => some (drainWhere s st fun c => c.part == pn && c.line == line)
  | _ => none

/-- LINE_EXPIRY (R327). -/
def execLineExpiry (s : State) : Out := onEvent s fun e => match e with
  | .lineExpiry st pn line => some (dropLines s st fun l => l.part == pn && l.line == line && l.sealedIdx.isNone)
  | _ => none

/-- A request that only has a page walked for a row has been served: the row is tried again (R459). -/
def rowWalked (s : State) (r : Req) : State :=
  { s with reqs := kdel s.reqs r.id, walked := s.walked ++ [(clusterOf r.st, r.part, r.va.toNat / 4096)] }

/-- A walk ends: the request it served and the misses of the same page that joined it go on, in their order, and those that waited for
the walker come next (R457, R459). A walk whose page a TLBINV has taken meanwhile caches nothing (R460). -/
def walkServed (s : State) (q : Req) : State :=
  let joined := (s.reqs.map (·.2)).filter fun r => r.pa.isNone && (r.id == q.id || (r.walk == 2 && missPage r q))
  let s := joined.foldl (fun s r =>
    match translateKeep s r.st r.part r.va.toNat r.kind.writes r.code r.pinned q.stale with
    | (s, .ok key) => if r.kind.isHold then rowWalked s r else toBank s r key
    | (s, .error f) => if r.kind.isHold then rowWalked s r else deliver s r (.error f)) s
  portServe s (clusterOf q.st)

/-- TRANSLATION_WALK (R457). -/
def execTranslationWalk (s : State) : Out := onEvent s fun e => match e with
  | .translationWalk r => some (match kget s.reqs r with
    | none => s
    | some q => if q.pa.isSome then s else walkServed s q)
  | _ => none

/-- A request of an operation that its home has not performed yet. -/
def reqWaits (t : Word) (op : Nat) (r : Req) : Bool := match r.who with
  | .thread t' op' _ => t' == t && op' == op
  | _ => false

/-- A request held in its core because the deferral list is full (R367). -/
def resent (s : State) (r : Req) : Bool := s.agenda.any fun e => e.2 == .presenceResend r.id

/-- An access of a timed partition that has passed its class ends with MEM_TIMEOUT at its first element not performed (R359). A deferred
presence request has no bound, and each earlier holder of a word's reservation adds 4,096 cycles and the class (R397). -/
def timedOut (s : State) (t : Word) (op : Nat) : State :=
  match getThr s t with
  | none => s
  | some th => match th.ops.find? fun o => o.id == op && !o.done && o.left != 0 with
    | none => s
    | some o =>
      let open_ := ((o.acc.map (·.els)).getD []).find? fun e => (kget o.res e.lane).isNone
      let f : DFault := { cause := 0x17, addr := (open_.map (·.va)).getD 0, lane := (open_.map (·.lane)).getD 0 }
      if s.waits.any (reqWaits t op) || s.reqs.any (fun r => reqWaits t op r.2 && resent s r.2) then s
      else if s.rsv.any fun e => e.2.queue.any (reqWaits t op) then later s (4096 + o.wcl) (.memTimeoutExpiry t.toNat op)
      else completeOp (setThr s { th with ops := th.ops.map fun x => if x.id = op then { x with left := 0, fault := some f } else x }) t op

/-- Lanes of a graph node's load or store that were issued in a cycle are later than their class: its activation faults with MEM_TIMEOUT,
and their replies are discarded (R301, R359, R437). Behind a reservation, each holder adds its time. -/
def graphTimedOut (s : State) (fid since : Nat) : State :=
  match kget s.gaccs fid with
  | none => s
  | some g =>
    let late (r : Req) : Bool := match r.who with
      | .graph f lane => f == fid && g.left.contains lane && r.issued == since
      | _ => false
    match (s.rsv.flatMap fun e => e.2.queue).find? late with
    | some r => later s (4096 + (reqClass s r).getD 0) (.graphTimeout fid since)
    | none =>
      match g.els.find? fun e => (s.reqs.map (·.2) ++ s.waits).any fun r => late r && r.who == .graph fid e.lane with
      | none => s
      | some e =>
        let h := { g with left := [], late := true, fault := some { cause := 0x17, addr := e.va, lane := e.lane } }
        later { s with gaccs := kput s.gaccs fid h } 0 (if g.kind == .write then .graphStoreAck fid else .graphLoadReply fid)

/-- MEM_TIMEOUT_EXPIRY (R359). -/
def execMemTimeoutExpiry (s : State) : Out := onEvent s fun e => match e with
  | .memTimeoutExpiry t op => some (timedOut s (BitVec.ofNat 32 t) op)
  | .graphTimeout fid since => some (graphTimedOut s fid since)
  | _ => none

/-! ### Wait limits (R368, R408, R412, R420) -/

/-- A parked thread's wait is withdrawn: its arrival at a barrier, or its call with its frame. -/
def withdraw (s : State) (th : Thread) : State :=
  let pn := tidPart th.tid
  match th.wait with
  | some { on := .bar id _ _, pc := _, id := _, since := _, retry := _ } =>
    modRake s pn (bits id.toNat 9 0) fun r => { r with arrived := r.arrived.filter (· != th.tid) }
  | some { on := .call _, pc := _, id := _, since := _, retry := _ } =>
    let mine := (part s pn).calls.filter fun w => w.caller == .thread th.tid
    let s := modPart s pn fun p => { p with calls := p.calls.filter fun w => w.caller != .thread th.tid }
    let s := mine.foldl (fun s w => match w.frame with | some fr => frameFree s pn fr | none => s) s
    modThr s th.tid fun t => { t with gcall := none }
  | _ => s

/-- A thread's graph call waits for its consist's load, or for a free of it that is pending, as for a load; its limit does not bound either
(R57, R64, R65, R313). -/
def callLoading (s : State) (th : Thread) : Bool :=
  match th.wait with
  | some { on := .call _, pc := _, id := _, since := _, retry := _ } =>
    (part s (tidPart th.tid)).calls.any fun w => w.caller == .thread th.tid &&
      ((w.load.any fun n => (part s (tidPart th.tid)).loads.any (·.n == n)) ||
        (w.frame.isSome && (part s (tidPart th.tid)).consists.any fun c =>
          c.freePending && (c.image.toNat == bits w.ptr.toNat 55 0 || w.cid == some c.cid)))
  | _ => false

/-- Waits that cr.wlimit bounds (R57, R387, R408, R412, R420). -/
def WaitOn.limited : WaitOn → Bool
  | .join _ _ => true
  | .bar _ _ _ => true
  | .recv _ => true
  | .stream _ => true
  | .call _ => true
  | _ => false

/-- cr.wlimit expires: a wait is withdrawn with WAIT_LIMIT precise at its instruction, or a presence request with WAIT_LIMIT before
the next instruction (R368). -/
def limitExpired (s : State) (t : Word) (n : Nat) : State :=
  match getThr s t with
  | none => s
  | some th =>
    match th.wait with
    | some w =>
      if w.on.limited ∧ w.id = n then
        if callLoading s th then later s th.wlimit.toNat (.waitLimitExpiry t.toNat n)
        else
          let s := withdraw s th
          let th := (getThr s t).getD th
          wakeThr s (pendTrap th { cause := 0x0B, epc := w.pc, mpc := w.pc, finfo := 4 })
      else op s th
    | none => op s th
where
  op (s : State) (th : Thread) : State :=
    match th.ops.find? fun o => o.id == n && !o.done && o.left != 0 with
    | none => s
    | some o =>
      let waits := s.waits.any (reqWaits t n) || s.reqs.any (fun r => reqWaits t n r.2) ||
        s.rsv.any fun e => e.2.queue.any (reqWaits t n)
      if !waits then s
      else
        let s := { s with waits := s.waits.filter (fun r => !reqWaits t n r), reqs := s.reqs.filter (fun r => !reqWaits t n r.2),
                          rsv := s.rsv.map fun e => (e.1, { e.2 with queue := e.2.queue.filter fun r => !reqWaits t n r }) }
        let va := ((o.acc.bind (·.els.head?)).map (·.va)).getD 0
        match o.replay with
        | some _ =>
          completeOp (setThr s { th with ops := th.ops.map fun x =>
            if x.id = n then { x with left := 0, fault := some { cause := 0x0B, addr := va } } else x }) t n
        | none =>
          let th := pendTrap { th with ops := th.ops.filter (·.id != n) }
            { cause := 0x0B, epc := o.pc, mpc := th.pc, faddr := va, acc := o.acc,
              finfo := BitVec.ofNat 64 ((o.acc.map finfoOf).getD 0 + 4) }
          let s := match o.saveAt with | some (u, _, _) => savedOne s u false | none => s
          if th.gcall.isSome || th.ops.any fun x => x.hold && !x.done then setThr s th
          else match th.st with
            | .parked .held => afterOp (setThr s th) t false
            | .parked _ =>
              let s := withdraw (setThr s th) th
              makeReady s ((getThr s t).getD th)
            | _ => setThr s th

/-- WAIT_LIMIT_EXPIRY (R368). -/
def execWaitLimitExpiry (s : State) : Out := onEvent s fun e => match e with
  | .waitLimitExpiry t n => some (limitExpired s (BitVec.ofNat 32 t) n)
  | _ => none

/-- MONWAIT_TIMEOUT (R418). -/
def execMonwaitTimeout (s : State) : Out := onEvent s fun e => match e with
  | .monwaitTimeout t n => some (match getThr s (BitVec.ofNat 32 t) with
    | none => s
    | some th => match th.wait with
      | some { on := .mon d, pc := _, id := m, since := _, retry := _ } => if m = n then monReturn s th d true else s
      | _ => s)
  | _ => none

/-! ### Stream ports (R387) -/

/-- A copy channel that waits for a port goes on. -/
def chanWake (s : State) (st c : Nat) : State :=
  let mine (r : Req) : Bool := match r.who with | .chan st' c' _ => st' == st && c' == c | _ => false
  let ends := s.agenda.any fun e => match e.2 with
    | .copyCommandEnd st' c' => st' == st && c' == c
    | .copyCommandStop st' c' _ _ => st' == st && c' == c
    | _ => false
  if ends || s.waits.any mine || s.reqs.any (fun r => mine r.2) || s.rsv.any (fun e => e.2.queue.any mine) then s
  else copyAdvance st c 64 s

/-- A thread parked on a port may go on: the group or the room it waits for is there, or its end is unbound. -/
def streamFree (s : State) (st p : Nat) (th : Thread) : Bool :=
  let q := portAt s st p
  let mine (e : Option PEnd) : Bool := e.any fun x => x.kind == 0 && x.tid == th.tid
  if mine q.cons then decide (2 ≤ q.queue.length)
  else if mine q.prod then decide (q.queue.length ≤ 30)
  else true

/-- A port has gained data or room: channels, parked threads, finished loads, graph holds and generators at it go on. -/
def portWake (s : State) (st p : Nat) : State :=
  let s := (List.range 8).foldl (fun s c => chanWake s st c) s
  let s := s.threads.foldl (fun s e =>
    match e.2.wait with
    | some { on := .stream q, pc := _, id := _, since := _, retry := _ } =>
      if e.2.station = st ∧ q = p ∧ streamFree s st p e.2 then wakeThr s e.2 else s
    | _ => s) s
  let s := s.threads.foldl (fun s e =>
    if e.2.station = st then
      (e.2.ops.filter fun o => o.left == 0 && !o.done && o.fault.isNone && (match o.dest with | .v _ => true | _ => false)).foldl
        (fun s o => completeOp s e.2.tid o.id) s
    else s) s
  let q := portAt s st p
  let s := if (graphEnd q.cons && !q.queue.isEmpty) || (graphEnd q.prod && decide (q.queue.length < 32)) ||
      (!graphEnd q.cons && !graphEnd q.prod) then releaseAt s st 2 p else s
  (List.range 2).foldl (fun s g =>
    let x := vget (stn s st).ig g
    if x.dest && x.port == p && !x.recs.isEmpty && !(s.agenda.any fun e => e.2 == .generatorRecordPush st g) then
      later s 0 (.generatorRecordPush st g)
    else s) s

/-- STREAM_WAKE (R387). -/
def execStreamWake (s : State) : Out := onEvent s fun e => match e with
  | .streamWake st p => some (portWake s st p)
  | _ => none

/-! ### Seals (R347, R348) -/

/-- Threads that wait for a buffer's seal operation go on, or try their own again (R349). -/
def sealWake (s : State) (pn idx : Nat) : State :=
  s.threads.foldl (fun s e =>
    match e.2.wait with
    | some { on := .seal i, pc := _, id := _, since := _, retry := r } =>
      if i = idx ∧ tidPart e.2.tid = pn then wakeThr s (if r then e.2 else nextPc e.2) else s
    | _ => s) s

/-- SEAL_COMPLETE (R347 steps 4 and 5). -/
def execSealComplete (s : State) : Out := onEvent s fun e => match e with
  | .sealComplete pn idx => some (match kget (part s pn).seals idx with
    | none => s
    | some x =>
      if x.st = .sealing then
        if s.reqs.any (fun e => e.2.into pn idx) || s.rsv.any (fun e => e.2.queue.any fun r => r.into pn idx) then
          later s 1 (.sealComplete pn idx)
        else sealWake (sealFoot (putSeal (dropBuffer s pn x true) pn idx { x with st := .isSealed, count := 0 }) pn idx) pn idx
      else s)
  | _ => none

/-- UNSEAL_COMPLETE (R348 step 3). -/
def execUnsealComplete (s : State) : Out := onEvent s fun e => match e with
  | .unsealComplete pn idx => some (match kget (part s pn).seals idx with
    | none => s
    | some x =>
      if x.st ≠ .unsealing then s
      else if x.count ≠ 0 then later s 1 (.unsealComplete pn idx)
      else sealWake (markSeal (modPart s pn fun p => { p with seals := kdel p.seals idx }) pn idx false) pn idx)
  | _ => none

end Sys2Proof.Machine
end

