-- ==== Sys2Proof/Machine/Agents.lean ====
section
/-! DEFINITION. Agents that fall silent, are probed and are declared dead, and what a death does (R21, R351 to R353, R469, R500, R501);
self-tests, the error log and page retirement (R502 to R504). Agents by number: a peer device by its id below 64, host agent h as
64 + h, station n as 256 + n, die d as 512 + d. -/

namespace Sys2Proof.Machine

def stationAgent (st : Nat) : Nat := 256 + st
def dieAgent (d : Nat) : Nat := 512 + d
def hostAgent (h : Nat) : Nat := 64 + h

/-- Stations of a die (R8). -/
def dieStations (d : Nat) : List Nat := (List.range 256).filter fun st => dieOf st == d

/-! ### Heartbeats, suspicion and probes (R500) -/

/-- The period of an agent's heartbeat, where it has one of its own. -/
def heartPeriod (a : Nat) : Option Nat := if a < 64 then some 360000 else if 256 ≤ a ∧ a < 512 then some 36000 else none

/-- The time in which a probe is answered; a host agent is not probed, and a die is probed through its stations. -/
def probeTime (a : Nat) : Option Nat := if a < 64 then some 18400 else if 256 ≤ a ∧ a < 512 then some 1440 else none

/-- An agent has shown life: it is not suspected, nor is the die of a station, and its next heartbeat is awaited. -/
def agentAlive (s : State) (a : Nat) : State :=
  { unplan s (fun e => e == .probeExpiry a || e == .agentSuspect a) with
    suspects := s.suspects.filter fun x => x != a && !(decide (256 ≤ a ∧ a < 512) && x == dieAgent (dieOf (a - 256))) }

/-- A heartbeat arrives; a station of this device sends its next one. -/
def heartbeatArrived (s : State) (a : Nat) : State :=
  if s.deadAgents.contains a then s
  else match heartPeriod a with
    | none => agentAlive s a
    | some n =>
      let s := later (agentAlive s a) (n + 1) (.agentSuspect a)
      if 256 ≤ a then later s n (.heartbeat a) else s

/-- HEARTBEAT (R500). -/
def execHeartbeat (s : State) : Out := onEvent s fun e => match e with
  | .heartbeat a => some (heartbeatArrived s a)
  | _ => none

/-- An agent is suspected, and a probe of it starts; of a die, one of each of its stations. -/
def suspect (s : State) (a : Nat) : State :=
  if s.suspects.contains a || s.deadAgents.contains a then s
  else
    let s := { s with suspects := s.suspects ++ [a] }
    match probeTime a with
    | none => s
    | some n => later s n (.probeExpiry a)

/-- A die is suspected with every station of it. -/
def suspectAll (s : State) (a : Nat) : State :=
  if 512 ≤ a then (dieStations (a - 512)).foldl (fun s st => suspect s (stationAgent st)) (suspect s a) else suspect s a

/-- A request that an agent has kept waiting for four times its class makes it suspected: a holder that has not answered a recall, or the
home station of a request (R352, R500). A station that is not dead answers its probe (log 136). -/
def transactionLate (s : State) (a req : Nat) : State :=
  match kget s.reqs req with
  | none => s
  | some r =>
    if 256 ≤ a then
      if r.bank + 256 = a ∧ !(stn s r.bank).dead then within (suspect s a) 1439 (.probeAnswer a) else s
    else if r.recalls.contains a then suspect s a else s

/-- AGENT_SUSPECT (R500). -/
def execAgentSuspect (s : State) : Out := onEvent s fun e => match e with
  | .agentSuspect a => some (suspectAll s a)
  | .transactionLate a req => some (transactionLate s a req)
  | _ => none

/-- PROBE_ANSWER (R500). -/
def execProbeAnswer (s : State) : Out := onEvent s fun e => match e with
  | .probeAnswer a => some (agentAlive s a)
  | _ => none

/-! ### Holders (R351, R353) -/

/-- Requests that wait for an agent's recall acknowledgement go on. -/
def recallsEnd (s : State) (a : Nat) : State :=
  s.reqs.foldl (fun s e =>
    if e.2.recalls.contains a then match kget s.reqs e.1 with
      | none => s
      | some q =>
        let q := { q with recalls := q.recalls.filter (· != a) }
        let s := { s with reqs := kput s.reqs e.1 q }
        match q.pa with
        | some key => if q.recalls.isEmpty then doHome s q key else s
        | none => s
    else s) s

/-- A dead holder's S sectors are dropped, its E and M sectors poisoned (R353), and what waited for it goes on. -/
def holderDead (s : State) (a : Nat) : State :=
  let s := s.dirs.foldl (fun s d => match d.2.find? (·.agent == a) with
    | none => s
    | some h =>
      let s := dropHolder s d.1 a false
      if 2 ≤ h.st then { s with poison := d.1 :: s.poison.filter (· != d.1) } else s) s
  recallsEnd s a

/-! ### What a death does (R501) -/

/-- A partition is told of a death: agent kind 0 a station, 1 a die, 2 a peer, 3 a host (R486). -/
def deathReport (s : State) (pn kind number station : Nat) : State :=
  supReport s pn 0x0A 3 station 0 0 0 (kind + number * 256)

/-- Running partitions that satisfy a test. -/
def partsWhere (s : State) (f : Partition → Bool) : List Nat :=
  (s.parts.filter fun e => e.2.st == .running && f e.2).map (·.1)

/-- A deferral or reservation of a thread at a dead slice ends: precisely at the marker at which the parked thread waits, else as a
deferred fault (R479, R501; log 137). -/
def deadWait (s : State) (r : Req) : State :=
  let f : DFault := { cause := 0x0A, addr := r.va }
  match r.who with
  | .thread t op lane =>
    match getThr s t with
    | none => s
    | some th => match th.st, th.ops.find? fun o => o.id == op && !o.done && !o.hold && o.replay.isNone && o.saveAt.isNone with
      | .parked .marker, some o =>
        let t : PendTrap := { cause := 0x0A, epc := th.pc, mpc := th.pc, faddr := r.va,
                              finfo := BitVec.ofNat 64 ((o.acc.map finfoOf).getD 0 + 6) }
        makeReady s (pendTrap { th with ops := th.ops.filter (·.id != op) } t)
      | _, _ => opLane s t op lane (.error f)
  | _ => deliver s r (.error f)

/-- A thread parked on something that a dead agent held takes DEAD_AGENT at its instruction. -/
def deadPark (s : State) (th : Thread) : State :=
  match th.wait with
  | none => s
  | some w => wakeThr s (pendTrap th { cause := 0x0A, epc := w.pc, mpc := w.pc, finfo := 6 })

/-- Everything on its way to a dead slice, or waiting at it, ends with DEAD_AGENT. -/
def bankDead (s : State) (st : Nat) : State :=
  let here (r : Req) : Bool := r.bank == st
  let flying := (s.reqs.filter fun e => here e.2).map (·.2)
  let waiting := s.waits.filter here ++ s.rsv.flatMap fun e => e.2.queue.filter here
  let s := { s with reqs := s.reqs.filter fun e => !here e.2, waits := s.waits.filter fun r => !here r,
                    rsv := s.rsv.map fun e => (e.1, { e.2 with queue := e.2.queue.filter fun r => !here r }),
                    arms := s.arms.filter fun a => a.home != st }
  let s := flying.foldl (fun s r => deliver s r (.error { cause := 0x0A, addr := r.va })) s
  waiting.foldl deadWait s

/-- A consist with a tile on a dead station: its activations abort and it freezes. -/
def consistDead (s : State) (pn : Nat) (c : Consist) : State :=
  let s := (c.acts.filter fun a => !a.ended).foldl (fun s a => faultAct s pn c.cid a.id 0x0A c.anchor 0 0 0 0) s
  applyHold (modConsist s pn c.cid fun c => { c with frozen := true }) pn c.cid c.anchor 16 5 0

/-- A leg whose converters or tiles meet a test is dead (R21). -/
def legsDead (s : State) (f : Nat → Leg → Bool) : State :=
  s.parts.foldl (fun s p => p.2.consists.foldl (fun s c => (c.legs.filter fun g => f p.1 g && !g.dead).foldl
    (fun s g => killLeg s p.1 c.cid g) s) s) s

/-- Collectives in progress that meet a test fail. -/
def collsDead (s : State) (f : Nat → Coll → Bool) : State :=
  s.parts.foldl (fun s p => (p.2.colls.filter fun c => c.state == 1 && f p.1 c).foldl (fun s c => collRun s p.1 c.cid 0x0A) s) s

/-- A station is dead and out of service (R501, R503). -/
def stationDead (s : State) (st : Nat) : State :=
  if (stn s st).dead then s
  else
    let s := { s with deadAgents := stationAgent st :: s.deadAgents, suspects := s.suspects.filter (· != stationAgent st) }
    let s := unplan s fun e => e == .heartbeat (stationAgent st) || e == .agentSuspect (stationAgent st)
    let s := modStn s st fun x => { x with dead := true, outOfService := true }
    let s := bankDead s st
    let s := s.threads.foldl (fun s e => if e.2.station = st then loseThr s e.2.tid 0 else s) s
    let s := modStn s st fun x =>
      { x with slots := Vector.replicate 16 none, runq := [], arrq := [], spill := [], comb := [], l1 := [], icache := [], fills := [] }
    let s := s.threads.foldl (fun s e => match e.2.wait with
      | some { on := .join c _, pc := _, id := _, since := _, retry := _ } => if tidHome c = st then deadPark s e.2 else s
      | _ => s) s
    let s := s.parts.foldl (fun s p =>
      if rakeTable s p.1 = st then p.2.rakes.foldl (fun s r => if r.2.live then barRelease s p.1 r.1 true 0 else s) s else s) s
    let s := s.parts.foldl (fun s p => p.2.consists.foldl (fun s c =>
      if c.tiles.any fun t => t.st == st then consistDead s p.1 c else s) s) s
    let s := legsDead s fun _ g => (legPlaces g).any fun q => q.1 == st
    let s := collsDead s fun _ c => c.contribs.any fun x => x.1 == st
    (partsWhere s fun p => p.stations.contains st).foldl (fun s pn => deathReport s pn 0 0 st) s

/-- A peer device is dead: its holders, the legs to it, and the collectives that it takes part in. -/
def peerDead (s : State) (d : Nat) : State :=
  let s := { s with deadAgents := d :: s.deadAgents.filter (· != d), suspects := s.suspects.filter (· != d) }
  let there (r : Req) : Bool := r.pa.any fun k => isPeer k && peerOf k == d
  let flying := (s.reqs.filter fun e => there e.2).map (·.2)
  let s := flying.foldl (fun s r => deliver s r (.error { cause := 0x0A, addr := r.va })) s
  let s := holderDead s d
  let s := legsDead s fun pn g => (g.kind == 1 || g.kind == 3) && deviceOf s pn g.dev == d
  let s := collsDead s fun pn _ => bit (pfield (part s pn) 40 8) d
  (partsWhere s fun p => bit (pfield p 40 8) d).foldl (fun s pn => deathReport s pn 2 d 0xFFFF) s

/-- A partition's accesses to a host's memory end with DEAD_AGENT, and it is told of the host's death. -/
def hostGone (s : State) (pn h : Nat) : State :=
  let there (r : Req) : Bool := r.part == pn && r.pa.any fun k => isHost k && hostOf k == h
  let flying := (s.reqs.filter fun e => there e.2).map (·.2)
  let s := flying.foldl (fun s r => deliver s r (.error { cause := 0x0A, addr := r.va })) s
  deathReport s pn 3 h 0xFFFF

/-- A lease event of an agent, OP 1 or 3, becomes an input of a primary whose windows name it; it acts LSDELAY later (R464). -/
def noteTo (s : State) (pn h op : Nat) : State :=
  if namesAgent (part s pn) h then stampInput s pn (inputNote pn 12 h [BitVec.ofNat 8 op]) else s

/-- A lease event of an agent becomes an input of every pair that it concerns. -/
def noteLease (s : State) (h op : Nat) : State := (List.range 16).foldl (fun s pn => noteTo s pn h op) s

/-- A lease event reaches a member of a pair. -/
def takeNote (s : State) (m : Frame) : State :=
  let pn := field m 26 1
  let h := field m 3 1
  if field m 32 1 = 1 then modPart s pn fun p => { p with agents := h :: p.agents.filter (· != h) }
  else hostGone (modPart s pn fun p => { p with agents := p.agents.filter (· != h) }) pn h

/-- A host agent is dead for every partition whose windows name it (R469); a lockstep pair is told by an input (R464). -/
def hostDead (s : State) (h : Nat) : State :=
  let a := hostAgent h
  let s := { s with deadAgents := a :: s.deadAgents.filter (· != a), suspects := s.suspects.filter (· != a) }
  let s := holderDead s a
  noteLease ((partsWhere s fun p => namesAgent p h && !p.inStep).foldl (fun s pn => hostGone s pn h) s) h 3

/-- A die is dead when all of its stations have failed their probes; its partitions are told of it beside their stations (R486, R500,
R501). -/
def dieDead (s : State) (d : Nat) : State :=
  let s := { s with deadAgents := dieAgent d :: s.deadAgents.filter (· != dieAgent d), suspects := s.suspects.filter (· != dieAgent d) }
  let s := (dieStations d).foldl stationDead s
  (partsWhere s fun p => p.stations.any fun st => dieOf st == d).foldl (fun s pn => deathReport s pn 1 d 0xFFFF) s

/-- An agent that fails its probe is declared dead. -/
def declareDead (s : State) (a : Nat) : State :=
  if a < 64 then peerDead s a
  else if a < 256 then s
  else if a < 512 then
    let s := stationDead s (a - 256)
    let d := dieOf (a - 256)
    if (dieStations d).all (fun st => (stn s st).dead) && !s.deadAgents.contains (dieAgent d) then dieDead s d else s
  else dieDead s (a - 512)

/-- PROBE_EXPIRY (R500). -/
def execProbeExpiry (s : State) : Out := onEvent s fun e => match e with
  | .probeExpiry a => some (if s.suspects.contains a then declareDead s a else s)
  | _ => none

/-- A peer takes back a sector of its own that a proxy here holds: whole, or leaving this device a reader (R350, R351). -/
def holderRecall (s : State) (sector to_ : Nat) : State :=
  let f (l : SLine) : SLine := if l.line = sector / 4 ∧ to_ < l.sec (sector % 4) then l.setSec (sector % 4) to_ else l
  mapSlices s fun ls => ls.map f

/-- The in-step partition whose device mask names the peer that owns a sector: a recall of it is an input of the pair (R464; log 128). -/
def recallPair (s : State) (sector : Nat) : Option Nat :=
  (s.parts.find? fun p => p.2.inStep && bit (pfield p.2 40 8) (peerOf (64 * sector))).map (·.1)

/-- HOLDER_RECALL (R351). -/
def execHolderRecall (s : State) : Out := onEvent s fun e => match e with
  | .holderRecall sector to_ => some (match recallPair s sector with
    | some pn => throughPair s pn (inputNote pn 14 0 (natLe 8 sector ++ natLe 1 to_)) fun s => holderRecall s sector to_
    | none => holderRecall s sector to_)
  | _ => none

/-! ### Self-tests and the error log (R503, R504) -/

/-- A record enters the ring of 1,024 records (R504). -/
def logRecord (s : State) (kind outcome severity struct_ unit part_ addr time : Nat) : State :=
  let r : ErrRec := { bytes := padTo 32 0 (natLe 1 kind ++ natLe 1 outcome ++ natLe 1 severity ++ natLe 1 struct_ ++ natLe 2 unit ++
    natLe 1 part_ ++ natLe 1 0 ++ natLe 8 addr ++ natLe 8 time) }
  { s with errlog := (s.errlog ++ [r]).drop (s.errlog.length - 1023), errcount := s.errcount + 1 }

/-- A self-test's structure has a lasting fault (R503). STRUCT 0 to 9 belong to a station; of the rows and macros of a bridge, a coupler
or the Ethernet port, whose UNIT is no station, the spec states no more than the record. -/
def lasting (s : State) (x : Selftest) : State :=
  if x.kind = 2 then
    let n := stackOf x.addr.toNat
    { s with retired := vset s.retired n (vget s.retired n ++ [x.addr.toNat / 4096]) }
  else if x.kind = 3 then
    if x.struct = 12 then { s with lanes := vset s.lanes x.unit (if vget s.lanes x.unit = 8 then 4 else 2) }
    else if x.struct = 11 then { s with narrow := x.unit :: s.narrow.filter (· != x.unit) }
    else if x.struct = 13 then { s with etherLanes := if s.etherLanes = 8 then 4 else 2 }
    else s
  else if 10 ≤ x.struct.toNat then s
  else
    let s := (partsWhere s fun p => p.stations.contains x.unit).foldl (fun s pn => supReport s pn 0x23 4 x.unit 0 x.addr.toNat 0 0) s
    stationDead s x.unit

/-- A self-test is of this structure: a row, a macro or a lane of a unit (R503). -/
def Selftest.tests (x : Selftest) (kind struct_ : Byte) (unit : Nat) (addr : DWord) : Bool :=
  x.kind == kind && x.struct == struct_ && x.unit == unit && x.addr == addr

/-- A self-test ends (R503): a third transient error of one structure in 2^30 cycles is lasting as well. Errors met in the row meanwhile
have its outcome, each with a record of its own (R509). -/
def selftestDone (s : State) (n : Nat) (pass : Bool) : State :=
  match s.selftests.find? (·.n == n) with
  | none => s
  | some x =>
    let l := x :: s.selftests.filter fun y => y.joins == some n
    let s := { s with selftests := s.selftests.filter fun y => y.n != n && y.joins != some n }
    let recent : Nat := s.transients.countP fun t => x.tests t.1 t.2.1 t.2.2.1 t.2.2.2.1 && decide (x.time < t.2.2.2.2 + 2 ^ 30)
    let last := !pass || decide (3 ≤ recent + l.length)
    let s := l.foldl (fun s y =>
      logRecord s y.kind.toNat (b2n last) y.severity.toNat y.struct.toNat y.unit y.part.toNat y.addr.toNat y.time) s
    if last then lasting s x else { s with transients := s.transients ++ l.map fun y => (y.kind, y.struct, y.unit, y.addr, y.time) }

/-- The read that meets an error in a sector: the earliest one under way at its home. -/
def readerOf (s : State) (sector : Nat) : Option Req :=
  (s.reqs.map (·.2)).find? fun r => r.kind.reads && r.carrier.isNone && r.pa.any fun k => decide (r.bank < 256) && (sectorsOf r k).contains sector

/-- What an error that cannot be corrected does, by where it lies (R88, R353, R502). An address of shared cache or LM is a physical
one; of a context area it is the thread; of a graph tile it counts the 64 entries of each element's matching store, then those of each
element's link buffer; of an instruction cache it is the line, whose parity failure the fetch finds when the record's SEVERITY is 1 (log
138). The spec states nothing for a station store and an L1 (log 120); a shadow bank's is R499's. -/
def uncorrected (s : State) (struct_ unit : Nat) (pn : Nat) (addr : Nat) : State :=
  match struct_ with
  | 2 => sectorBad
  | 10 => sectorBad
  | 3 => stepBad
  | 4 => stepBad
  | 5 => stepBad
  | 6 =>
    let x := elemAt s unit (addr / 64 % 16)
    match tileOwner s unit, (if addr < 1024 then x.store else x.link)[addr % 64]? with
    | some (pn, c), some e => faultAct s pn c.cid e.tok.act 0x08 unit (addr / 64 % 16) e.slot e.tok.iter 0
    | _, _ => s
  | 7 => icKill s unit fun p l => p == pn && l == addr
  | 8 => loseThr s (BitVec.ofNat 32 addr) (BitVec.ofNat 64 addr)
  | _ => s
where
  sectorBad : State :=
    let k := memKey s addr / 64
    let s' := match readerOf s k with
      | some r => deliver s r (.error { cause := 0x08, addr := r.va })
      | none => { s with eccNew := k :: s.eccNew.filter (· != k) }
    { s' with poison := k :: s'.poison.filter (· != k) }
  /-- The step under way is broken off: its set is EMPTY, its output slot as it was; generator commands that waited for its stream go on
  (R251, R267). -/
  stepBad : State :=
    match (stn s unit).streams.find? fun x => !x.ended with
    | none => s
    | some x =>
      let s := unplan s fun e => e == .stepStreamEnd unit || e == .stepAccumulationComplete unit x.start
      let s := modStn s unit fun y => { y with streams := y.streams.filter (· != x) }
      let s := accComplete.emptySet unit s (templateFields x.bits)
      let s := settleSlot (stepFault s unit x.tm (streamSum.ownTemplate x) 0x08 x.iter x.seq 0 0) unit (templateFields x.bits).aslot
      igNext (igNext s unit 0) unit 1

/-- An error is detected: what it spoils, and the self-test of its structure, which ends within 2,000 cycles, or 20 µs for a row of LM
(R502, R503); an error in a row under test joins that test (R509). -/
def errorSeen (s : State) (kind struct_ severity : Byte) (unit pn : Nat) (addr : DWord) : State :=
  let s := if severity = 1 then uncorrected s struct_.toNat unit pn addr.toNat else s
  let id := freshId s
  let under := s.selftests.find? fun x => x.joins.isNone && x.tests kind struct_ unit addr
  let t : Selftest :=
    { n := id.1, kind := kind, struct := struct_, severity := severity, unit := unit, part := BitVec.ofNat 8 pn, addr := addr, time := s.time,
      joins := under.map (·.n) }
  if under.isSome then { id.2 with selftests := id.2.selftests ++ [t] } else
  let d := draw { id.2 with selftests := id.2.selftests ++ [t] } 2
  within d.2 (if kind = 2 then 72000 else 2000) (.selftestComplete t.n (d.1 == 0))

/-- SELFTEST_COMPLETE (R503), and the detection that begins a self-test (R502). -/
def execSelftestComplete (s : State) : Out := onEvent s fun e => match e with
  | .selftestComplete n pass => some (selftestDone s n pass)
  | .errorDetected kind struct_ severity unit pn addr => some (errorSeen s kind struct_ severity unit pn addr)
  | _ => none

end Sys2Proof.Machine
end

