-- ==== Sys2Proof/Machine/Sync.lean ====
section
/-! DEFINITION. Monitors and messages (R415 to R421). -/

namespace Sys2Proof.Machine

/-! ### Monitors -/

/-- MONARM (R416): checks, the line leaves the L1, and the arm goes to its home; the thread stays parked until it answers. -/
def execMonarm (w : Bool) (a : BitVec 5) (g : BitVec 3) (n : BitVec 2) (s : State) : Out :=
  issue w s fun s th =>
    let sg := rseg th g
    let off := rg th a
    let va := vaOf sg off
    let pn := tidPart th.tid
    if !sg.translated || !sg.read then .error (trapAt th 0x04 va)
    else if sg.limit ≤ off.toNat then .error (trapAt th 0x03 va)
    else
      let acc : Access := { kind := .arm n.toNat, z := 1, seg := sg, els := [{ lane := 0, va := va }] }
      let r := addOp (nextPc th) { id := 0, pc := th.pc, acc := some acc, left := 1, hold := true }
      let s := dropLines s (l1Station s th.station va.toNat) fun l => l.part == pn && l.line == va.toNat / 256
      let s := parkThr s r.2 .marker
      .ok (issueEl s ((getThr s th.tid).getD r.2) r.1 acc { lane := 0, va := va })

/-- MONCLR (R417). -/
def execMonclr (w x : Bool) (n : BitVec 2) (s : State) : Out :=
  issue w s fun s th =>
    if x then
      let r := disarmAll s th
      .ok (setThr r.1 (nextPc r.2))
    else
      let s := { s with arms := s.arms.filter fun a => !(a.tid == th.tid && a.n == n.toNat) }
      .ok (setThr s (nextPc { th with mon := vset th.mon n.toNat {} }))

/-- MONWAIT (R418): a marker, then its conditions; else the thread parks until one holds or its timeout passes. -/
def execMonwait (_w : Bool) (d a : BitVec 5) (s : State) : Out :=
  issue true s fun s th =>
    if (th.mon.any fun m => m.line.isSome && m.trig) || !th.mbox.isEmpty then .ok (monReturn s th d false)
    else
      let id := th.nextOp
      let w : Wait := { on := .mon d, pc := th.pc, id := id, since := s.time }
      let s := parkThr s { th with nextOp := id + 1, wait := some w } .monitor
      .ok (if a = 0 then s else later s (rg th a).toNat (.monwaitTimeout th.tid.toNat id))

/-! ### Mailboxes -/

/-- Reports that wait for room enter a mailbox (R421). -/
def fillMbox (s : State) (t : Word) : State :=
  match getThr s t with
  | none => s
  | some th =>
    let pn := tidPart t
    match (part s pn).reports.find? fun x => x.1 == t with
    | some x =>
      if th.mbox.length < 16 then
        let s := modPart s pn fun p => { p with reports := p.reports.erase x }
        setThr s { th with mbox := th.mbox ++ [x.2] }
      else s
    | none => s

/-- A message's words and its information word in g[d] to g[d+4] (R420). -/
def putMsg (th : Thread) (d : Nat) (m : Msg) : Thread :=
  let th := (List.range 4).foldl (fun t i => wgN t (d + i) (BitVec.ofNat 64 (field m.data (8 * i) 8))) th
  wgN th (d + 4) (BitVec.ofNat 64 (m.sender.toNat + m.data.length * 2 ^ 32 + b2n m.sys * 2 ^ 40))

/-- The oldest message goes to a RECV's registers. -/
def takeMsg (s : State) (th : Thread) (d : Nat) : Option (State × Thread) :=
  match th.mbox with
  | [] => none
  | m :: l =>
    let s := fillMbox (setThr s { th with mbox := l }) th.tid
    some (s, putMsg ((getThr s th.tid).getD th) d m)

/-- A message enters a mailbox and wakes a thread parked in RECV or MONWAIT (R42, R419). -/
def enterMbox (s : State) (th : Thread) (m : Msg) : State :=
  let th := { th with mbox := th.mbox ++ [m] }
  let s := setThr s th
  match th.wait with
  | some { on := .recv d, pc := _, id := _, since := _, retry := _ } =>
    match takeMsg s th d.toNat with
    | none => s
    | some (s, th) =>
      match th.st with
      | .parked .held => setThr s { th with wait := none, pc := th.pc + 4 }
      | _ => answer s { th with wait := none } 0 0 (classOf th.station (tidHome th.tid))
  | some { on := .mon _, pc := _, id := n, since := _, retry := _ } => later s 1 (.longOpComplete th.tid.toNat n)
  | _ => s

/-- The status of a delivery (R419): delivered, mailbox full, or no such thread; a dead home is DEAD_AGENT. -/
def deliverMsg (s : State) (t : Word) (m : Msg) : State × Except DFault Nat :=
  if (stn s (tidHome t)).dead then (s, .error { cause := 0x0A, addr := 0 })
  else match getThr s t with
    | none => (s, .ok 2)
    | some th =>
      if !th.st.live then (s, .ok 2)
      else if 16 ≤ th.mbox.length then (s, .ok 1)
      else (enterMbox s th m, .ok 0)

/-- A message sent earlier from the same station to the same one is still under way (R12). -/
def msgAhead (s : State) (n : Nat) (t : Word) (m : Msg) : Bool :=
  s.msgs.any fun e => decide (e.1 < n) && !e.2.2.2.waits && e.2.2.2.src == m.src && tidHome e.2.2.1 == tidHome t

/-- MESSAGE_DELIVERY (R419). -/
def execMessageDelivery (s : State) : Out := onEvent s fun e => match e with
  | .messageDelivery m => some (match kget s.msgs m with
    | none => s
    | some (from_, t, msg) =>
     if msgAhead s m t msg then later s 1 (.messageDelivery m)
     else
      let s := { s with msgs := kdel s.msgs m }
      let r := match from_ with
        | some (u, _) => if tidPart u = tidPart t then deliverMsg s t msg else (s, .ok 2)
        | none => deliverMsg s t msg
      match from_ with
      | some (u, op) => opLane r.1 u op 0 r.2
      | none => r.1)
  | _ => none

/-- A report of a step that finds its mailbox full keeps the step's template from firing (R227). -/
def reportWaits (s : State) (m : Msg) : State :=
  match m.step with
  | none => s
  | some (st, tm) => modStn s st fun x => { x with tms := vset x.tms tm { vget x.tms tm with reporting := true } }

/-- A report's matrix step may fire again (R227). -/
def reportDone (s : State) (m : Msg) : State :=
  match m.step with
  | none => s
  | some (st, tm) => modStn s st fun x => { x with tms := vset x.tms tm { vget x.tms tm with reporting := false } }

/-- A device report reaches a mailbox, its report queue, the supervisor's when its issuer has ended, or the port when no supervisor is
there to read it; with both full it waits (R70, R312, R421, R486). -/
def reportArrives (s : State) (id : Nat) (t : Word) (m : Msg) : State :=
  let pn := tidPart t
  let gone := { s with msgs := kdel s.msgs id }
  match (getThr s t).filter fun th => th.st.live && !(stn s (tidHome t)).dead && !(stn s (tidHome t)).outOfService with
  | none =>
    let sup := (part s pn).supervisor
    if t ≠ sup then sendMsg gone none sup m (tidHome t) else reportDone (reportFrames gone pn m.data) m
  | some th =>
    if th.mbox.length < 16 then reportDone (enterMbox gone th m) m
    else if (part s pn).reports.countP (fun x => tidHome x.1 == tidHome t) < 64 then
      reportDone (modPart gone pn fun p => { p with reports := p.reports ++ [(t, m)] }) m
    else later (reportWaits { s with msgs := kput s.msgs id (none, t, { m with waits := true }) } m) 1 (.deviceReport id)

/-- DEVICE_REPORT (R421). -/
def execDeviceReport (s : State) : Out := onEvent s fun e => match e with
  | .deviceReport m => some (match kget s.msgs m with
    | none => s
    | some (_, t, msg) => if !msg.waits && msgAhead s m t msg then later s 1 (.deviceReport m) else reportArrives s m t msg)
  | _ => none

/-! ### SEND and RECV -/

/-- The payload of a SEND: words from g[b] on (R419). -/
def sendWords (th : Thread) (b : BitVec 5) (n : BitVec 2) : Frame :=
  (List.range (n.toNat + 1)).flatMap fun i => natLe 8 (rgN th (b.toNat + i)).toNat

/-- SEND to a thread (R419): the message, and the status as its answer. -/
def execSend (w : Bool) (d a b : BitVec 5) (n : BitVec 2) (s : State) : Out :=
  issue w s fun s th =>
    let t : Word := (rg th a).truncate 32
    let r := addOp (nextPc th) { id := 0, pc := th.pc, dest := .g d, left := 1, hold := true }
    let s := parkThr s r.2 .marker
    .ok (sendMsg s (some (th.tid, r.1)) t { sender := th.tid, data := sendWords th b n } th.station)

/-- SEND to a host (R419): a MSG frame, when the agent is known. -/
def execSendHost (w : Bool) (d a b : BitVec 5) (n : BitVec 2) (s : State) : Out :=
  issue w s fun s th =>
    let pn := tidPart th.tid
    let h := bits (rg th a).toNat 15 0
    let data := sendWords th b n
    if h < 16 ∧ agentKnown s (part s pn) h ∧ agentRight (part s pn) h 3 then
      let s := foldEvent s pn th.station (portCorner th.station) 1 (ownDev s * 2 ^ 56) data
      let s := sendAgent s h 5 pn (natLe 4 th.tid.toNat ++ [BitVec.ofNat 8 data.length, 0, 0, 0] ++ data)
      .ok (answer s th d 0 360)
    else .ok (answer s th d 3 360)

/-- RECV (R420). -/
def execRecv (w : Bool) (d : BitVec 5) (n : Bool) (s : State) : Out :=
  issue w s fun s th =>
    let wcl := classOf th.station (tidHome th.tid)
    match takeMsg s th d.toNat with
    | some (s, th) => .ok (answer s th 0 0 wcl)
    | none =>
      if n then .ok (answer s th (BitVec.ofNat 5 (d.toNat + 4)) 0 wcl)
      else .ok (startWait s th (.recv d) .recv false)

end Sys2Proof.Machine
end

