-- ==== Sys2Proof/Machine/Front.lean ====
section
/-! DEFINITION. The Ethernet port: sessions and leases (R469), frames received and acknowledged (R467, R468), messages that wait their
turn (R452, R464, R470), and the frames WRITE, READ, READRESP, ACQ, RELEASE, MSG and ATTEST (R470, R474). A message is kept as its
32-byte header, LEN set to 0xFFFF, and the payload of all its parts. -/

namespace Sys2Proof.Machine

/-! ### Frames received (R467, R468, R538) -/

/-- The port acts on frames: the dies are released and the link is up (R537, R538). -/
def portUp (s : State) : Bool := s.live && s.linkUp

/-- A header without a reserved value. -/
def headerLegal (f : Frame) : Bool :=
  field f 0 1 == 1 && decide (field f 1 1 ≤ 12) && decide (field f 2 1 < 4) && decide (field f 3 1 < 16) &&
    decide (field f 24 2 ≤ 8192) && field f 27 5 == 0

/-- The tag of a frame under a session's key. -/
def tagGood (x : Session) (f : Frame) : Bool :=
  let n := 32 + field f 24 2
  f.drop n == Config.shake256 (x.key ++ f.take n) 16

/-- The session of a frame that is neither reserved, unknown nor wrongly tagged. -/
def frameSession (s : State) (f : Frame) : Option Session :=
  (s.sessions.find? fun x => x.up && x.id.toNat == field f 4 4 && x.agent == field f 3 1).filter fun x => headerLegal f && tagGood x f

/-- An admin session is open (R538). -/
def adminOpen (s : State) : Bool := s.sessions.any fun x => x.up && x.admin

/-- An agent has sent a frame: its lease runs anew (R469). -/
def agentHeard (s : State) (h : Nat) : State :=
  let s := { s with suspects := s.suspects.filter (· != hostAgent h),
                    sessions := s.sessions.map fun x => if x.agent = h then { x with lastRx := s.time } else x }
  later (unplan s fun e => e == .leaseLapse h) 1440000 (.leaseLapse h)

/-- ACK and SACK of a frame: frames acknowledged leave the window, and those that wait for room in it are sent (R468). -/
def ackFrames (s : State) (x : Session) (ack : Word) (sack : Nat) : State :=
  let gone (q : Word) : Bool := let d := (ack - q).toNat; (1 ≤ d && d ≤ 2 ^ 31) || (let j := (q - ack - 1).toNat; j < 64 && bit sack j)
  let left := x.unacked.filter fun u => !gone u.1
  let sent := (x.unacked.take 64).map (·.1)
  let new := (left.take 64).filter fun u => !sent.contains u.1
  let s := modSession s x.id fun y => { y with unacked := left }
  new.foldl (fun s u => later (transmit s x u.1 u.2.2) 72000 (.frameResend x.id.toNat u.1.toNat)) s

/-- The message of a frame that is its last part. -/
def messageOf (f payload : Frame) : Frame := f.take 24 ++ natLe 2 0xFFFF ++ (f.drop 26).take 6 ++ payload

/-- Frames of the window are delivered in sequence order: each last part makes a message, which waits and is tried (R468). -/
def deliverWin (id : Word) : Nat → State → State
  | 0, s => s
  | k + 1, s =>
    match s.sessions.find? fun x => x.id == id with
    | none => s
    | some x =>
      match x.rxWin.find? fun w => w.1 == x.rxNext with
      | none => s
      | some (_, f) =>
        let payload := x.parts ++ (f.drop 32).take (field f 24 2)
        let last := bit (field f 2 1) 0
        let m := messageOf f payload
        let s := modSession s id fun y => { y with
          rxNext := y.rxNext + 1, rxWin := y.rxWin.filter fun w => w.1 != x.rxNext, parts := if last then [] else payload
          waitq := if last && (frameEvent m).isSome then y.waitq ++ [(s.time, m)] else y.waitq }
        let s := if last then (match frameEvent m with | some e => later s 0 e | none => s) else s
        deliverWin id k s

/-- A frame of an open session: it renews the lease, acknowledges (and fences that wait for host memory may go on, R335), and enters the receive window of 64; a duplicate or one beyond the
window is answered as the receiver stands (R468). -/
def receive (s : State) (x : Session) (f : Frame) : State :=
  let s := drainWake (ackFrames (agentHeard s x.agent) x (BitVec.ofNat 32 (field f 12 4)) (field f 16 8))
  if field f 1 1 = 0 then s
  else
    let seq := BitVec.ofNat 32 (field f 8 4)
    let fits := (seq - x.rxNext).toNat < 64 && !(x.rxWin.any fun w => w.1 == seq)
    let s := if fits then deliverWin x.id 65 (modSession s x.id fun y => { y with rxWin := y.rxWin ++ [(seq, f)] }) else s
    match s.sessions.find? fun y => y.id == x.id with
    | none => s
    | some y => transmit s y 0 (protoFrame y 0 0 0 [])

/-- A frame reaches the port. -/
def portFrame (s : State) (f : Frame) : State :=
  if !portUp s || (field f 1 1 != 0 && !adminOpen s) then s
  else match frameSession s f with
    | none => s
    | some x => receive s x f

/-- A frame of an EtherType, and of a UDP port on IPv4 or IPv6, is one of YXT (R467, R538). -/
def isYxt (s : State) (type : Half) (udp : Option Half) : Bool :=
  type == s.ethType || ((type == 0x0800 || type == 0x86DD) && udp.isSome && udp == s.udpPort)

/-- ACKNOWLEDGEMENT (R468), and a frame of any kind at the port: one that is not of YXT is discarded (R467). -/
def execAcknowledgement (s : State) : Out := onEvent s fun e => match e with
  | .acknowledgement f => some (if field f 1 1 = 0 then portFrame s f else s)
  | .etherFrame type udp f =>
    some (if !isYxt s type udp then s
      else if field f 1 1 = 12 ∧ field f 32 1 = 1 then later s 0 (.leaseOpen f) else portFrame s f)
  | _ => none

/-- A frame unacknowledged after 20 µs is sent again (R468). -/
def resend (s : State) (id n : Nat) : State :=
  match s.sessions.find? fun x => x.id.toNat == id && x.up with
  | none => s
  | some x => match (x.unacked.take 64).find? fun u => u.1.toNat == n with
    | none => s
    | some u => later (transmit s x u.1 u.2.2) 72000 (.frameResend id n)

/-- FRAME_RESEND (R468). -/
def execFrameResend (s : State) : Out := onEvent s fun e => match e with
  | .frameResend id n => some (resend s id n)
  | _ => none

/-! ### Messages that wait their turn -/

/-- The partition that a message acts on; 16 for one that acts on none. -/
def messagePart (m : Frame) : Nat :=
  match frameEvent m with
  | some (.write _) => field m 26 1
  | some (.read _) => field m 26 1
  | some (.launchFrame _) => field m 26 1
  | some (.msg _) => field m 26 1
  | some (.acq _) => field m 26 1
  | some (.release _) => field m 26 1
  | _ => 16

/-- A message that waits for every earlier frame of its session: ORDER set, LAUNCH or MSG (R470). -/
def ordered (m : Frame) : Bool := bit (field m 2 1) 1 || field m 1 1 == 4 || field m 1 1 == 5

/-- A message may act: its partition is not swapped out (R452), no earlier one for that partition waits, and an ordered one has every
earlier frame performed (R470). -/
def mayAct (s : State) (x : Session) (m : Frame) : Bool :=
  let earlier := (x.waitq.map (·.2)).takeWhile (· != m)
  let pn := messagePart m
  !(part s pn).swapped && (pn == 16 || earlier.all fun y => messagePart y != pn) &&
    (!ordered m || (earlier.isEmpty && !(s.hostOps.any fun o => o.session == x.id)))

/-- Inputs of a lockstep partition that runs in step wait for their delivery cycle (R464). -/
def lockstepInput (s : State) (m : Frame) : Bool :=
  let p := part s (field m 26 1)
  (messagePart m != 16 || field m 1 1 == 3) && p.inStep

/-- A message acted on, or taken as an input of a lockstep pair; then those behind it are tried. -/
def actOn (s : State) (x : Session) (m : Frame) (act : State → Session → Frame → State) : State :=
  let s := modSession s x.id fun y => { y with waitq := y.waitq.filter (·.2 != m) }
  wakeSession (if lockstepInput s m then stampInput s (field m 26 1) m else act s x m) x.id

/-- An input whose delivery cycle has come may act: an ordered one when every earlier one of its session has been performed (R464, R470). -/
def readyMay (s : State) (pn : Nat) (m : Frame) : Bool :=
  let earlier := (part s pn).ready.takeWhile (· != m)
  let mine (y : Frame) : Bool := field y 4 4 == field m 4 4
  !(part s pn).swapped && (!ordered m || (!(earlier.any mine) && !(s.hostOps.any fun o => o.session.toNat == field m 4 4)))

/-- The row of a frame of a type: a message that waits acts when it may, an input whose delivery cycle has come acts, and any other is
a frame that reaches the port. An item whose frame is of another type is no frame of the row: nothing happens. -/
def frameRow (s : State) (type : Nat) (e : Event) (f : Frame) (act : State → Session → Frame → State) : Option State :=
  match s.sessions.find? fun x => x.up && x.waitq.any fun y => y.2 == f with
  | some x => some (if frameEvent f = some e ∧ mayAct s x f then actOn s x f act else s)
  | none =>
    if field f 1 1 ≠ type then some s
    else
      let pn := field f 26 1
      if (part s pn).ready.contains f then
        if !readyMay s pn f then some s else
        let x := (s.sessions.find? fun x => x.up && x.id.toNat == field f 4 4).getD
          { id := BitVec.ofNat 32 (field f 4 4), agent := field f 3 1, admin := false, recallMax := 0, key := [], up := false }
        some (wakeSession (act (modPart s pn fun p => { p with ready := p.ready.erase f }) x f) x.id)
      else some (portFrame s f)

/-- An ERROR frame answers a frame; its TAG is that of the launch concerned, and free where there is none (R471). -/
def errorTo (s : State) (x : Session) (pn cause : Nat) : State :=
  let d := draw s (2 ^ 32)
  if x.up then sendFrame d.2 x 10 pn (errorPayload (BitVec.ofNat 32 d.1) cause pn 0) else s

/-- A range lies in one window of a running partition that gives the agent a right (R468, R470). -/
def inWindow (s : State) (pn agent right va n : Nat) : Bool :=
  let p := part s pn
  p.st == .running && (List.range 16).any fun i =>
    let w := winOf p i
    w.2.1 != 0 && w.2.2.1 == agent && bit w.2.2.2 right && decide (w.1 ≤ va) && decide (va + n ≤ w.1 + w.2.1)

/-! ### WRITE, READ, ACQ and RELEASE (R470) -/

/-- The pieces of a range by sector: address and length. -/
def sectorPieces (va n : Nat) : List (Nat × Nat) :=
  if n = 0 then []
  else (nats (va / 64) ((va + n - 1) / 64 + 1)).map fun k =>
    let lo := max va (64 * k)
    (lo, min (va + n) (64 * k + 64) - lo)

/-- A frame's pieces sent to their homes from the partition's first station, translated as path T (R470). -/
def hostAccess (s : State) (x : Session) (pn type va : Nat) (rs : List Req) : State :=
  let id := freshId s
  let o : HostOp := { id := id.1, session := x.id, agent := x.agent, part := pn, type := type, va := va, left := rs.length }
  let s := { id.2 with hostOps := id.2.hostOps ++ [o] }
  if rs.isEmpty then hostDone s o
  else rs.zipIdx.foldl (fun s r => sendReq s { r.1 with who := .host id.1 r.2, part := pn, st := (part s pn).stations.headD 0 }) s

/-- A request of a host with its address, kind and length. -/
def hostReq (kind : AccKind) (va z : Nat) : Req :=
  { id := 0, who := .host 0 0, part := 0, st := 0, path := 0, kind := kind, va := BitVec.ofNat 64 va, z := z }

/-- The bytes of a piece as a sector with its mask. -/
def writePiece (va : Nat) (data : Frame) (q : Nat × Nat) : Req :=
  let off := q.1 % 64
  { hostReq .sector (q.1 - off) 64 with
    data := BitVec.ofNat 2048 (leNat ((data.drop (q.1 - va)).take q.2) * 2 ^ (8 * off)), mask := BitVec.ofNat 64 ((2 ^ q.2 - 1) * 2 ^ off) }

/-- A WRITE acts (R470). -/
def actWrite (s : State) (x : Session) (m : Frame) : State :=
  let pn := field m 26 1
  let va := field m 32 8
  let data := m.drop 40
  if !inWindow s pn x.agent 1 va data.length then errorTo s x pn 0x04
  else hostAccess s x pn 1 va ((sectorPieces va data.length).map (writePiece va data))

/-- WRITE (R470). -/
def execWrite (s : State) : Out := onEvent s fun e => match e with
  | .write f => frameRow s 1 e f actWrite
  | _ => none

/-- Byte o of the configuration window (R451, R504, R537, R542). -/
def windowByte (s : State) (o : Nat) : Byte :=
  let of (base x : Nat) : Byte := BitVec.ofNat 8 (x / 2 ^ (8 * (o - base)))
  if o < 0x2008 then mget s.cfg o
  else if o < 0x2010 then of 0x2008 s.cmdStatus.toNat
  else if o < 0x2018 then of 0x2010 (s.errcount % 2 ^ 32)
  else if o < 0x2020 then
    of 0x2018 ((match s.boot with | .fwload => 0 | .selftest => 1 | .link => 2 | .ready => 3 | .fwfail => 4 | .lmfail => 5) + 16 * s.bootSlot)
  else if o < 0x2040 then BitVec.ofNat 8 ((List.range 8).foldl (fun n i => n + b2n (stn s (8 * (o - 0x2020) + i)).outOfService * 2 ^ i) 0)
  else if 0x4000 ≤ o ∧ o < 0x4200 then of (o - o % 8) (vget s.domain ((o - 0x4000) / 8)).toNat
  else if 0x8000 ≤ o ∧ o < 0x10000 then
    let slot := (o - 0x8000) / 32
    let age := (s.errcount - 1 + 1024 - slot) % 1024
    if age < s.errlog.length then ((s.errlog.getD (s.errlog.length - 1 - age) { bytes := [] }).bytes.getD (o % 32) 0) else 0
  else 0

/-- A READ acts (R470): of memory, or by an admin session of the configuration window (R450). -/
def actRead (s : State) (x : Session) (m : Frame) : State :=
  let pn := field m 26 1
  let va := field m 32 8
  let n := field m 40 4
  match windowOffset va with
  | some o =>
    if x.admin then sendFrame s x 3 pn (natLe 8 va ++ (List.range n).map fun i => windowByte s (o + i)) else errorTo s x pn 0x02
  | none =>
    if !inWindow s pn x.agent 0 va n then errorTo s x pn 0x04
    else hostAccess s x pn 2 va ((sectorPieces va n).map fun q => hostReq .read q.1 q.2)

/-- READ (R470). -/
def execRead (s : State) : Out := onEvent s fun e => match e with
  | .read f => frameRow s 2 e f actRead
  | _ => none

/-- An ACQ acts: the host becomes a holder of the sectors of its mask, counted from the sector of its address on (R351, R470). -/
def actAcq (s : State) (x : Session) (m : Frame) : State :=
  let pn := field m 26 1
  let va := field m 32 8 / 64 * 64
  let mask := field m 40 1
  let want := field m 41 1
  let ks := (List.range 8).filter (bit mask)
  if want < 1 ∨ 3 < want then errorTo s x pn 0x14
  else if !(ks.all fun k => inWindow s pn x.agent 2 (va + 64 * k) 64) then errorTo s x pn 0x04
  else hostAccess s x pn 6 va (ks.map fun k => hostReq (.acq want) (va + 64 * k) 64)

/-- ACQ (R470). -/
def execAcq (s : State) : Out := onEvent s fun e => match e with
  | .acq f => frameRow s 6 e f actAcq
  | _ => none

/-- A holder gives a sector up, or keeps it as a reader, and requests that waited for this recall and wait for no other of the agent
go on (R351). -/
def releaseSector (s : State) (a sector : Nat) (toS : Bool) : State :=
  let s' := dropHolder s sector a toS
  s.reqs.foldl (fun x e => if e.2.recalls.contains a && e.2.pa.any (fun k =>
      ((recallSet s e.2 k).any fun y => y.1 == a && y.2.1 == sector) && !((recallSet s' e.2 k).any fun y => y.1 == a))
    then recallAcked x e.1 a else x) s'

/-- A RELEASE acts (R351, R470). -/
def actRelease (s : State) (x : Session) (m : Frame) : State :=
  let pn := field m 26 1
  let va := field m 32 8 / 64 * 64
  let mask := field m 40 1
  let toS := field m 41 1 == 1
  let ks := (List.range 8).filter (bit mask)
  if !(ks.all fun k => inWindow s pn x.agent 2 (va + 64 * k) 64) then errorTo s x pn 0x04
  else ks.foldl (fun s k =>
    match translate s ((part s pn).stations.headD 0) pn (va + 64 * k) false false false with
    | (s, .ok key) => releaseSector s (hostAgent x.agent) (key / 64) toS
    | (s, .error f) => errorTo s x pn f.cause.toNat) s

/-- RELEASE (R470). -/
def execRelease (s : State) : Out := onEvent s fun e => match e with
  | .release f => frameRow s 8 e f actRelease
  | _ => none

/-- A READRESP acts: the host's bytes stand in its window of the memory list, and the accesses that wait for them are performed. -/
def actReadresp (s : State) (x : Session) (m : Frame) : State :=
  let lo := field m 32 8
  let data := m.drop 40
  let base := 2 ^ 45 + x.agent * 2 ^ 40
  if lo < base ∨ base + 2 ^ 40 < lo + data.length then s
  else
    let s := wrL s lo data
    s.reqs.foldl (fun s e => match e.2.pa, kget s.reqs e.1 with
      | some key, some q =>
        if q.recalls = [hostAgent x.agent] ∧ lo ≤ key ∧ key < lo + data.length then unreserved s { q with recalls := [] } key else s
      | _, _ => s) s

/-- READRESP (R470). -/
def execReadresp (s : State) : Out := onEvent s fun e => match e with
  | .readresp f => frameRow s 3 e f actReadresp
  | _ => none

/-! ### MSG and ATTEST -/

/-- A MSG acts (R470): a mailbox full or an absent thread is answered with the status of R419. -/
def actMsg (s : State) (x : Session) (m : Frame) : State :=
  let pn := field m 26 1
  let t : Word := BitVec.ofNat 32 (field m 32 4)
  let n := field m 36 1
  let d := draw s (2 ^ 32)
  if (part s pn).st ≠ .running ∨ !agentRight (part s pn) x.agent 3 then errorTo s x pn 0x04
  else if n < 8 ∨ 32 < n ∨ field m 37 3 ≠ 0 ∨ m.length < 40 + n then errorTo s x pn 0x14
  else if tidPart t ≠ pn then errorTo s x pn 2
  else match deliverMsg d.2 t { sender := BitVec.ofNat 32 d.1, data := (m.drop 40).take n } with
    | (s, .ok 0) => s
    | (s, .ok v) => errorTo s x pn v
    | (s, .error f) => errorTo s x pn f.cause.toNat

/-- MSG (R470). -/
def execMsg (s : State) : Out := onEvent s fun e => match e with
  | .msg f => frameRow s 5 e f actMsg
  | _ => none

/-- The signed report of the measurements (R474). -/
def attestReport (s : State) (nonce : Frame) (mask : Nat) : Frame :=
  let b := natLe 4 0x54415934 ++ nonce ++ Config.identityKey ++ natLe 64 s.mf.toNat ++
    ((List.range 16).filter (bit mask)).flatMap fun p =>
      let q := part s p
      let z := q.st == .absent
      natLe 1 p ++ natLe 64 (if z then 0 else q.mc.toNat) ++ natLe 64 (if z then 0 else q.mi.toNat)
  b ++ Config.ed448Sign b

/-- An ATTEST acts (R474). -/
def actAttest (s : State) (x : Session) (m : Frame) : State :=
  sendFrame s x 11 0 (attestReport s ((m.drop 32).take 32) (field m 64 2))

/-- ATTEST (R474). -/
def execAttest (s : State) : Out := onEvent s fun e => match e with
  | .attest f => frameRow s 11 e f actAttest
  | _ => none

/-! ### Leases (R469) -/

/-- The first of the 16 host keys that verifies a signature. -/
def signer (b sig : Frame) : Option Nat := (List.range 16).find? fun i => Config.ed448Verify (Config.hostKey i) b sig

/-- A session opens (R469): OP, role, RECALLMAX, nonce, X448 key and signature stand in this order in the payload; the answer holds OP,
the device's nonce and X448 key and its signature over them. -/
def openSession (s : State) (f : Frame) : State :=
  let h := field f 3 1
  let b := f.drop 32
  let admin := field b 1 1 == 1
  match signer (b.take 96) ((b.drop 96).take 114) with
  | none => s
  | some k =>
    if field b 1 1 ≤ 1 ∧ (!admin || k == 0) then
      let n := s.nextSession
      let nonce := (b.drop 8).take 32
      let own := Config.nonce n
      let key := Config.shake256 (Config.x448Shared n ((b.drop 40).take 56) ++ nonce ++ own) 64
      let x : Session := { id := BitVec.ofNat 32 n, agent := h, admin := admin, recallMax := field b 4 4, key := key, lastRx := s.time }
      let s := { s with sessions := s.sessions ++ [x], nextSession := n + 1, deadAgents := s.deadAgents.filter (· != hostAgent h) }
      let a := natLe 8 1 ++ own ++ Config.x448Public n
      noteLease (queueFrame (agentHeard s h) (protoFrame x 12 1 0 (a ++ Config.ed448Sign a))) h 1
    else s

/-- LEASE_OPEN (R469). -/
def execLeaseOpen (s : State) : Out := onEvent s fun e => match e with
  | .leaseOpen f =>
    some (if field f 1 1 = 12 ∧ field f 32 1 = 1 ∧ portUp s ∧ headerLegal f then openSession s f
      else if (part s (field f 26 1)).ready.contains f then
        takeNote (modPart s (field f 26 1) fun p => { p with ready := p.ready.erase f }) f
      else s)
  | _ => none

/-- LEASE_RENEW (R469): the frame itself renews the lease. -/
def execLeaseRenew (s : State) : Out := onEvent s fun e => match e with
  | .leaseRenew f => frameRow s 12 e f fun s _ _ => s
  | _ => none

/-- A session ends with its queued frames; an agent without another is dead for the partitions that name it (R469, R475). -/
def endSession (s : State) (id : Word) : State :=
  match s.sessions.find? fun x => x.id == id with
  | none => s
  | some x =>
    let s := drainWake { s with sessions := s.sessions.filter fun y => y.id != id }
    if leased s x.agent then s else hostDead s x.agent

/-- A LEASE message that closes: the session's end, or a lease event of a lockstep pair. -/
def closeLease (s : State) (x : Session) (m : Frame) : State :=
  if s.sessions.any fun y => y.id == x.id then endSession s x.id else takeNote s m

/-- LEASE_CLOSE (R469). -/
def execLeaseClose (s : State) : Out := onEvent s fun e => match e with
  | .leaseClose f => frameRow s 12 e f closeLease
  | _ => none

/-- LEASE_LAPSE (R469): the sessions of an agent that has been silent for 400 µs end. -/
def leaseLapsed (s : State) (h : Nat) : State :=
  (s.sessions.filter fun x => x.agent == h && decide (x.lastRx + 1440000 ≤ s.time)).foldl (fun s x => endSession s x.id) s

/-- LEASE_LAPSE (R469). -/
def execLeaseLapse (s : State) : Out := onEvent s fun e => match e with
  | .leaseLapse h => some (leaseLapsed s h)
  | _ => none

end Sys2Proof.Machine
end

