-- ==== Sys2Proof/Machine/Launch.lean ====
section
/-! DEFINITION. Host launches: admission (R51, R443, R471, R475), their start and end, and budgets (R414, R443, R444). -/

namespace Sys2Proof.Machine

/-! ### Admission -/

/-- The payload of an ADMIT_REJECT (R471). -/
def rejectPayload (tag : Word) (queue reason : Nat) : Frame := natLe 4 tag.toNat ++ natLe 1 queue ++ natLe 1 reason

/-- The packet of a LAUNCH (R43, R51): its TID, S and CO are not taken over. -/
def launchPacket (b : Frame) : Packet :=
  { pcsw := BitVec.ofNat 64 (field b 0 8) &&& 0x7DFFFFFFFFFFFFFF, pw := BitVec.ofNat 64 (field b 8 8)
    g := (List.range 10).map fun i => BitVec.ofNat 64 (field b (16 + 8 * i) 8), sset := BitVec.ofNat 16 (field b 100 2)
    kind := BitVec.ofNat 8 (field b 102 1), fpcsr := BitVec.ofNat 8 (field b 103 1), target := BitVec.ofNat 16 (field b 104 2)
    wlimit := BitVec.ofNat 32 (field b 106 4) }

/-- What makes a launch's packet illegal (R51). -/
def packetIllegal (p : Partition) (b : Frame) : Bool :=
  let t := field b 104 2
  b.length != 112 || field b 102 1 != 1 || decide (6 ≤ field b 103 1 % 8) || field b 110 2 != 0 || (t != 0xFFFF && !p.hasStation t)

/-- B of R443: the queue's certificates not yet spent. -/
def queueBudget (s : State) (p : Partition) (q : Nat) : Nat :=
  ((p.launches.filter fun l => l.queue == q).map fun l =>
    if l.state = 0 ∨ (l.state = 1 ∧ !l.entered) then certOf s p l.cert
    else if l.state = 1 then certOf s p l.cert - (s.time - l.start) else 0).sum

/-- Why a launch is not admitted at its decision cycle, this one: the reason of R471, or none. -/
def rejectReason (s : State) (p : Partition) (l : Launch) : Option Nat :=
  if bit (pfield p 192 8) l.queue != l.timed || (l.timed && !bit (pfield p 144 8) l.queue) then some 1
  else if !l.timed then none
  else if pfield p 106 2 ≤ l.cert then some 2
  else if (List.range 16).any fun k => bit (pfield p 32 2) k && decide (vget s.lanes k < 8) then some 3
  else if (s.time - l.arrived) + queueBudget s p l.queue + certOf s p l.cert + 3600 ≤ l.deadline then none
  else some 0

/-- A LAUNCH acts: it is answered, or decided within 3,600 cycles of the arrival of its last part, t_a (R51, R443, R470, R471, R475). -/
def actLaunch (s : State) (x : Session) (m : Frame) : State :=
  let pn := field m 26 1
  let p := part s pn
  let b := m.drop 32
  let tag := BitVec.ofNat 32 (field b 4 4)
  let timed := bit (field b 1 1) 0
  let no (cause : Nat) : State := if x.up then sendFrame s x 10 pn (errorPayload tag cause pn 0) else s
  let reject (r : Nat) : State := if x.up then sendFrame s x 9 pn (rejectPayload tag (field b 0 1) r) else s
  if p.st = .absent then no 0x02
  else if p.st = .stopped then reject 1
  else if !agentRight p x.agent 3 then no 0x04
  else if decide (2 ≤ field b 1 1) || decide (64 ≤ field b 0 1) || (!timed && field b 2 2 != 0) || packetIllegal p (b.drop 16) then no 0x14
  else
    let id := freshId s
    let came := ((x.waitq.find? fun y => y.2 == m).map (·.1)).getD s.time
    let l : Launch :=
      { n := id.1, queue := field b 0 1, timed := timed, cert := field b 2 2, deadline := field b 8 8, arrived := came, tag := tag,
        agent := x.agent, session := x.id, packet := launchPacket (b.drop 16), state := 2, fuse := Config.launchFuses b }
    within (modPart id.2 pn fun p => { p with launches := p.launches ++ [l] }) (max 1 (3600 - (s.time - came)))
      (.launchStart pn id.1)

/-- LAUNCH (R51). -/
def execLaunchFrame (s : State) : Out := onEvent s fun e => match e with
  | .launchFrame f => frameRow s 4 e f actLaunch
  | _ => none

/-! ### Start and end (R414, R443, R444) -/

/-- An ERROR frame answers a launch, once (R444). -/
def launchError (s : State) (pn : Nat) (l : Launch) (cause : Nat) : State :=
  if l.answered then s
  else
    let s := modLaunch s pn l.n fun l => { l with answered := true }
    match s.sessions.find? fun x => x.id == l.session && x.up with
    | some x => sendFrame s x 10 pn (errorPayload l.tag cause pn l.root)
    | none => s

/-- The stations of a cluster (R10). -/
def clusterStations (c : Nat) : List Nat := (List.range 256).filter fun st => clusterOf st == c

/-- A running launch asks for a cluster's L1s to be fused (R356). -/
def fuseWanted (s : State) (c : Nat) : Bool :=
  s.parts.any fun p => p.2.launches.any fun l => l.state == 1 && l.fuse && clusterOf l.station == c

/-- The L1s of a cluster are fused or unfused as its launches ask: the combining stores drain and every unsealed line goes (R356). -/
def fuseCluster (s : State) (c : Nat) : State :=
  let want := fuseWanted s c
  if (clus s c).fused == want then s
  else
    let s := (clusterStations c).foldl (fun s st => dropLines (drainWhere s st fun _ => true) st fun l => l.sealedIdx.isNone) s
    modClus s c fun x => { x with fused := want }

/-- The station that holds the fewest threads in its queues, the lowest among equals (R51). -/
def leastLoaded (s : State) (p : Partition) : Nat :=
  let load (st : Nat) : Nat := let x := stn s st; x.arrq.length + x.spill.length + x.runq.length
  (p.stations.foldl (fun (m : Option Nat) st => match m with
    | none => some st
    | some b => if load st < load b then some st else some b) none).getD 0

/-- A launch finds no thread: the partition's cap, the station's serials, or a station out of service. A launch packet waits for
a context in the arrival queue or the spill ring (R47), so these refuse none. -/
def launchRefused (s : State) (pn st : Nat) : Bool :=
  decide (pfield (part s pn) 48 4 ≤ liveThreads s pn) || (freeSerial s pn st (s.threads.length + 1) (nextSerial s pn st)).isNone ||
    (stn s st).dead || (stn s st).outOfService || !(part s pn).stations.contains st

/-- A launch starts: its thread is created and its packet goes to the target's arrival queue; its budget runs once it has entered (R51,
R444). It starts as an acquirer (R470): the unsealed lines of the L1 it will use are dropped (R336). -/
def startLaunch (s : State) (pn : Nat) (l : Launch) : State :=
  let p := part s pn
  let st := if l.packet.target = 0xFFFF then leastLoaded s p else l.packet.target.toNat
  let refuse (s : State) : State :=
    let s := launchError s pn l 0x20
    later (modPart s pn fun p => { p with launches := p.launches.filter (·.n != l.n) }) 0 (.launchStart pn l.n)
  if launchRefused s pn st then refuse s
  else
    let tvec := ((getThr s p.supervisor).map (·.tvec)).getD 0
    match createThr s pn st { st := .migrating, launch := some l.n, tvec := tvec } with
    | none => refuse s
    | some (t, s) =>
      let s := fuseCluster (modLaunch s pn l.n fun l => { l with state := 1, root := t, station := st }) (clusterOf st)
      arrivePacket (invalUnsealed s st) st { l.packet with tid := t }

/-- Every queue of a partition whose running launch has finished starts its next one, in acceptance order (R443). -/
def startQueues (s : State) (pn : Nat) : State :=
  (List.range 64).foldl (fun s q =>
    let l := (part s pn).launches.filter fun l => l.queue == q
    if l.any fun l => l.state == 1 then s
    else match l.find? fun l => l.state == 0 with
      | some l => startLaunch s pn l
      | none => s) s

/-- A store of an activation is still to be performed. -/
def storesOut (s : State) (pn : Nat) (cid : Half) (a : BitVec 12) : Bool :=
  s.gaccs.any fun g => g.2.part == pn && g.2.cid == cid && g.2.f.act == a && g.2.kind.writes

/-- A launch is finished (R414): its threads and activations have ended, with all their stores performed. -/
def launchFinished (s : State) (pn n : Nat) : Bool :=
  !(s.threads.any fun e => tidPart e.2.tid == pn && e.2.launch == some n && (e.2.st.live || e.2.ending.isSome)) &&
  !(s.pkts.any fun k => k.2.launch == some n && packetPart k.2 == pn) &&
  !((part s pn).calls.any fun w => w.launch == some n) &&
  !((part s pn).consists.any fun c => c.acts.any fun a => a.launch == some n && (!a.ended || storesOut s pn c.cid a.id))

/-- The decision on a launch (R443): accepted at the end of its queue, or answered with ADMIT_REJECT. Launches are decided in the order
in which they came. -/
def decideLaunch (s : State) (pn n : Nat) : State :=
  match (part s pn).launches.find? fun l => l.state == 2 with
  | none => s
  | some l =>
    if l.n ≠ n then
      if (part s pn).launches.any fun x => x.n == n && x.state == 2 then later s 1 (.launchStart pn n) else s
    else
      let p := part s pn
      let rest := p.launches.filter fun x => x.n != n
      match rejectReason s p l with
      | none => modPart s pn fun p => { p with launches := rest ++ [{ l with state := 0 }] }
      | some r =>
        let s := modPart s pn fun p => { p with launches := rest }
        match s.sessions.find? fun x => x.id == l.session && x.up with
        | some x => sendFrame s x 9 pn (rejectPayload l.tag l.queue r)
        | none => s

/-- A launch goes on: it is decided, a faulted root is answered, a finished launch leaves its queue, and a free queue starts its
next. -/
def launchTurn (s : State) (pn n : Nat) : State :=
  if (part s pn).st ≠ .running then s
  else
    let s := decideLaunch s pn n
    let s := match (part s pn).launches.find? fun l => l.n == n && l.state == 1 with
      | none => s
      | some l =>
        let s := match l.cause with | some c => launchError s pn l c.toNat | none => s
        if launchFinished s pn n then
          let s := unplan s fun e => e == .budgetExpiry pn n
          fuseCluster (modPart s pn fun p => { p with launches := p.launches.filter (·.n != n) }) (clusterOf l.station)
        else s
    startQueues s pn

/-- LAUNCH_START (R444). -/
def execLaunchStart (s : State) : Out := onEvent s fun e => match e with
  | .launchStart pn n => some (launchTurn s pn n)
  | _ => none

/-- The spawn packets of a launch that have not become threads are dropped with it; the call of a callout fails (R66, R444). -/
def dropSpawns (s : State) (pn n : Nat) : State :=
  let mine (k : Packet) : Bool := k.tid == 0 && k.launch == some n && packetPart k == pn
  (s.pkts.filter fun e => mine e.2).foldl (fun s e => match e.2.coframe, e.2.cocall with
    | some fr, some c => resumeCaller s pn c fr (.error 0x18)
    | _, _ => s) { s with pkts := s.pkts.filter fun e => !mine e.2 }

/-- A budget expires: the launch's threads are killed, its activations abort, and the host is told (R444). -/
def budgetSpent (s : State) (pn n : Nat) : State :=
  match (part s pn).launches.find? fun l => l.n == n && l.state == 1 with
  | none => s
  | some l =>
    let s := dropSpawns s pn n
    let s := s.threads.foldl (fun s e => if tidPart e.2.tid = pn ∧ e.2.launch = some n then killThr s e.2.tid else s) s
    let s := ((part s pn).calls.filter fun w => w.launch == some n).foldl (fun s w => callFailed s pn w 0x18 0) s
    let s := (part s pn).consists.foldl (fun s c =>
      (c.acts.filter fun a => a.launch == some n && !a.ended).foldl (fun s a => faultAct s pn c.cid a.id 0x18 c.anchor 0 0 0 0) s) s
    later (launchError s pn l 0x18) 1 (.launchStart pn n)

/-- BUDGET_EXPIRY (R444). -/
def execBudgetExpiry (s : State) : Out := onEvent s fun e => match e with
  | .budgetExpiry pn n => some (budgetSpent s pn n)
  | _ => none

end Sys2Proof.Machine
end

