-- ==== Sys2Proof/Machine/Admin.lean ====
section
/-! DEFINITION. The configuration window (R451), the checks of a record (R449), COMMIT, STOP and DESTROY (R448), and the domain table
(R542). -/

namespace Sys2Proof.Machine

/-! ### The checks of COMMIT (R449, R447, R462, R468, R542) -/

/-- Two partitions hold a cluster in common. -/
def rectsMeet (p q : Partition) : Bool := (List.range 64).any fun c => p.hasCluster c && q.hasCluster c

/-- The committed partitions other than one: RUNNING or STOPPED (R448). Only the rule of RECT asks for RUNNING ones (R449). -/
def otherParts (s : State) (pn : Nat) : List Partition := (s.parts.filter fun e => e.1 != pn && e.2.st != .absent).map (·.2)

/-- Two ranges meet. -/
def rangesMeet (a n b m : Nat) : Bool := decide (a < b + m) && decide (b < a + n) && n != 0 && m != 0

/-- The domain table, or a DEVMASK against it, fails R542. -/
def domainBad (s : State) (mask : Nat) : Bool :=
  let e (i : Nat) : Nat := (vget s.domain i).toNat
  let selfs := (List.range 64).filter fun i => bit (e i) 1
  selfs.length != 1 || !(selfs.all fun i => bit (e i) 0 && bit mask i) ||
    (List.range 64).any fun i => bits (e i) 7 6 == 3 || (bit mask i && !bit (e i) 0)

/-- TDM fails R462 beside the masks of the timed partitions that run. -/
def tdmBad (p : Partition) (others : List Partition) : Bool :=
  let m := pfield p 64 32
  let ts := (others.filter (·.timed)).map fun q => pfield q 64 32
  let owned (x : Nat) : Nat := (List.range 256).countP (bit x)
  ((List.range 256).any fun i => bit m i && ts.any (bit · i)) || decide (192 < owned m + (ts.map owned).sum) ||
    (List.range 256).any fun i => (List.range 9).all fun j => !bit m ((i + j) % 256)

/-- An entry of the eviction schedules (R355). -/
def evictBytes (s : State) (p : Partition) (i : Nat) : Frame := physL s (memKey s (pfield p 128 8 + 16 * i)) 16
def evictBad (b : Frame) : Bool :=
  field b 0 8 % 256 != 0 || decide (2 ^ 52 ≤ field b 0 8) || decide (4096 ≤ field b 8 4) || decide (2 ≤ field b 12 1) ||
    decide (16 ≤ field b 13 1) || field b 14 2 != 0

/-- A pointer of the certificate table holds a reserved tag or bit (R160, R471). -/
def certBad (s : State) (p : Partition) (i : Nat) : Bool := badTag (BitVec.ofNat 64 (physN s (memKey s (pfield p 136 8 + 16 * i)) 8))

/-- The checks of a window entry of a record, each with its byte offset (R468). -/
def windowChecks (p : Partition) (i : Nat) : List (Nat × Bool) :=
  let w := winOf p i
  let o := 256 + 16 * i
  [(o, w.1 % 4096 != 0), (o + 8, w.2.1 % 4096 != 0 || decide (2 ^ 56 < w.1 + w.2.1)), (o + 13, decide (16 ≤ w.2.2.1)),
   (o + 14, decide (16 ≤ w.2.2.2)), (o + 15, pfield p (o + 15) 1 != 0)]

/-- The checks of a record that need no other partition, each with its byte offset. -/
def fieldChecks (p : Partition) (pn : Nat) : List (Nat × Bool) :=
  let f := pfield p
  let t := p.timed
  let lk := p.lockstep
  [(0, f 0 1 != pn), (1, decide (8 ≤ f 1 1)), (2, (decide (16 ≤ f 2 1) && f 2 1 != 255) || (t && f 2 1 != 255)),
   (4, decide (8 ≤ f 4 1) || decide (f 6 1 < f 4 1)), (5, decide (8 ≤ f 5 1) || decide (f 7 1 < f 5 1)), (6, decide (8 ≤ f 6 1)),
   (7, decide (8 ≤ f 7 1)), (8, f 8 8 % 2097152 != 0), (16, f 16 8 % 2097152 != 0 || decide (0xC000000000 < f 8 8 + f 16 8)),
   (24, f 24 4 % 65536 != 0), (30, decide (6144 < f 28 2 + f 30 2)), (34, decide (16 < f 34 1) || (!t && f 34 1 != 0)),
   (35, decide (f 35 1 < 10) || decide (30 < f 35 1)), (36, decide (4 ≤ f 36 1)), (37, decide (16 ≤ f 37 1)),
   (38, decide (16 ≤ f 38 1) || (!lk && f 38 1 != 0)), (39, f 39 1 != 0)] ++
  [(48, decide (f 48 4 < 1) || decide (65536 < f 48 4)),
   (52, if f 2 1 = 255 then f 52 4 != 0 else decide (f 52 4 < 100) || decide (100000 < f 52 4)),
   (56, if lk then decide (f 56 4 < 4096) || decide (65536 < f 56 4) else f 56 4 != 0), (60, !t && f 60 4 != 0),
   (64, !t && f 64 32 != 0), (96, f 96 8 % 64 != 0 || decide (2 ^ 52 ≤ f 96 8)),
   (104, decide (f 104 2 < 8) || decide (4096 < f 104 2) || f 104 2 % 8 != 0), (106, decide (256 < f 106 2)),
   (108, (!t && f 108 4 != 0) || f 108 4 % 16 != 0), (112, f 112 8 % 4096 != 0 || decide (2 ^ 52 ≤ f 112 8)),
   (120, f 120 8 % 4 != 0 || decide (2 ^ 56 ≤ f 120 8)), (128, f 128 8 % 16 != 0 || decide (2 ^ 52 ≤ f 128 8)),
   (136, f 136 8 % 16 != 0 || decide (2 ^ 52 ≤ f 136 8))] ++
  ((List.range 8).map fun i => (152 + 2 * i, decide (f 104 2 ≤ f (152 + 2 * i) 2))) ++
  [(168, f 168 8 % 128 != 0), (176, f 176 8 % 64 != 0), (184, f 184 4 % 64 != 0), (192, (!t && f 192 8 != 0) || (List.range 64).any fun q => bit (f 192 8) q && !bit (f 144 8) q)] ++
  ((nats 188 192 ++ nats 200 256).map fun o => (o, f o 1 != 0)) ++
  (List.range 16).flatMap (windowChecks p)

/-- The checks of a record against the device and the other partitions. -/
def deviceChecks (s : State) (p : Partition) (pn : Nat) : List (Nat × Bool) :=
  let f := pfield p
  let os := otherParts s pn
  let group := os.filter fun q => f 2 1 != 255 && q.group == f 2 1
  let near := os.filter (rectsMeet p)
  let ssq := (List.range 64).map fun c =>
    if p.hasCluster c then p.ssq + ((os.filter fun q => q.hasCluster c).map (·.ssq)).sum else 0
  let entry (i : Nat) : Nat := (vget s.domain i).toNat
  [(2, decide (4 ≤ group.length)),
   (4, (os.any fun q => q.st == .running && rectsMeet p q && !(f 2 1 != 255 && q.group == f 2 1 && pfield q 4 4 == f 4 4)) ||
       (p.timed && p.rectangle.any fun st => (stn s st).outOfService)),
   (8, os.any fun q => rangesMeet (f 8 8) (f 16 8) (pfield q 8 8) (pfield q 16 8)), (24, ssq.any fun n => decide (1536 * 1024 < n)),
   (28, near.any fun q => rangesMeet p.bsFirst p.bsCount q.bsFirst q.bsCount),
   (38, p.lockstep && os.any fun q => bit (pfield q 32 2) (f 38 1) || (q.lockstep && pfield q 38 1 == f 38 1)),
   (40, domainBad s (f 40 8) || (p.timed && (List.range 64).any fun i =>
     bit (f 40 8) i && !bit (entry i) 1 && (!bit (f 32 2) (bits (entry i) 5 2) || bits (entry i) 7 6 != 0))),
   (60, p.timed && decide (1600 < f 60 4 + ((os.filter (·.timed)).map fun q => pfield q 60 4).sum)), (64, p.timed && tdmBad p os),
   (128, (List.range (f 108 4 / 16)).any fun i => evictBad (evictBytes s p i)), (136, (List.range (f 106 2)).any (certBad s p)),
   (144, os.any fun q => (List.range 64).any fun i => bit (f 144 8) i && bit (pfield q 144 8) i)]

/-- The first failing byte offset of a record (R449). -/
def firstBad (s : State) (p : Partition) (pn : Nat) : Option Nat :=
  let bad := ((fieldChecks p pn ++ deviceChecks s p pn).filter (·.2)).map (·.1)
  bad.foldl (fun (m : Option Nat) o => match m with | none => some o | some b => some (min b o)) none

/-! ### Execution state of a station (R499) -/

/-- A station with no execution state of a partition. Its format registers keep their values until they are written (R138), and its
channels count on (R382). -/
def blankExec (x : Station) : Station :=
  { slots := x.slots, runq := x.runq, arrq := x.arrq, spill := x.spill, arrcap := x.arrcap, quantum := x.quantum, serial := x.serial
    icache := x.icache, fills := x.fills, l1 := x.l1, comb := x.comb, slice := x.slice, router := x.router, fd := x.fd
    serials := x.serials, outOfService := x.outOfService, dead := x.dead, suspect := x.suspect }

/-- The execution state of one station put into another. -/
def moveExec (x y : Station) : Station :=
  { y with slots := x.slots, runq := x.runq, arrq := x.arrq, spill := x.spill, arrcap := x.arrcap, quantum := x.quantum
           serial := x.serial, icache := x.icache, fills := x.fills, l1 := x.l1, comb := x.comb, slice := x.slice
           router := x.router, serials := x.serials, outOfService := x.outOfService, dead := x.dead, suspect := x.suspect }

/-- An event of a station's array, engines and graph tile. -/
def stationEvent (e : Event) : Option Nat :=
  match e with
  | .streamWake st _ => some st
  | .stepFire st => some st
  | .nmMetaScan st _ => some st
  | .stepStreamEnd st => some st
  | .stepAccumulationComplete st _ => some st
  | .writebackStart st => some st
  | .writebackComplete st => some st
  | .generatorLoad st _ => some st
  | .generatorLoadComplete st _ => some st
  | .enumerationStart st _ => some st
  | .enumerationEnd st _ => some st
  | .generatorRecordPush st _ => some st
  | .copyCommandStart st _ => some st
  | .copyCommandEnd st _ => some st
  | .copyCommandStop st _ _ _ => some st
  | .tokenArrival st _ _ _ _ => some st
  | .returnTokenArrival st _ _ _ => some st
  | _ => none

/-- An event of a partition's consists, wherever they stand; a wait limit is none of these, since it keeps counting (R446). -/
def consistEvent (s : State) (e : Event) : Option Nat :=
  let ofAcc (fid : Nat) : Option Nat := (kget s.gaccs fid).map (·.part)
  let ofLeg (id : Nat) : Option Nat := (legOf s id).map (·.1)
  match e with
  | .consistLoad pn _ => some pn
  | .consistFreeComplete pn _ => some pn
  | .freezeComplete pn _ => some pn
  | .watchdogExpiry pn _ => some pn
  | .activationInterval pn _ => some pn
  | .callWaitResume pn _ => some pn
  | .graphLoadReply fid => ofAcc fid
  | .graphStoreAck fid => ofAcc fid
  | .graphFaultRetry fid => ofAcc fid
  | .graphPresenceReply fid => ofAcc fid
  | .graphTimeout fid _ => ofAcc fid
  | .converterToken id _ _ _ _ => ofLeg id
  | .converterAck id _ => ofLeg id
  | .collectiveTokenCombine _ _ id _ => ofLeg id
  | _ => none

/-- An event of the execution state that stands in a partition's stations. -/
def execEvent (s : State) (pn : Nat) (e : Event) : Bool :=
  (stationEvent e).any (part s pn).hasStation || consistEvent s e == some pn

/-! ### Time shares (R452) -/

/-- The RUNNING partitions of a time-share group, ascending. -/
def groupMembers (s : State) (g : Nat) : List (Nat × Partition) := s.parts.filter fun e => e.2.st == .running && e.2.group == g

/-- A group of two or more has its slice's end planned; the one RUNNING member that is left is swapped in if it is out, and then stays. -/
def planSlice (s : State) (g : Nat) : State :=
  let l := groupMembers s g
  if g = 255 ∨ (l.length < 2 ∧ l.all fun e => e.2.resident && !e.2.swapped) ∨ s.agenda.any (fun e => e.2 == .sliceExpiry g || e.2 == .swapComplete g false || e.2 == .swapComplete g true) then s
  else match l.find? fun e => e.2.resident && !e.2.swapped with
    | some e => later s (pfield e.2 52 4 * 3600) (.sliceExpiry g)
    | none => later s 14464 (.swapComplete g false)

/-! ### COMMIT (R448) -/

/-- The supervisor thread of a partition (R448 step 3). -/
def startSupervisor (s : State) (pn : Nat) : State :=
  let p := part s pn
  match p.stations with
  | [] => s
  | st :: _ =>
    let seg := segSet s pn 0
    let pc := BitVec.ofNat 64 (pfield p 120 8) - BitVec.ofNat 64 (vget seg 0).base
    let th : Thread := { sup := true, prio := 3, bprio := 3, seg := seg, pc := pcBits pc, gens := seeded 0 }
    match createThr s pn st (wgN th 1 (BitVec.ofNat 64 pn)) with
    | none => s
    | some (t, s) =>
      let s := modPart s pn fun p => { p with supervisor := t }
      match getThr s t with
      | some th => makeReady s th
      | none => s

/-- What the caches of the device keep of a partition is dropped. -/
def dropCaches (s : State) (pn : Nat) : State :=
  { s with
    clusters := s.clusters.map fun c => (c.1, { c.2 with tlb := c.2.tlb.filter (·.part != pn), sb := c.2.sb.filter fun b => b.1 / 8 != pn }),
    stations := s.stations.map fun e => (e.1, { e.2 with
      icache := e.2.icache.filter (·.part != pn), fills := e.2.fills.filter (·.part != pn), l1 := e.2.l1.filter (·.part != pn)
      comb := e.2.comb.filter (·.part != pn) }) }

/-- The entries of the eviction schedules, 4,096 for a slice and 1,024 for an L1 at most, and their first occurrences in the
time-division frame (R355, R462). -/
def loadEvictions (s : State) (pn : Nat) : State :=
  let p := part s pn
  let l := (List.range (pfield p 108 4 / 16)).map fun i =>
    let b := evictBytes s p i
    ({ cache := Config.evictCache (pfield p 128 8) i % 512, line := field b 0 8 / 256, at_ := field b 8 4, evict := field b 12 1 == 1
       sect := BitVec.ofNat 4 (field b 13 1) } : EvictEnt)
  let fits (e : EvictEnt × Nat) : Bool :=
    decide ((l.take e.2).countP (fun x => x.cache == e.1.cache) < (if e.1.cache < 256 then 4096 else 1024))
  let l := (l.zipIdx.filter fits).map (·.1)
  let s := modPart s pn fun p => { p with evict := l }
  l.zipIdx.foldl (fun s e => later s ((e.1.at_ + 4096 - s.time % 4096) % 4096) (.evictionScheduleEntry e.1.cache pn e.2)) s

/-- A record that has passed its checks takes effect (R448). A partition committed while another of its group runs finds at its first
swap-in what stands in the shadow storage from then on: the engine segments of its record, and everything else of its stations as at
reset, the format registers among them (log 140). -/
def commitRecord (s : State) (pn : Nat) (rec_ : KMap Byte) : State :=
  let p : Partition := { st := .running, record := rec_ }
  let alone := p.group == 255 || (groupMembers s p.group).isEmpty
  let b := (List.range 512).map fun i => mget rec_ i
  let p := { p with
    stations := p.rectangle.filter fun st => !(stn s st).outOfService
    segtab := BitVec.ofNat 64 ((pfield p 104 2 / 8 - 1) * 2 ^ 52 + pfield p 96 8), ptroot := BitVec.ofNat 64 (pfield p 112 8)
    mc := BitVec.ofNat 512 (leNat (Config.shake256 b 64)), swapped := !alone, resident := alone }
  let s := dropCaches { s with threads := s.threads.filter fun e => tidPart e.2.tid != pn, parts := kput s.parts pn p } pn
  let s := p.rectangle.foldl (fun s st => modStn s st fun x => { x with serial := kdel x.serial pn }) s
  let s := p.rectangle.foldl (fun s st =>
    clearMem (clearMem s (localKey pn st 0) p.ssq) (bstoreKey st p.bsFirst 0 0) (4096 * p.bsCount)) s
  let lm := pfield p 8 8
  let s := { s with ptags := s.ptags.filter fun w => !(lm ≤ 8 * w && 8 * w < lm + pfield p 16 8) }
  let eng : Vector Seg 8 := Vector.ofFn fun k : Fin 8 =>
    let g := tableSeg s pn (pfield p (152 + 2 * k.val) 2)
    if g.ok p.ssq then g else {}
  let s := if alone then
      p.rectangle.foldl (fun s st =>
        let s := modStn s st fun x => { blankExec x with eng := eng }
        { s with elems := s.elems.filter fun e => e.1 / 16 != st }) s
    else { s with shadow := s.shadow ++ p.rectangle.map fun st => (pn, st, ({ eng := eng } : Station)) }
  let s := loadEvictions s pn
  let s := if p.lockstep then s else startSupervisor s pn
  planSlice s p.group

/-- The result of a configuration operation, which is BUSY until it completes (R451). -/
def opResult (s : State) (cause offset time : Nat) : State :=
  let st := bits s.cmdStatus.toNat 19 8 * 2 ^ 8 + cause + offset * 2 ^ 20 + 2 ^ 32
  later { s with cmdStatus := BitVec.ofNat 64 st } time .configOpComplete

/-- The record in a slot of the configuration window (R451). -/
def slotRecord (s : State) (pn : Nat) : KMap Byte :=
  (s.cfg.filter fun e => 512 * pn ≤ e.1 && e.1 < 512 * pn + 512).map fun e => (e.1 - 512 * pn, e.2)

/-- COMMIT (R448, R449): within 4.0 µs and the time to zero the quotas. -/
def commitPart (s : State) (pn : Nat) : State :=
  let r := slotRecord s pn
  if (part s pn).st = .running then opResult s 0x14 0 14400
  else match firstBad s { st := .running, record := r } pn with
    | some o => opResult s 0x14 o 14400
    | none =>
      let s := commitRecord s pn r
      let p := part s pn
      opResult s 0 0 (14400 + cdiv (p.ssq + 4096 * p.bsCount) 256)

/-- COMMIT (R448). -/
def execCommit (s : State) : Out := onEvent s fun e => match e with
  | .commit pn => some (commitPart s pn)
  | _ => none

/-! ### STOP and DESTROY (R448) -/

/-- A running partition becomes STOPPED: threads killed, consists freed, launches answered, holder records released. The lines of its LM
leave the slices, written back (log 121). -/
def stopPart (s : State) (pn : Nat) : State :=
  let p := part s pn
  if p.st ≠ .running then s
  else
    let s := s.threads.foldl (fun s e => if tidPart e.2.tid = pn then killThr s e.2.tid else s) s
    let s := p.rectangle.foldl (fun s st => drainWhere s st fun c => c.part == pn) s
    let s := (part s pn).consists.foldl (fun s c => unloadConsist s pn c) s
    let s := (part s pn).launches.foldl (fun s l =>
      let d := draw s 36
      launchError d.2 pn l (d.1 + 1)) s
    let s := unplan s fun e => execEvent s pn e || (match e with
      | .evictionScheduleEntry _ q _ => q == pn
      | .launchStart q _ => q == pn
      | .budgetExpiry q _ => q == pn
      | .freezeComplete q _ => q == pn
      | .collectiveContribution q _ => q == pn
      | .collectiveDone q _ _ => q == pn
      | .sealComplete q _ => q == pn
      | .unsealComplete q _ => q == pn
      | .drainTokenArrival q _ => q == pn
      | .lockstepInputInject q => q == pn
      | .digestWindowEnd q => q == pn
      | _ => false)
    let lm := pfield p 8 8
    let s := flushSlices s lm (pfield p 16 8)
    let s := { s with
      gaccs := s.gaccs.filter fun g => g.2.part != pn, arms := s.arms.filter fun a => tidPart a.tid != pn
      dirs := s.dirs.filter fun d => !(lm ≤ 64 * d.1 && 64 * d.1 < lm + pfield p 16 8)
      shadow := s.shadow.filter (·.1 != pn), shadowElems := s.shadowElems.filter (·.1 != pn)
      shadowEvents := s.shadowEvents.filter (·.1 != pn), lateReplies := s.lateReplies.filter fun r => r.1.part != pn }
    let s := if p.resident then p.rectangle.foldl (fun s st =>
        let s := modStn s st fun x => { blankExec x with eng := x.eng }
        { s with elems := s.elems.filter fun e => e.1 / 16 != st }) s
      else s
    let s := modPart s pn fun p => { p with
      st := .stopped, rakes := [], seals := [], consists := [], loads := [], calls := [], colls := [], launches := [], drains := []
      swapped := false, resident := false, heldOut := [], inputs := [], ready := [], evict := [], foot := [] }
    let s := ((List.range 64).filter p.hasCluster).foldl fuseCluster s
    planSlice (unplan s fun e => p.resident && e == .sliceExpiry p.group) p.group

/-- STOP (R448): within the bound of a swap. -/
def execStop (s : State) : Out := onEvent s fun e => match e with
  | .stop pn => some (if (part s pn).st = .running then opResult (stopPart s pn) 0 0 14464 else opResult s 0x14 0 14400)
  | _ => none

/-- DESTROY (R448). -/
def execDestroy (s : State) : Out := onEvent s fun e => match e with
  | .destroy pn => some (if (part s pn).st = .stopped then
      opResult { s with parts := kdel s.parts pn, threads := s.threads.filter fun e => tidPart e.2.tid != pn } 0 0 14400
    else opResult s 0x14 0 14400)
  | _ => none

/-- CONFIG_OP_COMPLETE (R451): BUSY is cleared. -/
def execConfigOpComplete (s : State) : Out := onEvent s fun e => match e with
  | .configOpComplete => some { s with cmdStatus := s.cmdStatus &&& 0xFFFFFFFEFFFFFFFF }
  | _ => none

/-! ### Writes to the configuration window (R451, R542) -/

/-- The command word written (R451): a reserved operation starts none (log 38). -/
def command (s : State) (w : Nat) : State :=
  if s.cmdStatus.getLsbD 32 then s
  else
    let op := bits w 7 4
    let pn := bits w 3 0
    let s := { s with cmdStatus := BitVec.ofNat 64 (op * 2 ^ 8 + pn * 2 ^ 16) }
    if op = 0 ∨ 3 < op then { s with cmdStatus := s.cmdStatus ||| 0x14 }
    else
      let s := { s with cmdStatus := s.cmdStatus ||| 0x100000000 }
      later s 0 (if op = 1 then .commit pn else if op = 2 then .stop pn else .destroy pn)

/-- A byte written to the record slots or the command word. Of the command word, reserved bits are ignored, a reserved operation leaves
the field as it was (R3), and all of it is discarded while BUSY is set (R451). -/
def cfgPut (busy : Bool) (c : KMap Byte) (o : Nat) (b : Byte) : KMap Byte :=
  if o < 0x2000 then mput c o b
  else if o ≠ 0x2000 || busy then c
  else
    let op := b.toNat / 16
    mput c o (if op = 0 ∨ 3 < op then (mget c o &&& 0xF0) ||| (b &&& 0x0F) else b)

/-- A WRITE to the configuration window acts: record slots and the command word take it (R450, R451); which write configures the EtherType
and the UDP port of YXT is not stated (R467, R538; log 104). -/
def actRegister (s : State) (x : Session) (m : Frame) : State :=
  let o := (windowOffset (field m 32 8)).getD 0
  let data := m.drop 40
  if !x.admin then errorTo s x (field m 26 1) 0x02
  else
    let s := { s with cfg := data.zipIdx.foldl (fun c b => cfgPut (s.cmdStatus.getLsbD 32) c (o + b.2) b.1) s.cfg }
    let s := match Config.portConfig o data with | some c => { s with ethType := c.1, udpPort := c.2 } | none => s
    if o ≤ 0x2000 ∧ 0x2008 ≤ o + data.length then command s (field data (0x2000 - o) 8) else s

/-- REGISTER_WRITE (R451). -/
def execRegisterWrite (s : State) : Out := onEvent s fun e => match e with
  | .registerWrite f => frameRow s 1 e f actRegister
  | _ => none

/-- A WRITE to the domain table acts, while no partition runs (R542). -/
def actDomain (s : State) (x : Session) (m : Frame) : State :=
  let o := (windowOffset (field m 32 8)).getD 0 - 0x4000
  let data := m.drop 40
  let pn := field m 26 1
  if !x.admin then errorTo s x pn 0x02
  else if s.parts.any fun p => p.2.st == .running then errorTo s x pn 0x14
  else
    let byte (i : Nat) : Nat := if o ≤ 8 * i ∧ 8 * i < o + data.length then field data (8 * i - o) 1 else (vget s.domain i).toNat
    { s with domain := Vector.ofFn fun i : Fin 64 => BitVec.ofNat 64 (byte i.val) }

/-- DOMAIN_TABLE_WRITE (R542). -/
def execDomainTableWrite (s : State) : Out := onEvent s fun e => match e with
  | .domainTableWrite f => frameRow s 1 e f actDomain
  | _ => none

end Sys2Proof.Machine
end

