-- ==== Sys2Proof/Machine/Alu.lean ====
section
/-! DEFINITION. The integer ALU with registers and with immediates (R164 to R168, R127). -/

namespace Sys2Proof.Machine

/-! ### Shared forms -/

/-- g[d] := f of g[a] and g[b]. -/
def aluOp (w : Bool) (d a b : BitVec 5) (f : DWord → DWord → DWord) (s : State) : Out :=
  issueThr w s fun th => wg th d (f (rg th a) (rg th b))

/-- g[d] := f of g[a]. -/
def aluOp1 (w : Bool) (d a : BitVec 5) (f : DWord → DWord) (s : State) : Out :=
  issueThr w s fun th => wg th d (f (rg th a))

/-- The long form: g[d] := f of g[a] and g[b], within 80 cycles (R200). -/
def aluLong (w : Bool) (d a b : BitVec 5) (f : DWord → DWord → DWord) (s : State) : Out :=
  issue w s fun s th => .ok (longResult s th { id := 0, pc := 0, dest := .g d, res := [(0, f (rg th a) (rg th b))] } 80)

/-- Quotients and remainders (R127). -/
def quotS (x y : DWord) : DWord := if y = 0 then -1 else BitVec.ofInt 64 (x.toInt.tdiv y.toInt)
def remS (x y : DWord) : DWord := if y = 0 then x else BitVec.ofInt 64 (x.toInt.tmod y.toInt)
def quotU (x y : DWord) : DWord := if y = 0 then -1 else x / y
def remU (x y : DWord) : DWord := if y = 0 then x else x % y

/-- Shifts and rotates by bits [5:0] of an amount (R165). -/
def sllW (x n : DWord) : DWord := x <<< (n.toNat % 64)
def srlW (x n : DWord) : DWord := x >>> (n.toNat % 64)
def sraW (x n : DWord) : DWord := x.sshiftRight (n.toNat % 64)
def rolW (x n : DWord) : DWord := x.rotateLeft (n.toNat % 64)
def rorW (x n : DWord) : DWord := x.rotateRight (n.toNat % 64)

/-- Set bits, and zeros from either end. -/
def popcount (x : DWord) : Nat := (List.range 64).countP fun i => x.getLsbD i
def leadZeros (x : DWord) : Nat := if x = 0 then 64 else 63 - Nat.log2 x.toNat
def trailZeros (x : DWord) : Nat := ((List.range 64).find? fun i => x.getLsbD i).getD 64

/-! ### Major 0x01 (R165) -/

/-- ADD (R165). -/
def execAdd (w : Bool) (d a b : BitVec 5) (s : State) : Out := aluOp w d a b (· + ·) s
/-- SUB (R165). -/
def execSub (w : Bool) (d a b : BitVec 5) (s : State) : Out := aluOp w d a b (· - ·) s
/-- MUL (R165). -/
def execMul (w : Bool) (d a b : BitVec 5) (s : State) : Out := aluOp w d a b (· * ·) s
/-- MULH (R165). -/
def execMulh (w : Bool) (d a b : BitVec 5) (s : State) : Out :=
  aluOp w d a b (fun x y => (x.signExtend 128 * y.signExtend 128).extractLsb' 64 64) s
/-- MULHU (R165). -/
def execMulhu (w : Bool) (d a b : BitVec 5) (s : State) : Out :=
  aluOp w d a b (fun x y => (x.setWidth 128 * y.setWidth 128).extractLsb' 64 64) s
/-- DIV (R165, R127). -/
def execDiv (w : Bool) (d a b : BitVec 5) (s : State) : Out := aluLong w d a b quotS s
/-- DIVU (R165, R127). -/
def execDivu (w : Bool) (d a b : BitVec 5) (s : State) : Out := aluLong w d a b quotU s
/-- REM (R165, R127). -/
def execRem (w : Bool) (d a b : BitVec 5) (s : State) : Out := aluLong w d a b remS s
/-- REMU (R165, R127). -/
def execRemu (w : Bool) (d a b : BitVec 5) (s : State) : Out := aluLong w d a b remU s
/-- AND (R165). -/
def execAnd (w : Bool) (d a b : BitVec 5) (s : State) : Out := aluOp w d a b (· &&& ·) s
/-- OR (R165). -/
def execOr (w : Bool) (d a b : BitVec 5) (s : State) : Out := aluOp w d a b (· ||| ·) s
/-- XOR (R165). -/
def execXor (w : Bool) (d a b : BitVec 5) (s : State) : Out := aluOp w d a b (· ^^^ ·) s
/-- ANDN (R165). -/
def execAndn (w : Bool) (d a b : BitVec 5) (s : State) : Out := aluOp w d a b (fun x y => x &&& ~~~y) s
/-- ORN (R165). -/
def execOrn (w : Bool) (d a b : BitVec 5) (s : State) : Out := aluOp w d a b (fun x y => x ||| ~~~y) s
/-- SLL (R165). -/
def execSll (w : Bool) (d a b : BitVec 5) (s : State) : Out := aluOp w d a b sllW s
/-- SRL (R165). -/
def execSrl (w : Bool) (d a b : BitVec 5) (s : State) : Out := aluOp w d a b srlW s
/-- SRA (R165). -/
def execSra (w : Bool) (d a b : BitVec 5) (s : State) : Out := aluOp w d a b sraW s
/-- ROL (R165). -/
def execRol (w : Bool) (d a b : BitVec 5) (s : State) : Out := aluOp w d a b rolW s
/-- ROR (R165). -/
def execRor (w : Bool) (d a b : BitVec 5) (s : State) : Out := aluOp w d a b rorW s
/-- MIN (R165). -/
def execMin (w : Bool) (d a b : BitVec 5) (s : State) : Out := aluOp w d a b (fun x y => if x.slt y then x else y) s
/-- MAX (R165). -/
def execMax (w : Bool) (d a b : BitVec 5) (s : State) : Out := aluOp w d a b (fun x y => if x.slt y then y else x) s
/-- MINU (R165). -/
def execMinu (w : Bool) (d a b : BitVec 5) (s : State) : Out := aluOp w d a b (fun x y => if x.ult y then x else y) s
/-- MAXU (R165). -/
def execMaxu (w : Bool) (d a b : BitVec 5) (s : State) : Out := aluOp w d a b (fun x y => if x.ult y then y else x) s
/-- SLT (R165). -/
def execSlt (w : Bool) (d a b : BitVec 5) (s : State) : Out := aluOp w d a b (fun x y => boolWord (x.slt y)) s
/-- SLTU (R165). -/
def execSltu (w : Bool) (d a b : BitVec 5) (s : State) : Out := aluOp w d a b (fun x y => boolWord (x.ult y)) s
/-- CLZ (R165). -/
def execClz (w : Bool) (d a : BitVec 5) (s : State) : Out := aluOp1 w d a (fun x => BitVec.ofNat 64 (leadZeros x)) s
/-- CTZ (R165). -/
def execCtz (w : Bool) (d a : BitVec 5) (s : State) : Out := aluOp1 w d a (fun x => BitVec.ofNat 64 (trailZeros x)) s
/-- POPC (R165). -/
def execPopc (w : Bool) (d a : BitVec 5) (s : State) : Out := aluOp1 w d a (fun x => BitVec.ofNat 64 (popcount x)) s
/-- BREV (R165). -/
def execBrev (w : Bool) (d a : BitVec 5) (s : State) : Out := aluOp1 w d a (fun x => x.reverse) s
/-- SEXT.B (R165). -/
def execSextB (w : Bool) (d a : BitVec 5) (s : State) : Out := aluOp1 w d a (sextBytes 1) s
/-- SEXT.H (R165). -/
def execSextH (w : Bool) (d a : BitVec 5) (s : State) : Out := aluOp1 w d a (sextBytes 2) s
/-- SEXT.W (R165). -/
def execSextW (w : Bool) (d a : BitVec 5) (s : State) : Out := aluOp1 w d a (sextBytes 4) s

/-! ### Immediates (R166 to R168) -/

/-- ADDI (R166). -/
def execAddi (w : Bool) (d a : BitVec 5) (i : BitVec 15) (s : State) : Out := aluOp1 w d a (· + imm15 i) s
/-- ANDI (R166). -/
def execAndi (w : Bool) (d a : BitVec 5) (i : BitVec 15) (s : State) : Out := aluOp1 w d a (· &&& imm15 i) s
/-- ORI (R166). -/
def execOri (w : Bool) (d a : BitVec 5) (i : BitVec 15) (s : State) : Out := aluOp1 w d a (· ||| imm15 i) s
/-- XORI (R166). -/
def execXori (w : Bool) (d a : BitVec 5) (i : BitVec 15) (s : State) : Out := aluOp1 w d a (· ^^^ imm15 i) s
/-- SLLI (R167). -/
def execSlli (w : Bool) (d a : BitVec 5) (h : BitVec 6) (s : State) : Out := aluOp1 w d a (sllW · (h.setWidth 64)) s
/-- SRLI (R167). -/
def execSrli (w : Bool) (d a : BitVec 5) (h : BitVec 6) (s : State) : Out := aluOp1 w d a (srlW · (h.setWidth 64)) s
/-- SRAI (R167). -/
def execSrai (w : Bool) (d a : BitVec 5) (h : BitVec 6) (s : State) : Out := aluOp1 w d a (sraW · (h.setWidth 64)) s
/-- RORI (R167). -/
def execRori (w : Bool) (d a : BitVec 5) (h : BitVec 6) (s : State) : Out := aluOp1 w d a (rorW · (h.setWidth 64)) s
/-- SLTI (R166). -/
def execSlti (w : Bool) (d a : BitVec 5) (i : BitVec 15) (s : State) : Out :=
  aluOp1 w d a (fun x => boolWord (x.slt (imm15 i))) s
/-- SLTIU (R166). -/
def execSltiu (w : Bool) (d a : BitVec 5) (i : BitVec 15) (s : State) : Out :=
  aluOp1 w d a (fun x => boolWord (x.ult (imm15 i))) s
/-- LUI (R168). -/
def execLui (w : Bool) (d : BitVec 5) (i : BitVec 20) (s : State) : Out := issueThr w s fun th => wg th d (imm20 i <<< 15)
/-- ADDPC (R168). -/
def execAddpc (w : Bool) (d : BitVec 5) (i : BitVec 20) (s : State) : Out := issueThr w s fun th => wg th d (th.pc + off20 i)

end Sys2Proof.Machine
end

