-- ==== Sys2Proof/Machine/Swap.lean ====
section
/-! DEFINITION. Time-shared partitions: the end of a slice and the swap to the next partition (R446, R452, R498, R499). -/

namespace Sys2Proof.Machine

/-! ### State in and out of the shadow storage -/

/-- Bytes of the memory list moved from one range to another. -/
def moveBytes (s : State) (a b n : Nat) : State :=
  clearMem ((s.mem.filter fun e => a ≤ e.1 && e.1 < a + n).foldl (fun s e => wrB s (b + (e.1 - a)) e.2) s) a n

/-- The window of the memory list where a partition's tile file of a station stands while it is swapped out (log 1). -/
def shadowKey (pn st : Nat) : Nat := 2 ^ 63 + (pn * 256 + st) * 2 ^ 19

/-- The events of a partition's execution state leave the agenda with the cycles they still need. -/
def shelveEvents (s : State) (pn : Nat) : State :=
  { s with agenda := s.agenda.filter fun e => !execEvent s pn e.2
           shadowEvents := s.shadowEvents ++ (s.agenda.filter fun e => execEvent s pn e.2).map fun e => (pn, e.1 - s.time, e.2) }

/-- The execution state of a partition moves to the shadow storage of its stations (R499). -/
def moveOut (s : State) (pn : Nat) : State :=
  let s := (part s pn).rectangle.foldl (fun s st =>
    let s := { s with shadow := s.shadow ++ [(pn, st, blankOf (stn s st))]
                      shadowElems := s.shadowElems ++ (s.elems.filter fun e => e.1 / 16 == st).map fun e => (pn, e.1, e.2) }
    let s := { modStn s st blankExec with elems := s.elems.filter fun e => e.1 / 16 != st }
    moveBytes s (tileKey st 0 0) (shadowKey pn st) (2 ^ 19)) (shelveEvents s pn)
  modPart s pn fun p => { p with resident := false, sliceEnd := if p.swapped then p.sliceEnd else s.time, swapped := true }
where
  blankOf (x : Station) : Station := moveExec {} x

/-- Cycles at which something began, moved on by the time for which a station's state was away. -/
def shiftStation (n : Nat) (x : Station) : Station :=
  { x with
    streams := x.streams.map fun y => { y with start := y.start + n }, pipe := x.pipe.map fun y => { y with start := y.start + n }
    tiles := x.tiles.map fun t => { t with fullAt := t.fullAt + n }, rtBusy := x.rtBusy.map fun b => (b.1, b.2.1 + n, b.2.2 + n)
    tms := x.tms.map fun t => { t with scan := t.scan.map fun y => (y.1 + n, y.2) } }

/-- The same of a consist. -/
def shiftConsist (n : Nat) (c : Consist) : Consist :=
  { c with lastFire := c.lastFire + n, lastStart := c.lastStart.map (· + n)
           holds := c.holds.map fun h => { h with since := h.since + n, released := h.released.map (· + n) } }

/-- An event put back on the agenda with the cycles it still needed: a stream's number moves on with its start, and a readout starts
again (R316). -/
def restoreEvent (s : State) (n due : Nat) (e : Event) : State :=
  match e with
  | .stepAccumulationComplete st k => later s due (.stepAccumulationComplete st (k + n))
  | .freezeComplete pn cid => match consistOf s pn cid with
    | some c => planReadout s pn c
    | none => s
  | e => later s due e

/-- Replies that came while a partition was away reach it (R498). -/
def giveReplies (s : State) (pn : Nat) : State :=
  let l := s.lateReplies.filter fun r => r.1.part == pn
  l.foldl (fun s r => deliver s r.1 (match r.2.1 with | some f => .error f | none => .ok r.2.2))
    { s with lateReplies := s.lateReplies.filter fun r => r.1.part != pn }

/-- The execution state of a partition moves into its stations, and it goes on (R498). -/
def moveIn (s : State) (pn : Nat) : State :=
  let p := part s pn
  let n := s.time - p.sliceEnd
  let s := (s.shadow.filter (·.1 == pn)).foldl (fun s e =>
    moveBytes (modStn s e.2.1 fun x => moveExec x (shiftStation n e.2.2)) (shadowKey pn e.2.1) (tileKey e.2.1 0 0) (2 ^ 19)) s
  let s := (s.shadowElems.filter (·.1 == pn)).foldl (fun s e => { s with elems := kput s.elems e.2.1 e.2.2 }) s
  let s := (s.shadowEvents.filter (·.1 == pn)).foldl (fun s e => restoreEvent s n e.2.1 e.2.2) s
  let s := { s with shadow := s.shadow.filter (·.1 != pn), shadowElems := s.shadowElems.filter (·.1 != pn)
                    shadowEvents := s.shadowEvents.filter (·.1 != pn) }
  let s := modPart s pn fun p =>
    { p with swapped := false, resident := true, consists := p.consists.map (shiftConsist n) }
  let s := giveReplies s pn
  let s := p.stations.foldl (fun s st => (List.range 8).foldl (fun s c => chanNext (chanWake s st c) st c) (pumpArrivals s st)) s
  s.sessions.foldl (fun s x => wakeSession s x.id) s

/-! ### SLICE_EXPIRY and SWAP_COMPLETE -/

/-- A slice ends: the partition's threads leave their slots, its consists freeze and its engines stop. A readout under way is waited for,
2,048 cycles at most (R452, R475, R498). -/
def sliceEnds (s : State) (g : Nat) : State :=
  match (groupMembers s g).find? (fun e => e.2.resident), (groupMembers s g).length with
  | some (pn, p), _ + 2 =>
    if (p.consists.any fun c => !c.freezing.isEmpty) && decide (p.sliceEnd + 2048 ≠ s.time) then
      later (modPart s pn fun p => { p with sliceEnd := s.time }) 2048 (.sliceExpiry g)
    else
      let s := s.threads.foldl (fun s e => match e.2.st with
        | .running _ => if tidPart e.2.tid = pn then makeReady s e.2 else s
        | _ => s) s
      later (shelveEvents (modPart s pn fun p => { p with swapped := true, sliceEnd := s.time }) pn) 14464 (.swapComplete g false)
  | _, _ => s

/-- SLICE_EXPIRY (R452). -/
def execSliceExpiry (s : State) : Out := onEvent s fun e => match e with
  | .sliceExpiry g => some (sliceEnds s g)
  | _ => none

/-- A partition whose shadow bank cannot be read is lost (R499); which bank and row of it is left open (log 129). -/
def partLost (s : State) (pn : Nat) : State :=
  let s := s.threads.foldl (fun s e => if tidPart e.2.tid = pn then loseThr s e.2.tid 0 else s) s
  let s := stopPart s pn
  let l := (part s pn).rectangle
  let d := draw s l.length
  let row := draw d.2 (2 ^ 64)
  let s := logRecord row.2 4 2 1 9 (l.getD d.1 0) pn row.1 s.time
  supReport s pn 0x1F 6 0xFFFF 0 0 0 0

/-- The partition of a group that runs after one, in ascending order. -/
def nextMember (l : List (Nat × Partition)) (pn : Nat) : Option Nat :=
  ((l.find? fun e => pn < e.1).orElse fun _ => l.head?).map (·.1)

/-- The move of a swap completes and the next partition runs; a bad bank loses it. -/
def swapDone (s : State) (g : Nat) (bad : Bool) : State :=
  let out := (groupMembers s g).find? fun e => e.2.resident
  let from_ := (out.map (·.1)).getD 16
  match nextMember (groupMembers s g) from_ with
  | none => s
  | some pn =>
    if bad && pn != from_ then
      let s := partLost s pn
      if (groupMembers s g).isEmpty then s else later s 14464 (.swapComplete g false)
    else
      let s := if out.isSome && pn != from_ then moveOut s from_ else s
      planSlice (moveIn s pn) g

/-- SWAP_COMPLETE (R498). -/
def execSwapComplete (s : State) : Out := onEvent s fun e => match e with
  | .swapComplete g bad => some (swapDone s g bad)
  | _ => none

end Sys2Proof.Machine
end

