-- ==== Sys2Proof/Machine/Evict.lean ====
section
/-! DEFINITION. Eviction schedules of timed partitions (R355), and tokens combined at collective units (R394). -/

namespace Sys2Proof.Machine

/-! ### Eviction schedules (R355) -/

/-- The first virtual address that a page table maps to a place, found in the order of addresses. -/
def mapsTo (s : State) (key : Nat) : List (Nat × Nat × Nat) → Nat → Nat → Option Nat
  | [], _, _ => none
  | (_, hi, lo) :: ls, t, va => (List.range (2 ^ (hi + 1 - lo))).findSome? fun i =>
    let e := physN s (memKey s (t + 8 * i)) 8
    let base := memKey s (bits e 51 12 * 4096)
    if !bit e 0 then none
    else if !bit e 1 then mapsTo s key ls (bits e 51 12 * 4096) (va + i * 2 ^ lo)
    else if base ≤ key ∧ key < base + 2 ^ lo then some (va + i * 2 ^ lo + (key - base))
    else none

/-- The virtual address of a place for a partition: by a translation that the cluster has cached, or by its page table. -/
def lineVa (s : State) (st pn key : Nat) : Option Nat :=
  ((clus s (clusterOf st)).tlb.findSome? fun t =>
    let lo := memKey s (bits t.leaf.toNat 51 12 * 4096)
    if t.part = pn ∧ lo ≤ key ∧ key < lo + 2 ^ t.size then some (t.vpn * 2 ^ t.size + (key - lo)) else none).orElse fun _ =>
  mapsTo s key ptLevels (bits (part s pn).ptroot.toNat 51 12 * 4096) 0

/-- The sectors of a mask. -/
def sectorsIn (m : BitVec 4) : List Nat := (List.range 4).filter m.getLsbD

/-- The buffer that is SEALED now and holds an address (R346). -/
def sealedAt (s : State) (pn va : Nat) : Option Nat :=
  ((part s pn).seals.find? fun e => e.2.st == .isSealed && decide (e.2.base.toNat ≤ va) && decide (va < e.2.base.toNat + e.2.limit)).map
    (·.1)

/-- A line that the schedule keeps in an L1 has come, gone or changed: a sealed one counts while it is there (R346). -/
def recount (s : State) (pn : Nat) (old new : Option Nat) : State :=
  if old = new then s
  else
    let s := match old with | some i => sealCount s pn i false | none => s
    match new with | some i => sealCount s pn i true | none => s

/-- Sectors of a line enter an L1 by its schedule, or leave it. -/
def scheduleL1 (s : State) (st pn key : Nat) (m : BitVec 4) (evict : Bool) : State :=
  let here (l : L1Line) : Bool := l.sched && l.part == pn && l.pa == key
  let old := (stn s st).l1.find? here
  let had : BitVec 4 := (old.map (·.sect)).getD 0
  let was := old.bind (·.sealedIdx)
  let sect := if evict then had &&& ~~~m else had ||| m
  let s' := modStn s st fun x => { x with l1 := x.l1.filter fun l => !here l }
  if sect = 0 ∨ (!evict ∧ poisoned s key 256) then recount s' pn was none
  else match lineVa s st pn key with
    | none => recount s' pn was none
    | some va =>
      let idx := if evict then was else sealedAt s pn va
      let l : L1Line :=
        { part := pn, line := va / 256, data := 0, filled := s.time, pa := key, sched := true, sect := sect, sealedIdx := idx }
      recount (modStn s' st fun x => { x with l1 := x.l1 ++ [reload s' l] }) pn was idx

/-- Sectors of a line enter a slice by its schedule, or leave it, M ones written back. -/
def scheduleSlice (s : State) (st key : Nat) (m : BitVec 4) (evict : Bool) : State :=
  let l := ((stn s st).slice.find? fun l => l.line == key / 256).getD { line := key / 256 }
  let fill (l : SLine) (i : Nat) : SLine :=
    if l.sec i ≠ 0 then l
    else ((List.range 64).foldl (fun l j => l.setByte (64 * i + j) (backB s (key + 64 * i + j))) l).setSec i 2
  let out (l : SLine) (i : Nat) : SLine := l.setSec i 0
  let l' := (sectorsIn m).foldl (if evict then out else fill) l
  let left (i : Nat) : Bool := evict && m.getLsbD i
  let s := writeBack s ((List.range 4).foldl (fun l i => if left i then l else l.setSec i 0) l)
  modStn s st fun x =>
    { x with slice := (x.slice.filter fun y => y.line != key / 256) ++ (if l'.st = 0 then [] else [l']) }

/-- An entry applies: its sectors are resident in its cache from now on, or absent. -/
def evictEntry (s : State) (pn n : Nat) : State :=
  match (part s pn).evict[n]? with
  | none => s
  | some e =>
    let key := memKey s (256 * e.line)
    let s := if e.cache < 256 then scheduleSlice s e.cache key e.sect e.evict
      else scheduleL1 s (e.cache % 256) pn key e.sect e.evict
    later s 4096 (.evictionScheduleEntry e.cache pn n)

/-- EVICTION_SCHEDULE_ENTRY (R355). -/
def execEvictionScheduleEntry (s : State) : Out := onEvent s fun e => match e with
  | .evictionScheduleEntry _ pn n => some (evictEntry s pn n)
  | _ => none

/-! ### Collective units (R390, R394) -/

/-- The identity of an operation and format for an element of a token (R193): 0 for a sum, the extreme for a maximum or minimum. -/
def collIdentity (b : Nat) : Nat :=
  match collFmt b, collOp b with
  | 0, 1 => 0xFF800000
  | 0, 2 => 0x7F800000
  | 1, 1 => 0xFF80
  | 1, 2 => 0x7F80
  | 3, 1 => 0x80000000
  | 3, 2 => 0x7FFFFFFF
  | _, _ => 0

/-- The elements of a token under a COLLOP, each with the lanes it stands in and its width (R274): a lane's word, two bf16 halves of a
word, or the three words of a W96F value. -/
def collElems (b : Nat) : List (List Nat × Nat × Nat) :=
  match collFmt b with
  | 1 => (List.range 8).flatMap fun j => [([j], 32 * j, 16), ([j], 32 * j + 16, 16)]
  | 2 => [([0, 1, 2], 0, 96), ([3, 4, 5], 96, 96)]
  | _ => (List.range 8).map fun j => ([j], 32 * j, 32)

/-- Two tokens combined element by element (R394). -/
def combineToks (b : Nat) (x y : Token) : Token :=
  let get (t : Token) (e : List Nat × Nat × Nat) : Nat :=
    if e.1.all t.valid.getLsbD then bits t.pay.toNat (e.2.1 + e.2.2 - 1) e.2.1 else collIdentity b
  let pay := (collElems b).foldl (fun n e => n + collCombine b (get x e) (get y e) % 2 ^ e.2.2 * 2 ^ e.2.1) 0
  { x with pay := BitVec.ofNat 256 pay, valid := x.valid ||| y.valid }

/-- A token that meets no other: its NaNs come out as those of the format (R129). -/
def quietTok (b : Nat) (t : Token) : Token :=
  let get (e : List Nat × Nat × Nat) : Nat := bits t.pay.toNat (e.2.1 + e.2.2 - 1) e.2.1
  { t with pay := BitVec.ofNat 256 ((collElems b).foldl (fun n e =>
      n + (if e.1.all t.valid.getLsbD then collQuiet b (get e) else get e) % 2 ^ e.2.2 * 2 ^ e.2.1) 0) }

/-- The token of one tag from each logical device, combined in ascending order once all are there. -/
def combineAll (b : Nat) (l : List (Nat × Token)) (n : Nat) : Option Token :=
  let ts := (List.range n).filterMap fun d => (l.find? fun x => x.1 == d).map (·.2)
  if ts.length < n then none
  else match ts with
    | [] => none
    | t :: rest => some (rest.foldl (combineToks b) (quietTok b t))

/-- A result token leaves the unit on the legs that start there: those of the same consist that come from this unit of the own device
(R20, R394). -/
def unitSend (s : State) (pn : Nat) (cid : Half) (unit : Nat) (t : Token) : State :=
  match consistOf s pn cid with
  | none => s
  | some c =>
    (c.legs.filter fun g => g.kind == 3 && g.far == unit && g.dev == logicalDev s pn (ownDev s) && !g.dead).foldl (fun s g =>
      legIn g.id 64 (modLeg s pn cid g.id fun x => { x with seq2 := x.seq2 + 1, window2 := x.window2 ++ [(x.seq2, t)] })) s

/-- A device's token reaches a collective unit (R394). -/
def tokenCombine (s : State) (unit dev id : Nat) (t : Token) : State :=
  match legOf s id with
  | none => s
  | some (pn, cid, g) =>
    if g.dead then s
    else
      let key := t.act.toNat + t.iter.toNat * 2 ^ 12 + t.seq.toNat * 2 ^ 28 + id * 2 ^ 44
      let s := { s with ctoks := s.ctoks ++ [(unit, key, dev, t)] }
      let mine := (s.ctoks.filter fun x => x.1 == unit && x.2.1 == key).map fun x => (x.2.2.1, x.2.2.2)
      match combineAll g.collop.toNat mine (chainOf s pn).length with
      | none => s
      | some r => unitSend { s with ctoks := s.ctoks.filter fun x => !(x.1 == unit && x.2.1 == key) } pn cid unit r

/-- COLLECTIVE_TOKEN_COMBINE (R394). -/
def execCollectiveTokenCombine (s : State) : Out := onEvent s fun e => match e with
  | .collectiveTokenCombine unit dev id t => some (tokenCombine s unit dev id t)
  | _ => none

end Sys2Proof.Machine
end

