-- ==== Sys2Proof/Machine/Lock.lean ====
section
/-! DEFINITION. Lockstep pairs: inputs and their delivery cycle (R464), digests and the release of output (R465), and divergence
(R466). Digests and forwarded inputs of the partner arrive as inputs (log 8). -/

namespace Sys2Proof.Machine

/-- A partition of a pair that runs in step. -/
def inStep (s : State) (pn : Nat) : Bool := (part s pn).inStep

/-- The partner of a pair: the device to which LSPORT leads. -/
def lockPartner (s : State) (pn : Nat) : Option Nat :=
  (List.range 64).find? fun i =>
    let e := (vget s.domain i).toNat
    bit e 0 && !bit e 1 && bits e 5 2 == pfield (part s pn) 38 1

/-- A pair diverges (R466): the partition stops with its held output discarded, and its supervisor and the host agents of its windows
are told the window. -/
def diverge (s : State) (pn window : Nat) : State :=
  if (part s pn).st ≠ .running then s
  else supReport (stopPart s pn) pn 0x19 5 0xFFFF 0 0 0 window

/-- The cycle of a partition's counter in this cycle. -/
def partCycle (s : State) (pn : Nat) : Nat := lockCycle s (part s pn)

/-! ### Inputs (R464) -/

/-- A frame forwarded as the message it is. -/
def asMessage (f : Frame) : Frame :=
  if field f 24 2 = 0xFFFF then f else messageOf f ((f.drop 32).take (field f 24 2))

/-- A forwarded input reaches the secondary: too late, the pair diverges; else it waits for its delivery cycle. -/
def inputForwarded (s : State) (pn cycle : Nat) (f : Frame) : State :=
  if !inStep s pn then s
  else
    let t := partCycle s pn
    if cycle < t then diverge s pn (t / 1024)
    else later (modPart s pn fun p => { p with inputs := p.inputs ++ [(cycle, asMessage f)] }) (cycle - t) (.lockstepInputInject pn)

/-- LOCKSTEP_INPUT_FORWARD (R464, R466). -/
def execLockstepInputForward (s : State) : Out := onEvent s fun e => match e with
  | .lockstepInputForward pn cycle f => some (inputForwarded s pn cycle f)
  | _ => none

/-- The item of the agenda that an input is: a frame, or an event of a peer. -/
def inputEvent (f : Frame) : Option Event := match field f 1 1 with
  | 13 => some (.peerAccess (field f 3 1) (field f 32 8) (field f 40 1))
  | 14 => some (.holderRecall (field f 32 8) (field f 40 1))
  | _ => frameEvent f

/-- Inputs whose delivery cycle has come act in this cycle. -/
def injectInputs (s : State) (pn : Nat) : State :=
  let t := partCycle s pn
  let due := (part s pn).inputs.filter fun i => i.1 ≤ t
  let s := modPart s pn fun p => { p with inputs := p.inputs.filter (fun i => t < i.1), ready := p.ready ++ due.map (·.2) }
  due.foldl (fun s i => match inputEvent i.2 with
    | some e => later s 0 e
    | none => s) s

/-- LOCKSTEP_INPUT_INJECT (R464). -/
def execLockstepInputInject (s : State) : Out := onEvent s fun e => match e with
  | .lockstepInputInject pn => some (injectInputs s pn)
  | _ => none

/-! ### Digests (R465, R466) -/

/-- The two digests of a window are compared once both are there: equal, its output leaves; else the pair diverges. -/
def compareDigests (s : State) (pn window : Nat) : State :=
  match kget (part s pn).digests window, kget (part s pn).partner window with
  | some a, some b =>
    if a = b then
      let held := (part s pn).heldOut.filter (·.1 == window)
      let s := modPart s pn fun p => { p with
        heldOut := p.heldOut.filter (·.1 != window), digests := kdel p.digests window, partner := kdel p.partner window }
      held.foldl (fun s h => queueFrame s h.2) s
    else diverge s pn window
  | _, _ => s

/-- A window of a partition ends: its digest is formed and sent; a digest of the window before that has not come is missing, which
also marks the partner for a probe. -/
def windowEnds (s : State) (pn : Nat) : State :=
  if !inStep s pn then s
  else
    let w := partCycle s pn / 1024 - 1
    let s := modPart s pn fun p => { p with
      digests := kput p.digests w (foldWindow p w), folds := p.folds.filter fun e => w < e.1 / 1024 }
    if w ≠ 0 ∧ (kget (part s pn).digests (w - 1)).isSome then
      let s := match lockPartner s pn with | some a => suspectAll s a | none => s
      diverge s pn (w - 1)
    else compareDigests (later s 1024 (.digestWindowEnd pn)) pn w

/-- DIGEST_WINDOW_END (R465). -/
def execDigestWindowEnd (s : State) : Out := onEvent s fun e => match e with
  | .digestWindowEnd pn => some (windowEnds s pn)
  | _ => none

/-- DIGEST_ARRIVAL (R465, R466). -/
def execDigestArrival (s : State) : Out := onEvent s fun e => match e with
  | .digestArrival pn window d =>
    some (if inStep s pn then compareDigests (modPart s pn fun p => { p with partner := kput p.partner window d }) pn window else s)
  | _ => none

/-! ### The start of a pair (R464) -/

/-- The pair is aligned: partition cycle 0 is the cycle given, and the supervisor starts in it. -/
def aligned (s : State) (pn cycle : Nat) : State :=
  let p := part s pn
  if !(p.st == .running && p.lockstep && p.lockBase.isNone) then s
  else if s.time < cycle then later s (cycle - s.time) (.lockstepAlignment pn cycle)
  else
    let s := startSupervisor (modPart s pn fun p => { p with lockBase := some s.time }) pn
    let s := ((List.range 16).filter (leased s)).foldl (fun s h => noteTo s pn h 1) s
    later s 1024 (.digestWindowEnd pn)

/-- LOCKSTEP_ALIGNMENT (R464). -/
def execLockstepAlignment (s : State) : Out := onEvent s fun e => match e with
  | .lockstepAlignment pn cycle => some (aligned s pn cycle)
  | _ => none

end Sys2Proof.Machine
end

