-- ==== Sys2Proof/Machine/Boot.lean ====
section
/-! DEFINITION. Bring-up and the pins (R534 to R538, R541), firmware images (R473), power (R539) and the thermal trip (R540). What the
board, the flash, the stations' and stacks' tests, the link and the power meter do arrives as inputs (log 8). -/

namespace Sys2Proof.Machine

/-- Inputs of the board, which reach the device while its dies are in reset. -/
def boardInput : Event → Bool
  | .pwrgood => true
  | .pwrgoodDeassert => true
  | .resetRelease => true
  | .resetAssert => true
  | .firmwareVerified _ => true
  | .stationSelftestDone _ _ => true
  | .lmTrainingDone _ _ _ => true
  | .linkTrained => true
  | .linkLoss => true
  | .thermalTrip => true
  | _ => false

/-- Inputs of hosts and peers still to come. -/
def outsideInput : Event → Bool
  | .write _ => true | .read _ => true | .readresp _ => true | .acq _ => true | .release _ => true | .msg _ => true
  | .attest _ => true | .leaseOpen _ => true | .leaseRenew _ => true | .leaseClose _ => true | .acknowledgement _ => true
  | .etherFrame _ _ _ => true | .launchFrame _ => true | .registerWrite _ => true | .domainTableWrite _ => true
  | .peerAccess _ _ _ => true | .holderRecall _ _ => true | .lockstepInputForward _ _ _ => true | .digestArrival _ _ _ => true
  | .inboundLegClaim _ _ _ _ _ => true | .converterToken _ k _ _ _ => k == 1 | .converterAck _ k => k == 1
  | .heartbeat a => decide (a < 64) | .probeAnswer a => decide (a < 64) | .lockstepAlignment _ _ => true
  | e => boardInput e

/-- The dies do nothing more: what they had under way is dropped. -/
def haltDies (s : State) : State := { s with live := false, agenda := s.agenda.filter fun e => boardInput e.2 }

/-! ### Pins (R534, R535, R541) -/

/-- PWRGOOD (R535 step 1). -/
def execPwrgood (s : State) : Out := onEvent s fun e => match e with
  | .pwrgood => some { s with pins := { s.pins with pwrgood := true } }
  | _ => none

/-- PWRGOOD_DEASSERT (R534): the pin is low; the spec ties no other effect to it. -/
def execPwrgoodDeassert (s : State) : Out := onEvent s fun e => match e with
  | .pwrgoodDeassert => some { s with pins := { s.pins with pwrgood := false } }
  | _ => none

/-- RESET_RELEASE (R535 step 2): the port die leaves reset, and the root of trust reads slot 0. -/
def execResetRelease (s : State) : Out := onEvent s fun e => match e with
  | .resetRelease => some { s with pins := { s.pins with resetN := true } }
  | _ => none

/-- RESET_N low (R541): every partition ABSENT, sessions ended, nothing of LM kept. The memory of hosts, the inputs still to come, the
model's own counters and the record of frames sent go on. -/
def inReset (s : State) : State :=
  clearMem (clearMem { State.reset with
    pins := { pwrgood := s.pins.pwrgood }, freeCtr := s.freeCtr, fresh := s.fresh, nextSession := s.nextSession, out := s.out
    agenda := (s.agenda.filter fun e => outsideInput e.2).map fun e => (e.1 - s.time, e.2) } 0 (2 ^ 45)) (2 ^ 46) (2 ^ 64)

/-- RESET_ASSERT (R541). -/
def execResetAssert (s : State) : Out := onEvent s fun e => match e with
  | .resetAssert => some (inReset s)
  | _ => none

/-! ### Firmware (R473, R535) -/

/-- An image is accepted (R473). -/
def imageGood (f : Frame) : Bool :=
  let len := field f 8 4
  let k := field f 12 1
  let key := Config.vendorKey k
  let d := Config.vendorDigest k
  let body := (f.drop 256).take len
  field f 0 4 == 0x57465934 && decide (256 + len ≤ f.length) && decide (256 + len ≤ 2 ^ 24) && decide (k < 4) && field f 13 3 == 0 &&
    field f 80 62 == 0 && decide (Config.svn ≤ field f 4 4) && !Config.vendorRevoked k && Config.shake256 key d.length == d &&
    Config.ed448Verify key (f.take 142) ((f.drop 142).take 114) && (f.drop 16).take 64 == Config.shake256 body 64

/-- The next measurement of module power, 3,600 cycles from now (R539). -/
def measure (s : State) : State :=
  later (unplan s fun e => match e with | .powerSample _ => true | _ => false) 3600 (.powerSample (Config.modulePower (s.time + 3600)))

/-- The accepted image runs: MF is recorded, the dies are released, cr.time starts from 0 and the stations and stacks test themselves
(R535 steps 5 to 7). A test whose end no input has given ends at its bound: 2^22 cycles of a station, 50 ms of a stack (R536; log 95).
Heartbeats (R500), power measurements and power steps (R539) begin. -/
def startImage (s : State) (f : Frame) : State :=
  let s := { s with
    mf := BitVec.ofNat 512 (leNat (Config.shake256 (f.take (256 + field f 8 4)) 64)), live := true, boot := .selftest, time := 0, cursor := 256
    agenda := s.agenda.map fun e => (e.1 - s.time, e.2) }
  let s := (List.range 256).foldl (fun s st =>
    let d := draw (later s 36000 (.heartbeat (stationAgent st))) 2
    later d.2 (2 ^ 22) (.stationSelftestDone st (d.1 == 0))) (later (measure s) 36000 .dutyStep)
  (List.range 8).foldl (fun s n =>
    let d := draw s 2
    later d.2 180000000 (.lmTrainingDone n (d.1 == 0) (Config.failedPages n))) s

/-- The verification of a slot ends (R535 steps 3 and 4). -/
def verified (s : State) (f : Frame) : State :=
  if !(s.pins.pwrgood && s.pins.resetN && s.boot == .fwload && !s.live && !s.halted) then s
  else if imageGood f then startImage s f
  else if s.bootSlot = 0 then { s with bootSlot := 1 }
  else { s with boot := .fwfail, pins := { s.pins with faultN := false } }

/-- FIRMWARE_VERIFIED (R535). -/
def execFirmwareVerified (s : State) : Out := onEvent s fun e => match e with
  | .firmwareVerified f => some (verified s f)
  | _ => none

/-! ### Self-tests, stacks and the link (R536, R538, R541) -/

/-- Every station and every stack has ended its test: the Ethernet port trains. -/
def testsDone (s : State) : State :=
  if s.boot == .selftest && (List.range 256).all s.tested.contains && (List.range 8).all s.trained.contains then { s with boot := .link }
  else s

/-- A station's start self-test ends (R536). -/
def stationTested (s : State) (st : Nat) (pass : Bool) : State :=
  if s.boot ≠ .selftest ∨ 256 ≤ st ∨ s.tested.contains st then s
  else
    let s := { s with tested := s.tested ++ [st] }
    testsDone (if pass then s else modStn s st fun x => { x with outOfService := true })

/-- STATION_SELFTEST_DONE (R536). -/
def execStationSelftestDone (s : State) : Out := onEvent s fun e => match e with
  | .stationSelftestDone st pass => some (stationTested s st pass)
  | _ => none

/-- A stack's training and test end, and its failed pages join the retirement list; one that cannot train halts the device (R536, R537). -/
def stackTrained (s : State) (n : Nat) (pass : Bool) (failed : List Nat) : State :=
  if s.boot ≠ .selftest ∨ 8 ≤ n ∨ s.trained.contains n then s
  else if pass then testsDone { s with trained := s.trained ++ [n], retired := vset s.retired n (vget s.retired n ++ failed) }
  else haltDies { s with boot := .lmfail, pins := { s.pins with faultN := false } }

/-- LM_TRAINING_DONE (R536). -/
def execLmTrainingDone (s : State) : Out := onEvent s fun e => match e with
  | .lmTrainingDone n pass failed => some (stackTrained s n pass failed)
  | _ => none

/-- LINK_TRAINED (R535 steps 8 and 9, R538). -/
def execLinkTrained (s : State) : Out := onEvent s fun e => match e with
  | .linkTrained => some (if s.live && (s.boot == .link || s.boot == .ready) then { s with linkUp := true, boot := .ready } else s)
  | _ => none

/-- LINK_LOSS (R541): nothing passes; frames are resent and idle sessions lapse by R468 and R469. -/
def execLinkLoss (s : State) : Out := onEvent s fun e => match e with
  | .linkLoss => some { s with linkUp := false }
  | _ => none

/-! ### Power (R539) -/

/-- POWER_SAMPLE (R539): a measurement every 3,600 cycles, those of the last 100 µs kept. -/
def execPowerSample (s : State) : Out := onEvent s fun e => match e with
  | .powerSample mw => some (measure { s with power := (mw :: s.power).take 100 })
  | _ => none

/-- The duties of all running partitions that satisfy a test. -/
def modDuties (s : State) (f : Nat → Partition → Nat) : State :=
  { s with parts := s.parts.map fun e => if e.2.st = .running then (e.1, { e.2 with duty := f e.1 e.2 }) else e }

/-- The average of the samples lies above, or below, a bound in mW. -/
def powerAbove (s : State) (mw : Nat) : Bool := decide (mw * s.power.length < s.power.sum)
def powerBelow (s : State) (mw : Nat) : Bool := decide (s.power.sum < mw * s.power.length)

/-- A step of the duties (R539). A timed partition that draws no more than its PWR is not throttled. -/
def dutyStep (s : State) : State :=
  let floor := s.parts.all fun e => e.2.st != .running || e.2.timed || e.2.duty == 1
  let high := powerAbove s 2600000
  let low := powerBelow s 2500000
  let down (k : Nat) : Nat := max 1 (k - 1)
  let up (k : Nat) : Nat := min 16 (k + 1)
  let s := modDuties s fun pn p =>
    if p.timed then
      if !overPower s pn p then 16 else if high && floor then down p.duty else if low then up p.duty else p.duty
    else if high then down p.duty else if low then up p.duty else p.duty
  later s 36000 .dutyStep

/-- DUTY_STEP (R539). -/
def execDutyStep (s : State) : Out := onEvent s fun e => match e with
  | .dutyStep => some (dutyStep s)
  | _ => none

/-- A thread that is still ending ends at once (R448, R540). -/
def endNow (s : State) (th : Thread) : State :=
  if th.st.live then finishEnd (setThr s { th with ending := some (th.ending.getD .killed) }) th.tid else s

/-- A junction exceeds 110 °C: the running partitions stop, with every thread of theirs KILLED, and the dies do nothing more (R540). -/
def tripped (s : State) : State :=
  let s := { s with pins := { s.pins with thermtripN := false } }
  let pns := partsWhere s fun _ => true
  let s := pns.foldl stopPart s
  let s := (s.threads.filter fun e => pns.contains (tidPart e.2.tid)).foldl (fun s e => endNow s e.2) s
  haltDies { s with halted := true }

/-- THERMAL_TRIP (R540). -/
def execThermalTrip (s : State) : Out := onEvent s fun e => match e with
  | .thermalTrip => some (tripped s)
  | _ => none

end Sys2Proof.Machine
end

