-- ==== Sys2Proof/Machine/Cache.lean ====
section
/-! DEFINITION. The functions of CACHE: prefetches, cleaning and invalidation (R92 to R94, R395). -/

namespace Sys2Proof.Machine

/-- A length of 0 means 1. -/
def rangeLen (n : DWord) : Nat := if n = 0 then 1 else n.toNat

/-- The numbers of the blocks of 2^k bytes that a range touches, 64 at most. -/
def unitsOf (k off len : Nat) : List Nat :=
  let first := off / 2 ^ k
  nats first (min ((off + len - 1) / 2 ^ k) (first + 63) + 1)

/-- The prefetch buffers in use at a core (R93). -/
def prefetching (s : State) (st : Nat) : Nat := (stn s st).fills.countP (·.prefetch)

/-- A prefetch sent: it takes a buffer until its fill completes (R93). -/
def sendPrefetch (s : State) (st pn line : Nat) (g : Seg) (l1 : Bool) : State :=
  sendFill s st { part := pn, line := line, seg := g, l1 := l1, prefetch := true }

/-- One line of a PFI (R92, R93): dropped beyond the limit, without the right, when present, or with every buffer in use. -/
def pfiLine (s : State) (st pn : Nat) (g : Seg) (n : Nat) : State :=
  let line := (g.base + 64 * n) / 64
  if g.limit ≤ 64 * n ∨ !g.exec ∨ 8 ≤ prefetching s st ∨ (stn s st).icache.any (fun l => l.part == pn && l.line == line) then s
  else sendPrefetch s st pn line g false

/-- PFI and PFI.RF (R92). -/
def pfiOp (w rf : Bool) (a b : BitVec 5) (s : State) : Out :=
  issue w s fun s th =>
    let pn := tidPart th.tid
    let g := rseg th 0
    let lines := unitsOf 6 (rg th a).toNat (rangeLen (rg th b))
    let s := if rf then icKill s th.station fun q l => q == pn && lines.any fun n => (g.base + 64 * n) / 64 == l else s
    let s := lines.foldl (fun s n => pfiLine s th.station pn g n) s
    .ok (setThr s (nextPc th))

/-- PFI (R92). -/
def execPfi (w : Bool) (a b : BitVec 5) (s : State) : Out := pfiOp w false a b s
/-- PFI.RF (R92). -/
def execPfiRf (w : Bool) (a b : BitVec 5) (s : State) : Out := pfiOp w true a b s

/-- PFD, CLEAN and INVAL act on memory that the L1 may hold (R395). -/
def Seg.cached (g : Seg) : Bool := !g.isLocal && g.type < 2

/-- PFD (R395). -/
def execPfd (w : Bool) (a b : BitVec 5) (n : BitVec 3) (s : State) : Out :=
  issue w s fun s th =>
    let pn := tidPart th.tid
    let g := rseg th n
    let lines := unitsOf 8 (g.base + (rg th a).toNat) (rangeLen (rg th b))
    let one (s : State) (line : Nat) : State :=
      if !g.cached ∨ !g.read ∨ g.base + g.limit ≤ 256 * line ∨ 256 * line + 256 ≤ g.base ∨ 8 ≤ prefetching s th.station ∨
          (stn s (l1Station s th.station (256 * line))).l1.any (fun l => l.isOf pn line g.hashed) then s
      else sendPrefetch s th.station pn line g true
    .ok (setThr (lines.foldl one s) (nextPc th))

/-- The checks of CLEAN and INVAL (R395). -/
def rangeTrap (th : Thread) (g : Seg) (off len : Nat) (rd : Bool) : Option PendTrap :=
  if g.type = 3 ∨ (rd && !g.read) then some (trapAcc th 0x04 { kind := .read, z := 1 } (vaOf g (BitVec.ofNat 64 off)) 0)
  else if g.limit < off + len ∨ 16384 < len then some (trapAcc th 0x03 { kind := .read, z := 1 } (vaOf g (BitVec.ofNat 64 off)) 0)
  else none

/-- The combining sectors of the L1 lines of a range go home. -/
def cleanLines (s : State) (st pn lo hi : Nat) : State :=
  (l1Stations s st).foldl (fun s x => drainWhere s x fun c =>
    c.part == pn && decide (lo / 256 ≤ c.line / 4) && decide (c.line / 4 ≤ (hi - 1) / 256)) s

/-- CLEAN (R395). -/
def execClean (w : Bool) (a b : BitVec 5) (n : BitVec 3) (s : State) : Out :=
  issue w s fun s th =>
    let g := rseg th n
    let off := (rg th a).toNat
    let len := rangeLen (rg th b)
    match rangeTrap th g off len false with
    | some t => .error t
    | none =>
      let s := if g.cached then cleanLines s th.station (tidPart th.tid) (g.base + off) (g.base + off + len) else s
      .ok (setThr s (nextPc th))

/-- Poisoned sectors of a range are reset to their LM contents (R353). -/
def unpoison (s : State) (st pn lo hi : Nat) (g : Seg) : State :=
  (nats (lo / 64) ((hi - 1) / 64 + 1)).foldl (fun s n =>
    match translate s st pn (64 * n) false false g.pinned with
    | (_, .error _) => s
    | (s, .ok key) =>
      if s.poison.contains (key / 64) then
        resetSector { s with poison := s.poison.filter (· != key / 64), eccNew := s.eccNew.filter (· != key / 64) } (key / 64)
      else s) s

/-- INVAL (R395): sectors go first, then the lines, sealed ones included; a supervisor also resets poison. -/
def execInval (w : Bool) (a b : BitVec 5) (n : BitVec 3) (s : State) : Out :=
  issue w s fun s th =>
    let g := rseg th n
    let pn := tidPart th.tid
    let off := (rg th a).toNat
    let len := rangeLen (rg th b)
    let lo := g.base + off
    match rangeTrap th g off len true with
    | some t => .error t
    | none =>
      if g.cached then
        let s := cleanLines s th.station pn lo (lo + len)
        let s := (l1Stations s th.station).foldl (fun s x => dropLines s x fun l =>
          l.part == pn && decide (lo / 256 ≤ l.line) && decide (l.line ≤ (lo + len - 1) / 256)) s
        .ok (setThr (if th.sup then unpoison s th.station pn lo (lo + len) g else s) (nextPc th))
      else .ok (setThr s (nextPc th))

end Sys2Proof.Machine
end

