-- ==== Sys2Proof/Machine/Float.lean ====
section
/-! DEFINITION. Scalar floating point (R169 to R177). -/

namespace Sys2Proof.Machine

/-! ### Shared forms -/

/-- A rounded scalar result of precision P from up to three operands (R170, R171): op as fpExact numbers them. Mode SR uses and
steps generator 0 (R134). -/
def fpRound (w : Bool) (op : Nat) (d a b c : BitVec 5) (p : BitVec 2) (r : BitVec 3) (s : State) : Out :=
  issueThr w s fun th =>
    let f := fmtOfP p.toNat
    let mode := modeOf th r
    let x := fpOp f op mode (genAt th 0) (fpIn f (rg th a)) (fpIn f (rg th b)) (fpIn f (rg th c))
    raise (wg (stepGen mode 0 th) d (BitVec.ofNat 64 x.1)) x.2

/-- The long forms FDIV and FSQRT: the state of generator 0 is taken at issue, the flags are raised with the result (R131, R134,
R200). -/
def fpLong (w : Bool) (op : Nat) (d a b : BitVec 5) (p : BitVec 2) (r : BitVec 3) (s : State) : Out :=
  issue w s fun s th =>
    let f := fmtOfP p.toNat
    let mode := modeOf th r
    let x := fpOp f op mode (genAt th 0) (fpIn f (rg th a)) (fpIn f (rg th b)) 0
    .ok (longResult s (stepGen mode 0 th)
      { id := 0, pc := 0, dest := .g d, res := [(0, BitVec.ofNat 64 x.1)], flags := x.2 } (if p = 1 then 96 else 48))

/-- A result with flags from two operands of precision P, no rounding. -/
def fpPlain (w : Bool) (d a b : BitVec 5) (p : BitVec 2) (f : Fmt → Nat → Nat → Nat × Flags) (s : State) : Out :=
  issueThr w s fun th =>
    let x := f (fmtOfP p.toNat) (fpIn (fmtOfP p.toNat) (rg th a)) (fpIn (fmtOfP p.toNat) (rg th b))
    raise (wg th d (BitVec.ofNat 64 x.1)) x.2

/-- A comparison writes 1 or 0 (R173). -/
def fpCmp (c : Nat) (f : Fmt) (x y : Nat) : Nat × Flags := (b2n (fcmp f c x y).1, (fcmp f c x y).2)

/-- The integer types of FCVT.I (R174): width and sign. -/
def cvtInt (t : BitVec 2) : Ty := if t = 0 then .int 32 true else if t = 1 then .int 32 false else if t = 2 then .int 64 true else .int 64 false
/-- The source types of FCVT.F (R175). -/
def cvtSrc (t : BitVec 3) : Ty := if t.toNat < 4 then .fp (fmtOfP t.toNat) else cvtInt (t.truncate 2)

/-! ### Major 0x0B (R171) -/

/-- FADD (R171). -/
def execFadd (w : Bool) (d a b : BitVec 5) (p : BitVec 2) (r : BitVec 3) (s : State) : Out := fpRound w 0 d a b 0 p r s
/-- FSUB (R171). -/
def execFsub (w : Bool) (d a b : BitVec 5) (p : BitVec 2) (r : BitVec 3) (s : State) : Out := fpRound w 1 d a b 0 p r s
/-- FMUL (R171). -/
def execFmul (w : Bool) (d a b : BitVec 5) (p : BitVec 2) (r : BitVec 3) (s : State) : Out := fpRound w 2 d a b 0 p r s
/-- FDIV (R171, R135). -/
def execFdiv (w : Bool) (d a b : BitVec 5) (p : BitVec 2) (r : BitVec 3) (s : State) : Out := fpLong w 3 d a b p r s
/-- FSQRT (R171, R135). -/
def execFsqrt (w : Bool) (d a : BitVec 5) (p : BitVec 2) (r : BitVec 3) (s : State) : Out := fpLong w 4 d a 0 p r s
/-- FMIN (R172). -/
def execFmin (w : Bool) (d a b : BitVec 5) (p : BitVec 2) (s : State) : Out := fpPlain w d a b p (minMax · false · ·) s
/-- FMAX (R172). -/
def execFmax (w : Bool) (d a b : BitVec 5) (p : BitVec 2) (s : State) : Out := fpPlain w d a b p (minMax · true · ·) s
/-- FEQ (R173). -/
def execFeq (w : Bool) (d a b : BitVec 5) (p : BitVec 2) (s : State) : Out := fpPlain w d a b p (fpCmp 0) s
/-- FLT (R173). -/
def execFlt (w : Bool) (d a b : BitVec 5) (p : BitVec 2) (s : State) : Out := fpPlain w d a b p (fpCmp 1) s
/-- FLE (R173). -/
def execFle (w : Bool) (d a b : BitVec 5) (p : BitVec 2) (s : State) : Out := fpPlain w d a b p (fpCmp 2) s
/-- FCLASS (R173). -/
def execFclass (w : Bool) (d a : BitVec 5) (p : BitVec 2) (s : State) : Out :=
  fpPlain w d a 0 p (fun f x _ => (fclassOf f x, 0)) s
/-- FCVT.I (R174): the SAT rule; an i32 result is sign-extended. -/
def execFcvtI (w : Bool) (d a : BitVec 5) (t p : BitVec 2) (r : BitVec 3) (s : State) : Out :=
  issueThr w s fun th =>
    let f := fmtOfP p.toNat
    let mode := modeOf th r
    let x := convert (cvtInt t) mode 0 (genAt th 0) (f.num (fpIn f (rg th a)))
    let v : DWord := BitVec.ofNat 64 x.1
    raise (wg (stepGen mode 0 th) d (if t = 0 then sextBytes 4 v else v)) x.2
/-- FCVT.F (R175). -/
def execFcvtF (w : Bool) (d a : BitVec 5) (t : BitVec 3) (p : BitVec 2) (r : BitVec 3) (s : State) : Out :=
  issueThr w s fun th =>
    let mode := modeOf th r
    let x := roundNum (fmtOfP p.toNat) mode (genAt th 0) ((cvtSrc t).num (rg th a).toNat)
    raise (wg (stepGen mode 0 th) d (BitVec.ofNat 64 x.1)) x.2
/-- FMVB (R176). -/
def execFmvb (w : Bool) (d a : BitVec 5) (p : BitVec 2) (s : State) : Out :=
  fpPlain w d a 0 p (fun _ x _ => (x, 0)) s

/-! ### Major 0x0C (R177) -/

/-- FFMA (R177). -/
def execFfma (w : Bool) (d a b c : BitVec 5) (p : BitVec 2) (s : State) : Out := fpRound w 5 d a b c p 7 s
/-- FFMS (R177). -/
def execFfms (w : Bool) (d a b c : BitVec 5) (p : BitVec 2) (s : State) : Out := fpRound w 6 d a b c p 7 s
/-- FNMA (R177). -/
def execFnma (w : Bool) (d a b c : BitVec 5) (p : BitVec 2) (s : State) : Out := fpRound w 7 d a b c p 7 s
/-- FNMS (R177). -/
def execFnms (w : Bool) (d a b c : BitVec 5) (p : BitVec 2) (s : State) : Out := fpRound w 8 d a b c p 7 s

end Sys2Proof.Machine
end

