-- ==== Sys2Proof/Machine/GraphAlu.lean ====
section
/-! DEFINITION. Graph ops on lanes and tags: integer ops (R278, R279), float ops (R280 to R282), SFU (R283), CVT (R151, R284, R285),
SCALE (R286, R287), STEER (R270), MERGE and CARRY (R289), SETTAG, GETTAG, CONST (R290 to R292), FILTER (R269), PASS (R277) and EMIT
(R310). -/

namespace Sys2Proof.Machine

/-! ### Lanes of tokens (R274) -/

/-- A payload from the lanes that a mask keeps; every other lane is zero (R274). -/
def lanesFrom (valid : BitVec 8) (f : Nat → Nat) : BitVec 256 :=
  packLanes ((List.range 8).map fun j => if valid.getLsbD j then BitVec.ofNat 32 (f j) else 0)

/-- A result token of a token on port a (R103). -/
def resultTok (a : Token) (valid : BitVec 8) (f : Nat → Nat) : Token := { a with pay := lanesFrom valid f, valid := valid, kind := 0 }

/-- Elements of width w of a lane. -/
def perLane (w : Nat) : Nat := 32 / w
def elemOf (w i x : Nat) : Nat := x / 2 ^ (w * i) % 2 ^ w
/-- A lane from its elements. -/
def laneFrom (w : Nat) (f : Nat → Nat) : Nat := (List.range (perLane w)).foldl (fun x i => x + f i % 2 ^ w * 2 ^ (w * i)) 0
/-- One element in every place of a lane. -/
def everywhere (w x : Nat) : Nat := laneFrom w fun _ => x

/-- Lane j of a token as a number. -/
def Token.laneN (t : Token) (j : Nat) : Nat := (t.lane j).toNat

/-- An element-wise result: port a, the lanes of the second operand and the result's mask. -/
def elementwise (w : Nat) (a : Token) (y : Nat → Nat) (valid : BitVec 8) (g : Nat → Nat → Nat → Nat → Nat) : Token :=
  resultTok a valid fun j => laneFrom w fun i => g j i (elemOf w i (a.laneN j)) (elemOf w i (y j))

/-! ### Integer ops (R278, R279) -/

/-- The width and signedness of T. -/
def intW (t : Nat) : Nat := if t < 2 then 32 else 16
def intU (t : Nat) : Bool := t % 2 == 1

/-- An exact result wrapped, or clamped to the type's range with S. -/
def intFit (w : Nat) (u sat : Bool) (v : Int) : Nat := if sat then clampOf w u v else wrapOf w v

/-- The condition of ICMP. -/
def intCond (c : Nat) (x y : Int) : Bool :=
  match c with
  | 0 => x == y | 1 => x != y | 2 => decide (x < y) | 3 => decide (x ≤ y) | 4 => decide (y < x) | _ => decide (y ≤ x)

/-- A binary integer op on the elements of lanes, its fields in mod. -/
def intOp (g : (w : Nat) → (u sat : Bool) → (c : Nat) → (x y : Nat) → Nat) (s : State) : Out :=
  fireOp s fun _ f a b =>
    let m := f.word.mod
    let w := intW (bits m.toNat 1 0)
    let u := intU (bits m.toNat 1 0)
    let h := g w u (m.getLsbD 2) (bits m.toNat 6 4)
    if m.getLsbD 3 then
      let e := (f.word.imm.signExtend 32).toNat % 2 ^ w
      .ok (both (elementwise w a (fun _ => everywhere w e) a.valid fun _ _ x y => h x y) (latOf f.word))
    else if sameSc f a b then
      .ok (both (elementwise w a b.laneN (a.valid &&& b.valid) fun _ _ x y => h x y) (latOf f.word))
    else .error 0x0D

/-- IADD (R279). -/
def execIadd (s : State) : Out := intOp (fun w u sat _ x y => intFit w u sat (laneInt w u x + laneInt w u y)) s
/-- ISUB (R279). -/
def execIsub (s : State) : Out := intOp (fun w u sat _ x y => intFit w u sat (laneInt w u x - laneInt w u y)) s
/-- IMUL (R279). -/
def execImul (s : State) : Out := intOp (fun w u sat _ x y => intFit w u sat (laneInt w u x * laneInt w u y)) s
/-- IMIN (R279). -/
def execImin (s : State) : Out := intOp (fun w u _ _ x y => if laneInt w u x ≤ laneInt w u y then x else y) s
/-- IMAX (R279). -/
def execImax (s : State) : Out := intOp (fun w u _ _ x y => if laneInt w u x ≤ laneInt w u y then y else x) s
/-- AND of a graph (R279). -/
def execGraphAnd (s : State) : Out := intOp (fun _ _ _ _ x y => x &&& y) s
/-- OR of a graph (R279). -/
def execGraphOr (s : State) : Out := intOp (fun _ _ _ _ x y => x ||| y) s
/-- XOR of a graph (R279). -/
def execGraphXor (s : State) : Out := intOp (fun _ _ _ _ x y => x ^^^ y) s
/-- SHL (R279). -/
def execShl (s : State) : Out := intOp (fun w _ _ _ x y => x * 2 ^ (y % w)) s
/-- SHR (R279). -/
def execShr (s : State) : Out := intOp (fun w u _ _ x y => wrapOf w (laneInt w u x / (2 ^ (y % w) : Nat))) s
/-- ICMP (R279). -/
def execIcmp (s : State) : Out := intOp (fun w u _ c x y => b2n (intCond c (laneInt w u x) (laneInt w u y))) s

/-! ### Float ops (R280 to R282) -/

/-- The format of T. -/
def floatFmt (t : Nat) : Fmt := match t with | 0 => f32 | 1 => bf16 | _ => f16

/-- The lanes of the second operand and the result's mask, by BSEL (R280, R281). -/
def floatB (x : Elem) (w : Nat) (mod : Byte) (imm : Half) (a b : Token) : (Nat → Nat) × BitVec 8 :=
  let cast (e : Nat) : (Nat → Nat) × BitVec 8 :=
    let l := e / perLane w
    (fun _ => everywhere w (elemOf w (e % perLane w) (b.laneN l)), if b.valid.getLsbD l then a.valid else 0)
  match mod.toNat / 64 with
  | 0 => (b.laneN, a.valid &&& b.valid)
  | 1 =>
    let c := vget x.consts (bits imm.toNat 3 2)
    (fun j => (c.extractLsb' (32 * j) 32).toNat, a.valid)
  | 2 => cast 0
  | _ => cast 1

/-- A float op on elements: lane, element, the two operands, and the element of the constant that FFMA adds. -/
def floatOp (g : (f : Fmt) → (m : Nat) → (r : Word) → (x y z : Nat) → Nat) (s : State) : Out :=
  fireOp s fun x f a b =>
    let m := f.word.mod
    let fmt := floatFmt (bits m.toNat 1 0)
    let rm := bits m.toNat 4 2
    let w := fmt.width
    let c := vget x.consts (bits f.word.imm.toNat 1 0)
    let y := floatB x w m f.word.imm a b
    if m.toNat / 64 = 1 ∨ sameSc f a b then
      .ok (both (elementwise w a y.1 y.2 fun j i p q =>
        g fmt rm (laneState a.iter a.seq j i) p q (elemOf w i (c.extractLsb' (32 * j) 32).toNat)) (latOf f.word))
    else .error 0x0D

/-- FADD of a graph (R282). -/
def execGraphFadd (s : State) : Out := floatOp (fun f m r x y _ => (fpOp f 0 m r x y 0).1) s
/-- FMUL of a graph (R282). -/
def execGraphFmul (s : State) : Out := floatOp (fun f m r x y _ => (fpOp f 2 m r x y 0).1) s
/-- FFMA of a graph (R282). -/
def execGraphFfma (s : State) : Out := floatOp (fun f m r x y z => (fpOp f 5 m r x y z).1) s
/-- FMIN of a graph (R282). -/
def execGraphFmin (s : State) : Out := floatOp (fun f _ _ x y _ => (minMax f false x y).1) s
/-- FMAX of a graph (R282). -/
def execGraphFmax (s : State) : Out := floatOp (fun f _ _ x y _ => (minMax f true x y).1) s
/-- FCMP of a graph (R282). -/
def execFcmp (s : State) : Out := floatOp (fun f m _ x y _ => b2n (fcmp f m x y).1) s

/-- SFU (R283). -/
def execSfu (s : State) : Out :=
  fireOp s fun _ f a _ =>
    if a.sc then .error 0x0D
    else .ok (both (resultTok a a.valid fun j => (sfuOp (bits f.word.mod.toNat 2 0) (a.lane j)).1) (latOf f.word))

/-! ### CVT (R284, R285) -/

/-- The setting for a token's iteration: that of the control token that came last among those of a lower iteration, modulo 65,536;
else the initial one (R151). Lower means behind by 1 to 32,767, and the token that came last prevails (log 117). -/
def cvtSetting (x : Elem) (f : Firing) (iter : Half) : Nat × Nat :=
  match (x.cvt.filter fun c => c.slot == f.slot && decide (1 ≤ (iter - c.iter).toNat ∧ (iter - c.iter).toNat < 32768)).getLast? with
  | some c => (c.mode.toNat, c.rule.toNat)
  | none => (bits f.word.imm.toNat 6 4, bits f.word.imm.toNat 9 8)

/-- CVT (R285); a token on port b has set its mode and rule on its arrival (R151) and leaves here. -/
def execCvt (s : State) : Out :=
  withFiring s fun s pn c f =>
    match f.a with
    | none => sendAll s f [] (f.b.any fun t => t.kind == 0)
    | some a => byKind s pn c f 3 fun _ _ =>
      let x := elemAt s f.st f.elem
      let src := bits f.word.mod.toNat 3 0
      let dst := bits f.word.imm.toNat 3 0
      let sc := if src = 8 then (bits (vget (stn s f.st).fd a.fmt.toNat).toNat 23 20) else 0
      let p := elemTy s f.st (if src = 8 then 8 + a.fmt.toNat else src)
      let q := elemTy s f.st dst
      let m := cvtSetting x f a.iter
      if a.sc then fireFault s pn c f 0x0D 0
      else if 3 ≤ sc then fireFault s pn c f 0x24 0
      else if m.2 = 1 ∧ q.ty.isFp then fireFault s pn c f 0x14 0
      else
        let t := resultTok a a.valid fun j =>
          (List.range (min (32 / p.c) (32 / q.c))).foldl (fun o i =>
            o + (convert q.ty m.1 m.2 (laneState a.iter a.seq j i) (p.ty.num (a.laneN j / 2 ^ (p.c * i) % 2 ^ p.w))).1 * 2 ^ (q.c * i)) 0
        sendAll s f (both { t with fmt := if 8 ≤ dst then BitVec.ofNat 3 (dst - 8) else a.fmt } 3) true

/-! ### SCALE (R286, R287) -/

/-- A value divided by 2^k. -/
def Num.shift (k : Int) : Num → Num
  | .fin n m e st => .fin n m (e - k) st
  | v => v

/-- The exponent of the largest finite value of an fd register's format (R287). -/
def formatExp (s : State) (st n : Nat) : Int := topExp (vget (stn s st).fd n).toNat

/-- The scale byte of a block (R287). -/
def scaleByte (e : Int) (xs : List Word) : Nat :=
  let ls := xs.filterMap fun x => leadExp (f32.num x.toNat)
  match ls with
  | [] => 127
  | l :: ls => (min 254 (max 0 (ls.foldl max l - e + 127))).toNat

/-- SCALE (R287). -/
def execScale (s : State) : Out :=
  fireOp s fun _ f a b =>
    let n := bits f.word.imm.toNat 2 0
    let mode := bits f.word.imm.toNat 5 3
    if !f.word.mod.getLsbD 0 then
      if a.sc then .error 0x0D
      else
        let q := elemTy s f.st (8 + n)
        let v := scaleByte (formatExp s f.st n) (((List.range 8).filter fun j => a.valid.getLsbD j).map a.lane)
        let t := resultTok a a.valid fun j =>
          (convert q.ty mode 0 (laneState a.iter a.seq j 0) ((f32.num (a.laneN j)).shift ((v : Int) - 127))).1
        let k := resultTok a 1 fun _ => v
        .ok [(0, { t with sc := true, fmt := BitVec.ofNat 3 n }, 4), (1, { k with sc := false }, 4)]
    else if !a.sc || !b.valid.getLsbD 0 || b.sc then .error 0x0D
    else
      let p := elemTy s f.st (8 + a.fmt.toNat)
      let v := b.laneN 0 % 256
      let t := resultTok a a.valid fun j =>
        if v = 255 then f32.nanCode
        else (roundNum f32 mode (laneState a.iter a.seq j 0) ((p.ty.num (a.laneN j % 2 ^ p.w)).shift (127 - (v : Int)))).1
      .ok (both { t with sc := false, fmt := 0 } 4)

/-! ### Tags, merges and constants -/

/-- PASS (R277). -/
def execPass (s : State) : Out :=
  withFiring s fun s _ _ f => match f.a with
    | some a => sendAll s f (both a 1) (a.kind == 0)
    | none => s

/-- STEER (R270). -/
def execSteer (s : State) : Out :=
  fireOp s fun _ _ a b =>
    let p : BitVec 8 := (List.range 8).foldl (fun m j => if b.valid.getLsbD j && b.lane j != 0 then m ||| ((1 : BitVec 8) <<< j) else m) 0
    .ok [(0, resultTok a (a.valid &&& p) a.laneN, 1), (1, resultTok a (a.valid &&& ~~~p) a.laneN, 1)]

/-- A token of either port goes on (R289). -/
def eitherPort (g : Firing → Bool → Token → Token) (s : State) : Out :=
  withFiring s fun s _ _ f => match f.a, f.b with
    | some a, _ => sendAll s f (both (g f false a) 1) (a.kind == 0)
    | none, some b => sendAll s f (both (g f true b) 1) (b.kind == 0)
    | none, none => s

/-- MERGE (R289). -/
def execMerge (s : State) : Out := eitherPort (fun _ _ t => t) s
/-- CARRY (R289). -/
def execCarry (s : State) : Out := eitherPort (fun f b t => { t with iter := if b then t.iter + 1 else f.word.imm }) s

/-- SETTAG (R290). -/
def execSettag (s : State) : Out :=
  fireOp s fun _ f a b =>
    if f.word.mod.getLsbD 0 then .ok (both { a with iter := f.word.imm } 1)
    else if b.valid.getLsbD 0 then .ok (both { a with iter := (b.lane 0).truncate 16 } 1)
    else .error 0x1D

/-- GETTAG (R291). -/
def execGettag (s : State) : Out :=
  fireOp s fun _ _ a _ =>
    let ls : List Nat := [a.iter.toNat, a.act.toNat, a.seq.toNat]
    .ok (both { resultTok a 7 (fun j => ls.getD j 0) with sc := false, fmt := 0 } 1)

/-- CONST (R292). -/
def execConst (s : State) : Out :=
  fireOp s fun x f a _ =>
    let c := vget x.consts (bits f.word.imm.toNat 1 0)
    let t := resultTok a (f.word.imm.extractLsb' 8 8) fun j => (c.extractLsb' (32 * j) 32).toNat
    .ok (both { t with kind := f.word.mod.extractLsb' 0 4, fmt := f.word.mod.extractLsb' 4 3, sc := false } 1)

/-- FILTER (R269): markers pass as they are. -/
def execFilter (s : State) : Out :=
  fireOp s fun _ _ a _ =>
    let ls := ((List.range 8).filter fun j => a.valid.getLsbD j).map a.laneN
    .ok (both (resultTok a (BitVec.ofNat 8 (2 ^ ls.length - 1)) fun j => ls.getD j 0) 1)

/-- EMIT (R310). -/
def execEmit (s : State) : Out :=
  fireOp s fun _ f a _ =>
    .ok (both { a with pay := 0, valid := 0, kind := f.word.mod.extractLsb' 0 4, seq := a.seq + f.word.imm, sc := false, fmt := 0 } 1)

end Sys2Proof.Machine
end

