-- ==== Sys2Proof/Machine/LoadStore.lean ====
section
/-! DEFINITION. Scalar loads and stores, presence operations and atomics (R360 to R373). -/

namespace Sys2Proof.Machine

/-! ### Loads and stores (R360 to R362) -/

/-- A load of z bytes on path T. -/
def loadOp (w : Bool) (d a : BitVec 5) (g : BitVec 3) (i : BitVec 12) (z : Nat) (sx : Bool) (s : State) : Out :=
  issue w s fun s th =>
    scalarAccess s th { kind := .read, z := z, sx := sx, seg := rseg th g, dest := .g d, reg := d } (memOff th a i) 0 false

/-- A store of the low z bytes of a register on path T. -/
def storeOp (w : Bool) (r a : BitVec 5) (g : BitVec 3) (i : BitVec 12) (z : Nat) (s : State) : Out :=
  issue w s fun s th =>
    scalarAccess s th { kind := .write, z := z, seg := rseg th g, reg := r } (memOff th a i) (zextBytes z (rg th r)) true

/-- LDB (R360). -/
def execLdb (w : Bool) (d a : BitVec 5) (g : BitVec 3) (i : BitVec 12) (s : State) : Out := loadOp w d a g i 1 true s
/-- LDH (R360). -/
def execLdh (w : Bool) (d a : BitVec 5) (g : BitVec 3) (i : BitVec 12) (s : State) : Out := loadOp w d a g i 2 true s
/-- LDW (R360). -/
def execLdw (w : Bool) (d a : BitVec 5) (g : BitVec 3) (i : BitVec 12) (s : State) : Out := loadOp w d a g i 4 true s
/-- LDD (R360). -/
def execLdd (w : Bool) (d a : BitVec 5) (g : BitVec 3) (i : BitVec 12) (s : State) : Out := loadOp w d a g i 8 false s
/-- LDBU (R360). -/
def execLdbu (w : Bool) (d a : BitVec 5) (g : BitVec 3) (i : BitVec 12) (s : State) : Out := loadOp w d a g i 1 false s
/-- LDHU (R360). -/
def execLdhu (w : Bool) (d a : BitVec 5) (g : BitVec 3) (i : BitVec 12) (s : State) : Out := loadOp w d a g i 2 false s
/-- LDWU (R360). -/
def execLdwu (w : Bool) (d a : BitVec 5) (g : BitVec 3) (i : BitVec 12) (s : State) : Out := loadOp w d a g i 4 false s
/-- STB (R360). -/
def execStb (w : Bool) (r a : BitVec 5) (g : BitVec 3) (i : BitVec 12) (s : State) : Out := storeOp w r a g i 1 s
/-- STH (R360). -/
def execSth (w : Bool) (r a : BitVec 5) (g : BitVec 3) (i : BitVec 12) (s : State) : Out := storeOp w r a g i 2 s
/-- STW (R360). -/
def execStw (w : Bool) (r a : BitVec 5) (g : BitVec 3) (i : BitVec 12) (s : State) : Out := storeOp w r a g i 4 s
/-- STD (R360). -/
def execStd (w : Bool) (r a : BitVec 5) (g : BitVec 3) (i : BitVec 12) (s : State) : Out := storeOp w r a g i 8 s

/-- LDG (R362): R362 writes its segment check before the rest, so SEG_RIGHTS for a LOCAL segment or TYPE ≥ 2 comes before ALIGN (log 59). -/
def execLdg (w : Bool) (d a : BitVec 5) (g : BitVec 3) (i : BitVec 12) (s : State) : Out :=
  issue w s fun s th =>
    let acc : Access := { kind := .hashed, z := 8, seg := rseg th g, dest := .g d, reg := d }
    if acc.seg.isLocal || decide (2 ≤ acc.seg.type) then .error (trapAcc th 0x04 acc (vaOf acc.seg (memOff th a i)) 0)
    else scalarAccess s th acc (memOff th a i) 0 false

/-! ### Presence operations and atomics: checks -/

/-- The check of an access at the home of a word, with the rights it needs and a mark that its segment is of a wrong kind, in the
order of R85. -/
def wordCheck (s : State) (pn : Nat) (g : Seg) (off z : Nat) (rd wr wrong : Bool) : Option Byte :=
  if off % z ≠ 0 then some 0x05
  else if (rd && !g.read) || (wr && !g.write) || wrong then some 0x04
  else if wr && sealedSeg s pn g then some 0x04
  else if 2 ^ 40 ≤ off ∨ g.limit < off + z then some 0x03
  else none

/-- Such an access issued (R366, R369). -/
def wordAccess (s : State) (th : Thread) (a : Access) (off v : DWord) (rd wr wrong : Bool) : Res :=
  match wordCheck s (tidPart th.tid) a.seg off.toNat a.z rd wr wrong with
  | some c => .error (trapAcc th c a (vaOf a.seg off) 0)
  | none => .ok (issueAccess s (nextPc th) th.pc { a with els := [elAt a.seg 0 off v] } none)

/-- A presence operation (R366). -/
def presOp (s : State) (th : Thread) (kind : AccKind) (a : BitVec 5) (g : BitVec 3) (dest : Dest) (reg : BitVec 5) (v : DWord)
    (rd wr : Bool) : Res :=
  wordAccess s th { kind := kind, z := 8, seg := rseg th g, dest := dest, reg := reg } (rg th a) v rd wr (!(rseg th g).presence)

/-- TAKE (R366). -/
def execTake (w : Bool) (d a : BitVec 5) (g : BitVec 3) (s : State) : Out :=
  issue w s fun s th => presOp s th .take a g (.g d) d 0 true true
/-- PUT (R366). -/
def execPut (w : Bool) (a b : BitVec 5) (g : BitVec 3) (s : State) : Out :=
  issue w s fun s th => presOp s th .put a g .nowhere b (rg th b) false true
/-- READF (R366). -/
def execReadf (w : Bool) (d a : BitVec 5) (g : BitVec 3) (s : State) : Out :=
  issue w s fun s th => presOp s th .readf a g (.g d) d 0 true false
/-- PSET (R366). -/
def execPset (w : Bool) (a : BitVec 5) (g : BitVec 3) (s : State) : Out :=
  issue w s fun s th => supOnly th (presOp s th .pset a g .nowhere 0 0 false true)
/-- PCLR (R366). -/
def execPclr (w : Bool) (a : BitVec 5) (g : BitVec 3) (s : State) : Out :=
  issue w s fun s th => supOnly th (presOp s th .pclr a g .nowhere 0 0 false true)

/-! ### Atomics (R369 to R372) -/

/-- An operation of ATOM on the word of 4 or 8 bytes at g[a]. -/
def atomOp (s : State) (th : Thread) (kind : AccKind) (a : BitVec 5) (z : Bool) (g : BitVec 3) (dest : Dest) (reg : BitVec 5)
    (v cmp : DWord) (rd : Bool) : Res :=
  let n := if z then 8 else 4
  wordAccess s th { kind := kind, z := n, seg := rseg th g, dest := dest, reg := reg, cmp := zextBytes n cmp } (rg th a)
    (zextBytes n v) rd true (decide (2 ≤ (rseg th g).type))

/-- AMO with function fn: the old word to g[d] (R372). -/
def amoOp (w : Bool) (fn : Nat) (d a b : BitVec 5) (z : Bool) (g : BitVec 3) (s : State) : Out :=
  issue w s fun s th => atomOp s th (.amo fn) a z g (.g d) d (rg th b) (rg th d) true

/-- RSV (R370). -/
def execRsv (w : Bool) (d a : BitVec 5) (z : Bool) (g : BitVec 3) (s : State) : Out :=
  issue w s fun s th => atomOp s th .rsv a z g (.g d) d 0 0 true
/-- RLS (R370). -/
def execRls (w : Bool) (a b : BitVec 5) (z : Bool) (g : BitVec 3) (s : State) : Out :=
  issue w s fun s th => atomOp s th .rls a z g .nowhere b (rg th b) 0 false
/-- AMO.ADD (R372). -/
def execAmoAdd (w : Bool) (d a b : BitVec 5) (z : Bool) (g : BitVec 3) (s : State) : Out := amoOp w 2 d a b z g s
/-- AMO.AND (R372). -/
def execAmoAnd (w : Bool) (d a b : BitVec 5) (z : Bool) (g : BitVec 3) (s : State) : Out := amoOp w 3 d a b z g s
/-- AMO.OR (R372). -/
def execAmoOr (w : Bool) (d a b : BitVec 5) (z : Bool) (g : BitVec 3) (s : State) : Out := amoOp w 4 d a b z g s
/-- AMO.XOR (R372). -/
def execAmoXor (w : Bool) (d a b : BitVec 5) (z : Bool) (g : BitVec 3) (s : State) : Out := amoOp w 5 d a b z g s
/-- AMO.MIN (R372). -/
def execAmoMin (w : Bool) (d a b : BitVec 5) (z : Bool) (g : BitVec 3) (s : State) : Out := amoOp w 6 d a b z g s
/-- AMO.MAX (R372). -/
def execAmoMax (w : Bool) (d a b : BitVec 5) (z : Bool) (g : BitVec 3) (s : State) : Out := amoOp w 7 d a b z g s
/-- AMO.MINU (R372). -/
def execAmoMinu (w : Bool) (d a b : BitVec 5) (z : Bool) (g : BitVec 3) (s : State) : Out := amoOp w 8 d a b z g s
/-- AMO.MAXU (R372). -/
def execAmoMaxu (w : Bool) (d a b : BitVec 5) (z : Bool) (g : BitVec 3) (s : State) : Out := amoOp w 9 d a b z g s
/-- AMO.SWAP (R372). -/
def execAmoSwap (w : Bool) (d a b : BitVec 5) (z : Bool) (g : BitVec 3) (s : State) : Out := amoOp w 10 d a b z g s
/-- AMO.CAS (R372). -/
def execAmoCas (w : Bool) (d a b : BitVec 5) (z : Bool) (g : BitVec 3) (s : State) : Out := amoOp w 11 d a b z g s

end Sys2Proof.Machine
end

