-- ==== Sys2Proof/Machine/GraphMem.lean ====
section
/-! DEFINITION. Memory nodes of graphs: LOAD and STORE (R299, R300), page faults at nodes (R301), TAKE and PUT (R302), SINK (R304), ARG
(R307) and the replies to their accesses. -/

namespace Sys2Proof.Machine

/-! ### Issue -/

/-- The engine segment that a node names (R299, R321). -/
def nodeSeg (s : State) (st n : Nat) : Seg := vget (stn s st).eng n

/-- An offset of a node's lane as an exact integer (R299). -/
def nodeOff (f : Firing) (t : Token) (j : Nat) : Int := (t.laneN j : Int) + f.word.imm.toInt

/-- The elements of a node's access, or the cause and address of the first lane that a check refuses (R299, R319, R321). -/
def nodeEls (s : State) (pn : Nat) (g : Seg) (z : Nat) (rd wr pres : Bool) :
    List (Nat × Int × DWord) → Except (Byte × DWord) (List El)
  | [] => .ok []
  | (j, o, v) :: l =>
    let off := (o % 2 ^ 64).toNat
    let va := vaOf g (BitVec.ofNat 64 off)
    match wordCheck s pn g off z rd wr (!g.engine || g.type == 3 || (pres && !g.presence)) with
    | some c => .error (c, va)
    | none =>
      if o < 0 ∨ 2 ^ 40 ≤ o then .error (0x03, va)
      else (nodeEls s pn g z rd wr pres l).map ({ lane := j, va := va, val := v } :: ·)

/-- The request of one element of a node's access. -/
def nodeReq (g : GAcc) (fid : Nat) (e : El) : Req :=
  { id := 0, who := .graph fid e.lane, part := g.part, st := g.f.st, path := 0, kind := g.kind, va := e.va, z := g.z, val := e.val,
    hashed := g.seg.hashed, pinned := g.seg.pinned, segIdx := if g.seg.type = 1 then g.seg.idx + 1 else 0,
    pa := match placeOf g.part g.f.st g.seg (e.va.toNat - g.seg.base) with
      | .phys key => some key
      | .tile _ key => some key
      | .virt _ => none }

/-- The class of an access of a node: the longest of its lanes' (R359); none where a host bounds it. -/
def nodeClass (s : State) (g : GAcc) (fid : Nat) (es : List El) : Option Nat :=
  es.foldl (fun n e => match n, reqClass s (nodeReq g fid e) with | some x, some y => some (max x y) | _, _ => none) (some 0)

/-- The requests of a node's elements are sent; in a timed partition a load or store ends with its class (R437). -/
def nodeSend (s : State) (fid : Nat) (g : GAcc) (es : List El) : State :=
  let t := es.foldl (fun s e => sendReq s (nodeReq g fid e)) s
  match nodeClass s g fid es with
  | some n => if (part s g.part).timed && (g.kind == .read || g.kind == .write) && !es.isEmpty then
      later t (n + 1) (.graphTimeout fid s.time) else t
  | none => t

/-- A node's access is issued; its number, and the state. -/
def nodeIssue (s : State) (pn : Nat) (c : Consist) (f : Firing) (kind : AccKind) (z : Nat) (g : Seg) (es : List El) : Nat × State :=
  let id := freshId s
  let a : GAcc := { f := f, part := pn, cid := c.cid, left := es.map (·.lane), els := es, z := z, seg := g, kind := kind, firedAt := s.time }
  (id.1, nodeSend { id.2 with gaccs := kput id.2.gaccs id.1 a } id.1 a es)

/-- A firing of a data token without a result yet is counted, with its result's lanes (R105). -/
def countFiring (s : State) (f : Firing) (valid : BitVec 8) : State :=
  modElem s f.st f.elem fun x =>
    { x with firings := x.firings + 1, lanes := x.lanes + BitVec.ofNat 32 ((List.range 8).countP fun j => valid.getLsbD j) }

/-- A read whose answer a schedule places l cycles from the firing (R300, R307). -/
def nodeRead (s : State) (pn : Nat) (c : Consist) (f : Firing) (z : Nat) (g : Seg) (es : List El) (valid : BitVec 8) (l : Nat) : State :=
  let r := nodeIssue (countFiring s f valid) pn c f .read z g es
  later (reserveEnds r.2 f l) l (.graphLoadReply r.1)

/-- A firing's stores, counted until they have been performed (R300). -/
def nodeWrite (s : State) (pn : Nat) (c : Consist) (f : Firing) (z : Nat) (g : Seg) (es : List El) : State :=
  let r := nodeIssue s pn c f .write z g es
  let s := modAct r.2 pn c.cid f.act fun a => { a with acks := a.acks + 1 }
  if es.isEmpty then later s 1 (.graphStoreAck r.1) else s

/-- A fault of a check, with the address (R67, R299). -/
def nodeFault (s : State) (pn : Nat) (c : Consist) (f : Firing) (e : Byte × DWord) : State := fireFault s pn c f e.1 e.2

/-- Log2 of the size field of mod (R300). -/
def nodeSize (f : Firing) : Nat := 2 ^ bits f.word.mod.toNat 4 3

/-- LOAD of a graph (R300). -/
def execGraphLoad (s : State) : Out :=
  withFiring s fun s pn c f => byKind s pn c f (latOf f.word) fun a _ =>
    let g := nodeSeg s f.st (bits f.word.mod.toNat 2 0)
    let ls := ((List.range 8).filter fun j => a.valid.getLsbD j).map fun j => (j, nodeOff f a j, (0 : DWord))
    match nodeEls s pn g (nodeSize f) true false false ls with
    | .error e => nodeFault s pn c f e
    | .ok es => nodeRead s pn c f (nodeSize f) g es a.valid (loadLat f.word)

/-- STORE of a graph (R300). -/
def execGraphStore (s : State) : Out :=
  withFiring s fun s pn c f => byKind s pn c f 1 fun a b =>
    let g := nodeSeg s f.st (bits f.word.mod.toNat 2 0)
    let v := a.valid &&& b.valid
    let ls := ((List.range 8).filter fun j => v.getLsbD j).map fun j => (j, nodeOff f a j, (b.lane j).setWidth 64)
    match nodeEls s pn g (nodeSize f) false true false ls with
    | .error e => nodeFault s pn c f e
    | .ok es => nodeWrite (countFiring s f 0) pn c f (nodeSize f) g es

/-- Lanes 0 and 1 of a token, an invalid lane as zero (R274). -/
def pairWord (t : Token) (j : Nat) : DWord :=
  BitVec.ofNat 64 ((if t.valid.getLsbD j then t.laneN j else 0) + (if t.valid.getLsbD (j + 1) then t.laneN (j + 1) else 0) * 2 ^ 32)

/-- A presence access of a node (R302): issued, with its wait limit. -/
def nodePresence (s : State) (pn : Nat) (c : Consist) (f : Firing) (kind : AccKind) (rd : Bool) (a : Token) (v : DWord) (valid : BitVec 8) :
    State :=
  let g := nodeSeg s f.st (bits f.word.mod.toNat 2 0)
  let o : Int := if a.valid.getLsbD 0 then a.laneN 0 else 0
  match nodeEls s pn g 8 rd true true [(0, o, v)] with
  | .error e => nodeFault s pn c f e
  | .ok es =>
    let r := nodeIssue (countFiring s f valid) pn c f kind 8 g es
    if f.word.imm = 0 then r.2 else later r.2 (256 * f.word.imm.toNat) (.graphPresenceWaitLimit r.1)

/-- TAKE of a graph (R302). -/
def execGraphTake (s : State) : Out :=
  withFiring s fun s pn c f => byKind s pn c f 1 fun a _ => nodePresence s pn c f .take true a 0 3

/-- PUT of a graph (R302). -/
def execGraphPut (s : State) : Out :=
  withFiring s fun s pn c f => byKind s pn c f 1 fun a b => nodePresence s pn c f .put false a (pairWord b 0) 0

/-- ARG (R307). -/
def execArg (s : State) : Out :=
  withFiring s fun s pn c f => byKind s pn c f 48 fun a _ =>
    let va := (pairWord a 0).toNat + 32 + 32 * bits f.word.mod.toNat 1 0
    let es : List El := (List.range 4).map fun k => { lane := k, va := BitVec.ofNat 64 (va + 8 * k) }
    nodeRead s pn c f 8 (nodeSeg s f.st 6) es 0xFF 48

/-! ### SINK (R304) -/

/-- The base of a SINK slot's activation, taken from a token on port b when it comes. -/
def sinkOpen (s : State) (f : Firing) (a : Token) : State :=
  match f.b with
  | none => s
  | some b =>
    let z : Token := { a with iter := 0 }
    modElem s f.st f.elem fun x => putPair x { pairFor x f.word f.slot z with base := some (pairWord b 0) }

/-- The oldest incomplete iteration after the completed ones. -/
def nextOpen (closed : List Half) : Nat → Half → Half
  | 0, i => i
  | k + 1, i => if closed.contains i then nextOpen closed k (i + 1) else i

/-- An iteration of a SINK slot completes. -/
def sinkClosed (s : State) (f : Firing) (a : Token) : State :=
  modElem s f.st f.elem fun x => match sinkBase x f.slot a.act with
    | none => x
    | some p =>
      let l := if p.closed.contains a.iter || decide (32768 ≤ (a.iter - p.out).toNat) then p.closed else p.closed ++ [a.iter]
      let i := nextOpen l l.length p.out
      putPair x { p with out := i, closed := l.filter fun k => decide ((k - i).toNat < 32768) && k != i }

/-- The next SEQ of a SINK pair; its End-of-stream ends it (R273). -/
def sinkStep (s : State) (f : Firing) (a : Token) : State :=
  modElem s f.st f.elem fun x =>
    let p := pairFor x f.word f.slot a
    putPair x { p with next := a.seq + 1, ended := a.kind == 9 }

/-- SINK (R304): a data token is stored and goes on to dest0; markers go on as they are; End-of-stream is held for the activation
(R60). -/
def execSink (s : State) : Out :=
  withFiring s fun s pn c f => match f.a with
    | none => s
    | some a =>
      if a.kind = 8 then sendAll s f (both a 1) false
      else
        let s := sinkStep (sinkOpen s f a) f a
        if a.kind = 0 then
          let g := nodeSeg s f.st (bits f.word.mod.toNat 2 0)
          let base := (((sinkBase (elemAt s f.st f.elem) f.slot a.act).bind (·.base)).getD 0).toNat
          let off := base + 32 * f.word.imm.toNat * a.iter.toNat + 32 * a.seq.toNat
          let ls := ((List.range 8).filter fun j => a.valid.getLsbD j).map fun j => (j, ((off + 4 * j : Nat) : Int), (a.lane j).setWidth 64)
          match nodeEls s pn g 4 false true false ls with
          | .error e => nodeFault s pn c f e
          | .ok es => sendAll (nodeWrite s pn c f 4 g es) f [(0, a, 1)] true
        else
          let s := if 7 ≤ a.closes then sinkClosed s f a else s
          let s := sendAll s f (both (kindTok a.kind a) 1) false
          if a.kind = 9 then
            let k := f.st * 512 + f.elem * 32 + f.slot
            checkAct (modAct s pn c.cid a.act fun x => { x with sinks := if x.sinks.contains k then x.sinks else x.sinks ++ [k] }) pn c.cid a.act
          else s

/-! ### Replies (R300 to R302) -/

/-- The tokens that wait for an access leave the store, or the room in front of it (R301, R302). -/
def unwait (s : State) (g : GAcc) : State :=
  let hit (port : Bool) (o : Option Token) (y : Ent) : Bool :=
    y.slot == g.f.slot && y.port == port && y.wait && (match o with | some t => y.tok == t | none => false)
  let mine (y : Ent) : Bool := hit false g.f.a y || hit true g.f.b y
  let s := modElem s g.f.st g.f.elem fun x =>
    { x with store := x.store.filter fun y => !mine y, link := x.link.filter fun y => !mine y }
  enterWaiting s g.part g.cid g.f.st g.f.elem

/-- An access has ended: nothing of it is left, and the hold that it caused ends. -/
def nodeDone (s : State) (fid : Nat) (g : GAcc) : State :=
  let s := releaseHold s g.part g.cid 0 fun h => h.kind == 0 && h.key == fid
  unwait { s with gaccs := kdel s.gaccs fid } g

/-- The entries that a firing's tokens take again when its access has met a page fault, as far as they are not in the store (R301). -/
def waitEnts (x : Elem) (g : GAcc) : List Ent :=
  let keep (port : Bool) (o : Option Token) : List Ent := match o with
    | none => []
    | some t =>
      if (x.store ++ x.link).any fun y => y.slot == g.f.slot && y.port == port && y.tok == t && y.wait then []
      else [{ tok := t, slot := g.f.slot, port := port, arr := g.firedAt, wait := true }]
  keep false g.f.a ++ keep true g.f.b

/-- Two page faults meet the same cause on the same page (R487). -/
def sameRegion (a b : DFault) : Bool := a.cause == b.cause && a.region == b.region && a.addr.toNat / 2 ^ a.region == b.addr.toNat / 2 ^ b.region

/-- A lane's page fault is reported, unless it is the one that was reported of it last (R301). -/
def laneReport (s : State) (g : GAcc) (d : DFault) : State :=
  if g.told.any fun x => x.lane == d.lane && sameRegion d x then s
  else supReport s g.part d.cause.toNat 7 g.f.st 0 d.addr.toNat (g.f.act.toNat + g.f.iter.toNat * 2 ^ 12)
    (g.cid.toNat + g.f.elem * 2 ^ 16 + g.f.slot * 2 ^ 20)

/-- Page faults of a node's lanes: each is reported, the tokens wait in the matching store without a hold, and the lanes are tried again
65,536 cycles from the fault at the latest (R301). A token that has meanwhile come with the same tag meets them there (R107). -/
def nodePage (s : State) (fid : Nat) (g : GAcc) : State :=
  let s := g.news.foldl (fun s d => laneReport s g d) s
  let h := { g with fault := none, late := true, news := [],
                    told := (g.told.filter fun x => !g.news.any fun d => d.lane == x.lane) ++ g.news }
  let s := releaseHold { s with gaccs := kput s.gaccs fid h } g.part g.cid 0 fun h => h.kind == 0 && h.key == fid
  let s := if s.agenda.any fun e => e.2 == .graphFaultRetry fid then s else later s 65536 (.graphFaultRetry fid)
  let x := elemAt s g.f.st g.f.elem
  let es := waitEnts x g
  if es.any fun y => (x.store ++ x.link).any fun z => z.slot == y.slot && z.port == y.port && z.tok.act == y.tok.act &&
      z.tok.iter == y.tok.iter && (!sequenced g.f.word y.port || z.tok.seq == y.tok.seq) then
    faultAct s g.part g.cid g.f.act 0x1D g.f.st g.f.elem g.f.slot g.f.iter 0
  else es.foldl (fun s y => putEntry s g.part g.cid g.f.st g.f.elem y) s

/-- An access that has news of its lanes: new page faults are attended to at once; when none is under way it has ended well, or it has a
fault (R67, R301). -/
def nodeEnded (s : State) (fid : Nat) (k : State → GAcc → State) : State :=
  match kget s.gaccs fid with
  | none => s
  | some g =>
    let live := ((consistOf s g.part g.cid).bind fun c => actOf c g.f.act).isSome
    let page := g.fault.all pageCause
    if live && page && !g.news.isEmpty then nodePage s fid g
    else if !g.left.isEmpty then s
    else match g.fault with
      | some d =>
        reapAct (faultAct (nodeDone s fid g) g.part g.cid g.f.act d.cause g.f.st g.f.elem g.f.slot g.f.iter d.addr) g.part g.cid g.f.act
      | none =>
        if !g.faulted.isEmpty then s
        else reapAct (k (nodeDone s fid g) g) g.part g.cid g.f.act

/-- The result that a node's reply brings leaves: now, at its scheduled cycle, or late, when all its destinations accept (R111). -/
def nodeSendTo (s : State) (g : GAcc) (l : List (Half × Token)) : State :=
  if ((consistOf s g.part g.cid).bind fun c => actOf c g.f.act).isNone then s
  else if g.told.isEmpty && g.kind == .read then l.foldl (fun s y => leaves s g.f.st y.1 y.2 0) s
  else sendLate s g.f.st g.f.elem l

/-- The value of a loaded lane, extended (R300). -/
def loadedLane (g : GAcc) (j : Nat) : Nat :=
  let v := ((kget g.res j).getD 0).toNat
  if g.f.word.mod.getLsbD 5 then wrapOf 32 (sgnOf (8 * g.z) (v % 2 ^ (8 * g.z))) else v % 2 ^ (8 * g.z)

/-- The results of a LOAD or ARG (R300, R307). -/
def loadResult (s : State) (g : GAcc) : State :=
  match g.f.a with
  | none => s
  | some a =>
    if g.f.word.op = .arg then
      let w (k : Nat) : Nat := ((kget g.res (k / 2)).getD 0).toNat / 2 ^ (32 * (k % 2)) % 2 ^ 32
      let t : Token := { dataTok (lanesFrom 0xFF w) 0xFF a.act 0 0 with fmt := 0, sc := false }
      nodeSendTo s g [(g.f.word.d0, t), (g.f.word.d1, a)]
    else
      let t := resultTok a a.valid (loadedLane g)
      nodeSendTo s g [(g.f.word.d0, t), (g.f.word.d1, t)]

/-- GRAPH_LOAD_REPLY (R300, R301): at the scheduled cycle the reply is there, or its consist holds for it as long as the activation
lives. -/
def execGraphLoadReply (s : State) : Out := onEvent s fun e => match e with
  | .graphLoadReply fid => some (match kget s.gaccs fid with
    | none => s
    | some g =>
      if !g.left.isEmpty && g.news.isEmpty then
        if g.late || ((consistOf s g.part g.cid).bind fun c => actOf c g.f.act).isNone then s
        else applyHold { s with gaccs := kput s.gaccs fid { g with late := true } } g.part g.cid g.f.st g.f.elem 0 fid
      else nodeEnded s fid loadResult)
  | _ => none

/-- An empty data token for dest0 once an access has been performed (R300, R302). -/
def ackToken (s : State) (g : GAcc) : State :=
  match g.f.a with
  | none => s
  | some a => nodeSendTo s g [(g.f.word.d0, resultTok a 0 fun _ => 0)]

/-- GRAPH_STORE_ACK (R300, R304): every lane has been performed. -/
def execGraphStoreAck (s : State) : Out := onEvent s fun e => match e with
  | .graphStoreAck fid => some (nodeEnded s fid fun s g =>
      let s := modAct s g.part g.cid g.f.act fun x => { x with acks := x.acks - 1 }
      checkAct (if g.f.word.op = .graphStore then ackToken s g else s) g.part g.cid g.f.act)
  | _ => none

/-- GRAPH_PRESENCE_REPLY (R302). -/
def execGraphPresenceReply (s : State) : Out := onEvent s fun e => match e with
  | .graphPresenceReply fid => some (nodeEnded s fid fun s g =>
      match g.f.a with
      | none => s
      | some a =>
        if g.kind = .put then ackToken s g
        else
          let v := ((kget g.res 0).getD 0).toNat
          let t := resultTok a 3 fun j => v / 2 ^ (32 * j) % 2 ^ 32
          nodeSendTo s g [(g.f.word.d0, t), (g.f.word.d1, t)])
  | _ => none

/-- GRAPH_PRESENCE_WAIT_LIMIT (R302): a request still under way is withdrawn, and its activation faults. The limit of a partition that
is swapped out counts on, and its activation faults when it is back (R446). -/
def execGraphPresenceWaitLimit (s : State) : Out := onEvent s fun e => match e with
  | .graphPresenceWaitLimit fid => some (match kget s.gaccs fid with
    | none => s
    | some g =>
      if g.left.isEmpty ∨ s.time < g.firedAt + 256 * g.f.word.imm.toNat then s
      else
        let s := nodeWithdraw s [fid]
        if (part s g.part).swapped then
          { s with shadowEvents := s.shadowEvents ++ [(g.part, 0, .graphPresenceWaitLimit fid)] }
        else
        let va := (g.els.head?.map (·.va)).getD 0
        reapAct (faultAct (nodeDone s fid g) g.part g.cid g.f.act 0x0B g.f.st g.f.elem g.f.slot g.f.iter va) g.part g.cid g.f.act)
  | _ => none

/-- GRAPH_FAULT_RETRY (R301): the faulted lanes are issued again; a presence request waits anew. -/
def execGraphFaultRetry (s : State) : Out := onEvent s fun e => match e with
  | .graphFaultRetry fid => some (match kget s.gaccs fid with
    | none => s
    | some g =>
      if g.faulted.isEmpty || g.fault.isSome || !g.news.isEmpty then s
      else
        let s := unplan s fun e => e == .graphFaultRetry fid
        let h := { g with left := g.left ++ g.faulted.map (·.lane), faulted := [], firedAt := if g.kind = .read ∨ g.kind = .write then g.firedAt else s.time }
        let s := nodeSend { s with gaccs := kput s.gaccs fid h } fid h g.faulted
        if (g.kind = .take ∨ g.kind = .put) ∧ g.f.word.imm ≠ 0 then later s (256 * g.f.word.imm.toNat) (.graphPresenceWaitLimit fid) else s)
  | _ => none

end Sys2Proof.Machine
end

