-- ==== Sys2Proof/Machine/Vector.lean ====
section
/-! DEFINITION. Vector and mask instructions (R184 to R199). -/

namespace Sys2Proof.Machine

/-! ### Shared forms -/

/-- The thread behind a vector instruction that writes no vector register. -/
def pastVec (th : Thread) : Thread := nextPc { th with unbIn := [], unbOut := [] }

/-- A lane-wise integer operation under a mask (R185). -/
def vecInt (w : Bool) (d a b : BitVec 4) (k : BitVec 2) (l : Bool) (f : Nat → Nat → Nat) (s : State) : Out :=
  issue w s fun s th => withVec s th [a, b] (some d) fun s th rd =>
    .ok (vecOut s th d (rk th k) (lanesOf l fun i => f (lane l (rd a) i) (lane l (rd b) i)))

/-- An integer result: wrapped at the lane width, or clamped (R186). -/
def vintArith (l sat u : Bool) (f : Int → Int → Int) (x y : Nat) : Nat :=
  let w := laneW l
  if sat then clampOf w u (f (laneInt w u x) (laneInt w u y)) else wrapOf w (f x y)

/-- A destination mask of which the enabled bits are written (R187, R189). -/
def maskOut (th : Thread) (m k : BitVec 2) (f : Nat → Bool) : Thread :=
  let g := rk th k
  wk (pastVec th) m ((List.range 16).foldl (fun x i =>
    if g.getLsbD i && f i then x ||| ((1 : BitVec 16) <<< i) else x) (rk th m &&& ~~~g))

/-- The condition of VCMP (R187). -/
def vcmpHolds (c : BitVec 3) (x y : Int) : Bool :=
  match c.toNat with
  | 0 => x == y | 1 => x != y | 2 => x < y | 3 => x ≤ y | 4 => y < x | _ => y ≤ x

/-- The lanes of a floating-point operation with their flags: 0 on disabled lanes (R188). -/
def fpLanes (th : Thread) (l f : Bool) (k : BitVec 2) (op mode : Nat) (x y z : VReg) : List (Nat × Flags) :=
  (List.range (laneN l)).map fun i =>
    if kbit l (rk th k) i then fpOp (vfltFmt l f) op mode (genAt th i) (lane l x i) (lane l y i) (lane l z i) else (0, 0)

/-- VFADD, VFSUB, VFMUL and VFFMA (R188): every enabled lane rounds, raises flags and steps its generator. -/
def vecFp (w : Bool) (op : Nat) (d a b : BitVec 4) (k : BitVec 2) (l f : Bool) (r : BitVec 3) (s : State) : Out :=
  issue w s fun s th => withVec s th (if op = 5 then [a, b, d] else [a, b]) (some d) fun s th rd =>
    let mode := modeOf th r
    let x := fpLanes th l f k op mode (rd a) (rd b) (rd d)
    let th := raise (stepGens mode (enabled l (rk th k)) th) (orFlags (x.map (·.2)))
    .ok (vecOut s th d (rk th k) (ofLanes l (x.map (·.1))))

/-- VFMIN and VFMAX (R172, R188). -/
def vecMinMax (w : Bool) (mx : Bool) (d a b : BitVec 4) (k : BitVec 2) (l f : Bool) (s : State) : Out :=
  issue w s fun s th => withVec s th [a, b] (some d) fun s th rd =>
    let x := (List.range (laneN l)).map fun i =>
      if kbit l (rk th k) i then minMax (vfltFmt l f) mx (lane l (rd a) i) (lane l (rd b) i) else (0, 0)
    .ok (vecOut s (raise th (orFlags (x.map (·.2)))) d (rk th k) (ofLanes l (x.map (·.1))))

/-- A long vector operation (R162, R200): its enabled lanes are written at once. -/
def vecLong (s : State) (th : Thread) (d : BitVec 4) (k : BitVec 2) (l : Bool) (x : List (Nat × Flags)) (wcl : Nat) : State :=
  longResult s { th with unbIn := [], unbOut := [] }
    { id := 0, pc := 0, dest := .v d, res := [(0, (rk th k).setWidth 64)], vres := ofLanes l (x.map (·.1)),
      flags := orFlags (x.map (·.2)) } wcl

/-! ### VINT (R186, R187) -/

/-- VADD (R186). -/
def execVadd (w : Bool) (d a b : BitVec 4) (k : BitVec 2) (l sat u : Bool) (s : State) : Out :=
  vecInt w d a b k l (vintArith l sat u (· + ·)) s
/-- VSUB (R186). -/
def execVsub (w : Bool) (d a b : BitVec 4) (k : BitVec 2) (l sat u : Bool) (s : State) : Out :=
  vecInt w d a b k l (vintArith l sat u (· - ·)) s
/-- VMUL (R186). -/
def execVmul (w : Bool) (d a b : BitVec 4) (k : BitVec 2) (l sat u : Bool) (s : State) : Out :=
  vecInt w d a b k l (vintArith l sat u (· * ·)) s
/-- VMIN (R186). -/
def execVmin (w : Bool) (d a b : BitVec 4) (k : BitVec 2) (l u : Bool) (s : State) : Out :=
  vecInt w d a b k l (fun x y => if laneInt (laneW l) u x ≤ laneInt (laneW l) u y then x else y) s
/-- VMAX (R186). -/
def execVmax (w : Bool) (d a b : BitVec 4) (k : BitVec 2) (l u : Bool) (s : State) : Out :=
  vecInt w d a b k l (fun x y => if laneInt (laneW l) u x ≤ laneInt (laneW l) u y then y else x) s
/-- VAND (R186). -/
def execVand (w : Bool) (d a b : BitVec 4) (k : BitVec 2) (l : Bool) (s : State) : Out := vecInt w d a b k l (· &&& ·) s
/-- VOR (R186). -/
def execVor (w : Bool) (d a b : BitVec 4) (k : BitVec 2) (l : Bool) (s : State) : Out := vecInt w d a b k l (· ||| ·) s
/-- VXOR (R186). -/
def execVxor (w : Bool) (d a b : BitVec 4) (k : BitVec 2) (l : Bool) (s : State) : Out := vecInt w d a b k l (· ^^^ ·) s
/-- VSLL (R186). -/
def execVsll (w : Bool) (d a b : BitVec 4) (k : BitVec 2) (l : Bool) (s : State) : Out :=
  vecInt w d a b k l (fun x y => x * 2 ^ (y % laneW l) % 2 ^ laneW l) s
/-- VSRL (R186). -/
def execVsrl (w : Bool) (d a b : BitVec 4) (k : BitVec 2) (l : Bool) (s : State) : Out :=
  vecInt w d a b k l (fun x y => x / 2 ^ (y % laneW l)) s
/-- VSRA (R186). -/
def execVsra (w : Bool) (d a b : BitVec 4) (k : BitVec 2) (l : Bool) (s : State) : Out :=
  vecInt w d a b k l (fun x y => wrapOf (laneW l) (sgnOf (laneW l) x / (2 ^ (y % laneW l) : Nat))) s
/-- VCMP (R187). -/
def execVcmp (w : Bool) (m : BitVec 2) (a b : BitVec 4) (k : BitVec 2) (c : BitVec 3) (u : Bool) (s : State) : Out :=
  issue w s fun s th => withVec s th [a, b] none fun s th rd =>
    .ok (setThr s (maskOut th m k fun i => vcmpHolds c (laneInt 32 u (lane false (rd a) i)) (laneInt 32 u (lane false (rd b) i))))

/-! ### VFLT (R188, R189) -/

/-- VFADD (R188). -/
def execVfadd (w : Bool) (d a b : BitVec 4) (k : BitVec 2) (l f : Bool) (r : BitVec 3) (s : State) : Out := vecFp w 0 d a b k l f r s
/-- VFSUB (R188). -/
def execVfsub (w : Bool) (d a b : BitVec 4) (k : BitVec 2) (l f : Bool) (r : BitVec 3) (s : State) : Out := vecFp w 1 d a b k l f r s
/-- VFMUL (R188). -/
def execVfmul (w : Bool) (d a b : BitVec 4) (k : BitVec 2) (l f : Bool) (r : BitVec 3) (s : State) : Out := vecFp w 2 d a b k l f r s
/-- VFFMA (R188): the addend is the old lane of vd, popped first when vd is bound. -/
def execVffma (w : Bool) (d a b : BitVec 4) (k : BitVec 2) (l f : Bool) (r : BitVec 3) (s : State) : Out := vecFp w 5 d a b k l f r s
/-- VFMIN (R188). -/
def execVfmin (w : Bool) (d a b : BitVec 4) (k : BitVec 2) (l f : Bool) (s : State) : Out := vecMinMax w false d a b k l f s
/-- VFMAX (R188). -/
def execVfmax (w : Bool) (d a b : BitVec 4) (k : BitVec 2) (l f : Bool) (s : State) : Out := vecMinMax w true d a b k l f s
/-- VFCMP (R189): the flags are those of the enabled lanes. -/
def execVfcmp (w : Bool) (m : BitVec 2) (a b : BitVec 4) (k : BitVec 2) (c : BitVec 3) (s : State) : Out :=
  issue w s fun s th => withVec s th [a, b] none fun s th rd =>
    let x (i : Nat) : Bool × Flags := fcmp f32 c.toNat (lane false (rd a) i) (lane false (rd b) i)
    .ok (setThr s (raise (maskOut th m k fun i => (x i).1) (orFlags ((enabled false (rk th k)).map fun i => (x i).2))))
/-- VFDIV (R188, R200). -/
def execVfdiv (w : Bool) (d a b : BitVec 4) (k : BitVec 2) (l f : Bool) (r : BitVec 3) (s : State) : Out :=
  issue w s fun s th => withVec s th [a, b] none fun s th rd =>
    let mode := modeOf th r
    .ok (vecLong s (stepGens mode (enabled l (rk th k)) th) d k l (fpLanes th l f k 3 mode (rd a) (rd b) 0) 64)

/-! ### VMISC (R190 to R198) -/

/-- VSEL (R191): the mask selects, and every lane is written. -/
def execVsel (w : Bool) (d a b : BitVec 4) (k : BitVec 2) (l : Bool) (s : State) : Out :=
  issue w s fun s th => withVec s th [a, b] (some d) fun s th rd =>
    .ok (vecOut s th d 0xFFFF (lanesOf l fun i => if kbit l (rk th k) i then lane l (rd a) i else lane l (rd b) i))
/-- VPERM (R191). -/
def execVperm (w : Bool) (d a b : BitVec 4) (k : BitVec 2) (l : Bool) (s : State) : Out :=
  issue w s fun s th => withVec s th [a, b] (some d) fun s th rd =>
    .ok (vecOut s th d (rk th k) (lanesOf l fun i => lane l (rd a) (lane l (rd b) i % laneN l)))
/-- VBCAST (R192). -/
def execVbcast (w : Bool) (d g : BitVec 4) (k : BitVec 2) (l h : Bool) (s : State) : Out :=
  issue w s fun s th => withVec s th [] (some d) fun s th _ =>
    .ok (vecOut s th d (rk th k) (lanesOf l fun _ => (rgN th (16 * b2n h + g.toNat)).toNat))
/-- VEXTR (R192). -/
def execVextr (w : Bool) (g a n : BitVec 4) (l h m x : Bool) (s : State) : Out :=
  issue w s fun s th => withVec s th [a] none fun s th rd =>
    let v : DWord := BitVec.ofNat 64 (lane l (rd a) (16 * b2n m + n.toNat))
    .ok (setThr s (wgN (pastVec th) (16 * b2n h + g.toNat) (if x then sextBytes (if l then 2 else 4) v else v)))
/-- VINS (R192): one lane is written, the others are unchanged. -/
def execVins (w : Bool) (d g n : BitVec 4) (l h m : Bool) (s : State) : Out :=
  issue w s fun s th => withVec s th [] (some d) fun s th _ =>
    let i := 16 * b2n m + n.toNat
    .ok (vecBits s th d (lanesOf l fun j => if j = i then 2 ^ laneW l - 1 else 0)
      (lanesOf l fun _ => (rgN th (16 * b2n h + g.toNat)).toNat))

/-- What VRED accumulates: lane bits, or a W96 word, with the flags raised and the roundings made (R193). -/
structure Red where
  v : Nat
  fl : Flags := 0
  n : Nat := 0
  deriving DecidableEq, Repr

/-- The result of no enabled lane (R193). -/
def redIdentity (c w : Nat) : Nat :=
  match c with
  | 1 => 2 ^ (w - 1) - 1 | 2 => 2 ^ (w - 1) | 3 => 2 ^ w - 1
  | 6 => f32.sign true + f32.infCode | 7 => f32.infCode
  | _ => 0

/-- The format of VRED's W96F lanes (R193). -/
def redFmt (c : Nat) (l : Bool) : Fmt := if c = 10 then bf16 else if l then f16 else f32

/-- The first lane widened to the reduction's format (R193); a NaN is the canonical one, and a signalling one raises NV (R129). -/
def redWiden (c : Nat) (l : Bool) (x : Nat) : Red :=
  let w := laneW l
  match c with
  | 8 => { v := wrapOf 96 (sgnOf w x) }
  | 9 => { v := (toW96 ((redFmt c l).num x)).toNat, fl := sigNV [(redFmt c l).num x] }
  | 10 => { v := (toW96 ((redFmt c l).num x)).toNat, fl := sigNV [(redFmt c l).num x] }
  | 5 => float
  | 6 => float
  | 7 => float
  | _ => { v := x }
where
  float : Red := { v := f32.quiet x, fl := sigNV [f32.num x] }

/-- One more lane (R193): gen is the state of generator 0 before the reduction. A W96F sum that meets infinities of both signs raises NV
(log 119). -/
def redCombine (c : Nat) (l : Bool) (mode : Nat) (gen : Word) (r : Red) (x : Nat) : Red :=
  let w := laneW l
  let sg := sgnOf w
  match c with
  | 0 => { r with v := (r.v + x) % 2 ^ w }
  | 1 => { r with v := if sg r.v ≤ sg x then r.v else x }
  | 2 => { r with v := if sg r.v ≤ sg x then x else r.v }
  | 3 => { r with v := min r.v x }
  | 4 => { r with v := max r.v x }
  | 5 =>
    let y := fpOp f32 0 mode ((List.range r.n).foldl (fun g _ => xorShift g) gen) r.v x 0
    { v := y.1, fl := r.fl ||| y.2, n := r.n + 1 }
  | 6 => let y := minMax f32 true r.v x; { r with v := y.1, fl := r.fl ||| y.2 }
  | 7 => let y := minMax f32 false r.v x; { r with v := y.1, fl := r.fl ||| y.2 }
  | 8 => { r with v := wrapOf 96 (r.v + sg x) }
  | _ =>
    let v := (redFmt c l).num x
    let y := w96Add (BitVec.ofNat 96 r.v) (toW96 v)
    { r with v := y.1.toNat, fl := r.fl ||| (y.2 &&& (fNV ||| fOF ||| (if y.2 &&& fOF = 0 then 0 else fNX))) ||| sigNV [v] }

/-- VRED (R193): lane order of R156; the lanes that hold no result are zero. -/
def execVred (w : Bool) (d a : BitVec 4) (k : BitVec 2) (l : Bool) (c : BitVec 5) (s : State) : Out :=
  issue w s fun s th => withVec s th [a] (some d) fun s th rd =>
    let mode := modeOf th 7
    let r : Red := match enabled l (rk th k) with
      | [] => { v := redIdentity c.toNat (laneW l) }
      | i :: is => is.foldl (fun r j => redCombine c.toNat l mode (genAt th 0) r (lane l (rd a) j)) (redWiden c.toNat l (lane l (rd a) i))
    let th := raise ((List.range r.n).foldl (fun th _ => stepGen mode 0 th) th) r.fl
    .ok (vecOut s th d 0xFFFF (BitVec.ofNat 512 r.v))

/-- The trap of VCVT at issue (R195). -/
def vcvtTrap (s : State) (st : Nat) (t src : BitVec 4) (r : BitVec 2) : Option Byte :=
  let c := codeClass s st t.toNat
  if r = 1 ∧ 8 ≤ t.toNat ∧ (fdTy (vget (stn s st).fd (t.toNat - 8)).toNat).isFp ∧ c ≤ 3 then some 0x01
  else if 8 ≤ src.toNat ∧ 3 ≤ codeClass s st src.toNat then some 0x24
  else none

/-- VCVT (R194, R195). -/
def execVcvt (w : Bool) (d a t : BitVec 4) (k : BitVec 2) (src : BitVec 4) (r : BitVec 2) (s : State) : Out :=
  issue w s fun s th =>
    match vcvtTrap s th.station t src r with
    | some c => .error (trapOp th c)
    | none => withVec s th [a] (some d) fun s th rd =>
      let mode := modeOf th 7
      let es := elemTy s th.station src.toNat
      let ed := elemTy s th.station t.toNat
      let on := enabled false (rk th k)
      let x := on.map fun i => (i, convert ed.ty mode r.toNat (genAt th i) (es.ty.num (es.get (rd a) i)))
      let place (f : Nat × Nat × Flags → Nat) : VReg := BitVec.ofNat 512 ((x.map fun e => f e * 2 ^ (ed.c * e.1)).sum)
      let th := raise (stepGens mode on th) (orFlags (x.map (·.2.2)))
      .ok (vecBits s th d (place fun _ => 2 ^ ed.c - 1) (place fun e => e.2.1 % 2 ^ ed.w))

/-- VSFU (R196, R197): its results do not depend on the rounding mode. -/
def execVsfu (w : Bool) (d a : BitVec 4) (k : BitVec 2) (f : BitVec 3) (s : State) : Out :=
  issue w s fun s th => withVec s th [a] none fun s th rd =>
    let x := (List.range 16).map fun i =>
      if kbit false (rk th k) i then sfuOp f.toNat (BitVec.ofNat 32 (lane false (rd a) i)) else (0, 0)
    .ok (vecLong s th d k false x 48)

/-- VIOTA (R198): every lane is written. -/
def execViota (w : Bool) (d : BitVec 4) (k : BitVec 2) (l : Bool) (s : State) : Out :=
  issue w s fun s th => withVec s th [] (some d) fun s th _ =>
    .ok (vecOut s th d 0xFFFF (lanesOf l fun i => (List.range i).countP (kbit l (rk th k))))

/-! ### MASK (R199) -/

/-- k[d] := f of k[a] and k[b]. -/
def maskOp (w : Bool) (d a b : BitVec 2) (f : BitVec 16 → BitVec 16 → BitVec 16) (s : State) : Out :=
  issueThr w s fun th => wk th d (f (rk th a) (rk th b))

/-- KAND (R199). -/
def execKand (w : Bool) (d a b : BitVec 2) (s : State) : Out := maskOp w d a b (· &&& ·) s
/-- KOR (R199). -/
def execKor (w : Bool) (d a b : BitVec 2) (s : State) : Out := maskOp w d a b (· ||| ·) s
/-- KXOR (R199). -/
def execKxor (w : Bool) (d a b : BitVec 2) (s : State) : Out := maskOp w d a b (· ^^^ ·) s
/-- KNOT (R199). -/
def execKnot (w : Bool) (d a : BitVec 2) (s : State) : Out := maskOp w d a a (fun x _ => ~~~x) s
/-- KMOV from mask to mask (R199). -/
def execKmovKk (w : Bool) (d a : BitVec 2) (s : State) : Out := maskOp w d a a (fun x _ => x) s
/-- KMOV from a general register to a mask (R199). -/
def execKmovKg (w : Bool) (d : BitVec 2) (a : BitVec 5) (s : State) : Out := issueThr w s fun th => wk th d ((rg th a).truncate 16)
/-- KMOV from a mask to a general register (R199). -/
def execKmovGk (w : Bool) (d : BitVec 5) (a : BitVec 2) (s : State) : Out := issueThr w s fun th => wg th d ((rk th a).setWidth 64)
/-- KPOPC (R199). -/
def execKpopc (w : Bool) (d : BitVec 5) (a : BitVec 2) (s : State) : Out :=
  issueThr w s fun th => wg th d (BitVec.ofNat 64 ((List.range 16).countP fun i => (rk th a).getLsbD i))
/-- KMOV from pw to a general register (R199). -/
def execKmovGpw (w : Bool) (d : BitVec 5) (s : State) : Out := issueThr w s fun th => wg th d (pwOf th)
/-- KMOV from a general register to pw (R199). -/
def execKmovPwg (w : Bool) (a : BitVec 5) (s : State) : Out := issueThr w s fun th => setPw th (rg th a)

end Sys2Proof.Machine
end

