-- ==== Sys2Proof/Machine/GraphSeq.lean ====
section
/-! DEFINITION. Graph ops on the tokens of a pair in order: SEQ (R293), COALESCE (R271), REDUCE (R295, R296), ROWSTAT (R297), DELAY
(R298) and STREAM (R303). -/

namespace Sys2Proof.Machine

/-- The change of an element's pairs by a firing: the pair goes on, or is forgotten at End-of-stream (R273). -/
def keepPair (s : State) (f : Firing) (t : Token) (p : Pair) : State :=
  modElem s f.st f.elem fun x => if t.kind = 9 then dropPair x p else putPair x p

/-- The level at which an op closes its groups. -/
def levelOf (f : Firing) : Nat := bits f.word.imm.toNat 2 0

/-! ### SEQ -/

/-- SEQ (R293). -/
def execSeq (s : State) : Out :=
  withFiring s fun s _ _ f => match f.a with
    | none => s
    | some a =>
      if a.kind = 8 then sendAll s f (both a 1) false
      else
        let p := pairFor (elemAt s f.st f.elem) f.word f.slot a
        sendAll (keepPair s f a { p with out := p.out + 1 }) f (both { a with seq := p.out } 1) (a.kind == 0)

/-! ### COALESCE -/

/-- The valid lanes of a token, ascending. -/
def Token.lanes (t : Token) : List Word := ((List.range 8).filter fun j => t.valid.getLsbD j).map t.lane
/-- A token with lanes packed from lane 0. -/
def packed (t : Token) (ls : List Word) : Token :=
  { t with pay := packLanes ls, valid := BitVec.ofNat 8 (2 ^ ls.length - 1), kind := 0 }

/-- The partial tokens of an activation's pairs at a slot, flushed in the order their pairs were opened (R61, R271). -/
def flushAll (x : Elem) (f : Firing) (act : BitVec 12) : List Token × Elem :=
  let ps := x.pairs.filter fun p => p.slot == f.slot && p.act == act && !p.toks.isEmpty
  (ps.flatMap fun p => p.toks.map fun t => { t with seq := p.out },
   { x with pairs := x.pairs.map fun p =>
       if p.slot == f.slot && p.act == act && !p.toks.isEmpty then { p with toks := [], out := p.out + 1 } else p })

/-- Tokens one after the other, from a latency on, to both destinations. -/
def inTurn (l : Nat) (ts : List Token) : Sent := ts.zipIdx.flatMap fun x => both x.1 (l + x.2)

/-- COALESCE (R271). -/
def execCoalesce (s : State) : Out :=
  withFiring s fun s pn c f => match f.a with
    | none => s
    | some a =>
      let x := elemAt s f.st f.elem
      let p := pairFor x f.word f.slot a
      if a.kind = 8 then
        let r := flushAll x f a.act
        sendAll (modElem s f.st f.elem fun _ => r.2) f (inTurn 1 (r.1 ++ [a])) false
      else if a.kind ≠ 0 then
        let part := p.toks.map fun t => { t with seq := p.out }
        let n : Half := BitVec.ofNat 16 part.length
        sendAll (keepPair s f a { p with toks := [], out := p.out + n + 1 }) f
          (inTurn 1 (part ++ [{ kindTok a.kind a with seq := p.out + n }])) false
      else
        let ls := (p.toks.flatMap Token.lanes) ++ a.lanes
        match p.toks with
        | t :: _ =>
          if !a.lanes.isEmpty && t.sc != a.sc then fireFault s pn c f 0x0D 0
          else if !a.lanes.isEmpty && t.fmt != a.fmt then fireFault s pn c f 0x1D 0
          else if 8 ≤ ls.length then
            let rest := ls.drop 8
            sendAll (keepPair s f a { p with toks := if rest.isEmpty then [] else [packed a rest], out := p.out + 1 }) f
              (both { packed a (ls.take 8) with seq := p.out } 1) true
          else sendAll (keepPair s f a { p with toks := [packed t ls] }) f [] true
        | [] =>
          if ls.length = 8 then
            sendAll (keepPair s f a { p with out := p.out + 1 }) f (both { packed a ls with seq := p.out } 1) true
          else sendAll (keepPair s f a { p with toks := if ls.isEmpty then [] else [packed a ls] }) f [] true

/-! ### REDUCE -/

/-- The code of VRED with the same identity and combination, by type and operation (R193, R296). -/
def redCode (ty op : Nat) : Nat :=
  match ty, op with
  | 0, 0 => 0 | 0, 1 => 2 | 0, _ => 1
  | 2, _ => 9
  | _, 0 => 5 | _, 1 => 6 | _, _ => 7

/-- The elements of a group that a result takes, in order: token, lane, element and value (R296). -/
def groupElems (w : Nat) (ts : List Token) (keep : Nat → Nat → Bool) : List (Token × Nat × Nat × Nat) :=
  ts.flatMap fun t => (List.range 8).flatMap fun j =>
    if t.valid.getLsbD j then
      (List.range (perLane w)).filterMap fun i => if keep j i then some (t, j, i, elemOf w i (t.laneN j)) else none
    else []

/-- The format of a float REDUCE. -/
def reduceFmt (ty : Nat) : Fmt := if ty = 3 then bf16 else f32

/-- The identity of a type and operation (R193). -/
def reduceIdentity (ty op : Nat) : Nat :=
  if ty = 3 then (match op with | 0 => 0 | 1 => bf16.sign true + bf16.infCode | _ => bf16.infCode) else redIdentity (redCode ty op) 32

/-- One more element: the sum rounds under the mode with the lane state of the element's token (R137, R156, R296). -/
def reduceStep (ty op mode : Nat) (r : Nat) (e : Token × Nat × Nat × Nat) : Nat :=
  let x := e.2.2.2
  match ty, op with
  | 0, _ => (redCombine (redCode ty op) false 0 0 { v := r } x).v
  | 2, _ => (w96Add (BitVec.ofNat 96 r) (toW96 (f32.num x))).1.toNat
  | _, 0 => (fpOp (reduceFmt ty) 0 mode (laneState e.1.iter e.1.seq e.2.1 e.2.2.1) r x 0).1
  | _, _ => (minMax (reduceFmt ty) (op == 1) r x).1

/-- The first element of a reduction: a NaN is the canonical one (R129). -/
def reduceFirst (ty x : Nat) : Nat :=
  match ty with
  | 0 => x
  | 2 => (toW96 (f32.num x)).toNat
  | _ => (reduceFmt ty).quiet x

/-- The reduction of a list of elements. -/
def reduceList (ty op mode : Nat) : List (Token × Nat × Nat × Nat) → Nat
  | [] => reduceIdentity ty op
  | e :: es => es.foldl (reduceStep ty op mode) (reduceFirst ty e.2.2.2)

/-- The payload and mask of a group's result (R296). -/
def reduceResult (mod : Nat) (ts : List Token) : BitVec 256 × BitVec 8 :=
  let ty := bits mod 3 2
  let op := bits mod 1 0
  let mode := bits mod 7 5
  let w := if ty = 3 then 16 else 32
  let any := ts.any fun t => t.valid != 0
  if ty = 2 then (BitVec.ofNat 256 (reduceList ty op mode (groupElems w ts fun _ _ => true)), 0x07)
  else if bit mod 4 then (BitVec.ofNat 256 (reduceList ty op mode (groupElems w ts fun _ _ => true)), 0x01)
  else if !any then (lanesFrom 1 fun _ => everywhere w (reduceIdentity ty op), 0x01)
  else
    let v : BitVec 8 := ts.foldl (fun m t => m ||| t.valid) 0
    (lanesFrom v fun j => laneFrom w fun i => reduceList ty op mode (groupElems w ts fun j' i' => j' == j && i' == i), v)

/-- A group closes: its result after l cycles, and a closing marker above the level a cycle later (R296, R297). -/
def closeGroup (s : State) (f : Firing) (a : Token) (p : Pair) (r : Token) (l : Nat) : State :=
  let s := keepPair s f a { p with next := a.seq + 1, grp := p.grp + 1, toks := [] }
  let r := { r with seq := p.grp }
  sendAll s f (both r l ++ (if levelOf f < a.closes then both { kindTok a.kind a with seq := p.grp + 1 } (l + 1) else [])) false

/-- A token of a group that is not closed by it. -/
def joinGroup (s : State) (f : Firing) (a : Token) (p : Pair) : State :=
  sendAll (keepPair s f a { p with next := a.seq + 1, toks := if a.kind = 0 then p.toks ++ [a] else p.toks }) f [] (a.kind == 0)

/-- REDUCE (R295, R296). -/
def execReduce (s : State) : Out :=
  withFiring s fun s pn c f => match f.a with
    | none => s
    | some a =>
      let p := pairFor (elemAt s f.st f.elem) f.word f.slot a
      if a.kind = 8 then sendAll s f (both a 1) false
      else if a.kind = 0 then
        if p.toks.any fun t => t.sc != a.sc then fireFault s pn c f 0x0D 0 else joinGroup s f a p
      else if levelOf f ≤ a.closes then
        let r := reduceResult f.word.mod.toNat p.toks
        let h := p.toks.head?.getD a
        closeGroup s f a p { a with pay := r.1, valid := r.2, kind := 0, sc := h.sc, fmt := h.fmt } (latOf f.word)
      else joinGroup s f a p

/-! ### ROWSTAT -/

/-- The three statistics of a list of f32 elements (R297). -/
def rowStats : List Nat → Nat × Nat × Nat
  | [] => (f32.nanCode, 0, f32.sign true + f32.infCode)
  | u :: us =>
    let m := us.foldl (fun m x => (minMax f32 true m x).1) (f32.quiet u)
    let s := (u :: us).foldl (fun s x =>
      (fpOp f32 0 0 0 s (sfuOp 0 (BitVec.ofNat 32 (fpOp f32 1 0 0 x m 0).1)).1 0).1) 0
    let r := (fpOp f32 0 0 0 m (sfuOp 1 (BitVec.ofNat 32 s)).1 0).1
    (if (f32.num r).isNan then r else (r + 2 ^ 31) % 2 ^ 32, s, m)

/-- ROWSTAT (R297). -/
def execRowstat (s : State) : Out :=
  withFiring s fun s pn c f => match f.a with
    | none => s
    | some a =>
      let p := pairFor (elemAt s f.st f.elem) f.word f.slot a
      if a.kind = 8 then sendAll s f (both a 1) false
      else if a.kind = 0 then
        if a.sc then fireFault s pn c f 0x0D 0
        else if 32 ≤ p.toks.length then fireFault s pn c f 0x21 0
        else joinGroup s f a p
      else if levelOf f ≤ a.closes then
        let r := rowStats (p.toks.flatMap fun t => t.lanes.map (·.toNat))
        let ls : List Nat := [r.1, r.2.1, r.2.2]
        closeGroup s f a p { resultTok a 7 (fun j => ls.getD j 0) with sc := false } (8 + 2 * p.toks.length)
      else joinGroup s f a p

/-! ### DELAY -/

/-- A DELAY group ends: its release token leaves port b (R298). -/
def dropRelease (x : Elem) (f : Firing) : Elem :=
  { x with store := x.store.filter fun y => !(y.slot == f.slot && y.port && (match f.b with | some t => y.tok == t | none => false)) }

/-- DELAY (R298). -/
def execDelay (s : State) : Out :=
  withFiring s fun s _ _ f => match f.a, f.b with
    | some a, some b =>
      let p := pairFor (elemAt s f.st f.elem) f.word f.slot a
      if a.kind = 8 then sendAll s f (both a 1) false
      else if a.kind = 0 then
        sendAll (keepPair s f a { p with next := a.seq + 1, left := p.left + 1 }) f
          [(0, a, 1), (1, { b with act := a.act, iter := a.iter, seq := a.seq }, 1)] true
      else if levelOf f ≤ a.closes then
        let s := keepPair s f a { p with next := a.seq + 1, left := 0, grp := p.grp + 1 }
        sendAll (modElem s f.st f.elem fun x => dropRelease x f) f (both (kindTok a.kind a) 1) false
      else sendAll (keepPair s f a { p with next := a.seq + 1 }) f [(0, kindTok a.kind a, 1)] false
    | _, _ => s

/-! ### STREAM -/

/-- Tokens that a stream of n groups emits: End-of-row after every r of them, and End-of-stream (R303). -/
def streamLength (n r : Nat) : Nat := n + (if r = 0 then 0 else n / r) + 1

/-- The stream of a slot goes on by one token. -/
def streamNext (s : State) (pn : Nat) (c : Consist) (f : Firing) (p : Pair) : State :=
  match p.toks with
  | [] => s
  | t :: _ =>
    let port := bits f.word.imm.toNat 2 0
    let r := bits f.word.imm.toNat 10 3
    let fault (s : State) : State := faultAct s pn c.cid t.act 0x13 f.st f.elem f.slot t.iter 0
    let put (s : State) (q : Pair) : State := modElem s f.st f.elem fun x => if q.left = 0 then dropPair x q else putPair x q
    let q := { p with left := p.left - 1, out := p.out + 1 }
    if p.left = 1 then sendAll (put s q) f (both { kindTok 9 t with seq := p.out } 1) false
    else if r ≠ 0 ∧ p.next.toNat = r then sendAll (put s { q with next := 0 }) f (both { kindTok 1 t with seq := p.out } 1) false
    else if !graphEnd (portAt s f.st port).cons then fault s
    else match portPop s f.st port 1 with
      | some ([(d, v)], s) =>
        let out := { t with pay := lanesFrom v (fun j => (d.extractLsb' (32 * j) 32).toNat), valid := 0xFF, kind := 0, seq := p.out }
        sendAll (put s { q with next := p.next + 1 }) f (both out 1) true
      | _ => s

/-- STREAM (R303, R388). -/
def execStream (s : State) : Out :=
  withFiring s fun s pn c f =>
    let port := bits f.word.imm.toNat 2 0
    if f.word.mod.getLsbD 0 then
      match f.a.filter (·.kind == 9) with
      | some a => sendAll s f [(0, kindTok 9 a, 1)] false
      | none => byKind s pn c f 1 fun a _ =>
        if !graphEnd (portAt s f.st port).prod then fireFault s pn c f 0x13 0
        else match portPush s f.st port [(lanesFrom a.valid a.laneN, a.valid)] with
          | some s => sendAll s f [] true
          | none => s
    else match f.a, emitting (elemAt s f.st f.elem) f.slot with
      | some _, _ => byKind s pn c f 1 fun a _ =>
        if !graphEnd (portAt s f.st port).cons then fireFault s pn c f 0x13 0
        else
          let n := if a.valid.getLsbD 0 then a.laneN 0 else 0
          let p : Pair := { slot := f.slot, act := a.act, iter := a.iter, left := streamLength n (bits f.word.imm.toNat 10 3),
                            toks := [a], arr := s.time }
          sendAll (modElem s f.st f.elem fun x => putPair x p) f [] true
      | none, some p => streamNext s pn c f p
      | none, none => s

end Sys2Proof.Machine
end

