-- ==== Sys2Proof/Machine/GraphTile.lean ====
section
/-! DEFINITION. TILEPUT and TILEGET (R305, R306), RETURN (R308), CALLOUT (R66, R309), and the tokens that reach matching stores and
converters (R19, R106, R116, R308). -/

namespace Sys2Proof.Machine

/-! ### Tile slots -/

/-- The slot that a TILEPUT or TILEGET names. -/
def tileNo (f : Firing) : Nat := bits f.word.imm.toNat 3 0

/-- A data token of a TILEPUT: the tile's first token opens the slot, and each is written at its place (R305). -/
def tilePutData (s : State) (pn : Nat) (c : Consist) (f : Firing) (a : Token) (p : Pair) : State :=
  let n := tileNo f
  let s := if p.base.isNone then modTile s f.st n fun t => { t with tag := .filling, eng := true } else s
  let first : Half := (p.base.getD (a.seq.setWidth 64)).truncate 16
  let off := 32 * (a.seq - first).toNat
  if 2 ^ 15 ≤ off then fireFault s pn c f 0x13 0
  else if p.toks.any fun t => t.sc != a.sc then fireFault s pn c f 0x0D 0
  else
    let s := writeBytes s 2000 (tileKey f.st n off) 32 (lanesFrom a.valid a.laneN).toNat 0
    let p := { p with next := a.seq + 1, base := some (first.setWidth 64), toks := if p.toks.isEmpty then [kindTok 0 a] else p.toks }
    sendAll (keepPair s f a p) f [] true

/-- TILEPUT (R305): a marker of level 2 or above, or End-of-stream, closes an open tile. -/
def execTileput (s : State) : Out :=
  withFiring s fun s pn c f => match f.a with
    | none => s
    | some a =>
      let p := pairFor (elemAt s f.st f.elem) f.word f.slot a
      if a.kind = 8 then sendAll s f (both a 1) false
      else if a.kind = 0 then tilePutData s pn c f a p
      else
        let last := decide (3 ≤ a.closes)
        let s := if p.base.isSome ∧ 2 ≤ a.closes then
            fillSlot s f.st (tileNo f) a.iter p.out last ((p.toks.head?.map (·.sc)).getD false)
          else s
        let q := if a.closes < 2 then p
          else { p with base := none, toks := [], out := if last then 0 else if p.base.isSome then p.out + 1 else p.out }
        sendAll (keepPair s f a { q with next := a.seq + 1 }) f (both (kindTok a.kind a) 1) false

/-- A TILEGET goes on by one token; the End-of-tile ends the drain (R306). -/
def tileGetNext (s : State) (f : Firing) (p : Pair) : State :=
  match p.toks with
  | [] => s
  | t :: _ =>
    let n := tileNo f
    if p.left = 1 then
      let s := modElem s f.st f.elem fun x => dropPair x p
      settleSlot (sendAll s f (both { kindTok 2 t with seq := p.out } 1) false) f.st n
    else
      let d := rdN s (tileKey f.st n (32 * p.out.toNat)) 32
      let out := { t with pay := BitVec.ofNat 256 d, valid := 0xFF, kind := 0, seq := p.out, fmt := f.word.mod.extractLsb' 0 3 }
      sendAll (modElem s f.st f.elem fun x => putPair x { p with left := p.left - 1, out := p.out + 1 }) f (both out 1) true

/-- TILEGET (R306). -/
def execTileget (s : State) : Out :=
  withFiring s fun s pn c f =>
    match f.a, emitting (elemAt s f.st f.elem) f.slot with
    | some _, _ => byKind s pn c f 1 fun a _ =>
      let n := tileNo f
      let p : Pair := { slot := f.slot, act := a.act, iter := a.iter, left := bits f.word.imm.toNat 13 4 + 2,
                        toks := [{ a with sc := (tileAt s f.st n).sc }], arr := s.time }
      let s := modElem (modTile s f.st n fun t => { t with tag := .draining }) f.st f.elem fun x => putPair x p
      sendAll s f [] true
    | none, some p => tileGetNext s f p
    | none, none => s

/-! ### RETURN and CALLOUT -/

/-- RETURN (R308): the activation ends once its store-acknowledgement count is zero (R68). -/
def execRet (s : State) : Out :=
  withFiring s fun s pn c f => byKind s pn c f 1 fun a _ =>
    let s := sendAll s f [] true
    let s := modAct s pn c.cid a.act fun x => { x with ret := some (x.ret.getD (pairWord a 0, pairWord a 2)) }
    checkAct s pn c.cid a.act

/-- The packet of a callout thread (R66). -/
def calloutPacket (s : State) (pn : Nat) (c : Consist) (st : Nat) (pc : DWord) (args : List DWord) (fr : FrameRef) (caller : Caller)
    (launch : Option Nat) : Packet :=
  let prio := BitVec.ofNat 2 (pfield (part s pn) 36 1)
  let new : Thread := { prio := prio, bprio := prio, pc := pc, co := true }
  let target := if c.cstn = 0xFFFF then st else c.cstn.toNat
  { pcsw := pcswOf new, pw := pwOf new, g := padTo 10 0 args, sset := c.csset, kind := 2, target := BitVec.ofNat 16 target, ext := [0, 0]
    tvec := ((getThr s (part s pn).supervisor).map (·.tvec)).getD 0, launch := launch, source := st, coframe := some fr
    cocall := some caller }

/-- The call of a CALLOUT, its pointer and arguments known (R66, R309). -/
def calloutGo (s : State) (pn : Nat) (c : Consist) (f : Firing) (x : Act) (ptr : DWord) (args : List DWord) : State :=
  let caller := Caller.graph pn c.cid f.act f.iter f.st f.elem f.word.d0
  if badTag ptr then fireFault s pn c f 0x1D 0
  else if bits ptr.toNat 63 62 = 1 then
    if (frameVa s pn f.st 0).isNone then fireFault s pn c f 0x03 0
    else
      let id := freshId s
      let w : CallWait := { n := id.1, part := pn, ptr := ptr, caller := caller, station := f.st, args := args, launch := x.launch }
      callAgain (modPart id.2 pn fun p => { p with calls := p.calls ++ [w] }) pn w
  else match porlekEntry (vget (segSet s pn c.csset.toNat) 0) ptr with
    | .error e => fireFault s pn c f e 0
    | .ok pc => match frameTake s pn f.st with
      | none => fireFault s pn c f 0x03 0
      | some (fr, s) =>
        match frameStart s pn fr caller ptr (retWord f.st f.elem f.word.d0) args with
        | (s, some e) => frameFree (fireFault s pn c f e.cause e.addr) pn fr
        | (s, none) =>
          let k := calloutPacket s pn c f.st pc args fr caller x.launch
          sendPacket s f.st k.target.toNat pn k .spawnDelivery

/-- CALLOUT (R309). -/
def execCallout (s : State) : Out :=
  withFiring s fun s pn c f => byKind s pn c f 1 fun a b =>
    let s := sendAll s f [] true
    if !(a.valid.getLsbD 0 && a.valid.getLsbD 1) then fireFault s pn c f 0x1D 0
    else match actOf c f.act with
      | none => s
      | some x => calloutGo s pn c f x (pairWord a 0) (padTo 8 0 ((List.range 4).map fun k => pairWord b (2 * k)))

/-! ### Arrivals -/

/-- TOKEN_ARRIVAL (R106). -/
def execTokenArrival (s : State) : Out := onEvent s fun e => match e with
  | .tokenArrival st el slot port t => some (arrive s st el slot port t)
  | _ => none

/-- RETURN_TOKEN_ARRIVAL (R308 step 4): the token goes on to the CALLOUT's dest0, by a route end as its element's rank allows; it waits
while its tile stands still (R316). -/
def execReturnTokenArrival (s : State) : Out := onEvent s fun e => match e with
  | .returnTokenArrival st el d t => some (match tileOwner s st with
    | none => s
    | some (pn, c) =>
      if (actOf c t.act).isNone then s
      else if tileStopped s pn c st el then later s 1 (.returnTokenArrival st el d t)
      else if !destK d then arrive s st (destE d) (destSlot d) (destP d) t
      else sendLate s st el [(d, t)])
  | _ => none

/-- A packet enters the reorder window of 64 tokens at the far end of a pair, and what has become next goes on (R19 step 2). -/
def legWindow (s : State) (id stage : Nat) (n : Half) (t : Token) : State :=
  match legOf s id with
  | none => s
  | some (pn, cid, g) =>
    let w := if stage = 0 then g.window else g.window2
    let e := if stage = 0 then g.expect else g.expect2
    if g.dead || decide (64 ≤ (n - e).toNat) || w.any fun x => x.1 == n then s
    else if stage = 0 then legDrain id 64 (modLeg s pn cid id fun x => { x with window := x.window ++ [(n, t)] })
    else legIn id 64 (modLeg s pn cid id fun x => { x with window2 := x.window2 ++ [(n, t)] })

/-- CONVERTER_TOKEN (R19): a token at the near converter of its leg, or its packet at a far one. -/
def execConverterToken (s : State) : Out := onEvent s fun e => match e with
  | .converterToken id stage n t _ => some (if stage < 2 then legWindow s id stage n t
    else match legOf s id with
      | some (pn, cid, g) => legNear s pn cid g t
      | none => s)
  | _ => none

/-- A place in the window of a leg's pair frees, and what waited for it goes on (R19 step 3). -/
def legAcked (s : State) (id stage : Nat) : State :=
  match legOf s id with
  | none => s
  | some (pn, cid, _) =>
    if stage = 0 then legIn id 64 (legFree id 64 (modLeg s pn cid id fun x => { x with unacked := x.unacked - 1 }))
    else legDrain id 64 (modLeg s pn cid id fun x => { x with unacked2 := x.unacked2 - 1 })

/-- CONVERTER_ACK (R19 step 3). -/
def execConverterAck (s : State) : Out := onEvent s fun e => match e with
  | .converterAck id stage => some (legAcked s id stage)
  | _ => none

/-- INBOUND_LEG_CLAIM (R116): the far consist claims the leg, and its tokens may go; or it has gone, and they wait again. -/
def execInboundLegClaim (s : State) : Out := onEvent s fun e => match e with
  | .inboundLegClaim pn _ cid id on => some (legFree id 64 (modLeg s pn cid id fun x => { x with claimed := on }))
  | _ => none

end Sys2Proof.Machine
end

