-- ==== Sys2Proof/Machine/Rake.lean ====
section
/-! DEFINITION. The functions of RAKE (R410 to R413). -/

namespace Sys2Proof.Machine

/-- The RAKE fault, taken precisely (R411). -/
def rakeTrap (th : Thread) : Res := .error (trapOp th 0x1B)

/-- The answer of the rake table (R411). -/
def rakeAnswer (s : State) (th : Thread) (d : BitVec 5) (v : DWord) : State :=
  let th := (getThr s th.tid).getD th
  answer s th d v (classOf th.station (rakeTable s (tidPart th.tid)))

/-- The station that holds the rake table is dead: a use of a rake takes DEAD_AGENT (R501). -/
def deadTable (s : State) (th : Thread) : Bool := (stn s (rakeTable s (tidPart th.tid))).dead

/-- A function of RAKE on the live rake that a register names (R411). -/
def withRake (s : State) (th : Thread) (a : BitVec 5) (k : Half → Rake → Res) : Res :=
  let id : Half := (rg th a).truncate 16
  if deadTable s th then .error { trapOp th 0x0A with finfo := 6 }
  else match rakeFind s (tidPart th.tid) id with
  | none => rakeTrap th
  | some r => k id r

/-- RKNEW (R53, R411). -/
def execRknew (w : Bool) (d : BitVec 5) (j : Bool) (s : State) : Out :=
  issue w s fun s th =>
    let pn := tidPart th.tid
    if deadTable s th then .error { trapOp th 0x0A with finfo := 6 }
    else if j && decide (8 ≤ th.rakes.length) then rakeTrap th
    else match rakeNew s pn with
      | none => .ok (rakeAnswer s th d 0)
      | some (id, s) => .ok (rakeAnswer (if j then rakeJoin s pn th.tid id else s) th d (id.setWidth 64))

/-- RKJOIN (R411). -/
def execRkjoin (w : Bool) (a b : BitVec 5) (s : State) : Out :=
  issue w s fun s th =>
    let pn := tidPart th.tid
    let t : Word := if b = 0 then th.tid else (rg th b).truncate 32
    withRake s th a fun id r =>
      if r.members.contains t then .ok (rakeAnswer s th 0 0)
      else match getThr s t with
        | none => rakeTrap th
        | some o =>
          if tidPart t ≠ pn ∨ !o.st.live ∨ 8 ≤ o.rakes.length then rakeTrap th
          else .ok (rakeAnswer (rakeJoin s pn t id) th 0 0)

/-- RKLEAVE (R411). -/
def execRkleave (w : Bool) (a : BitVec 5) (s : State) : Out :=
  issue w s fun s th => withRake s th a fun id r =>
    if !r.members.contains th.tid then rakeTrap th
    else .ok (rakeAnswer (rakeLeave s (tidPart th.tid) th.tid id false) th 0 0)

/-- RKFREE (R411). -/
def execRkfree (w : Bool) (a : BitVec 5) (s : State) : Out :=
  issue w s fun s th => withRake s th a fun id r =>
    if !r.members.contains th.tid && !th.sup then rakeTrap th
    else .ok (rakeAnswer (rakeFree s (tidPart th.tid) id) th 0 0)

/-- BAR (R54, R345, R412): a marker, the release when the mask names path T, then the arrival. -/
def execBar (_w : Bool) (d a : BitVec 5) (m : BitVec 6) (s : State) : Out :=
  issue true s fun s th => withRake s th a fun id r =>
    if !r.members.contains th.tid then rakeTrap th
    else
      let arrive (s : State) : State :=
        let pn := tidPart th.tid
        let th := (getThr s th.tid).getD th
        let i := bits id.toNat 9 0
        let s := startWait s th (.bar id d m) .barrier false
        barCheck (modRake s pn i fun r => { r with arrived := r.arrived ++ [th.tid] }) pn i
      if m.getLsbD 0 then match release s th false with
        | (some s, _) => .ok (arrive s)
        | (none, s) => .ok s
      else .ok (arrive s)

/-- The word of BARSTAT (R413). -/
def barWord (r : Rake) (k : Bool) : DWord :=
  BitVec.ofNat 64 (b2n r.broken * 2 ^ 63 + if k then r.lost.toNat else r.arrived.length * 2 ^ 32 + r.members.length)

/-- BARSTAT (R413). -/
def execBarstat (w : Bool) (d a : BitVec 5) (k : Bool) (s : State) : Out :=
  issue w s fun s th => withRake s th a fun _ r => .ok (rakeAnswer s th d (barWord r k))

/-- RKFIX (R55, R413): the mark and the lost-member id are cleared after the read. -/
def execRkfix (w : Bool) (d a : BitVec 5) (k : Bool) (s : State) : Out :=
  issue w s fun s th => withRake s th a fun id r =>
    let s := modRake s (tidPart th.tid) (bits id.toNat 9 0) fun r => { r with broken := false, lost := 0 }
    .ok (rakeAnswer s th d (barWord r k))

end Sys2Proof.Machine
end

