-- ==== Sys2Proof/Machine/Schd.lean ====
section
/-! DEFINITION. The functions of SCHD (R430 to R434) and the report of a coverage-map write that failed (R423). -/

namespace Sys2Proof.Machine

/-- A function of SCHD on the cluster that a word names: one outside the partition takes SEG_RIGHTS (R430). -/
def withCluster (s : State) (th : Thread) (c : Nat) (k : Res) : Res :=
  if (part s (tidPart th.tid)).hasCluster c then k else .error (trapOp th 0x04)

/-- The cluster of a register (R430). -/
def clusterArg (th : Thread) (a : BitVec 5) : Nat := bits (rg th a).toNat 5 0

/-- The class of an answer of a cluster's unit (R22). -/
def unitClass (th : Thread) (c : Nat) : Nat := distClass th.station (clusStation c)

/-- SBWR (R431): word 0's GEN bits are ignored. -/
def execSbwr (w : Bool) (a b : BitVec 5) (n : BitVec 4) (k : BitVec 3) (s : State) : Out :=
  issue w s fun s th =>
    let c := clusterArg th b
    withCluster s th c <|
      let v := if n = 0 then rg th a &&& 0x0000FFFFFFFFFFFF else rg th a
      .ok (setThr (modSb s c (tidPart th.tid) k.toNat fun x => { x with staged := vset x.staged n.toNat v }) (nextPc th))

/-- The word that SBRD returns: a staged or committed word, the committed word 0 with the applied GEN (R431). -/
def sbReadWord (x : SBlock) (n : Nat) (staged : Bool) : DWord :=
  if staged then vget x.staged n
  else if n = 0 then (vget x.comm 0 &&& 0x0000FFFFFFFFFFFF) ||| (x.gen.setWidth 64 <<< 48)
  else vget x.comm n

/-- SBRD (R431, R71): a long operation. -/
def execSbrd (w : Bool) (d a : BitVec 5) (n : BitVec 4) (k : BitVec 3) (s : State) : Out :=
  issue w s fun s th =>
    let c := clusterArg th a
    withCluster s th c <|
      let staged := (rg th a).getLsbD 8
      let r := combine s th [0, c, k.toNat, n.toNat, b2n staged] fun s =>
        (s, sbReadWord (sbGet s c (tidPart th.tid) k.toNat) n.toNat staged)
      .ok (longResult r.1 th { id := 0, pc := th.pc, dest := .g d, res := [(0, r.2)] } (unitClass th c))

/-- SBCOMMIT (R432). -/
def execSbcommit (w : Bool) (d a : BitVec 5) (k : BitVec 3) (s : State) : Out :=
  issue w s fun s th =>
    let c := clusterArg th a
    withCluster s th c <| match sbCommit s c (tidPart th.tid) k.toNat th.tid with
      | none => .error (trapOp th 0x14)
      | some (s, g) => .ok (answer s th d (BitVec.ofNat 64 g) (unitClass th c))

/-- TGET (R433): a long operation whose eight words go to g1 to g8. -/
def execTget (w : Bool) (a : BitVec 5) (k : BitVec 3) (s : State) : Out :=
  issue w s fun s th =>
    let c := clusterArg th a
    withCluster s th c <| match tget s c (tidPart th.tid) k.toNat th.station th.tid with
      | (s, l) =>
        let res := (List.range 8).map fun i => (i, l.getD i 0)
        .ok (longResult s th { id := 0, pc := th.pc, dest := .tget, res := res } (unitClass th c))

/-- TDONE and TRET (R434). -/
def ticketOp (w : Bool) (d a b : BitVec 5) (isDone : Bool) (s : State) : Out :=
  issue w s fun s th =>
    let c := bits (rg th a).toNat 21 16
    withCluster s th c <| match ticketEnd s (tidPart th.tid) th.tid (rg th a) (rg th b) isDone with
      | none => .error (trapOp th 0x1A)
      | some (s, v) => .ok (answer s th d (BitVec.ofNat 64 v) (unitClass th c))

/-- TDONE (R434). -/
def execTdone (w : Bool) (d a b : BitVec 5) (s : State) : Out := ticketOp w d a b true s
/-- TRET (R434). -/
def execTret (w : Bool) (d a b : BitVec 5) (s : State) : Out := ticketOp w d a b false s

/-- MAP_WRITE_FAIL (R423): the report of a coverage-map write that failed goes to the thread concerned, or to its partition's
supervisor when that thread has ended (R70). -/
def execMapWriteFail (s : State) : Out := onEvent s fun e => match e with
  | .mapWriteFail pn c b tid cause va grain => some (report s pn tid (clusStation c)
      (reportBytes [(1, cause.toNat), (1, b), (1, c), (1, 0), (4, tid.toNat), (8, va.toNat), (4, grain)]))
  | _ => none

end Sys2Proof.Machine
end

