-- ==== Sys2Proof/Machine/Sys.lean ====
section
/-! DEFINITION. The functions of SYS: traps and the return from them, control registers, segment registers, TLBINV and REPLAY (R78,
R460, R477, R478, R484, R487, R505 to R508). -/

namespace Sys2Proof.Machine

/-! ### TRAP and ERET -/

/-- TRAP (R506). -/
def execTrap (w : Bool) (c : BitVec 12) (s : State) : Out :=
  issue w s fun _ th =>
    .error { cause := 0x1C, epc := th.pc, mpc := th.pc + 4, faddr := c.setWidth 64, finfo := 5 }

/-- ERET (R484): the privilege first, then the test of IN. -/
def execEret (_w : Bool) (s : State) : Out :=
  issue true s fun s th => supOnly th (if th.inh then .ok (eret s th) else .error (trapOp th 0x01))

/-! ### Control registers (R78, R477, R478) -/

/-- What a mode may do with a control register. -/
inductive CrRight where
  | no | read | write
  deriving DecidableEq, Repr

/-- The rights of user and supervisor mode to a selector; none where no register is listed (R78). -/
def crRights (sel : Nat) : Option (CrRight × CrRight) :=
  if sel = 0x000 ∨ sel = 0x001 ∨ sel = 0x002 ∨ sel = 0x005 ∨ sel = 0x008 then some (.read, .read)
  else if sel = 0x003 ∨ sel = 0x004 then some (.read, .write)
  else if sel = 0x006 ∨ sel = 0x021 ∨ sel = 0x030 ∨ sel = 0x031 ∨ (0x010 ≤ sel ∧ sel ≤ 0x015) then some (.no, .write)
  else if sel = 0x007 ∨ sel = 0x020 ∨ sel = 0x022 then some (.write, .write)
  else none

/-- The value of a control register (R130, R134, R477, R478). -/
def crValue (s : State) (th : Thread) (sel : Nat) : DWord :=
  let p := part s (tidPart th.tid)
  let x := stn s th.station
  match sel with
  | 0x000 => th.tid.setWidth 64
  | 0x001 => BitVec.ofNat 64 (b2n p.lockstep * 32 + b2n p.timed * 16 + tidPart th.tid)
  | 0x002 => BitVec.ofNat 64 (dieOf th.station * 2 ^ 16 + clusterOf th.station * 2 ^ 8 + th.station)
  | 0x003 => BitVec.ofNat 64 (b2n th.inh * 16 + b2n th.co * 8 + b2n th.te * 4 + b2n th.ps * 2 + b2n th.sup)
  | 0x004 => BitVec.ofNat 64 (th.bprio.toNat * 4 + th.prio.toNat)
  | 0x005 => BitVec.ofNat 64 s.time
  | 0x006 => x.quantum.setWidth 64
  | 0x007 => th.wlimit.setWidth 64
  | 0x008 => BitVec.ofNat 64 th.mbox.length
  | 0x010 => th.cause
  | 0x011 => th.epc
  | 0x012 => th.mpc
  | 0x013 => th.faddr
  | 0x014 => th.finfo
  | 0x015 => th.tvec
  | 0x020 => th.fpcsr
  | 0x021 => BitVec.ofNat 64 x.arrcap
  | 0x022 => th.srseed.setWidth 64
  | 0x030 => p.segtab
  | 0x031 => BitVec.ofNat 64 (p.key * 2 ^ 56 + p.ptroot.toNat % 2 ^ 56)
  | _ => 0

/-- cr.fpcsr after a CRW (R130): RM 6 and 7 leave RM and set RMERR. -/
def fpcsrNew (old v : DWord) : DWord :=
  let rm := bits v.toNat 2 0
  if 6 ≤ rm then BitVec.ofNat 64 (bits v.toNat 9 5 * 32 + 2 ^ 15 + bits old.toNat 2 0)
  else v &&& 0x83E7

/-- A control register written: reserved bits are ignored (R3, R46, R134, R477, R478). -/
def crWrite (s : State) (th : Thread) (sel : Nat) (v : DWord) : State :=
  let pn := tidPart th.tid
  match sel with
  | 0x003 => setThr s { th with inh := v.getLsbD 4, te := v.getLsbD 2, ps := v.getLsbD 1 }
  | 0x004 => setThr s { th with bprio := v.extractLsb' 2 2, prio := v.extractLsb' 0 2 }
  | 0x006 => modStn (setThr s th) th.station fun x => { x with quantum := v.truncate 32 }
  | 0x007 => setThr s { th with wlimit := v.truncate 32 }
  | 0x010 => setThr s { th with cause := v &&& 0x1FF }
  | 0x011 => setThr s { th with epc := pcBits v }
  | 0x012 => setThr s { th with mpc := pcBits v }
  | 0x013 => setThr s { th with faddr := v }
  | 0x014 => setThr s { th with finfo := v &&& 0xFFFFFFFFFFF }
  | 0x015 => setThr s { th with tvec := pcBits v }
  | 0x020 => setThr s { th with fpcsr := fpcsrNew th.fpcsr v }
  | 0x021 => modStn (setThr s th) th.station fun x =>
      if 1 ≤ v.toNat ∧ v.toNat ≤ 48 then { x with arrcap := v.toNat } else x
  | 0x022 => setThr s { th with srseed := v.truncate 32, gens := seeded (v.truncate 32) }
  | 0x030 => modPart (setThr s th) pn fun p => { p with segtab := v &&& 0x1FFFFFFFFFFFFFC0 }
  | 0x031 => modPart (setThr s th) pn fun p => { p with ptroot := v &&& 0x000FFFFFFFFFF000 }
  | _ => setThr s th

/-- CRR (R78, R506). -/
def execCrr (w : Bool) (d : BitVec 5) (x : BitVec 12) (s : State) : Out :=
  issue w s fun s th => match crRights x.toNat with
    | none => .error (trapOp th 0x01)
    | some r =>
      if (if th.sup then r.2 else r.1) = .no then .error (trapOp th 0x02)
      else .ok (setThr s (nextPc (wg th d (crValue s th x.toNat))))

/-- CRW (R78, R506): a register that the mode only reads is illegal for a supervisor and privileged for a user. -/
def execCrw (w : Bool) (a : BitVec 5) (x : BitVec 12) (s : State) : Out :=
  issue w s fun s th => match crRights x.toNat with
    | none => .error (trapOp th 0x01)
    | some r => match (if th.sup then r.2 else r.1) with
      | .no => .error (trapOp th 0x02)
      | .read => .error (trapOp th (if th.sup then 0x01 else 0x02))
      | .write => .ok (crWrite s (nextPc th) x.toNat (rg th a))

/-! ### Segment registers (R507) -/

/-- What fails a read of a segment table's entry at its home (R322, R501, R507). -/
def tableFault (s : State) (pn i : Nat) : Option DFault :=
  let key := memKey s (bits (part s pn).segtab.toNat 51 6 * 64 + 16 * i)
  homeFault s (homeOf s pn key false) key 16 0

/-- SEGSET (R507): a marker, then its checks in its own order; the thread stays parked until the register is loaded. -/
def execSegset (_w : Bool) (a : BitVec 5) (n : BitVec 3) (s : State) : Out :=
  issue true s fun s th =>
    let p := part s (tidPart th.tid)
    let i := (rg th a).toNat
    let g := { tableSeg s (tidPart th.tid) i with bySet := true, seal_ := sealedSeg s (tidPart th.tid) (tableSeg s (tidPart th.tid) i) }
    if p.segCount ≤ i then .error (trapOp th 0x03)
    else if (tableFault s (tidPart th.tid) i).isSome then .error (trapOp th (((tableFault s (tidPart th.tid) i).map (·.cause)).getD 0))
    else if g.sup && !th.sup then .error (trapOp th 0x02)
    else if !g.ok p.ssq then .error (trapOp th 0x04)
    else .ok (answer (tableRead s (tidPart th.tid) (16 * i) 16) { th with seg := vset th.seg n.toNat g } 0 0 1560)

/-- SEGGET (R507). -/
def execSegget (w : Bool) (d : BitVec 5) (h : Bool) (n : BitVec 3) (s : State) : Out :=
  issueThr w s fun th => wg th d ((rseg th n).desc.extractLsb' (if h then 64 else 0) 64)

/-! ### TLBINV (R460, R461, R508) -/

/-- Footprint copies of a range are dropped (R460). -/
def dropFoot (s : State) (pn lo hi : Nat) : State :=
  { s with threads := s.threads.map fun e =>
      if tidPart e.2.tid = pn ∧ !e.2.foot.isEmpty then
        (e.1, { e.2 with foot := e.2.foot.map fun f => { f with copy := f.copy.filter fun b => !(lo ≤ b.1 && b.1 < hi) } })
      else e }

/-- The clusters of a partition's rectangle. -/
def Partition.clusterList (p : Partition) : List Nat := (List.range 64).filter p.hasCluster

/-- Steps 1 and 2 of R460 for a range of a partition's addresses: sectors go home under the old translation, then translations,
instruction lines, L1 lines and footprint copies of the range are dropped. -/
def invalRange (s : State) (pn lo hi : Nat) : State :=
  let p := part s pn
  let meets (a n : Nat) : Bool := decide (a < hi) && decide (lo < a + n)
  let s := p.rectangle.foldl (fun s st => drainWhere s st fun c => c.part == pn && meets (64 * c.line) 64) s
  let s := p.clusterList.foldl (fun s c => modClus s c fun x =>
    { x with tlb := x.tlb.filter fun t => !(t.part == pn && meets (t.vpn * 2 ^ t.size) (2 ^ t.size)) }) s
  let gone (l : L1Line) : Bool := l.part == pn && meets (256 * l.line) 256
  let s := p.rectangle.foldl (fun s st =>
    let s := dropLines (icKill s st fun q l => q == pn && meets (64 * l) 64) st gone
    modStn s st fun x => { x with l1 := x.l1.filter fun l => !gone l }) s
  let walks (r : Req) : Bool := r.part == pn && r.pa.isNone && decide (2 ≤ r.walk)
  let fill (r : Req) : Bool := r.kind == .fill && r.part == pn && meets (r.va.toNat / 256 * 256) 256
  let mark (r : Req) : Req :=
    { r with stale := if walks r then (lo, hi) :: r.stale else r.stale, dropped := r.dropped || fill r }
  dropFoot { s with reqs := s.reqs.map fun e => (e.1, mark e.2) } pn lo hi

/-- Waiting page faults of a partition's graph nodes are tried again (R301). -/
def retryFaults (s : State) (pn : Nat) : State :=
  s.gaccs.foldl (fun s g => if g.2.part == pn && !g.2.faulted.isEmpty then later s 1 (.graphFaultRetry g.1) else s) s

/-- TLBINV of a range: the caller parks until a drain token of every cluster memory port and every stream port has reached the
memory edge (R460). -/
def tlbInval (s : State) (th : Thread) (lo hi : Nat) : State :=
  let pn := tidPart th.tid
  let s := invalRange s pn lo hi
  let id := freshId s
  let n := id.1
  let s := parkThr id.2 { th with wait := some { on := .inval n, pc := th.pc, id := n, since := s.time } } .marker
  let tokens := (part s pn).clusterList.length + 8 * (part s pn).stations.length
  let s := modPart s pn fun p => { p with drains := p.drains ++ [{ n := n, left := tokens, tid := th.tid }] }
  (List.range tokens).foldl (fun s _ => within s 2400 (.drainTokenArrival pn n)) s

/-- TLBINV (R508). -/
def execTlbinv (_w : Bool) (a : BitVec 5) (u : BitVec 2) (c : BitVec 9) (s : State) : Out :=
  issue true s fun s th => supOnly th <|
    let va := (rg th a).toNat
    let size := match u.toNat with | 0 => 12 | 1 => 16 | 2 => 21 | _ => 30
    let hi := va + (c.toNat + 1) * 2 ^ size
    if va % 2 ^ size ≠ 0 then .error (trapAt th 0x05 (rg th a))
    else if 2 ^ 56 ≤ va ∨ 2 ^ 56 < hi then .error (trapAt th 0x03 (rg th a))
    else .ok (tlbInval s th va hi)

/-- TLBINV with ALL = 1 (R508): the whole partition. -/
def execTlbinvAll (_w : Bool) (s : State) : Out :=
  issue true s fun s th => supOnly th (.ok (tlbInval s th 0 (2 ^ 56)))

/-- A drain token reaches the memory edge behind the requests already translated; the last one completes the TLBINV (R460). -/
def drainArrived (s : State) (pn n : Nat) : State :=
  let ahead (r : Req) : Bool := r.part == pn && r.id < n && r.pa.isSome
  match (part s pn).drains.find? (·.n == n) with
  | none => s
  | some x =>
    if s.reqs.any (fun r => ahead r.2) || s.waits.any ahead || s.rsv.any (fun e => e.2.queue.any ahead) then later s 1 (.drainTokenArrival pn n)
    else if 1 < x.left then
      modPart s pn fun p => { p with drains := p.drains.map fun y => if y.n = n then { y with left := y.left - 1 } else y }
    else
      let s := modPart s pn fun p => { p with drains := p.drains.filter (·.n != n) }
      let s := retryFaults s pn
      match getThr s x.tid with
      | some th => (match th.wait with
        | some { on := .inval m, pc := _, id := _, since := _, retry := _ } => if m = n then wakeThr s (nextPc th) else s
        | _ => s)
      | none => s

/-- DRAIN_TOKEN_ARRIVAL (R460). -/
def execDrainTokenArrival (s : State) : Out := onEvent s fun e => match e with
  | .drainTokenArrival pn n => some (drainArrived s pn n)
  | _ => none

/-! ### REPLAY (R487) -/

/-- REPLAY (R487): the access that the fault registers describe is issued again; the thread stays parked at the instruction until it
has ended. -/
def execReplay (_w : Bool) (d : BitVec 5) (s : State) : Out :=
  issue true s fun s th => supOnly th <|
    let kind := bits th.finfo.toNat 7 0
    match th.cur with
    | some k =>
      if !th.inh || (kind != 0 && kind != 4) || k.replayed then .ok (setThr s (nextPc (wg th d 0xFF)))
      else
        let s := issueAccess s th th.pc k.acc (some d)
        let th := (getThr s th.tid).getD th
        .ok (drainFor (parkThr s th .marker) th)
    | none => .ok (setThr s (nextPc (wg th d 0xFF)))

end Sys2Proof.Machine
end

