-- ==== Sys2Proof/Machine/VecMem.lean ====
section
/-! DEFINITION. Vector loads and stores (R363 to R365). -/

namespace Sys2Proof.Machine

/-- The element accesses of the enabled lanes, or the trap of the lowest one that fails (R364). -/
def laneEls (s : State) (th : Thread) (a : Access) (wr : Bool) (off : Nat → DWord) (v : Nat → DWord) :
    List Nat → Except PendTrap (List El)
  | [] => .ok []
  | i :: l =>
    match segCheck s (tidPart th.tid) a.seg (off i).toNat a.z wr with
    | some c => .error (trapAcc th c a (vaOf a.seg (off i)) i)
    | none => (laneEls s th a wr off v l).map (elAt a.seg i (off i) (v i) :: ·)

/-- A vector access issued (R364). -/
def vecAccess (s : State) (th : Thread) (a : Access) (m : BitVec 16) (wr : Bool) (off : Nat → DWord) (v : Nat → DWord) : Res :=
  match laneEls s th a wr off v (enabled a.half m) with
  | .error t => .error t
  | .ok els => .ok (issueAccess s (nextPc { th with unbIn := [], unbOut := [] }) th.pc { a with els := els } none)

/-- The access of a vector register: its lanes' size and its number (R477). -/
def vecAcc (th : Thread) (kind : AccKind) (d : BitVec 4) (l : Bool) (g : BitVec 3) (dest : Dest) : Access :=
  { kind := kind, z := if l then 2 else 4, seg := rseg th g, dest := dest, half := l, reg := d.setWidth 5, vec := true }

/-- Offsets of consecutive lanes, and of indexed lanes (R363). -/
def seqOff (th : Thread) (b : BitVec 5) (i : BitVec 8) (l : Bool) (n : Nat) : DWord :=
  rg th b + (i.signExtend 64 <<< 6) + BitVec.ofNat 64 (n * if l then 2 else 4)
def idxOff (th : Thread) (b : BitVec 5) (x : VReg) (h : BitVec 2) (l : Bool) (n : Nat) : DWord :=
  rg th b + (BitVec.ofNat 64 (lane l x n) <<< h.toNat)

/-- VLD (R363, R364). -/
def execVld (w : Bool) (d : BitVec 4) (i : BitVec 8) (k : BitVec 2) (l : Bool) (b : BitVec 5) (g : BitVec 3) (s : State) : Out :=
  issue w s fun s th => vecAccess s th (vecAcc th .read d l g (.v d)) (rk th k) false (seqOff th b i l) fun _ => 0

/-- VST (R363, R364): a bound source pops at issue (R365). -/
def execVst (w : Bool) (d : BitVec 4) (i : BitVec 8) (k : BitVec 2) (l : Bool) (b : BitVec 5) (g : BitVec 3) (s : State) : Out :=
  issue w s fun s th => withVec s th [d] none fun s th rd =>
    vecAccess s th (vecAcc th .write d l g .nowhere) (rk th k) true (seqOff th b i l) fun n => BitVec.ofNat 64 (lane l (rd d) n)

/-- VLDX (R363, R364): a bound index register pops at issue (R365). -/
def execVldx (w : Bool) (d x : BitVec 4) (k : BitVec 2) (l : Bool) (b : BitVec 5) (g : BitVec 3) (h : BitVec 2) (s : State) : Out :=
  issue w s fun s th => withVec s th [x] none fun s th rd =>
    vecAccess s th (vecAcc th .read d l g (.v d)) (rk th k) false (idxOff th b (rd x) h l) fun _ => 0

/-- VSTX (R363, R364): of several lanes at one place the highest is last. -/
def execVstx (w : Bool) (d x : BitVec 4) (k : BitVec 2) (l : Bool) (b : BitVec 5) (g : BitVec 3) (h : BitVec 2) (s : State) : Out :=
  issue w s fun s th => withVec s th [d, x] none fun s th rd =>
    vecAccess s th (vecAcc th .write d l g .nowhere) (rk th k) true (idxOff th b (rd x) h l) fun n =>
      BitVec.ofNat 64 (lane l (rd d) n)

end Sys2Proof.Machine
end

