-- ==== Sys2Proof/Machine/Dispatch.lean ====
section
/-! DEFINITION. Every instruction of the opcode table and its meaning. -/

namespace Sys2Proof.Machine

/-- The meaning of an instruction in a state. -/
def exec (i : Instr) (s : State) : Host.Outcome State Fault Refusal :=
  match i with
  | .add w d a b => Sys2Proof.Machine.execAdd w d a b s
  | .sub w d a b => Sys2Proof.Machine.execSub w d a b s
  | .mul w d a b => Sys2Proof.Machine.execMul w d a b s
  | .mulh w d a b => Sys2Proof.Machine.execMulh w d a b s
  | .mulhu w d a b => Sys2Proof.Machine.execMulhu w d a b s
  | .div w d a b => Sys2Proof.Machine.execDiv w d a b s
  | .divu w d a b => Sys2Proof.Machine.execDivu w d a b s
  | .rem w d a b => Sys2Proof.Machine.execRem w d a b s
  | .remu w d a b => Sys2Proof.Machine.execRemu w d a b s
  | .and w d a b => Sys2Proof.Machine.execAnd w d a b s
  | .or w d a b => Sys2Proof.Machine.execOr w d a b s
  | .xor w d a b => Sys2Proof.Machine.execXor w d a b s
  | .andn w d a b => Sys2Proof.Machine.execAndn w d a b s
  | .orn w d a b => Sys2Proof.Machine.execOrn w d a b s
  | .sll w d a b => Sys2Proof.Machine.execSll w d a b s
  | .srl w d a b => Sys2Proof.Machine.execSrl w d a b s
  | .sra w d a b => Sys2Proof.Machine.execSra w d a b s
  | .rol w d a b => Sys2Proof.Machine.execRol w d a b s
  | .ror w d a b => Sys2Proof.Machine.execRor w d a b s
  | .min w d a b => Sys2Proof.Machine.execMin w d a b s
  | .max w d a b => Sys2Proof.Machine.execMax w d a b s
  | .minu w d a b => Sys2Proof.Machine.execMinu w d a b s
  | .maxu w d a b => Sys2Proof.Machine.execMaxu w d a b s
  | .slt w d a b => Sys2Proof.Machine.execSlt w d a b s
  | .sltu w d a b => Sys2Proof.Machine.execSltu w d a b s
  | .clz w d a => Sys2Proof.Machine.execClz w d a s
  | .ctz w d a => Sys2Proof.Machine.execCtz w d a s
  | .popc w d a => Sys2Proof.Machine.execPopc w d a s
  | .brev w d a => Sys2Proof.Machine.execBrev w d a s
  | .sextB w d a => Sys2Proof.Machine.execSextB w d a s
  | .sextH w d a => Sys2Proof.Machine.execSextH w d a s
  | .sextW w d a => Sys2Proof.Machine.execSextW w d a s
  | .addi w d a i0 => Sys2Proof.Machine.execAddi w d a i0 s
  | .andi w d a i0 => Sys2Proof.Machine.execAndi w d a i0 s
  | .ori w d a i0 => Sys2Proof.Machine.execOri w d a i0 s
  | .xori w d a i0 => Sys2Proof.Machine.execXori w d a i0 s
  | .slli w d a h => Sys2Proof.Machine.execSlli w d a h s
  | .srli w d a h => Sys2Proof.Machine.execSrli w d a h s
  | .srai w d a h => Sys2Proof.Machine.execSrai w d a h s
  | .rori w d a h => Sys2Proof.Machine.execRori w d a h s
  | .slti w d a i0 => Sys2Proof.Machine.execSlti w d a i0 s
  | .sltiu w d a i0 => Sys2Proof.Machine.execSltiu w d a i0 s
  | .lui w d i0 => Sys2Proof.Machine.execLui w d i0 s
  | .addpc w d i0 => Sys2Proof.Machine.execAddpc w d i0 s
  | .fadd w d a b p r => Sys2Proof.Machine.execFadd w d a b p r s
  | .fsub w d a b p r => Sys2Proof.Machine.execFsub w d a b p r s
  | .fmul w d a b p r => Sys2Proof.Machine.execFmul w d a b p r s
  | .fdiv w d a b p r => Sys2Proof.Machine.execFdiv w d a b p r s
  | .fsqrt w d a p r => Sys2Proof.Machine.execFsqrt w d a p r s
  | .fmin w d a b p => Sys2Proof.Machine.execFmin w d a b p s
  | .fmax w d a b p => Sys2Proof.Machine.execFmax w d a b p s
  | .feq w d a b p => Sys2Proof.Machine.execFeq w d a b p s
  | .flt w d a b p => Sys2Proof.Machine.execFlt w d a b p s
  | .fle w d a b p => Sys2Proof.Machine.execFle w d a b p s
  | .fclass w d a p => Sys2Proof.Machine.execFclass w d a p s
  | .fcvtI w d a t p r => Sys2Proof.Machine.execFcvtI w d a t p r s
  | .fcvtF w d a t p r => Sys2Proof.Machine.execFcvtF w d a t p r s
  | .fmvb w d a p => Sys2Proof.Machine.execFmvb w d a p s
  | .ffma w d a b c p => Sys2Proof.Machine.execFfma w d a b c p s
  | .ffms w d a b c p => Sys2Proof.Machine.execFfms w d a b c p s
  | .fnma w d a b c p => Sys2Proof.Machine.execFnma w d a b c p s
  | .fnms w d a b c p => Sys2Proof.Machine.execFnms w d a b c p s
  | .beq w a b o => Sys2Proof.Machine.execBeq w a b o s
  | .bne w a b o => Sys2Proof.Machine.execBne w a b o s
  | .blt w a b o => Sys2Proof.Machine.execBlt w a b o s
  | .bge w a b o => Sys2Proof.Machine.execBge w a b o s
  | .bltu w a b o => Sys2Proof.Machine.execBltu w a b o s
  | .bgeu w a b o => Sys2Proof.Machine.execBgeu w a b o s
  | .jal w d o => Sys2Proof.Machine.execJal w d o s
  | .jalr w d a i0 => Sys2Proof.Machine.execJalr w d a i0 s
  | .callt w a => Sys2Proof.Machine.execCallt w a s
  | .mkfpP w d a => Sys2Proof.Machine.execMkfpP w d a s
  | .mkfpR w d a s0 => Sys2Proof.Machine.execMkfpR w d a s0 s
  | .ldb w d a g i0 => Sys2Proof.Machine.execLdb w d a g i0 s
  | .ldh w d a g i0 => Sys2Proof.Machine.execLdh w d a g i0 s
  | .ldw w d a g i0 => Sys2Proof.Machine.execLdw w d a g i0 s
  | .ldd w d a g i0 => Sys2Proof.Machine.execLdd w d a g i0 s
  | .ldbu w d a g i0 => Sys2Proof.Machine.execLdbu w d a g i0 s
  | .ldhu w d a g i0 => Sys2Proof.Machine.execLdhu w d a g i0 s
  | .ldwu w d a g i0 => Sys2Proof.Machine.execLdwu w d a g i0 s
  | .stb w r a g i0 => Sys2Proof.Machine.execStb w r a g i0 s
  | .sth w r a g i0 => Sys2Proof.Machine.execSth w r a g i0 s
  | .stw w r a g i0 => Sys2Proof.Machine.execStw w r a g i0 s
  | .std w r a g i0 => Sys2Proof.Machine.execStd w r a g i0 s
  | .ldg w d a g i0 => Sys2Proof.Machine.execLdg w d a g i0 s
  | .take w d a g => Sys2Proof.Machine.execTake w d a g s
  | .put w a b g => Sys2Proof.Machine.execPut w a b g s
  | .readf w d a g => Sys2Proof.Machine.execReadf w d a g s
  | .pset w a g => Sys2Proof.Machine.execPset w a g s
  | .pclr w a g => Sys2Proof.Machine.execPclr w a g s
  | .rsv w d a z g => Sys2Proof.Machine.execRsv w d a z g s
  | .rls w a b z g => Sys2Proof.Machine.execRls w a b z g s
  | .amoAdd w d a b z g => Sys2Proof.Machine.execAmoAdd w d a b z g s
  | .amoAnd w d a b z g => Sys2Proof.Machine.execAmoAnd w d a b z g s
  | .amoOr w d a b z g => Sys2Proof.Machine.execAmoOr w d a b z g s
  | .amoXor w d a b z g => Sys2Proof.Machine.execAmoXor w d a b z g s
  | .amoMin w d a b z g => Sys2Proof.Machine.execAmoMin w d a b z g s
  | .amoMax w d a b z g => Sys2Proof.Machine.execAmoMax w d a b z g s
  | .amoMinu w d a b z g => Sys2Proof.Machine.execAmoMinu w d a b z g s
  | .amoMaxu w d a b z g => Sys2Proof.Machine.execAmoMaxu w d a b z g s
  | .amoSwap w d a b z g => Sys2Proof.Machine.execAmoSwap w d a b z g s
  | .amoCas w d a b z g => Sys2Proof.Machine.execAmoCas w d a b z g s
  | .vld w d i0 k l b g => Sys2Proof.Machine.execVld w d i0 k l b g s
  | .vst w d i0 k l b g => Sys2Proof.Machine.execVst w d i0 k l b g s
  | .vldx w d x k l b g h => Sys2Proof.Machine.execVldx w d x k l b g h s
  | .vstx w d x k l b g h => Sys2Proof.Machine.execVstx w d x k l b g h s
  | .fenceAcq w a => Sys2Proof.Machine.execFenceAcq w a s
  | .fenceRel w a => Sys2Proof.Machine.execFenceRel w a s
  | .fenceAr w a => Sys2Proof.Machine.execFenceAr w a s
  | .fencex w p q => Sys2Proof.Machine.execFencex w p q s
  | .seal w g => Sys2Proof.Machine.execSeal w g s
  | .unseal w g => Sys2Proof.Machine.execUnseal w g s
  | .vadd w d a b k l s0 u => Sys2Proof.Machine.execVadd w d a b k l s0 u s
  | .vsub w d a b k l s0 u => Sys2Proof.Machine.execVsub w d a b k l s0 u s
  | .vmul w d a b k l s0 u => Sys2Proof.Machine.execVmul w d a b k l s0 u s
  | .vmin w d a b k l u => Sys2Proof.Machine.execVmin w d a b k l u s
  | .vmax w d a b k l u => Sys2Proof.Machine.execVmax w d a b k l u s
  | .vand w d a b k l => Sys2Proof.Machine.execVand w d a b k l s
  | .vor w d a b k l => Sys2Proof.Machine.execVor w d a b k l s
  | .vxor w d a b k l => Sys2Proof.Machine.execVxor w d a b k l s
  | .vsll w d a b k l => Sys2Proof.Machine.execVsll w d a b k l s
  | .vsrl w d a b k l => Sys2Proof.Machine.execVsrl w d a b k l s
  | .vsra w d a b k l => Sys2Proof.Machine.execVsra w d a b k l s
  | .vcmp w m a b k c u => Sys2Proof.Machine.execVcmp w m a b k c u s
  | .vfadd w d a b k l f r => Sys2Proof.Machine.execVfadd w d a b k l f r s
  | .vfsub w d a b k l f r => Sys2Proof.Machine.execVfsub w d a b k l f r s
  | .vfmul w d a b k l f r => Sys2Proof.Machine.execVfmul w d a b k l f r s
  | .vffma w d a b k l f r => Sys2Proof.Machine.execVffma w d a b k l f r s
  | .vfmin w d a b k l f => Sys2Proof.Machine.execVfmin w d a b k l f s
  | .vfmax w d a b k l f => Sys2Proof.Machine.execVfmax w d a b k l f s
  | .vfcmp w m a b k c => Sys2Proof.Machine.execVfcmp w m a b k c s
  | .vfdiv w d a b k l f r => Sys2Proof.Machine.execVfdiv w d a b k l f r s
  | .vsel w d a b k l => Sys2Proof.Machine.execVsel w d a b k l s
  | .vperm w d a b k l => Sys2Proof.Machine.execVperm w d a b k l s
  | .vbcast w d g k l h => Sys2Proof.Machine.execVbcast w d g k l h s
  | .vextr w g a n l h m x => Sys2Proof.Machine.execVextr w g a n l h m x s
  | .vins w d g n l h m => Sys2Proof.Machine.execVins w d g n l h m s
  | .vred w d a k l c => Sys2Proof.Machine.execVred w d a k l c s
  | .vcvt w d a t k s0 r => Sys2Proof.Machine.execVcvt w d a t k s0 r s
  | .vsfu w d a k f => Sys2Proof.Machine.execVsfu w d a k f s
  | .viota w d k l => Sys2Proof.Machine.execViota w d k l s
  | .kand w d a b => Sys2Proof.Machine.execKand w d a b s
  | .kor w d a b => Sys2Proof.Machine.execKor w d a b s
  | .kxor w d a b => Sys2Proof.Machine.execKxor w d a b s
  | .knot w d a => Sys2Proof.Machine.execKnot w d a s
  | .kmovKk w d a => Sys2Proof.Machine.execKmovKk w d a s
  | .kmovKg w d a => Sys2Proof.Machine.execKmovKg w d a s
  | .kmovGk w d a => Sys2Proof.Machine.execKmovGk w d a s
  | .kpopc w d a => Sys2Proof.Machine.execKpopc w d a s
  | .kmovGpw w d => Sys2Proof.Machine.execKmovGpw w d s
  | .kmovPwg w a => Sys2Proof.Machine.execKmovPwg w a s
  | .spawn w d a b t g => Sys2Proof.Machine.execSpawn w d a b t g s
  | .migr w a g => Sys2Proof.Machine.execMigr w a g s
  | .exit w a => Sys2Proof.Machine.execExit w a s
  | .join w d a => Sys2Proof.Machine.execJoin w d a s
  | .yield w => Sys2Proof.Machine.execYield w s
  | .setprio w a => Sys2Proof.Machine.execSetprio w a s
  | .rknew w d j => Sys2Proof.Machine.execRknew w d j s
  | .rkjoin w a b => Sys2Proof.Machine.execRkjoin w a b s
  | .rkleave w a => Sys2Proof.Machine.execRkleave w a s
  | .rkfree w a => Sys2Proof.Machine.execRkfree w a s
  | .bar w d a m => Sys2Proof.Machine.execBar w d a m s
  | .barstat w d a k => Sys2Proof.Machine.execBarstat w d a k s
  | .rkfix w d a k => Sys2Proof.Machine.execRkfix w d a k s
  | .monarm w a g n => Sys2Proof.Machine.execMonarm w a g n s
  | .monclr w x n => Sys2Proof.Machine.execMonclr w x n s
  | .monwait w d a => Sys2Proof.Machine.execMonwait w d a s
  | .send w d a b n => Sys2Proof.Machine.execSend w d a b n s
  | .sendHost w d a b n => Sys2Proof.Machine.execSendHost w d a b n s
  | .recv w d n => Sys2Proof.Machine.execRecv w d n s
  | .mxcfg w a b => Sys2Proof.Machine.execMxcfg w a b s
  | .mxcfgFd w b n => Sys2Proof.Machine.execMxcfgFd w b n s
  | .mxscl w a b c => Sys2Proof.Machine.execMxscl w a b c s
  | .tfull w d a s0 => Sys2Proof.Machine.execTfull w d a s0 s
  | .tempty w d s0 => Sys2Proof.Machine.execTempty w d s0 s
  | .tstat w d a c k => Sys2Proof.Machine.execTstat w d a c k s
  | .cpy w d a c => Sys2Proof.Machine.execCpy w d a c s
  | .cpyx w d a c => Sys2Proof.Machine.execCpyx w d a c s
  | .cpywp w d a c => Sys2Proof.Machine.execCpywp w d a c s
  | .strbind w a p => Sys2Proof.Machine.execStrbind w a p s
  | .strunb w p => Sys2Proof.Machine.execStrunb w p s
  | .igload w a s0 g => Sys2Proof.Machine.execIgload w a s0 g s
  | .igstart w a b g => Sys2Proof.Machine.execIgstart w a b g s
  | .igstat w d a k g => Sys2Proof.Machine.execIgstat w d a k g s
  | .sbwr w a b n k => Sys2Proof.Machine.execSbwr w a b n k s
  | .sbrd w d a n k => Sys2Proof.Machine.execSbrd w d a n k s
  | .sbcommit w d a k => Sys2Proof.Machine.execSbcommit w d a k s
  | .tget w a k => Sys2Proof.Machine.execTget w a k s
  | .tdone w d a b => Sys2Proof.Machine.execTdone w d a b s
  | .tret w d a b => Sys2Proof.Machine.execTret w d a b s
  | .collred w a => Sys2Proof.Machine.execCollred w a s
  | .collbc w a => Sys2Proof.Machine.execCollbc w a s
  | .collstat w d a => Sys2Proof.Machine.execCollstat w d a s
  | .trap w c => Sys2Proof.Machine.execTrap w c s
  | .eret w => Sys2Proof.Machine.execEret w s
  | .crr w d s0 => Sys2Proof.Machine.execCrr w d s0 s
  | .crw w a s0 => Sys2Proof.Machine.execCrw w a s0 s
  | .segset w a n => Sys2Proof.Machine.execSegset w a n s
  | .segget w d h n => Sys2Proof.Machine.execSegget w d h n s
  | .tlbinv w a u c => Sys2Proof.Machine.execTlbinv w a u c s
  | .tlbinvAll w => Sys2Proof.Machine.execTlbinvAll w s
  | .replay w d => Sys2Proof.Machine.execReplay w d s
  | .ctxsv w d a b s0 => Sys2Proof.Machine.execCtxsv w d a b s0 s
  | .ctxld w d a b s0 => Sys2Proof.Machine.execCtxld w d a b s0 s
  | .rqpush w d a b => Sys2Proof.Machine.execRqpush w d a b s
  | .rqpop w d a => Sys2Proof.Machine.execRqpop w d a s
  | .rqpopId w d a => Sys2Proof.Machine.execRqpopId w d a s
  | .rqpopKill w d a => Sys2Proof.Machine.execRqpopKill w d a s
  | .rqpeek w d a => Sys2Proof.Machine.execRqpeek w d a s
  | .pfi w a b => Sys2Proof.Machine.execPfi w a b s
  | .pfiRf w a b => Sys2Proof.Machine.execPfiRf w a b s
  | .pfd w a b s0 => Sys2Proof.Machine.execPfd w a b s0 s
  | .clean w a b s0 => Sys2Proof.Machine.execClean w a b s0 s
  | .inval w a b s0 => Sys2Proof.Machine.execInval w a b s0 s
  | .cfgload w a s0 => Sys2Proof.Machine.execCfgload w a s0 s
  | .cfgfree w a => Sys2Proof.Machine.execCfgfree w a s
  | .cfgfreeze w a b s0 => Sys2Proof.Machine.execCfgfreeze w a b s0 s
  | .cfgfreezeThaw w a => Sys2Proof.Machine.execCfgfreezeThaw w a s
  | .cfgread w d a k => Sys2Proof.Machine.execCfgread w d a k s
  | .pass => Sys2Proof.Machine.execPass s
  | .iadd => Sys2Proof.Machine.execIadd s
  | .isub => Sys2Proof.Machine.execIsub s
  | .imul => Sys2Proof.Machine.execImul s
  | .imin => Sys2Proof.Machine.execImin s
  | .imax => Sys2Proof.Machine.execImax s
  | .graphAnd => Sys2Proof.Machine.execGraphAnd s
  | .graphOr => Sys2Proof.Machine.execGraphOr s
  | .graphXor => Sys2Proof.Machine.execGraphXor s
  | .shl => Sys2Proof.Machine.execShl s
  | .shr => Sys2Proof.Machine.execShr s
  | .icmp => Sys2Proof.Machine.execIcmp s
  | .graphFadd => Sys2Proof.Machine.execGraphFadd s
  | .graphFmul => Sys2Proof.Machine.execGraphFmul s
  | .graphFfma => Sys2Proof.Machine.execGraphFfma s
  | .graphFmin => Sys2Proof.Machine.execGraphFmin s
  | .graphFmax => Sys2Proof.Machine.execGraphFmax s
  | .fcmp => Sys2Proof.Machine.execFcmp s
  | .sfu => Sys2Proof.Machine.execSfu s
  | .cvt => Sys2Proof.Machine.execCvt s
  | .scale => Sys2Proof.Machine.execScale s
  | .steer => Sys2Proof.Machine.execSteer s
  | .merge => Sys2Proof.Machine.execMerge s
  | .carry => Sys2Proof.Machine.execCarry s
  | .settag => Sys2Proof.Machine.execSettag s
  | .gettag => Sys2Proof.Machine.execGettag s
  | .const => Sys2Proof.Machine.execConst s
  | .seq => Sys2Proof.Machine.execSeq s
  | .filter => Sys2Proof.Machine.execFilter s
  | .coalesce => Sys2Proof.Machine.execCoalesce s
  | .reduce => Sys2Proof.Machine.execReduce s
  | .rowstat => Sys2Proof.Machine.execRowstat s
  | .delay => Sys2Proof.Machine.execDelay s
  | .graphLoad => Sys2Proof.Machine.execGraphLoad s
  | .graphStore => Sys2Proof.Machine.execGraphStore s
  | .graphTake => Sys2Proof.Machine.execGraphTake s
  | .graphPut => Sys2Proof.Machine.execGraphPut s
  | .stream => Sys2Proof.Machine.execStream s
  | .sink => Sys2Proof.Machine.execSink s
  | .tileput => Sys2Proof.Machine.execTileput s
  | .tileget => Sys2Proof.Machine.execTileget s
  | .arg => Sys2Proof.Machine.execArg s
  | .ret => Sys2Proof.Machine.execRet s
  | .callout => Sys2Proof.Machine.execCallout s
  | .emit => Sys2Proof.Machine.execEmit s
  | .slotRefill => Sys2Proof.Machine.execSlotRefill s
  | .longOpComplete => Sys2Proof.Machine.execLongOpComplete s
  | .timerPreempt => Sys2Proof.Machine.execTimerPreempt s
  | .priorityAging => Sys2Proof.Machine.execPriorityAging s
  | .priorityPreempt => Sys2Proof.Machine.execPriorityPreempt s
  | .icacheFill => Sys2Proof.Machine.execIcacheFill s
  | .prefetchFill => Sys2Proof.Machine.execPrefetchFill s
  | .trapEntry => Sys2Proof.Machine.execTrapEntry s
  | .migrationArrival => Sys2Proof.Machine.execMigrationArrival s
  | .runQueueEntry => Sys2Proof.Machine.execRunQueueEntry s
  | .spawnDelivery => Sys2Proof.Machine.execSpawnDelivery s
  | .footprintReady => Sys2Proof.Machine.execFootprintReady s
  | .launchFrame => Sys2Proof.Machine.execLaunchFrame s
  | .launchStart => Sys2Proof.Machine.execLaunchStart s
  | .budgetExpiry => Sys2Proof.Machine.execBudgetExpiry s
  | .accessPerformed => Sys2Proof.Machine.execAccessPerformed s
  | .recallAck => Sys2Proof.Machine.execRecallAck s
  | .presenceResend => Sys2Proof.Machine.execPresenceResend s
  | .waitLimitExpiry => Sys2Proof.Machine.execWaitLimitExpiry s
  | .reservationHoldExpiry => Sys2Proof.Machine.execReservationHoldExpiry s
  | .sectorDrain => Sys2Proof.Machine.execSectorDrain s
  | .lineExpiry => Sys2Proof.Machine.execLineExpiry s
  | .translationWalk => Sys2Proof.Machine.execTranslationWalk s
  | .memTimeoutExpiry => Sys2Proof.Machine.execMemTimeoutExpiry s
  | .monwaitTimeout => Sys2Proof.Machine.execMonwaitTimeout s
  | .messageDelivery => Sys2Proof.Machine.execMessageDelivery s
  | .deviceReport => Sys2Proof.Machine.execDeviceReport s
  | .streamWake => Sys2Proof.Machine.execStreamWake s
  | .stepFire => Sys2Proof.Machine.execStepFire s
  | .nmMetaScan => Sys2Proof.Machine.execNmMetaScan s
  | .stepStreamEnd => Sys2Proof.Machine.execStepStreamEnd s
  | .stepAccumulationComplete => Sys2Proof.Machine.execStepAccumulationComplete s
  | .writebackStart => Sys2Proof.Machine.execWritebackStart s
  | .writebackComplete => Sys2Proof.Machine.execWritebackComplete s
  | .generatorLoad => Sys2Proof.Machine.execGeneratorLoad s
  | .generatorLoadComplete => Sys2Proof.Machine.execGeneratorLoadComplete s
  | .enumerationStart => Sys2Proof.Machine.execEnumerationStart s
  | .enumerationEnd => Sys2Proof.Machine.execEnumerationEnd s
  | .generatorRecordPush => Sys2Proof.Machine.execGeneratorRecordPush s
  | .copyCommandStart => Sys2Proof.Machine.execCopyCommandStart s
  | .copyCommandEnd => Sys2Proof.Machine.execCopyCommandEnd s
  | .copyCommandStop => Sys2Proof.Machine.execCopyCommandStop s
  | .collectiveContribution => Sys2Proof.Machine.execCollectiveContribution s
  | .collectiveDone => Sys2Proof.Machine.execCollectiveDone s
  | .collectiveTokenCombine => Sys2Proof.Machine.execCollectiveTokenCombine s
  | .mapWriteFail => Sys2Proof.Machine.execMapWriteFail s
  | .consistLoad => Sys2Proof.Machine.execConsistLoad s
  | .consistFreeComplete => Sys2Proof.Machine.execConsistFreeComplete s
  | .freezeComplete => Sys2Proof.Machine.execFreezeComplete s
  | .watchdogExpiry => Sys2Proof.Machine.execWatchdogExpiry s
  | .tokenArrival => Sys2Proof.Machine.execTokenArrival s
  | .graphLoadReply => Sys2Proof.Machine.execGraphLoadReply s
  | .graphStoreAck => Sys2Proof.Machine.execGraphStoreAck s
  | .returnTokenArrival => Sys2Proof.Machine.execReturnTokenArrival s
  | .graphFaultRetry => Sys2Proof.Machine.execGraphFaultRetry s
  | .callWaitResume => Sys2Proof.Machine.execCallWaitResume s
  | .converterToken => Sys2Proof.Machine.execConverterToken s
  | .converterAck => Sys2Proof.Machine.execConverterAck s
  | .sealComplete => Sys2Proof.Machine.execSealComplete s
  | .unsealComplete => Sys2Proof.Machine.execUnsealComplete s
  | .drainTokenArrival => Sys2Proof.Machine.execDrainTokenArrival s
  | .evictionScheduleEntry => Sys2Proof.Machine.execEvictionScheduleEntry s
  | .heartbeat => Sys2Proof.Machine.execHeartbeat s
  | .agentSuspect => Sys2Proof.Machine.execAgentSuspect s
  | .probeExpiry => Sys2Proof.Machine.execProbeExpiry s
  | .selftestComplete => Sys2Proof.Machine.execSelftestComplete s
  | .sliceExpiry => Sys2Proof.Machine.execSliceExpiry s
  | .swapComplete => Sys2Proof.Machine.execSwapComplete s
  | .commit => Sys2Proof.Machine.execCommit s
  | .stop => Sys2Proof.Machine.execStop s
  | .destroy => Sys2Proof.Machine.execDestroy s
  | .configOpComplete => Sys2Proof.Machine.execConfigOpComplete s
  | .domainTableWrite => Sys2Proof.Machine.execDomainTableWrite s
  | .registerWrite => Sys2Proof.Machine.execRegisterWrite s
  | .write => Sys2Proof.Machine.execWrite s
  | .read => Sys2Proof.Machine.execRead s
  | .readresp => Sys2Proof.Machine.execReadresp s
  | .acq => Sys2Proof.Machine.execAcq s
  | .release => Sys2Proof.Machine.execRelease s
  | .msg => Sys2Proof.Machine.execMsg s
  | .attest => Sys2Proof.Machine.execAttest s
  | .leaseOpen => Sys2Proof.Machine.execLeaseOpen s
  | .leaseRenew => Sys2Proof.Machine.execLeaseRenew s
  | .leaseClose => Sys2Proof.Machine.execLeaseClose s
  | .acknowledgement => Sys2Proof.Machine.execAcknowledgement s
  | .frameResend => Sys2Proof.Machine.execFrameResend s
  | .leaseLapse => Sys2Proof.Machine.execLeaseLapse s
  | .lockstepInputForward => Sys2Proof.Machine.execLockstepInputForward s
  | .lockstepInputInject => Sys2Proof.Machine.execLockstepInputInject s
  | .digestWindowEnd => Sys2Proof.Machine.execDigestWindowEnd s
  | .digestArrival => Sys2Proof.Machine.execDigestArrival s
  | .pwrgood => Sys2Proof.Machine.execPwrgood s
  | .resetRelease => Sys2Proof.Machine.execResetRelease s
  | .resetAssert => Sys2Proof.Machine.execResetAssert s
  | .firmwareVerified => Sys2Proof.Machine.execFirmwareVerified s
  | .stationSelftestDone => Sys2Proof.Machine.execStationSelftestDone s
  | .lmTrainingDone => Sys2Proof.Machine.execLmTrainingDone s
  | .linkTrained => Sys2Proof.Machine.execLinkTrained s
  | .linkLoss => Sys2Proof.Machine.execLinkLoss s
  | .powerSample => Sys2Proof.Machine.execPowerSample s
  | .dutyStep => Sys2Proof.Machine.execDutyStep s
  | .thermalTrip => Sys2Proof.Machine.execThermalTrip s
  | .activationInterval => Sys2Proof.Machine.execActivationInterval s
  | .graphPresenceWaitLimit => Sys2Proof.Machine.execGraphPresenceWaitLimit s
  | .graphPresenceReply => Sys2Proof.Machine.execGraphPresenceReply s
  | .lockstepAlignment => Sys2Proof.Machine.execLockstepAlignment s
  | .inboundLegClaim => Sys2Proof.Machine.execInboundLegClaim s
  | .holderRecall => Sys2Proof.Machine.execHolderRecall s
  | .probeAnswer => Sys2Proof.Machine.execProbeAnswer s
  | .pwrgoodDeassert => Sys2Proof.Machine.execPwrgoodDeassert s

end Sys2Proof.Machine
end

