-- ==== Sys2Proof/Machine/Turn.lean ====
section
/-! DEFINITION. Whose opportunity comes next and what it comes to (log 3): the agenda's due events, then in every cycle the matrix
arrays, the graph elements and the thread slots, each in ascending order. -/

namespace Sys2Proof.Machine

/-- The first event of the agenda that is due and not held back by its tile, with the agenda without it. -/
def dueEvent (s : State) : List (Nat × Event) → Option (Event × List (Nat × Event))
  | [] => none
  | (d, e) :: l =>
    if d ≤ s.time ∧ !heldBack s e then some (e, l)
    else (dueEvent s l).map fun r => (r.1, (d, e) :: r.2)

/-- A request is younger than its class (R436, R359): four times that in a partition that is not timed. Its class counts from its
issue, and from its way to the bank on once its place is known. -/
def requestYoung (s : State) (p : Partition) (r : Req) : Bool :=
  let k := if p.timed then 1 else 4
  decide (s.time < (if r.pa.isNone then r.issued else max r.issued r.sent) + k * (reqClass s r).getD (hostClass s r))

/-- Something of a consist is on its way and young enough: a request of its nodes, or a token between its converters (R436). -/
def consistYoung (s : State) (pn : Nat) (c : Consist) : Bool :=
  let p := part s pn
  let fids := (s.gaccs.filter fun g => g.2.part == pn && g.2.cid == c.cid).map (·.1)
  let mine (r : Req) : Bool := match r.who with
    | .graph f _ => fids.contains f && requestYoung s p r
    | _ => false
  s.reqs.any (fun r => mine r.2) || s.waits.any mine || s.rsv.any (fun e => e.2.queue.any mine) ||
    s.agenda.any fun e => match e.2 with
      | .converterToken id _ _ _ t => c.legs.any fun g =>
          g.id == id && decide (s.time < t + (if p.timed then 1 else 4) * (24 + legClass g))
      | _ => false

/-- A consist's watchdog counter in this cycle (R436, R437). -/
def watchdogCycle (s : State) (pn : Nat) (c : Consist) : State :=
  let live := c.acts.any fun a => !a.ended
  if !live || c.frozen || (part s pn).swapped || decide (s.time ≤ c.lastFire + 1) || consistYoung s pn c then s
  else
    let n := c.wcnt + 1
    let s := modConsist s pn c.cid fun c => { c with wcnt := n }
    if n = 2 ^ pfield (part s pn) 35 1 then later s 0 (.watchdogExpiry pn c.cid) else s

/-- A graph element's opportunity (R58, R59). -/
def elementTurn (s : State) (st e : Nat) : Turn :=
  if (stn s st).dead || (stn s st).outOfService then (s, none)
  else match tileOwner s st with
    | none => (s, none)
    | some (pn, c) =>
      let first := (c.tiles.head?).any fun t => t.st == st
      let s := if e = 0 ∧ first then watchdogCycle s pn c else s
      let c := (consistOf s pn c.cid).getD c
      let s := if e = 0 then tileHolds s pn c st else s
      let c := (consistOf s pn c.cid).getD c
      let s := if e = 0 ∧ tileStopped s pn c st 16 then stallTile s pn c st else s
      let c := (consistOf s pn c.cid).getD c
      if tileStopped s pn c st e || !(c.tiles.any fun t => t.st == st && t.elems.getLsbD e) then (s, none)
      else
        let s := lateOut s c st e
        match elemChoice s c st e with
        | some f => ({ s with hand := .firing f }, some f.word.op)
        | none => (s, none)

/-- A matrix array's opportunity: a cycle of its stream (R220), and a firing, a scan or a fault (R218); a drain that was broken off has
ended (R214). -/
def arrayTurn (s : State) (st : Nat) : Turn :=
  let s := (List.range 16).foldl (fun s n => settleSlot s st n) s
  if (stn s st).dead || (stn s st).outOfService then (s, none)
  else
    let s := scanCycle (streamCycle s st) st
    if arrayActs s st then ({ s with hand := .event (.stepFire st) }, some .stepFire) else (s, none)

/-- The opportunity of the unit at the cursor: 256 to 511 the arrays, 512 to 4,607 the graph elements, then 0 to 255 the cores' thread
slots, so that an instruction takes effect behind what the arrays and graphs do in its cycle (R229, R316). -/
def unitTurn (s : State) : Turn :=
  if s.cursor < 256 then slotTurn s s.cursor (s.time % 16)
  else if s.cursor < 512 then arrayTurn s (s.cursor - 256)
  else elementTurn s ((s.cursor - 512) / 16) ((s.cursor - 512) % 16)

/-- The turn passes from the unit at the cursor of s to the next, in the state t that it came to; behind the last thread slot the next
cycle begins. A slot that has just been refilled keeps its turn (R38). -/
def advance (s t : State) (refill : Bool) : State :=
  { t with hand := .idle
           cursor := if refill then s.cursor else if s.cursor < 4607 then s.cursor + 1 else 0
           time := if !refill && s.cursor = 255 then s.time + 1 else s.time }

/-! ### Rows that must wait at a home slice (R351, R371) -/

/-- A request that waits at a home slice on behalf of a row stands there already. -/
def holdOut (s : State) (bank key : Nat) (wr : Bool) : Bool :=
  let mine (r : Req) : Bool := r.kind == .hold wr && r.bank == bank && r.pa == some key
  s.reqs.any (fun e => mine e.2) || s.rsv.any fun e => e.2.queue.any mine

/-- A row waits at a home slice for the holders of a place or behind its reservation: a request that changes nothing takes its turn
there (R351, R371). -/
def sendHold (s : State) (h : Nat × Nat × Nat × Bool) : State :=
  if holdOut s h.1 h.2.2.1 h.2.2.2 then s
  else
    let r : Req := { id := s.fresh, who := .host s.fresh 0, part := h.2.1, st := h.1, path := 0, kind := .hold h.2.2.2,
                     va := BitVec.ofNat 64 h.2.2.1, z := 8, pa := some h.2.2.1, bank := h.1, issued := s.time }
    doHome { s with fresh := s.fresh + 1, reqs := kput s.reqs r.id r } r h.2.2.1

/-- A row waits for a translation that it misses: a request that only has its page walked goes to the cluster's memory port, unless one
stands there already (R459). -/
def sendWalk (s : State) (n : Nat × Nat × Nat × Bool × Bool) : State :=
  let r : Req := { id := 0, who := .host s.fresh 0, part := n.2.1, st := n.1, path := 0, kind := .hold n.2.2.2.1,
                   va := BitVec.ofNat 64 n.2.2.1, z := 1, pinned := n.2.2.2.2 }
  if s.reqs.any fun e => e.2.kind.isHold && e.2.pa.isNone && missPage e.2 r then s
  else sendReq { s with fresh := s.fresh + 1 } r

/-- The row under way met a place, a translation or a slot for which it has to wait. -/
def State.waitsFor (t : State) : Bool := !t.held.isEmpty || !t.needs.isEmpty || t.shut

/-- Nothing is waited for any more. -/
def State.calm (s : State) : State := { s with held := [], needs := [], shut := false }

/-- A row that met in t what it has to wait for has no effect and is tried again in the next cycle: p is the state before it, with the
memory of s (log 24, log 132). -/
def putOff (s p : State) (used : Bool) (t : State) : State :=
  let p := t.needs.foldl sendWalk (t.held.foldl sendHold { p.calm with mem := s.mem })
  let p := match used, p.hand with
    | false, .event e => { later p 1 e with hand := .idle }
    | false, _ => { p with hand := .idle }
    | true, _ => advance s p false
  settle s p.calm

/-- What a step does: the agenda first, then the unit at the cursor. While the dies are in reset only the agenda's head acts. The
flag says that the step used the unit's opportunity. -/
def turn (s : State) : Turn × Bool :=
  if s.live then
    match dueEvent s s.agenda with
    | some (e, l) => (({ s with agenda := l, hand := .event e }, some e.instr), false)
    | none => (unitTurn s, true)
  else match s.agenda with
    | (_, e) :: l => (({ s with agenda := l, hand := .event e }, some e.instr), false)
    | [] => ((s, none), false)

end Sys2Proof.Machine
end

