-- ==== Sys2Proof/Machine/Step.lean ====
section
/-! DEFINITION. One step of the machine, and the placing of one instruction where the next step finds it (log 3, log 5). -/

namespace Sys2Proof.Machine

/-- What follows an instruction's meaning: the turn passes on when the step used its unit's opportunity. A row that met a held or
reserved place, a translation to be walked for or a closed slot is put off (R351, R371, R459, R462). -/
def afterExec (s p : State) (used : Bool) (i : Instr) (o : Out) : Out :=
  match o with
  | .next t =>
    .next (if t.waitsFor then putOff s p used t
           else if used then advance s t (i == .slotRefill) else { t with hand := .idle })
  | .fault r => .fault r
  | .refused r => .refused r

/-- One step: the opportunity that comes next, and what it comes to; its writes act on the memory it found (log 3). -/
def step (s : State) : Host.Outcome State Fault Refusal :=
  let t := turn s
  match t.1.2 with
  | none => .next (settle s (if t.2 then advance s t.1.1 false else t.1.1).calm)
  | some i => afterExec s t.1.1 t.2 i (exec i { t.1.1 with mem := s.mem })

/-- The thread that withFetchWord places: thread 1 of partition 0 at station 0, supervisor, running in slot sl, with a code segment
of 4 KiB at address 0. -/
def fetchThread (sl : Nat) : Thread :=
  { tid := 1, sup := true, st := .running sl,
    seg := (Vector.replicate 8 {}).set 0 { desc := BitVec.ofNat 128 (2 ^ 112 + 2 ^ 114 + 4096 * 2 ^ 64) } }

/-- A token of the firing that withFetchWord places. -/
def fetchToken : Token := dataTok 0 0xFF 0 0 0

/-- The state with an instruction of 32 bits as the word that thread 1 fetches next. -/
def placePorlek (s : State) (w : Nat) : State :=
  let sl := s.time % 16
  let line : ILine := { part := 0, line := 0, data := BitVec.ofNat 512 (leNat (toLeBytes 4 w)) }
  let s := { s with cursor := 0, threads := kput s.threads 1 (fetchThread sl) }
  modStn s 0 fun x => { x with slots := vset x.slots sl (some 1), icache := [line], dead := false, outOfService := false, quantum := 0 }

/-- The state with a graph instruction in slot 0 of element 0 of station 0, its tokens and all it needs to fire there. -/
def placeRoszon (s : State) (w : Nat) : State :=
  let word := BitVec.ofNat 64 w
  let tok (b : Bool) : Ent := { tok := fetchToken, slot := 0, port := b }
  let both := match decodeRoszon word with | .ok r => portUsed r true | .error _ => false
  let c : Consist := { cid := 1, tiles := [{ st := 0, elems := 1, readout := 0 }],
                       acts := [{ id := 0, frame := default, caller := .thread 0 }] }
  let s := { s with cursor := 512, parts := kput s.parts 0 { part s 0 with consists := [c] } }
  let s := modElem s 0 0 fun x => { x with slots := vset x.slots 0 word, store := tok false :: (if both then [tok true] else []) }
  let full (t : Vector Tile 16) : Vector Tile 16 := match decodeRoszon word with
    | .ok r => if r.op = .tileget then vset t (bits r.imm.toNat 3 0) { vget t (bits r.imm.toNat 3 0) with tag := .full } else t
    | .error _ => t
  modStn s 0 fun x => { x with owner := some (0, 1), tiles := full x.tiles, dead := false, outOfService := false }

/-- The state in which the very next step fetches and runs the instruction whose bits are w: the dies released, partition 0 running
with station 0, nothing due before it, and the instruction placed (log 5). -/
def State.withFetchWord (s : State) (nbits w : Nat) : State :=
  let p : Partition := { part s 0 with st := .running, stations := [0], duty := 16, swapped := false }
  let s := { s with live := true, agenda := s.agenda.filter fun e => s.time < e.1, hand := .idle, parts := kput s.parts 0 p }
  if nbits ≤ 32 then placePorlek s w else placeRoszon s w

end Sys2Proof.Machine
end

