-- ==== Sys2Proof/Safety.lean ====
section
/-! DEFINITION. The terms in which the statements speak of a step: whose turn it is, what an instruction answers, what it leaves
unchanged, and the invariant of memory. -/

namespace Sys2Proof

open Machine

/-! ### Invariants and runs -/

/-- The memory stands in its canonical form, no write is left over between steps and no row waits in one (log 1, log 3, log 24). -/
def MemInv (s : Machine.State) : Prop := Machine.mwf s.mem = true ∧ s.wbuf = [] ∧ s.waitsFor = false

/-- A run of k steps stops nowhere. -/
def Safe (k : Nat) (s : Machine.State) : Prop := ∃ t, core.run k s = .next t

/-! ### What an instruction answers -/

/-- i answers the state u, with the memory operations that u has gathered applied (log 3). -/
def Gives (i : Instr) (s u : State) : Prop := exec i s = .next (settle s u)

/-- Thread th has the turn (R32), and an instruction whose W bit is w waits for nothing (R35). -/
def Ready (s : State) (w : Bool) (th : Thread) : Prop := focus s = some th ∧ getThr s th.tid = some th ∧ (w = true → th.ops = [])

/-- g[d] := x, and the thread goes on behind its instruction. -/
def setG (s : State) (th : Thread) (d : BitVec 5) (x : DWord) : State := setThr s (nextPc (wg th d x))

/-- The precise trap of an instruction that does nothing else (R479): cr.epc = cr.mpc = pc, with an address and cr.finfo. -/
def trapState (s : State) (th : Thread) (cause : Byte) (addr finfo : DWord) : State :=
  takeTrap s th { cause := cause, epc := th.pc, mpc := th.pc, faddr := addr, finfo := finfo }

/-- The result x of a long operation is on its way to g[d], n cycles at most, and the thread goes on behind it (R34, R36). -/
def longG (s : State) (th : Thread) (d : BitVec 5) (x : DWord) (n : Nat) : State :=
  longResult s th { id := 0, pc := 0, dest := .g d, res := [(0, x)] } n

/-- A row of the table performed on the event e in hand. -/
def Happens (e : Event) (s u : State) : Prop := exec e.instr { s with hand := .event e } = .next (settle s u)

/-- The row of event e, performed on s, comes to what f says. -/
def Does (e : Event) (s : State) (f : State → State) : Prop := Happens e s (f { s with hand := .event e })

/-- A command that the combining node of its cluster may merge (R14, R71): f holds of the state and answer that the engine gives, passed
on by the node, or, where the same command went by in this cycle, of the unchanged state and that command's answer. -/
def Answers (s : State) (th : Thread) (fields : List Nat) (r : State × DWord) (f : State → DWord → Prop) : Prop :=
  (combined s th fields = none → f (noteCmd r.1 th fields r.2) r.2) ∧ ∀ v, combined s th fields = some v → f s v

/-- Thread th, running in slot sl of station st, comes to fetch the instruction word w (R32, R83, R88): nothing earlier is due in
this step, its core is in service and on duty, no pre-emption and no trap is pending, segment 0 may be executed, the pc lies inside
its limit, and the instruction cache holds the word. -/
structure Fetches (s : State) (th : Thread) (st sl : Nat) (w : BitVec 32) : Prop where
  live : s.live = true
  calm : s.waitsFor = false
  due : dueEvent s s.agenda = none
  cursor : s.cursor = st ∧ st < 256
  slot : sl = s.time % 16 ∧ vget (stn s st).slots sl = some th.tid
  thread : getThr s th.tid = some th ∧ th.st = .running sl
  service : (stn s st).dead = false ∧ (stn s st).outOfService = false ∧ onDuty s (tidPart th.tid) = true
  timer : (th.te && (stn s st).quantum != 0 && decide (th.slotSince + (stn s st).quantum.toNat ≤ s.time)) = false
  stays : (preemptVictim s st).any (fun v => v.tid == th.tid) = false
  pend : th.pend = none
  exec : (rseg th 0).exec = true ∧ th.pc.toNat < (rseg th 0).limit
  word : icWord s th.station (tidPart th.tid) ((rseg th 0).base + th.pc.toNat) = some w

/-- The state in which a fetched instruction is performed: its cache line is the one used last (R87). -/
def fetchState (s : State) (th : Thread) : State :=
  icTouch s th.station (tidPart th.tid) (((rseg th 0).base + th.pc.toNat) / 64)

/-- An access of z bytes at an offset of a segment that R85 and R319 admit: it is aligned, the segment has the rights to read and to write
that it needs, its buffer is not SEALED, being sealed or being unsealed where it writes, and it lies within the limit and the 2^40 bytes of
an offset. -/
structure Admits (s : State) (pn : Nat) (g : Seg) (off z : Nat) (rd wr : Bool) : Prop where
  aligned : off % z = 0
  rights : (rd = true → g.read = true) ∧ (wr = true → g.write = true)
  buffer : wr = true → g.type = 1 → kget (part s pn).seals g.idx = none
  limit : off + z ≤ g.limit ∧ off < 2 ^ 40

/-- Nothing that a release waits for is on its way (R335, R338): no combining sector, no request, no queue of a reservation, no session
with frames of the partition, and none of its frames held back. -/
def NothingFlies (s : State) (pn : Nat) : Prop :=
  s.reqs = [] ∧ s.rsv = [] ∧ (∀ st, (stn s st).comb = []) ∧ s.sessions = [] ∧ (part s pn).heldOut = []

/-- Instruction i completes: it issues the access a as a long operation (R34), and its thread stands behind it in its slot with every
register as before. -/
def Issues (i : Instr) (s : State) (th : Thread) (a : Access) : Prop :=
  Gives i s (issueAccess s (nextPc th) th.pc a none) ∧
  ∃ t u, exec i s = .next t ∧ getThr t th.tid = some u ∧ u.pc = th.pc + 4 ∧ u.st = th.st ∧ u.g = th.g ∧ u.v = th.v ∧
    outstanding u = true ∧ u.ops.length = th.ops.length + 1

/-- A format descriptor that R139 calls legal. -/
def FormatLegal (d : Word) : Prop :=
  let n := d.toNat
  let e := n % 8
  let m := n / 2 ^ 3 % 16
  let sgn := n / 2 ^ 7 % 2
  let bias := n / 2 ^ 8 % 256
  let spec := n / 2 ^ 16 % 4
  let sub := n / 2 ^ 18 % 2
  let int := n / 2 ^ 19 % 2
  let cls := n / 2 ^ 20 % 16
  n < 2 ^ 24 ∧ cls < 5 ∧ (cls ≠ 0 → n % 2 ^ 20 = 0) ∧
  (cls = 0 → 2 ≤ sgn + e + m ∧ sgn + e + m ≤ 8 ∧ m ≤ 8 ∧ spec ≠ 3 ∧ (e = 0 → int = 1) ∧
    (int = 1 → e = 0 ∧ spec = 0 ∧ sub = 0 ∧ bias = 0) ∧ (sub = 1 → m ≠ 0) ∧ (spec = 2 → 2 ≤ e ∧ m ≠ 0))

/-- The formats that a template names go together (R211, R212 steps 2 and 3, and the write-back rules of step 1): A and B are both narrow,
both FP16 or both BF16, or a half format by a narrow one of 4 bits at most; a named scale format is a narrow float. -/
def FormatsAdmitted (f : Fields) (fd : Nat → Word) : Prop :=
  let cls (n : Nat) : Nat := (fd n).toNat / 2 ^ 20 % 16
  let float (n : Nat) : Prop := cls n = 0 ∧ (fd n).getLsbD 19 = false
  let back := f.lastBit = true ∨ f.tagsrc = true
  cls f.fda < 3 ∧ cls f.fdb < 3 ∧ (cls f.fda = cls f.fdb ∨ (cls f.fda ≠ 0 ∧ cls f.fdb = 0 ∧ fdWidth (fd f.fdb) ≤ 4)) ∧
  (f.asf = 2 → float f.fdas) ∧ (f.bsf = 2 → float f.fdbs) ∧
  (back → (f.wsat = 1 → (fdTy (fd f.fdo).toNat).isFp = false) ∧ (f.oscale = true → float f.fdo))

/-- A template that R212 admits, with the format registers fd and a window of so many half-rows. -/
structure TemplateAdmitted (f : Fields) (fd : Nat → Word) (window : Nat) : Prop where
  zeros : f.b 63 61 = 0 ∧ f.b 31 29 = 0 ∧ f.b 15 15 = 0 ∧ f.b 3 3 = 0 ∧ f.b 127 123 = 0 ∧ f.b 191 176 = 0 ∧ f.b 143 141 = 0
  codes : f.bsf < 3 ∧ f.asf < 3 ∧ f.pat < 4 ∧ (f.tagsrc = true → f.iter = 0 ∧ f.seq = 0 ∧ f.lastBit = false) ∧ (f.bsf = 0 → f.bspos = 0)
  pattern : (f.pat = 0 → f.param = 0) ∧ (f.pat = 1 ∨ f.pat = 2 → f.b 175 160 = 0) ∧
    (f.pat = 3 → f.b 175 166 = 0 ∧ f.b 159 157 = 0 ∧ 0 < f.nmKept ∧ f.nmKept < f.mc ∧ depthOf (fd f.fda) (fd f.fdb) % f.mc = 0 ∧
      f.mpos + f.qm (fd f.fda) (fd f.fdb) * f.k ≤ window)
  word3 : (f.lastBit = false → f.tagsrc = false → f.b 255 192 = 0) ∧
    (f.lastBit = true ∨ f.tagsrc = true → f.b 255 211 = 0 ∧ f.wsat < 3 ∧ f.wrm < 6 ∧ (f.nmm = 0 → f.nmn = 0) ∧
      (f.nmm ≠ 0 → 0 < f.nmn ∧ f.nmn < f.nmm) ∧ f.oslot ≠ f.aslot ∧ f.outSize (fd f.fdo) ≤ 32768)
  rows : f.accg * 8 + f.m ≤ 64 ∧ f.m * f.rb (fd f.fda) (fd f.fdb) ≤ 32768 ∧
    (f.asf ≠ 0 → f.m * f.rb (fd f.fda) (fd f.fdb) ≤ 16 * f.asoff ∧ 16 * f.asoff + f.m * f.k ≤ 32768)
  window : (f.q (fd f.fda) (fd f.fdb) = 2 → f.bpos % 2 = 0) ∧ f.bpos + f.q (fd f.fda) (fd f.fdb) * f.k ≤ window ∧
    (f.bsf ≠ 0 → f.bspos + cdiv f.k 16 ≤ window)
  path : intPath (fd f.fda) (fd f.fdb) = false → f.p = 1 ∧ f.ovfa = false
  scales : f.asf ≠ 0 ∨ f.bsf ≠ 0 → intPath (fd f.fda) (fd f.fdb) = false ∧ fdHalf (fd f.fda) = false ∧ fdHalf (fd f.fdb) = false ∧
    (fdWidth (fd f.fda) ≤ 4 ↔ fdWidth (fd f.fdb) ≤ 4)
  transposed : f.bt = true → f.pat = 0 ∧ f.asf = 0 ∧ intPath (fd f.fda) (fd f.fdb) = false ∧ f.k ≤ 256 / depthOf (fd f.fda) (fd f.fdb)
  formats : FormatsAdmitted f fd

/-- A copy command that R381 and R382 admit at a station: its reserved fields are zero, its sizes and its B-store and tile sides are legal,
its segments have the rights, its offsets and strides are aligned, and its sides addressed without indices lie within their segments. -/
structure CopyAdmitted (s : State) (st : Nat) (c : CopyCmd) : Prop where
  reserved : bits (c.w 0) 63 56 = 0 ∧ bits (c.w 0) 43 40 = 0 ∧ (c.indexed = false → bit (c.w 0) 54 = false) ∧ bits (c.w 1) 63 40 = 0 ∧
    bits (c.w 7) 63 34 = 0 ∧ (c.tile = false → c.w 7 = 0)
  indices : c.indexed = true → bits (c.w 2) 63 47 = 0 ∧ bits (c.w 3) 63 40 = 0 ∧ bits (c.w 4) 63 40 = 0 ∧ c.w 5 = 0 ∧ c.w 6 = 0 ∧
    0 < bits (c.w 3) 39 0
  sizes : bits (c.w 0) 52 50 < 6 ∧ c.count < 2 ^ 40
  bstore : (c.seg s st 0).type = 3 ∨ (c.seg s st 1).type = 3 ∨ (c.memIndex = true ∧ (c.seg s st 2).type = 3) →
    4 ≤ bits (c.w 0) 52 50 ∧ c.soff % 16 = 0 ∧ c.doff % 16 = 0 ∧ c.tile = false ∧ (c.indexed = true → bits (c.w 4) 31 0 % 16 = 0) ∧
    (c.indexed = false → ∀ dst k, k < 4 → c.stride dst k % 16 = 0)
  slots : c.tile = true → ((c.seg s st 0).type = 2 ↔ (c.seg s st 1).type ≠ 2) ∧ ∀ dst, (c.seg s st (b2n dst)).type = 2 →
    c.idxSide dst = false → let slot := (if dst then c.doff else c.soff) / 2 ^ 15
      (2 ^ 15 * slot : Nat) ≤ (c.range dst).1 ∧ (c.range dst).2 ≤ (2 ^ 15 * slot + 2 ^ 15 : Nat)
  rights : (c.seg s st 0).engine = true ∧ (c.seg s st 1).engine = true ∧ ((c.seg s st 0).type ≠ 3 → (c.seg s st 0).read = true) ∧
    ((c.seg s st 1).type ≠ 3 → (c.seg s st 1).write = true) ∧
    (c.memIndex = true → (c.seg s st 2).engine = true ∧ (c.seg s st 2).read = true)
  aligned : c.soff % c.esz = 0 ∧ c.doff % c.esz = 0 ∧ (c.memIndex = true → bits (c.w 2) 39 0 % 4 = 0) ∧
    (c.indexed = true → bits (c.w 4) 31 0 % c.esz = 0) ∧ (c.indexed = false → ∀ dst k, k < 4 → c.stride dst k % c.esz = 0)
  limits : (∀ dst, c.idxSide dst = false →
      0 ≤ (c.range dst).1 ∧ (c.range dst).2 ≤ (sideLimit s c.part (c.seg s st (b2n dst)) : Int)) ∧
    (c.memIndex = true → bits (c.w 2) 39 0 + 4 * bits (c.w 3) 39 0 ≤ (c.seg s st 2).limit)

/-- A collective's command that R390 admits at a station: no reserved field or code, and its source, where the station contributes one, and
its destination within engine segments that have the rights, aligned to their elements. -/
structure CollAdmitted (s : State) (pn st : Nat) (bc : Bool) (ws : List DWord) : Prop where
  reserved : let w (i : Nat) : Nat := (ws.getD i 0).toNat
    bits (w 0) 63 56 = 0 ∧ bits (w 0) 47 46 = 0 ∧ bits (w 1) 63 40 = 0 ∧ bits (w 2) 63 56 = 0 ∧ bits (w 3) 63 24 = 0 ∧
    (bc = false → w 3 = 0) ∧ (collCmd ws).op < 16
  operation : let op := (collCmd ws).op
    op % 4 ≠ 3 ∧ (op / 4 % 4 = 2 → op % 4 = 0) ∧ (bc = true → op % 4 = 0) ∧ (collCmd ws).count ≠ 0
  destination : let c := collCmd ws
    let g := vget (stn s st).eng c.dseg
    g.engine = true ∧ g.write = true ∧ c.doff % (if c.op / 4 % 4 = 2 then 4 else collSize c.op) = 0 ∧
    c.doff + c.count * collSize c.op ≤ g.limit
  source : bc = false ∨ isRoot s pn st (collCmd ws) = true → let c := collCmd ws
    let g := vget (stn s st).eng c.sseg
    g.engine = true ∧ g.read = true ∧ c.soff % (if c.op / 4 % 4 = 2 then 4 else collSize c.op) = 0 ∧
    c.soff + c.count * collSize c.op ≤ g.limit

/-- The vector registers that an instruction reads are there and its destination has room (R76): s' is the state after the pops of
bound sources, and rd gives the registers' values. -/
def VecReads (s : State) (th : Thread) (srcs : List (BitVec 4)) (dst : Option (BitVec 4)) (s' : State) (rd : BitVec 4 → VReg) :
    Prop :=
  ∃ l, popSources srcs s th = .ok (s', l) ∧
    ((dst.bind fun d => pushPort s th d).filter fun p => 30 < (portAt s' th.station p).queue.length) = none ∧
    rd = fun r => ((l.find? fun x => x.1 == r).map (·.2)).getD (rv th r)

/-- No stream is bound to a vector register of the thread, and none was while it waited (R76, R388). -/
def NoStreams (s : State) (th : Thread) : Prop :=
  th.unbIn = [] ∧ th.unbOut = [] ∧ ∀ (cons : Bool) (r : Nat), portOf s th.station cons 0 r th.tid = none

/-- A request stands at its place key and nothing keeps it from being performed there: no request goes before it (R12, R329), its
home is in service, no sector of it is poisoned, no holder must be recalled (R350, R351), the place is memory of this device or of a
living peer, its buffer is not sealed (R347), and no reservation of another agent covers it (R371). It has passed its last router and
was not combined into another read, nor another into it (R11, R13), and it is no element of a running copy (R397). -/
structure Arrives (s : State) (r : Req) (key : Nat) : Prop where
  here : kget s.reqs r.id = some r ∧ r.pa = some key
  way : r.route = [] ∧ r.carrier = none ∧ ∀ e ∈ s.reqs, e.2.carrier ≠ some r.id
  turn : goesAfter s r key = false
  bank : r.bank < 256 → (stn s r.bank).dead = false ∧ poisoned s key (if r.kind = .sector then 64 else r.z) = false ∧
    recallSet s r key = [] ∧ isHost key = false ∧ (isPeer key = true → s.deadAgents.contains (peerOf key) = false)
  buffer : sealBars s r = false
  reserved : reservedFor s r key = none

/-- The slice of a bank holds each line once, and its sectors in S and E hold what stands behind them (R350, R351). -/
def CleanSlice (s : State) (bank : Nat) : Prop :=
  ((stn s bank).slice.map (·.line)).Nodup ∧ ∀ l ∈ (stn s bank).slice, ∀ a, a / 256 = l.line → isPeer a = false →
    l.sec (a / 64 % 4) = 1 ∨ l.sec (a / 64 % 4) = 2 → l.byte a = rdB s a

/-- The firing f is in hand, and its tile belongs to the consist c of partition pn. -/
def FiresOn (s : State) (f : Firing) (pn : Nat) (c : Consist) : Prop := s.hand = .firing f ∧ tileOwner s f.st = some (pn, c)

/-- No agent performs the row i: no thread has the turn of an instruction, no firing on a tile of a consist is in hand of a graph op, no
event of the row is in hand of any other. -/
def Unattended (i : Instr) (s : State) : Prop :=
  ((encodePorlek i).isSome = true → focus s = none) ∧
  ((roszonOp i).isSome = true → ∀ f, s.hand = .firing f → tileOwner s f.st = none) ∧
  (encodePorlek i = none → roszonOp i = none → ∀ e, s.hand = .event e → e.instr ≠ i)

/-- The lanes of a graph node's access, each with its offset and its value, that R299 and R321 admit: the segment has ENGINE and is not
TYPE 3, no offset is negative, and each lane's element is aligned, in rights and within the limit. -/
def LanesAdmitted (s : State) (pn : Nat) (g : Seg) (z : Nat) (rd wr : Bool) (ls : List (Nat × Int × DWord)) : Prop :=
  g.engine = true ∧ g.type ≠ 3 ∧ ∀ x ∈ ls, 0 ≤ x.2.1 ∧ Admits s pn g x.2.1.toNat z rd wr

/-- The elements of those lanes. -/
def laneElsOf (g : Seg) (ls : List (Nat × Int × DWord)) : List El :=
  ls.map fun x => { lane := x.1, va := BitVec.ofNat 64 ((g.base + x.2.1.toNat) % 2 ^ 56), val := x.2.2 }

/-- Its tokens have left the matching store, and its consist's watchdog is fed (R106, R436). -/
def fired (s : State) (f : Firing) (pn : Nat) (c : Consist) : State :=
  modConsist (consume s f) pn c.cid fun c => { c with lastFire := s.time, wcnt := 0 }

/-- The firing f of i comes to u; a token that waited before a full matching store may then enter it (R106). -/
def FiresTo (i : Instr) (s : State) (f : Firing) (pn : Nat) (c : Consist) (u : State) : Prop :=
  exec i s = .next (settle s (if (elemAt u f.st f.elem).link.isEmpty then u else enterWaiting u pn c.cid f.st f.elem))

/-- The operands of a firing: the token on port a, and that on port b, or again that on port a where port b is not used. -/
def Operands (f : Firing) (a b : Token) : Prop := f.a = some a ∧ f.b.getD a = b

/-! ### Values of numbers -/

/-- The value of a finite number. -/
def valQ : Machine.Num → Rat
  | .fin neg m e _ => (if neg then -1 else 1) * (m : Rat) * (2 : Rat) ^ e
  | _ => 0

/-- A number that is neither NaN nor an infinity. -/
def Finite (x : Machine.Num) : Prop := x.isNan = false ∧ x ≠ .inf false ∧ x ≠ .inf true

/-! ### Frames -/

/-- Every byte of memory reads as before. -/
def MemSame (s t : State) : Prop := ∀ a, rdB t a = rdB s a

/-- Everything of a thread but its general registers, its pc and what is named beside them. -/
def RegsOnly (th u : Thread) : Prop :=
  u = { th with g := u.g, pc := u.pc }

/-- Every other thread, every station, partition, graph element and cluster, and every byte, is as before. -/
def OthersSame (s t : State) (th : Thread) : Prop :=
  (∀ x : Word, x ≠ th.tid → getThr t x = getThr s x) ∧ t.stations = s.stations ∧ t.parts = s.parts ∧
  t.elems = s.elems ∧ t.clusters = s.clusters ∧ MemSame s t

end Sys2Proof
end

