-- ==== Sys2Proof/Certificates/Slice0/Obligations.lean ====
section
/-! DEFINITION. The statements for the provers. -/

open Sys2Proof Sys2Proof.Machine

/-! ### Encoding -/

/-- Every Porlek instruction whose fields are legal (R83) decodes from its own word to itself (R80, R82). -/
def Obligations.PorlekDecodesItsEncoding : Prop :=
  ∀ (i : Instr) (x : BitVec 32), encodePorlek i = some x → i.wf = true → decodePorlek x = .ok i

/-- Every graph instruction whose fields are legal (R109) decodes from its own 64 bits to itself. -/
def Obligations.RoszonDecodesItsEncoding : Prop :=
  ∀ (r : RoszonWord) (x : BitVec 64), encodeRoszon r = some x → r.wf = true → decodeRoszon x = .ok r

/-- What the decoders accept is well formed, and encodes to the word it was read from (R83, R109). -/
def Obligations.DecodedWordsEncodeBack : Prop :=
  (∀ (x : BitVec 32) (i : Instr), decodePorlek x = .ok i → i.wf = true ∧ encodePorlek i = some x) ∧
  (∀ (x : BitVec 64) (r : RoszonWord), decodeRoszon x = .ok r → r.wf = true ∧ encodeRoszon r = some x)

/-- Words that the spec writes out beside their instructions (the entries' examples, and the worked programs of files 03, 06, 11, 14,
15 and 16) decode to them. -/
def Obligations.SpecWordsDecode : Prop :=
  decodePorlek 0x34332010 = .ok (.ldd false 3 6 2 0x010) ∧ decodePorlek 0x04630008 = .ok (.addi false 6 6 8) ∧
  decodePorlek 0x8452FFFF = .ok (.addi true 5 5 0x7fff) ∧ decodePorlek 0x1C507FFD = .ok (.bne false 5 0 0x7ffd) ∧
  decodePorlek 0x280F8000 = .ok (.jalr false 0 31 0) ∧ decodePorlek 0x1632140E = .ok (.fadd false 3 4 5 0 7) ∧
  decodePorlek 0x12407F00 = .ok (.lui false 4 0x07f00) ∧ decodePorlek 0x82200401 = .ok (.sub true 2 0 1) ∧
  decodePorlek 0x3738A540 = .ok (.ldbu false 19 17 2 0x540) ∧ decodePorlek 0x42532008 = .ok (.std false 5 6 2 8) ∧
  decodePorlek 0x2A080000 = .ok (.callt false 16) ∧ decodePorlek 0x58280040 = .ok (.vbcast false 1 4 0 false false) ∧
  decodePorlek 0x582A0080 = .ok (.vins false 1 5 0 false false false) ∧ decodePorlek 0x584200A5 = .ok (.vred false 2 1 0 false 5) ∧
  decodePorlek 0x58240060 = .ok (.vextr false 1 2 0 false false false false) ∧ decodePorlek 0x46730040 = .ok (.take false 7 6 4) ∧
  decodePorlek 0x46031441 = .ok (.put false 6 5 4) ∧ decodePorlek 0x48331142 = .ok (.amoAdd false 3 6 4 true 2) ∧
  decodePorlek 0x52040002 = .ok (.fenceRel false 8) ∧ decodePorlek 0x5200014C = .ok (.fencex false 2 3) ∧
  decodePorlek 0x52000280 = .ok (.seal false 4) ∧ decodePorlek 0x64980002 = .ok (.cpy false 9 16 2) ∧
  decodePorlek 0x64A48100 = .ok (.cpywp false 10 9 0) ∧ decodePorlek 0xE20C0000 = .ok (.mxcfg true 24 0) ∧
  decodePorlek 0x62000C24 = .ok (.mxcfgFd false 3 4) ∧ decodePorlek 0x62700060 = .ok (.tfull false 7 0 0) ∧
  decodePorlek 0x66068020 = .ok (.igload false 13 2 false) ∧ decodePorlek 0xE6069900 = .ok (.igstart true 13 6 false) ∧
  decodePorlek 0x5C321410 = .ok (.spawn false 3 4 5 false 2) ∧ decodePorlek 0x5C028098 = .ok (.migr false 5 3) ∧
  decodePorlek 0x5D988180 = .ok (.join false 25 17) ∧ decodePorlek 0x5FA00001 = .ok (.rknew false 26 true) ∧
  decodePorlek 0x5E43820D = .ok (.bar false 4 7 0x0d) ∧ decodePorlek 0x5F9D0280 = .ok (.barstat false 25 26 false) ∧
  decodePorlek 0x60A00200 = .ok (.recv false 10 false) ∧ decodePorlek 0x60994580 = .ok (.send false 9 18 17 0) ∧
  decodePorlek 0x68048180 = .ok (.tget false 9 0) ∧ decodePorlek 0x68028010 = .ok (.sbwr false 5 0 2 0) ∧
  decodePorlek 0x689DE600 = .ok (.tdone false 9 27 25) ∧ decodePorlek 0x6E321850 = .ok (.ctxsv false 3 4 6 5) ∧
  decodePorlek 0x6E32018C = .ok (.rqpopKill false 3 4) ∧ decodePorlek 0x6E98DD00 = .ok (.rqpush false 9 17 23) ∧
  decodePorlek 0x72020060 = .ok (.cfgload false 4 3) ∧ decodePorlek 0x6C000005 = .ok (.trap false 5) ∧
  decodePorlek 0x6C001000 = .ok (.eret false) ∧ decodePorlek 0x6C302010 = .ok (.crr false 3 0x010) ∧
  decodePorlek 0x6C053007 = .ok (.crw false 10 0x007) ∧ decodePorlek 0x6C907000 = .ok (.replay false 9) ∧
  decodeRoszon 0x01008C20C8000000 = .ok { op := .pass, mod := 0, d0 := 0x8c20, d1 := 0xc800, imm := 0 }

/-! ### The step -/

/-- When the word at the pc of the thread whose turn it is decodes to i, the step performs i, and the turn passes to the next unit,
behind the last core's slot to the next cycle (R32, R83; log 3). An instruction that met a place held by an agent or reserved, or a page
that no translation cache holds, is put off (R351, R371, R459; log 24, log 132). -/
def Obligations.StepRunsTheFetchedInstruction : Prop :=
  ∀ (s : State) (th : Thread) (st sl : Nat) (w : BitVec 32) (i : Instr), Fetches s th st sl w → decodePorlek w = .ok i →
    (∀ t, exec i (fetchState s th) = .next t → t.waitsFor = false →
      step s = .next { t with hand := .idle, cursor := st + 1, time := if st = 255 then s.time + 1 else s.time }) ∧
    (∀ r, exec i (fetchState s th) = .fault r → step s = .fault r) ∧
    (∀ r, exec i (fetchState s th) = .refused r → step s = .refused r)

/-- A word that does not decode traps at its thread's turn (R83, R84, R483): TAG_MISMATCH for MKFP with a tag that names no code
(R183), ILLEGAL_OP for any other; the handler is entered, and nothing else of the thread's registers changes. -/
def Obligations.IllegalWordsTrap : Prop :=
  ∀ (s : State) (th : Thread) (st sl : Nat) (w : BitVec 32) (e : DecodeError), Fetches s th st sl w → th.station = st →
    decodePorlek w = .error e → th.ops = [] → th.inh = false → th.tvec ≠ 0 →
    ∃ t u, step s = .next t ∧ getThr t th.tid = some u ∧ u.cause = (if e = .pointerTag then 0x1D else 0x01) ∧
      u.epc = pcBits th.pc ∧ u.mpc = pcBits th.pc ∧ u.faddr = 0 ∧ u.finfo = 2 ∧ u.ps = th.sup ∧ u.sup = true ∧ u.inh = true ∧
      u.pc = th.tvec ∧ u.g = th.g ∧ u.v = th.v ∧ u.te = th.te ∧ u.prio = th.prio ∧ u.mbox = th.mbox

/-- The first event of the agenda that is due and not held back by its tile is performed before any unit's turn (log 3). -/
def Obligations.StepPerformsTheFirstDueEvent : Prop :=
  ∀ (s : State) (pre post : List (Nat × Event)) (d : Nat) (e : Event), s.live = true → s.agenda = pre ++ (d, e) :: post →
    (∀ x ∈ pre, s.time < x.1 ∨ heldBack s x.2 = true) → d ≤ s.time → heldBack s e = false →
    ∀ t, exec e.instr { s with agenda := pre ++ post, hand := .event e } = .next t → t.waitsFor = false → step s = .next { t with hand := .idle }

/-- A graph element's turn that comes to an op performs the firing of a slot of that element whose word decodes to the op
(R58, R109; log 3). -/
def Obligations.StepFiresADecodedSlot : Prop :=
  ∀ (s s1 : State) (st e : Nat) (i : Instr), s.live = true → dueEvent s s.agenda = none → st < 256 → e < 16 →
    s.cursor = 512 + 16 * st + e → elementTurn s st e = (s1, some i) →
    ∃ f, s1.hand = .firing f ∧ f.st = st ∧ f.elem = e ∧ i = f.word.op ∧
      decodeRoszon (vget (elemAt s st e).slots f.slot) = .ok f.word ∧
      ∀ t, exec i { s1 with mem := s.mem } = .next t → t.waitsFor = false →
        step s = .next { t with hand := .idle, cursor := if st = 255 ∧ e = 15 then 0 else s.cursor + 1, time := s.time }

/-- The machine never stops: from every state a step answers a next state. -/
def Obligations.StepAlwaysAnswers : Prop := ∀ s : State, ∃ t, step s = .next t

/-- Every row of the table has a meaning: performing it never refuses, and faults only where no agent performs it, which is so where no
thread has the turn of an instruction (R32), no tile of a consist fires a graph op (R58), and no event of a row is in hand (log 3). -/
def Obligations.NoInstructionIsRefused : Prop :=
  ∀ (i : Instr) (s : State), (∃ t, exec i s = .next t) ∨ (exec i s = .fault .noAgent ∧ Unattended i s)

/-- Every step keeps the memory in its canonical form, leaves no write over, and leaves no row waiting in the state (log 1, log 3, log 24). -/
def Obligations.StepKeepsTheMemoryForm : Prop := ∀ s t : State, MemInv s → step s = .next t → MemInv t

/-- The machine at reset: the memory in its canonical form, cycle 0 (R478), the device in FWLOAD and not released (R535, R536), every
partition ABSENT (R448), no thread; at every station arrival capacity 48 (R46), the timer off (R478), format registers 0x0010_0000
(R138), group modes Z (R217) and empty generators (R250); only entry 0 of the domain table valid, and the device's own (R542). -/
def Obligations.ResetState : Prop :=
  MemInv State.reset ∧ State.reset.time = 0 ∧ State.reset.live = false ∧ State.reset.boot = .fwload ∧
  (∀ p, (part State.reset p).st = .absent) ∧ (∀ x, getThr State.reset x = none) ∧
  (∀ n, (stn State.reset n).arrcap = 48 ∧ (stn State.reset n).quantum = 0 ∧
    (∀ i, i < 16 → vget (stn State.reset n).slots i = none) ∧
    (∀ i, i < 8 → vget (stn State.reset n).fd i = 0x00100000 ∧ (vget (stn State.reset n).groups i).mode = 0) ∧
    ∀ i, i < 2 → (vget (stn State.reset n).ig i).st = .empty) ∧
  ∀ i, i < 64 → vget State.reset.domain i = if i = 0 then 3 else 0

/-! ### Integer instructions -/

/-- ADD, SUB, MUL, MULH, MULHU and the logic functions (R165) write their result and go on. -/
def Sys2Proof.IntegerAndLogicResults : Prop :=
  ∀ (s : State) (w : Bool) (th : Thread) (d a b : BitVec 5), Ready s w th →
    Gives (.add w d a b) s (setG s th d (rg th a + rg th b)) ∧
    Gives (.sub w d a b) s (setG s th d (rg th a - rg th b)) ∧
    Gives (.mul w d a b) s (setG s th d (rg th a * rg th b)) ∧
    Gives (.mulh w d a b) s (setG s th d (BitVec.ofInt 64 ((rg th a).toInt * (rg th b).toInt / 2 ^ 64))) ∧
    Gives (.mulhu w d a b) s (setG s th d (BitVec.ofNat 64 ((rg th a).toNat * (rg th b).toNat / 2 ^ 64))) ∧
    Gives (.and w d a b) s (setG s th d (rg th a &&& rg th b)) ∧
    Gives (.or w d a b) s (setG s th d (rg th a ||| rg th b)) ∧
    Gives (.xor w d a b) s (setG s th d (rg th a ^^^ rg th b)) ∧
    Gives (.andn w d a b) s (setG s th d (rg th a &&& ~~~rg th b)) ∧
    Gives (.orn w d a b) s (setG s th d (rg th a ||| ~~~rg th b))

/-- Shifts, rotates, minima, maxima and comparisons (R165): only bits [5:0] of an amount count. -/
def Sys2Proof.ShiftsAndComparisons : Prop :=
  ∀ (s : State) (w : Bool) (th : Thread) (d a b : BitVec 5), Ready s w th →
    let x := rg th a
    let y := rg th b
    let n := y.toNat % 64
    Gives (.sll w d a b) s (setG s th d (x <<< n)) ∧
    Gives (.srl w d a b) s (setG s th d (x >>> n)) ∧
    Gives (.sra w d a b) s (setG s th d (BitVec.ofInt 64 (x.toInt / 2 ^ n))) ∧
    Gives (.rol w d a b) s (setG s th d (x <<< n ||| x >>> (64 - n))) ∧
    Gives (.ror w d a b) s (setG s th d (x >>> n ||| x <<< (64 - n))) ∧
    Gives (.min w d a b) s (setG s th d (BitVec.ofInt 64 (min x.toInt y.toInt))) ∧
    Gives (.max w d a b) s (setG s th d (BitVec.ofInt 64 (max x.toInt y.toInt))) ∧
    Gives (.minu w d a b) s (setG s th d (BitVec.ofNat 64 (min x.toNat y.toNat))) ∧
    Gives (.maxu w d a b) s (setG s th d (BitVec.ofNat 64 (max x.toNat y.toNat))) ∧
    Gives (.slt w d a b) s (setG s th d (if x.toInt < y.toInt then 1 else 0)) ∧
    Gives (.sltu w d a b) s (setG s th d (if x.toNat < y.toNat then 1 else 0))

/-- CLZ, CTZ, POPC, BREV and the sign extensions (R165), each by what its result says of the operand's bits. -/
def Sys2Proof.BitCountsAndExtensions : Prop :=
  ∀ (s : State) (w : Bool) (th : Thread) (d a : BitVec 5), Ready s w th →
    let x := rg th a
    (∃ n, Gives (.clz w d a) s (setG s th d (BitVec.ofNat 64 n)) ∧ n ≤ 64 ∧ (∀ i, i < n → x.getLsbD (63 - i) = false) ∧
      (n < 64 → x.getLsbD (63 - n) = true)) ∧
    (∃ n, Gives (.ctz w d a) s (setG s th d (BitVec.ofNat 64 n)) ∧ n ≤ 64 ∧ (∀ i, i < n → x.getLsbD i = false) ∧
      (n < 64 → x.getLsbD n = true)) ∧
    Gives (.popc w d a) s (setG s th d (BitVec.ofNat 64 (((List.range 64).filter fun i => x.getLsbD i).length))) ∧
    (∃ y, Gives (.brev w d a) s (setG s th d y) ∧ ∀ i, i < 64 → y.getLsbD i = x.getLsbD (63 - i)) ∧
    Gives (.sextB w d a) s (setG s th d ((x.extractLsb' 0 8).signExtend 64)) ∧
    Gives (.sextH w d a) s (setG s th d ((x.extractLsb' 0 16).signExtend 64)) ∧
    Gives (.sextW w d a) s (setG s th d ((x.extractLsb' 0 32).signExtend 64))

/-- The register forms of integer instructions: arithmetic and logic, shifts and comparisons, counts and extensions (R165). -/
def Obligations.IntegerResults : Prop := IntegerAndLogicResults ∧ ShiftsAndComparisons ∧ BitCountsAndExtensions

/-- The instructions with an immediate (R166, R167): it is sign-extended in every one of them, and a shift amount has 6 bits. -/
def Obligations.ImmediateResults : Prop :=
  ∀ (s : State) (w : Bool) (th : Thread) (d a : BitVec 5) (i : BitVec 15) (h : BitVec 6), Ready s w th →
    let x := rg th a
    let e : DWord := i.signExtend 64
    let n := h.toNat
    Gives (.addi w d a i) s (setG s th d (x + e)) ∧
    Gives (.andi w d a i) s (setG s th d (x &&& e)) ∧
    Gives (.ori w d a i) s (setG s th d (x ||| e)) ∧
    Gives (.xori w d a i) s (setG s th d (x ^^^ e)) ∧
    Gives (.slti w d a i) s (setG s th d (if x.toInt < e.toInt then 1 else 0)) ∧
    Gives (.sltiu w d a i) s (setG s th d (if x.toNat < e.toNat then 1 else 0)) ∧
    Gives (.slli w d a h) s (setG s th d (x <<< n)) ∧
    Gives (.srli w d a h) s (setG s th d (x >>> n)) ∧
    Gives (.srai w d a h) s (setG s th d (BitVec.ofInt 64 (x.toInt / 2 ^ n))) ∧
    Gives (.rori w d a h) s (setG s th d (x >>> n ||| x <<< (64 - n)))

/-- LUI and ADDPC (R168), majors 0x09 and 0x0A in format U; LUI followed by ADDI builds every constant of the range that R168
gives. -/
def Obligations.UpperImmediates : Prop :=
  (∀ (w : Bool) (d : BitVec 5) (i : BitVec 20), decodePorlek (BitVec.ofBool w ++ 0x09#6 ++ d ++ i) = .ok (.lui w d i) ∧
    decodePorlek (BitVec.ofBool w ++ 0x0A#6 ++ d ++ i) = .ok (.addpc w d i)) ∧
  (∀ (s : State) (w : Bool) (th : Thread) (d : BitVec 5) (i : BitVec 20), Ready s w th →
    Gives (.lui w d i) s (setG s th d (i.signExtend 64 <<< 15)) ∧
    Gives (.addpc w d i) s (setG s th d (th.pc + i.signExtend 64 * 4))) ∧
  ∀ v : Int, -(2 ^ 34) - 16384 ≤ v → v ≤ 2 ^ 34 - 16385 →
    let hi := (v + 16384) / 2 ^ 15
    let lo := v - hi * 32768
    ((BitVec.ofInt 20 hi).signExtend 64 <<< 15) + (BitVec.ofInt 15 lo).signExtend 64 = BitVec.ofInt 64 v

/-- Division (R127, R165): a long operation, whose result reaches its register within 80 cycles (R200). -/
def Obligations.DivisionResults : Prop :=
  ∀ (s : State) (w : Bool) (th : Thread) (d a b : BitVec 5), Ready s w th →
    let x := rg th a
    let y := rg th b
    let starts (i : Instr) (q : DWord) : Prop :=
      Gives i s (longResult s th { id := 0, pc := 0, dest := .g d, res := [(0, q)] } 80)
    starts (.div w d a b) (if y = 0 then BitVec.ofInt 64 (-1) else BitVec.ofInt 64 (x.toInt.tdiv y.toInt)) ∧
    starts (.divu w d a b) (if y = 0 then BitVec.ofInt 64 (-1) else BitVec.ofNat 64 (x.toNat / y.toNat)) ∧
    starts (.rem w d a b) (if y = 0 then x else BitVec.ofInt 64 (x.toInt.tmod y.toInt)) ∧
    starts (.remu w d a b) (if y = 0 then x else BitVec.ofNat 64 (x.toNat % y.toNat))

/-! ### Floating point -/

/-- The scalar operations that round (R158, R171, R177): the exact result rounds once, in the mode of the instruction, its flags are
ORed into cr.fpcsr, and generator 0 steps in mode SR (R131, R134). Which operands FNMA negates is log 10's reading; that the generator
steps for every operand, NaN included, is log 52's. -/
def Sys2Proof.FloatResultsRoundOnce : Prop :=
  ∀ (s : State) (w : Bool) (th : Thread) (d a b c : BitVec 5) (p : BitVec 2) (r : BitVec 3), Ready s w th →
    let f := fmtOfP p.toNat
    let x := f.num (fpIn f (rg th a))
    let y := f.num (fpIn f (rg th b))
    let z := f.num (fpIn f (rg th c))
    let rounds (i : Instr) (m : Nat) (v : Machine.Num × Flags) : Prop :=
      let q := roundNum f m (genAt th 0) v.1
      Gives i s (setThr s (nextPc (raise (wg (stepGen m 0 th) d (BitVec.ofNat 64 q.1)) (v.2 ||| q.2))))
    let m := modeOf th r
    let n := modeOf th 7
    rounds (.fadd w d a b p r) m (addNum m x y) ∧ rounds (.fsub w d a b p r) m (addNum m x y.neg) ∧
    rounds (.fmul w d a b p r) m (mulNum x y) ∧ rounds (.ffma w d a b c p) n (fmaNum n x y z) ∧
    rounds (.ffms w d a b c p) n (fmaNum n x y z.neg) ∧ rounds (.fnma w d a b c p) n (fmaNum n x.neg y z.neg) ∧
    rounds (.fnms w d a b c p) n (fmaNum n x.neg y z)

/-- FDIV and FSQRT (R171, R200): long operations whose result and flags arrive together, within 96 cycles in FP64 and 48 in the
other precisions. That generator 0 steps in mode SR for every operand is log 52's reading. -/
def Sys2Proof.FloatDivisionAndRoot : Prop :=
  ∀ (s : State) (w : Bool) (th : Thread) (d a b : BitVec 5) (p : BitVec 2) (r : BitVec 3), Ready s w th →
    let f := fmtOfP p.toNat
    let m := modeOf th r
    let x := f.num (fpIn f (rg th a))
    let y := f.num (fpIn f (rg th b))
    let starts (i : Instr) (v : Machine.Num × Flags) : Prop :=
      let q := roundNum f m (genAt th 0) v.1
      Gives i s (longResult s (stepGen m 0 th)
        { id := 0, pc := 0, dest := .g d, res := [(0, BitVec.ofNat 64 q.1)], flags := v.2 ||| q.2 } (if p = 1 then 96 else 48))
    starts (.fdiv w d a b p r) (divNum x y) ∧ starts (.fsqrt w d a p r) (sqrtNum x)

/-- Scalar floating-point arithmetic, the short operations and the long ones (R158, R171, R177, R200); log 10 and log 52 name what of
it is the model's reading. -/
def Obligations.FloatArithmetic : Prop := FloatResultsRoundOnce ∧ FloatDivisionAndRoot

/-- What rounding does in the four formats of R128 (R130, R132, R133, R135). Where it does not overflow, the result is finite, no value
of the format lies strictly between it and the exact value, it lies on the side that a directed mode asks for, no value of the format
is nearer in RNE and RNA, a tie goes to the code whose last bit is 0 in RNE and to the larger magnitude in RNA, and NX says that it
differs from the exact value. It overflows, OF and NX raised, where the magnitude rounded with the exponent unbounded exceeds the largest
finite one; the result is then that value in the modes that round the value toward zero, else infinity. -/
def Obligations.RoundingIsFaithful : Prop :=
  ∀ f ∈ [f64, f32, bf16, f16], ∀ (mode : Nat) (x : Word) (neg : Bool) (m : Nat) (e : Int), mode ≤ 5 →
    let v := valQ (.fin neg m e false)
    let r := roundNum f mode x (.fin neg m e false)
    let y := valQ (f.num r.1)
    let most := valQ (f.num f.maxCode)
    let unit := most / (2 ^ (f.m + 1) - 1 : Nat)
    let inward := mode = 1 ∨ (mode = 2 ∧ neg = false) ∨ (mode = 3 ∧ neg = true)
    (r.2 &&& fOF = 0 →
      Finite (f.num r.1) ∧ (r.2 &&& fNX = 0 ↔ y = v) ∧
      (∀ c, Finite (f.num c) → ¬ (y < valQ (f.num c) ∧ valQ (f.num c) < v) ∧ ¬ (v < valQ (f.num c) ∧ valQ (f.num c) < y)) ∧
      (mode = 1 → |y| ≤ |v|) ∧ (mode = 2 → y ≤ v) ∧ (mode = 3 → v ≤ y) ∧
      (mode = 0 ∨ mode = 4 → ∀ c, Finite (f.num c) → |y - v| ≤ |valQ (f.num c) - v|) ∧
      (∀ c, Finite (f.num c) → valQ (f.num c) ≠ y → |valQ (f.num c) - v| = |y - v| →
        (mode = 0 → r.1 % 2 = 0) ∧ (mode = 4 → |valQ (f.num c)| ≤ |y|))) ∧
    (r.2 &&& fOF ≠ 0 → r.2 = fOF ||| fNX ∧ (inward → f.num r.1 = f.num (f.sign neg + f.maxCode)) ∧ (¬ inward → f.num r.1 = .inf neg)) ∧
    (∀ c, Finite (f.num c) → |valQ (f.num c)| ≤ most) ∧
    (mode = 0 ∨ mode = 4 → (r.2 &&& fOF ≠ 0 ↔ most + unit / 2 ≤ |v|)) ∧ (inward → (r.2 &&& fOF ≠ 0 ↔ most + unit ≤ |v|)) ∧
    ((mode = 2 ∧ neg = true) ∨ (mode = 3 ∧ neg = false) → (r.2 &&& fOF ≠ 0 ↔ most < |v|))

/-- The k-step of the arrays (R152, R153). A group's sum depends on no order of its products; NaN and infinities come first; a group
without a nonzero product gives +0; else each product loses less than 2^(t-56), and nothing where it is a multiple of that. The
integer path adds its sums exactly, modulo the width of its accumulator, until an inner accumulator meets a bound. -/
def Obligations.KStepArithmetic : Prop :=
  (∀ ps qs : List Machine.Num, ps.Perm qs → groupSum ps = groupSum qs) ∧
  (∀ ps : List Machine.Num, ps.any Machine.Num.isNan = true ∨ (.inf false ∈ ps ∧ .inf true ∈ ps) → groupSum ps = .nan false) ∧
  (∀ (ps : List Machine.Num) (neg : Bool), ps.any Machine.Num.isNan = false → .inf neg ∈ ps → .inf (!neg) ∉ ps →
    groupSum ps = .inf neg) ∧
  (∀ ps : List Machine.Num, (∀ p ∈ ps, Finite p) →
    (ps.filterMap leadExp = [] → groupSum ps = .fin false 0 0 false) ∧
    ∀ t, (ps.filterMap leadExp).max? = some t →
      Finite (groupSum ps) ∧ |valQ (groupSum ps) - (ps.map valQ).sum| ≤ ps.length * (2 : Rat) ^ (t - 56) ∧
      ((∀ p ∈ ps, ∃ k : Int, valQ p = k * (2 : Rat) ^ (t - 56)) → valQ (groupSum ps) = (ps.map valQ).sum)) ∧
  ∀ (a : IntAcc) (p n : Nat) (sum : Int), a.held = false →
    let b := IntAcc.step p n a sum
    (-(2 ^ 23) ≤ a.inner + sum → a.inner + sum < 2 ^ 23 → b.held = false ∧ b.saturated = a.saturated ∧
      (b.acc.toInt + b.inner - (a.acc.toInt + a.inner + sum)) % 2 ^ 96 = 0 ∧ (n % p = 0 → b.inner = 0) ∧
      (n % p ≠ 0 → b.acc = a.acc ∧ b.inner = a.inner + sum)) ∧
    (a.inner + sum < -(2 ^ 23) ∨ 2 ^ 23 ≤ a.inner + sum → b.saturated = true ∧
      (n % p ≠ 0 → b.acc = a.acc ∧ b.held = true ∧ b.inner = if a.inner + sum < 0 then -(2 ^ 23) else 2 ^ 23 - 1))

/-- FMIN and FMAX (R172). -/
def Obligations.FloatMinimumAndMaximum : Prop :=
  ∀ (s : State) (w : Bool) (th : Thread) (d a b : BitVec 5) (p : BitVec 2), Ready s w th →
    let f := fmtOfP p.toNat
    let x := fpIn f (rg th a)
    let y := fpIn f (rg th b)
    let u := f.num x
    let v := f.num y
    let chooses (i : Instr) (mx : Bool) : Prop := ∃ q : Nat,
      Gives i s (setThr s (nextPc (raise (wg th d (BitVec.ofNat 64 q)) (if u.isSig || v.isSig then fNV else 0)))) ∧
      (u.isNan = true → v.isNan = true → q = f.nanCode) ∧
      (u.isNan = true → v.isNan = false → q = y) ∧
      (u.isNan = false → v.isNan = true → q = x) ∧
      (u.isNan = false → v.isNan = false →
        (cmpNum u v = -1 → q = if mx then y else x) ∧ (cmpNum u v = 1 → q = if mx then x else y) ∧
        (cmpNum u v = 0 → u.sgn = true → v.sgn = false → q = if mx then y else x) ∧
        (cmpNum u v = 0 → u.sgn = false → v.sgn = true → q = if mx then x else y) ∧ (q = x ∨ q = y))
    chooses (.fmin w d a b p) false ∧ chooses (.fmax w d a b p) true

/-- The comparisons, the classification and the conversions of scalars (R173 to R175): FCLASS sets the bit of the one class of infinity,
normal, subnormal, zero and NaN that its operand has. That a conversion steps generator 0 in mode SR for every operand is log 52's
reading. -/
def Obligations.FloatComparisonsAndConversions : Prop :=
  ∀ (s : State) (w : Bool) (th : Thread) (d a b : BitVec 5) (p t : BitVec 2) (ty : BitVec 3) (r : BitVec 3), Ready s w th →
    let f := fmtOfP p.toNat
    let x := f.num (fpIn f (rg th a))
    let y := f.num (fpIn f (rg th b))
    let un := x.isNan || y.isNan
    let m := modeOf th r
    let gives (i : Instr) (v : DWord) (fl : Flags) : Prop := Gives i s (setThr s (nextPc (raise (wg th d v) fl)))
    gives (.feq w d a b p) (if !un && cmpNum x y == 0 then 1 else 0) (if x.isSig || y.isSig then fNV else 0) ∧
    gives (.flt w d a b p) (if !un && cmpNum x y == -1 then 1 else 0) (if un then fNV else 0) ∧
    gives (.fle w d a b p) (if !un && cmpNum x y != 1 then 1 else 0) (if un then fNV else 0) ∧
    (let below := |valQ x| < (2 : Rat) ^ (1 - f.bias)
     let n : Nat := if x.isSig then 8 else if x.isNan then 9 else if x = .inf true then 0 else if x = .inf false then 7
       else if valQ x = 0 then (if x.sgn then 3 else 4) else if below then (if x.sgn then 2 else 5) else if x.sgn then 1 else 6
     gives (.fclass w d a p) (BitVec.ofNat 64 (2 ^ n)) 0) ∧
    (let q := convert (cvtInt t) m 0 (genAt th 0) x
     Gives (.fcvtI w d a t p r) s (setThr s (nextPc (raise (wg (stepGen m 0 th) d
       (if t = 0 then sextBytes 4 (BitVec.ofNat 64 q.1) else BitVec.ofNat 64 q.1)) q.2)))) ∧
    (let q := roundNum f m (genAt th 0) ((cvtSrc ty).num (rg th a).toNat)
     Gives (.fcvtF w d a ty p r) s (setThr s (nextPc (raise (wg (stepGen m 0 th) d (BitVec.ofNat 64 q.1)) q.2))))

/-- FMVB (R176). -/
def Obligations.FloatBitMove : Prop :=
  ∀ (s : State) (w : Bool) (th : Thread) (d a : BitVec 5) (p : BitVec 2), Ready s w th →
    let n := if p = 1 then 64 else if p = 0 then 32 else 16
    ∃ t u, exec (.fmvb w d a p) s = .next t ∧ t = settle s (setThr s u) ∧ u.fpcsr = th.fpcsr ∧
      u = { wg th d (BitVec.ofNat 64 ((rg th a).toNat % 2 ^ n)) with pc := th.pc + 4 }

/-! ### Masks, branches, jumps and calls -/

/-- The MASK functions (R75, R199): a write of k0 changes nothing, and k0 reads all ones. -/
def Sys2Proof.MaskResults : Prop :=
  ∀ (s : State) (w : Bool) (th : Thread) (d a b : BitVec 2) (gd ga : BitVec 5), Ready s w th →
    let sets (i : Instr) (x : BitVec 16) : Prop := ∃ u, Gives i s (setThr s u) ∧ u.pc = th.pc + 4 ∧ u.g = th.g ∧ u.v = th.v ∧
      rk u 0 = 0xFFFF ∧ (d ≠ 0 → rk u d = x) ∧ ∀ q, q ≠ d → rk u q = rk th q
    sets (.kand w d a b) (rk th a &&& rk th b) ∧ sets (.kor w d a b) (rk th a ||| rk th b) ∧
    sets (.kxor w d a b) (rk th a ^^^ rk th b) ∧ sets (.knot w d a) (~~~rk th a) ∧ sets (.kmovKk w d a) (rk th a) ∧
    sets (.kmovKg w d ga) ((rg th ga).extractLsb' 0 16) ∧
    Gives (.kmovGk w gd a) s (setG s th gd ((rk th a).setWidth 64)) ∧
    Gives (.kpopc w gd a) s (setG s th gd (BitVec.ofNat 64 ((List.range 16).filter fun i => (rk th a).getLsbD i).length)) ∧
    Gives (.kmovGpw w gd) s (setG s th gd (rk th 3 ++ rk th 2 ++ rk th 1 ++ (0xFFFF : BitVec 16))) ∧
    Gives (.kmovPwg w ga) s (setThr s (nextPc { th with
      k1 := (rg th ga).extractLsb' 16 16, k2 := (rg th ga).extractLsb' 32 16, k3 := (rg th ga).extractLsb' 48 16 }))

/-- The branches (R178): the pc becomes pc + 4 · Sext(off15) when the condition holds, else pc + 4; nothing else changes. -/
def Sys2Proof.Branches : Prop :=
  ∀ (s : State) (w : Bool) (th : Thread) (a b : BitVec 5) (o : BitVec 15), Ready s w th →
    let x := rg th a
    let y := rg th b
    let goes (i : Instr) (c : Prop) [Decidable c] : Prop :=
      Gives i s (setThr s { th with pc := if c then th.pc + o.signExtend 64 * 4 else th.pc + 4 })
    goes (.beq w a b o) (x = y) ∧ goes (.bne w a b o) (x ≠ y) ∧
    goes (.blt w a b o) (x.toInt < y.toInt) ∧ goes (.bge w a b o) (y.toInt ≤ x.toInt) ∧
    goes (.bltu w a b o) (x.toNat < y.toNat) ∧ goes (.bgeu w a b o) (y.toNat ≤ x.toNat)

/-- Mask functions and branches (R75, R178, R199). -/
def Obligations.MasksAndBranches : Prop := MaskResults ∧ Branches

/-- JAL (R179), major 0x13 in format J. -/
def Obligations.JumpAndLink : Prop :=
  (∀ (w : Bool) (d : BitVec 5) (o : BitVec 20), decodePorlek (BitVec.ofBool w ++ 0x13#6 ++ d ++ o) = .ok (.jal w d o)) ∧
  ∀ (s : State) (w : Bool) (th : Thread) (d : BitVec 5) (o : BitVec 20), Ready s w th →
    Gives (.jal w d o) s (setThr s { wg th d (th.pc + 4) with pc := th.pc + o.signExtend 64 * 4 })

/-- JALR, CALLT of a Porlek pointer and MKFP (R180, R182, R183), with their traps in the order of the rules. That a target beyond 2^56 faults
only when it is reached is log 9, the address in cr.faddr log 19, a release at a call log 109. -/
def Obligations.JumpsAndPointers : Prop :=
  ∀ (s : State) (w : Bool) (th : Thread) (d a : BitVec 5) (i : BitVec 15) (g : BitVec 3), Ready s w th →
    let x := rg th a
    let c := rseg th 0
    (let t := x + i.signExtend 64
     t ≠ 0 →
      (t.toNat % 4 = 0 → Gives (.jalr w d a i) s (setThr s { wg th d (th.pc + 4) with pc := t })) ∧
      (t.toNat % 4 ≠ 0 → Gives (.jalr w d a i) s (trapState s th 0x05 (vaOf c t) 2))) ∧
    (th.ops = [] →
      let e := x.toNat % 2 ^ 56
      (2 ^ 56 ≤ x.toNat % 2 ^ 62 ∨ 2 ^ 63 ≤ x.toNat → Gives (.callt w a) s (trapState s th 0x1D (BitVec.ofNat 64 e) 2)) ∧
      (x.toNat < 2 ^ 56 →
        (e % 4 ≠ 0 → Gives (.callt w a) s (trapState s th 0x05 (BitVec.ofNat 64 e) 2)) ∧
        (e % 4 = 0 → c.exec = false → Gives (.callt w a) s (trapState s th 0x04 (BitVec.ofNat 64 e) 2)) ∧
        (e % 4 = 0 → c.exec = true → e < c.base ∨ c.base + c.limit ≤ e →
          Gives (.callt w a) s (trapState s th 0x03 (BitVec.ofNat 64 e) 2)) ∧
        (e % 4 = 0 → c.exec = true → c.base ≤ e → e < c.base + c.limit →
          Gives (.callt w a) s (setThr s { wg th 31 (th.pc + 4) with pc := BitVec.ofNat 64 (e - c.base) })))) ∧
    (let q := x.toNat
     (q % 4 ≠ 0 → Gives (.mkfpP w d a) s (trapState s th 0x05 (vaOf c x) 2)) ∧
     (q % 4 = 0 → c.exec = false → Gives (.mkfpP w d a) s (trapState s th 0x04 (vaOf c x) 2)) ∧
     (q % 4 = 0 → c.exec = true → c.limit ≤ q → Gives (.mkfpP w d a) s (trapState s th 0x03 (vaOf c x) 2)) ∧
     (q % 4 = 0 → c.exec = true → q < c.limit →
       Gives (.mkfpP w d a) s (setG s th d (BitVec.ofNat 64 ((c.base + q) % 2 ^ 56))))) ∧
    (let q := x.toNat
     let r := rseg th g
     (q % 64 ≠ 0 → Gives (.mkfpR w d a g) s (trapState s th 0x05 (vaOf r x) 2)) ∧
     (q % 64 = 0 → r.read = false → Gives (.mkfpR w d a g) s (trapState s th 0x04 (vaOf r x) 2)) ∧
     (q % 64 = 0 → r.read = true → r.limit < q + 64 → Gives (.mkfpR w d a g) s (trapState s th 0x03 (vaOf r x) 2)) ∧
     (q % 64 = 0 → r.read = true → q + 64 ≤ r.limit →
       Gives (.mkfpR w d a g) s (setG s th d (BitVec.ofNat 64 (2 ^ 62 + (r.base + q) % 2 ^ 56)))))

/-! ### Vectors -/

/-- The integer lane operations (R185, R186): each enabled lane of the result, from lanes of the sources as they were read. -/
def Sys2Proof.VectorIntegerResults : Prop :=
  ∀ (s s' : State) (w : Bool) (th : Thread) (d a b : BitVec 4) (k : BitVec 2) (l sat u : Bool) (rd : BitVec 4 → VReg),
    Ready s w th → VecReads s th [a, b] (some d) s' rd →
    let n := laneW l
    let v (x : Nat) : Int := laneInt n u x
    let lanes (i : Instr) (f : Nat → Nat → Nat) : Prop := ∃ x, Gives i s (vecOut s' th d (rk th k) x) ∧
      ∀ j, j < laneN l → lane l x j = f (lane l (rd a) j) (lane l (rd b) j) % 2 ^ n
    lanes (.vadd w d a b k l sat u) (fun x y => if sat then clampOf n u (v x + v y) else x + y) ∧
    lanes (.vsub w d a b k l sat u) (fun x y => if sat then clampOf n u (v x - v y) else x + (2 ^ n - y)) ∧
    lanes (.vmul w d a b k l sat u) (fun x y => if sat then clampOf n u (v x * v y) else x * y) ∧
    lanes (.vmin w d a b k l u) (fun x y => if v x ≤ v y then x else y) ∧
    lanes (.vmax w d a b k l u) (fun x y => if v x ≤ v y then y else x) ∧
    lanes (.vand w d a b k l) (fun x y => x &&& y) ∧ lanes (.vor w d a b k l) (fun x y => x ||| y) ∧
    lanes (.vxor w d a b k l) (fun x y => x ^^^ y) ∧
    lanes (.vsll w d a b k l) (fun x y => x * 2 ^ (y % n)) ∧ lanes (.vsrl w d a b k l) (fun x y => x / 2 ^ (y % n)) ∧
    lanes (.vsra w d a b k l) (fun x y => wrapOf n (sgnOf n x / 2 ^ (y % n)))

/-- The comparisons of lanes (R187, R189): the enabled bits of the destination mask are written, the others stay, and k0 is never
written (R75). -/
def Sys2Proof.VectorComparisons : Prop :=
  ∀ (s s' : State) (w : Bool) (th : Thread) (m k : BitVec 2) (a b : BitVec 4) (c : BitVec 3) (u : Bool) (rd : BitVec 4 → VReg),
    Ready s w th → VecReads s th [a, b] none s' rd →
    let sets (i : Instr) (f : Nat → Nat → Bool) : Prop := ∃ t, Gives i s (setThr s' t) ∧ t.pc = th.pc + 4 ∧ t.g = th.g ∧ t.v = th.v ∧
      (m ≠ 0 → ∀ j, j < 16 → (rk t m).getLsbD j =
        if (rk th k).getLsbD j then f (lane false (rd a) j) (lane false (rd b) j) else (rk th m).getLsbD j) ∧
      ∀ q, q ≠ m → rk t q = rk th q
    sets (.vcmp w m a b k c u) (fun x y => vcmpHolds c (laneInt 32 u x) (laneInt 32 u y)) ∧
    sets (.vfcmp w m a b k c) (fun x y => (fcmp f32 c.toNat x y).1)

/-- Vector integer arithmetic and vector comparisons, lane by lane (R185 to R187, R189). -/
def Obligations.VectorIntegerLanes : Prop := VectorIntegerResults ∧ VectorComparisons

/-- The floating-point lane operations of fixed latency (R172, R188): every enabled lane gets its result, the flags of the enabled lanes are
raised, and their generators step in mode SR (R131, R134). That a generator steps for every operand is log 52, that every NaN result is the
canonical one log 101. -/
def Sys2Proof.VectorFloatResults : Prop :=
  ∀ (s s' : State) (w : Bool) (th : Thread) (d a b : BitVec 4) (k : BitVec 2) (l f : Bool) (r : BitVec 3) (rd : BitVec 4 → VReg),
    Ready s w th →
    let n := laneW l
    let m := modeOf th r
    let rounds (i : Instr) (op : Nat) (srcs : List (BitVec 4)) : Prop := VecReads s th srcs (some d) s' rd →
      ∃ x fl, Gives i s (vecOut s' (raise (stepGens m (enabled l (rk th k)) th) fl) d (rk th k) x) ∧
        ∀ j, j < laneN l → kbit l (rk th k) j = true →
          let q := fpOp (vfltFmt l f) op m (genAt th j) (lane l (rd a) j) (lane l (rd b) j) (lane l (rd d) j)
          lane l x j = q.1 % 2 ^ n ∧ q.2 &&& fl = q.2
    let picks (i : Instr) (mx : Bool) : Prop := VecReads s th [a, b] (some d) s' rd →
      ∃ x fl, Gives i s (vecOut s' (raise th fl) d (rk th k) x) ∧
        ∀ j, j < laneN l → kbit l (rk th k) j = true →
          let q := minMax (vfltFmt l f) mx (lane l (rd a) j) (lane l (rd b) j)
          lane l x j = q.1 % 2 ^ n ∧ q.2 &&& fl = q.2
    rounds (.vfadd w d a b k l f r) 0 [a, b] ∧ rounds (.vfsub w d a b k l f r) 1 [a, b] ∧
    rounds (.vfmul w d a b k l f r) 2 [a, b] ∧ rounds (.vffma w d a b k l f r) 5 [a, b, d] ∧
    picks (.vfmin w d a b k l f) false ∧ picks (.vfmax w d a b k l f) true

/-- VFDIV and VSFU are long operations (R162, R196, R200): the enabled lanes' results arrive together within 64 and 48 cycles. What
SFU returns where R196 leaves a range is Config's free choice (log 6). -/
def Sys2Proof.VectorLongResults : Prop :=
  ∀ (s s' : State) (w : Bool) (th : Thread) (d a b : BitVec 4) (k : BitVec 2) (l f : Bool) (r fn : BitVec 3) (rd : BitVec 4 → VReg),
    Ready s w th →
    let starts (i : Instr) (u : Thread) (h : Bool) (wcl : Nat) (q : Nat → Nat × Flags) : Prop := ∃ x fl,
      Gives i s (longResult s' { u with unbIn := [], unbOut := [] }
        { id := 0, pc := 0, dest := .v d, res := [(0, (rk th k).setWidth 64)], vres := x, flags := fl } wcl) ∧
      ∀ j, j < laneN h → kbit h (rk th k) j = true → lane h x j = (q j).1 % 2 ^ laneW h ∧ (q j).2 &&& fl = (q j).2
    (VecReads s th [a, b] none s' rd →
      starts (.vfdiv w d a b k l f r) (stepGens (modeOf th r) (enabled l (rk th k)) th) l 64 fun j =>
        fpOp (vfltFmt l f) 3 (modeOf th r) (genAt th j) (lane l (rd a) j) (lane l (rd b) j) 0) ∧
    (VecReads s th [a] none s' rd →
      starts (.vsfu w d a k fn) th false 48 fun j => sfuOp fn.toNat (BitVec.ofNat 32 (lane false (rd a) j)))

/-- Vector floating-point arithmetic, the short operations and the long ones. -/
def Obligations.VectorFloatLanes : Prop := VectorFloatResults ∧ VectorLongResults

/-- VSEL, VPERM, VBCAST, VEXTR and VINS (R191, R192). -/
def Sys2Proof.VectorMoves : Prop :=
  ∀ (s s' : State) (w : Bool) (th : Thread) (d a b g n : BitVec 4) (k : BitVec 2) (l h m x : Bool) (rd : BitVec 4 → VReg),
    Ready s w th →
    let all : BitVec 16 := 0xFFFF
    let i := 16 * b2n m + n.toNat
    let reg : BitVec 5 := BitVec.ofNat 5 (16 * b2n h + g.toNat)
    (VecReads s th [a, b] (some d) s' rd → ∃ y, Gives (.vsel w d a b k l) s (vecOut s' th d all y) ∧
      ∀ j, j < laneN l → lane l y j = if kbit l (rk th k) j then lane l (rd a) j else lane l (rd b) j) ∧
    (VecReads s th [a, b] (some d) s' rd → ∃ y, Gives (.vperm w d a b k l) s (vecOut s' th d (rk th k) y) ∧
      ∀ j, j < laneN l → lane l y j = lane l (rd a) (lane l (rd b) j % laneN l)) ∧
    (VecReads s th [] (some d) s' rd → ∃ y, Gives (.vbcast w d g k l h) s (vecOut s' th d (rk th k) y) ∧
      ∀ j, j < laneN l → lane l y j = (rg th reg).toNat % 2 ^ laneW l) ∧
    (VecReads s th [a] none s' rd → i < laneN l → Gives (.vextr w g a n l h m x) s (setThr s' (nextPc (wg
      { th with unbIn := [], unbOut := [] } reg (let v : DWord := BitVec.ofNat 64 (lane l (rd a) i)
        if x then sextBytes (if l then 2 else 4) v else v))))) ∧
    (VecReads s th [] (some d) s' rd → NoStreams s th → i < laneN l → ∃ u, Gives (.vins w d g n l h m) s (setThr s' u) ∧
      u.pc = th.pc + 4 ∧ u.g = th.g ∧ (∀ q, q ≠ d → rv u q = rv th q) ∧
      ∀ j, j < laneN l → lane l (rv u d) j = if j = i then (rg th reg).toNat % 2 ^ laneW l else lane l (rv th d) j)

/-- VIOTA writes every lane: the number of lower lanes whose governing bit is 1 (R198). Fields va and vb of its word are 0. -/
def Obligations.VectorIota : Prop :=
  (∀ (x : BitVec 32) (w : Bool) (d : BitVec 4) (k : BitVec 2) (l : Bool), decodePorlek x = .ok (.viota w d k l) →
    x.extractLsb' 17 4 = 0 ∧ x.extractLsb' 13 4 = 0) ∧
  ∀ (s s' : State) (w : Bool) (th : Thread) (d : BitVec 4) (k : BitVec 2) (l : Bool) (rd : BitVec 4 → VReg),
    Ready s w th → VecReads s th [] (some d) s' rd →
    ∃ x, Gives (.viota w d k l) s (vecOut s' th d 0xFFFF x) ∧ ∀ i, i < laneN l →
      lane l x i = ((List.range i).filter fun j => kbit l (rk th k) j).length ∧ (k = 0 → lane l x i = i)

/-- VRED and VCVT (R156, R193 to R195): the reduction combines the enabled lanes in ascending order, all other lanes of its result
are zero; the conversion writes the enabled elements and no other bit. -/
def Sys2Proof.VectorReductionAndConversion : Prop :=
  ∀ (s s' : State) (w : Bool) (th : Thread) (d a t src : BitVec 4) (k : BitVec 2) (l : Bool) (c : BitVec 5) (r : BitVec 2)
    (rd : BitVec 4 → VReg), Ready s w th → VecReads s th [a] (some d) s' rd →
    (∀ i is, enabled l (rk th k) = i :: is →
      let q := is.foldl (fun q j => redCombine c.toNat l (modeOf th 7) (genAt th 0) q (lane l (rd a) j))
        (redWiden c.toNat l (lane l (rd a) i))
      ∃ u, Gives (.vred w d a k l c) s (vecOut s' u d 0xFFFF (BitVec.ofNat 512 q.v)) ∧ u.g = th.g ∧ u.v = th.v ∧ u.pc = th.pc ∧
        u.fpcsr = th.fpcsr ||| (q.fl.setWidth 64 <<< 5) ∧
        (c = 0 → q.v = (lane l (rd a) i + (is.map fun j => lane l (rd a) j).sum) % 2 ^ laneW l)) ∧
    (enabled l (rk th k) = [] → ∃ u, Gives (.vred w d a k l c) s (vecOut s' u d 0xFFFF (BitVec.ofNat 512 (redIdentity c.toNat (laneW l))))) ∧
    (∀ e, vcvtTrap s th.station t src r = some e → Gives (.vcvt w d a t k src r) s (trapState s th e 0 2)) ∧
    (vcvtTrap s th.station t src r = none → ∃ u mask x, Gives (.vcvt w d a t k src r) s (vecBits s' u d mask x) ∧
      u.g = th.g ∧ u.v = th.v ∧ u.pc = th.pc ∧
      let ed := elemTy s' th.station t.toNat
      let es := elemTy s' th.station src.toNat
      ∀ j, j < 16 → ((rk th k).getLsbD j = false → ed.c * j + ed.c ≤ 512 → mask.toNat / 2 ^ (ed.c * j) % 2 ^ ed.c = 0) ∧
        ((rk th k).getLsbD j = true → ed.c * j + ed.c ≤ 512 → mask.toNat / 2 ^ (ed.c * j) % 2 ^ ed.c = 2 ^ ed.c - 1 ∧
          x.toNat / 2 ^ (ed.c * j) % 2 ^ ed.c =
            (convert ed.ty (modeOf th 7) r.toNat (genAt th j) (es.ty.num (es.get (rd a) j))).1 % 2 ^ ed.w))

/-- A vector result written (R75, R76, R185): lanes whose mask bit is 0 keep their value; a register bound to a stream port takes
none: where its port has room for a group (R387), two entries enter the port's queue, lanes 0 to 7 and lanes 8 to 15, and each lane
whose mask bit is 0 is there as zero with valid bit 0. -/
def Sys2Proof.VectorRegisterWrites : Prop :=
  ∀ (s : State) (th : Thread) (d : BitVec 4) (m : BitVec 16) (x : VReg), d.toNat ∉ th.unbOut →
    (portOf s th.station false 0 d.toNat th.tid = none → ∃ u, vecOut s th d m x = setThr s u ∧ u.pc = th.pc + 4 ∧ u.g = th.g ∧
      (∀ q, q ≠ d → rv u q = rv th q) ∧
      ∀ j, j < 16 → lane false (rv u d) j = if m.getLsbD j then lane false x j else lane false (rv th d) j) ∧
    ∀ p, portOf s th.station false 0 d.toNat th.tid = some p → (portAt s th.station p).queue.length ≤ 30 →
      ∃ u e f, getThr (vecOut s th d m x) th.tid = some u ∧ u.pc = th.pc + 4 ∧ u.g = th.g ∧ u.v = th.v ∧
        (portAt (vecOut s th d m x) th.station p).queue = (portAt s th.station p).queue ++ [e, f] ∧
        ∀ j, j < 8 → let put (e : BitVec 256 × BitVec 8) (n : Nat) : Prop := e.2.getLsbD j = m.getLsbD n ∧
            e.1.extractLsb' (32 * j) 32 = if m.getLsbD n then BitVec.ofNat 32 (lane false x n) else 0
          put e j ∧ put f (8 + j)

/-- Every vector instruction completes where no stream is bound to a register of its thread (R76): it ends behind its instruction in its
slot, with every general register but the one that VEXTR writes. VEXTR and VINS need a lane of the register (R192), VCVT types and a mode that
R194 and R195 admit. -/
def Sys2Proof.VectorFormsComplete : Prop :=
  ∀ (s : State) (w : Bool) (th : Thread) (d a b g n t r : BitVec 4) (k m : BitVec 2) (l h u f x : Bool) (c : BitVec 5) (e fn : BitVec 3)
    (y : BitVec 2), Ready s w th → NoStreams s th →
    let completes (i : Instr) : Prop := ∃ z o, exec i s = .next z ∧ getThr z th.tid = some o ∧ o.pc = th.pc + 4 ∧ o.st = th.st ∧
      o.g = th.g ∧ o.sup = th.sup
    (∀ i ∈ [Instr.vadd w d a b k l u x, .vsub w d a b k l u x, .vmul w d a b k l u x, .vmin w d a b k l u, .vmax w d a b k l u,
        .vand w d a b k l, .vor w d a b k l, .vxor w d a b k l, .vsll w d a b k l, .vsrl w d a b k l, .vsra w d a b k l,
        .vcmp w m a b k e u, .vfcmp w m a b k e, .vfadd w d a b k l f e, .vfsub w d a b k l f e, .vfmul w d a b k l f e,
        .vffma w d a b k l f e, .vfmin w d a b k l f, .vfmax w d a b k l f, .vfdiv w d a b k l f e, .vsfu w d a k fn, .vsel w d a b k l,
        .vperm w d a b k l, .vbcast w d g k l h, .viota w d k l, .vred w d a k l c], completes i) ∧
    (16 * b2n x + n.toNat < laneN l → completes (.vins w d g n l h x) ∧
      ∃ z o, exec (.vextr w g a n l h x u) s = .next z ∧ getThr z th.tid = some o ∧ o.pc = th.pc + 4 ∧ o.st = th.st ∧
        ∀ q, q.toNat ≠ 16 * b2n h + g.toNat → rg o q = rg th q) ∧
    (let class_ (n : BitVec 4) : Nat := codeClass s th.station n.toNat
     (r.toNat < 8 ∨ class_ r < 3) → (y ≠ 1 ∨ t.toNat < 8 ∨ 3 < class_ t ∨ (fdTy (vget (stn s th.station).fd (t.toNat - 8)).toNat).isFp = false) →
       completes (.vcvt w d a t k r y))

/-- Moves, reductions and conversions of vectors, what a write of a vector register does, and that every vector form completes. -/
def Obligations.VectorRegisterFile : Prop :=
  VectorMoves ∧ VectorReductionAndConversion ∧ VectorRegisterWrites ∧ VectorFormsComplete

/-! ### Memory instructions -/

/-- The checks of an access through a segment and of one at the home of a word, their first failing cause in the order of R85: alignment,
rights and kind, a write to a buffer that is SEALED, being sealed or being unsealed (R319, R347, R348), the limit and the 2^40 bytes of an
offset (R319). The check of a word takes the rights that it is asked for, and wrong says that the kind of the segment is not the
instruction's (R366, R369). -/
def Obligations.SegmentChecksInOrder : Prop :=
  (∀ (s : State) (pn : Nat) (g : Seg) (off z : Nat) (rd wr wrong : Bool), 0 < z →
    let right := (rd = true → g.read = true) ∧ (wr = true → g.write = true) ∧ wrong = false
    let closed := wr && g.type == 1 && (kget (part s pn).seals g.idx).isSome
    (off % z ≠ 0 → wordCheck s pn g off z rd wr wrong = some 0x05) ∧
    (off % z = 0 → ¬ right ∨ closed = true → wordCheck s pn g off z rd wr wrong = some 0x04) ∧
    (off % z = 0 → right → closed = false → 2 ^ 40 ≤ off ∨ g.limit < off + z → wordCheck s pn g off z rd wr wrong = some 0x03) ∧
    (off % z = 0 → right → closed = false → off < 2 ^ 40 → off + z ≤ g.limit → wordCheck s pn g off z rd wr wrong = none)) ∧
  ∀ (s : State) (pn : Nat) (g : Seg) (off z : Nat) (wr : Bool), 0 < z →
    let right := if wr then g.write else g.read
    let closed := wr && g.type == 1 && (kget (part s pn).seals g.idx).isSome
    (off % z ≠ 0 → segCheck s pn g off z wr = some 0x05) ∧
    (off % z = 0 → right = false ∨ g.type = 3 ∨ closed = true → segCheck s pn g off z wr = some 0x04) ∧
    (off % z = 0 → right = true → g.type ≠ 3 → closed = false → 2 ^ 40 ≤ off ∨ g.limit < off + z →
      segCheck s pn g off z wr = some 0x03) ∧
    (off % z = 0 → right = true → g.type ≠ 3 → closed = false → off < 2 ^ 40 → off + z ≤ g.limit → segCheck s pn g off z wr = none)

/-- The scalar loads and stores (R360, R362). Where the access is aligned and its segment has the right, is not TYPE 3, holds it within its
limit and is open to the write (R85, R319), the instruction completes: one access at BASE + offset is issued as a long operation and the
thread goes on behind it; else the check that fails traps with nothing done. That LDG checks its kind of segment before the alignment is
log 59's choice. -/
def Sys2Proof.ScalarLoadsAndStores : Prop :=
  ∀ (s : State) (w : Bool) (th : Thread) (d a : BitVec 5) (g : BitVec 3) (i : BitVec 12), Ready s w th →
    let q := rseg th g
    let off := rg th a + i.signExtend 64
    let va : DWord := BitVec.ofNat 64 ((q.base + off.toNat) % 2 ^ 56)
    let accesses (j : Instr) (x : Access) (v : DWord) (wr : Bool) : Prop :=
      (Admits s (tidPart th.tid) q off.toNat x.z (!wr) wr → q.type ≠ 3 →
        Issues j s th { x with els := [{ lane := 0, va := va, val := v }] }) ∧
      ∀ c, segCheck s (tidPart th.tid) q off.toNat x.z wr = some c → Gives j s (takeTrap s th (trapAcc th c x va 0))
    let load (j : Instr) (z : Nat) (sx : Bool) : Prop :=
      accesses j { kind := .read, z := z, sx := sx, seg := q, dest := .g d, reg := d } 0 false
    let store (j : Instr) (z : Nat) : Prop :=
      accesses j { kind := .write, z := z, seg := q, reg := d } (BitVec.ofNat 64 ((rg th d).toNat % 2 ^ (8 * z))) true
    load (.ldb w d a g i) 1 true ∧ load (.ldh w d a g i) 2 true ∧ load (.ldw w d a g i) 4 true ∧ load (.ldd w d a g i) 8 false ∧
    load (.ldbu w d a g i) 1 false ∧ load (.ldhu w d a g i) 2 false ∧ load (.ldwu w d a g i) 4 false ∧
    store (.stb w d a g i) 1 ∧ store (.sth w d a g i) 2 ∧ store (.stw w d a g i) 4 ∧ store (.std w d a g i) 8 ∧
    (q.isLocal = false → q.type < 2 →
      accesses (.ldg w d a g i) { kind := .hashed, z := 8, seg := q, dest := .g d, reg := d } 0 false) ∧
    (q.isLocal = true ∨ 2 ≤ q.type → Gives (.ldg w d a g i) s
      (takeTrap s th (trapAcc th 0x04 { kind := .hashed, z := 8, seg := q, dest := .g d, reg := d } va 0)))

/-- The presence operations and the atomics (R366, R369 to R372). Where the word at g[a] is aligned, lies within the limit of a segment with
the rights and of the kind that the instruction needs, and is open to its write (R85, R319), the instruction completes: one access of the
word is issued as a long operation and the thread goes on behind it; else the check that fails traps with nothing done. PSET and PCLR are for
the supervisor. -/
def Sys2Proof.PresenceAndAtomicsIssue : Prop :=
  ∀ (s : State) (w : Bool) (th : Thread) (d a b : BitVec 5) (z : Bool) (g : BitVec 3), Ready s w th →
    let q := rseg th g
    let off := rg th a
    let n := if z then 8 else 4
    let low (x : DWord) : DWord := BitVec.ofNat 64 (x.toNat % 2 ^ (8 * n))
    let el (v : DWord) : El := { lane := 0, va := BitVec.ofNat 64 ((q.base + off.toNat) % 2 ^ 56), val := v }
    let accesses (j : Instr) (x : Access) (v : DWord) (rd wr wrong : Bool) : Prop :=
      (Admits s (tidPart th.tid) q off.toNat x.z rd wr → wrong = false → Issues j s th { x with els := [el v] }) ∧
      ∀ c, wordCheck s (tidPart th.tid) q off.toNat x.z rd wr wrong = some c → Gives j s (takeTrap s th (trapAcc th c x (el 0).va 0))
    let amo (j : Instr) (fn : Nat) : Prop :=
      accesses j { kind := .amo fn, z := n, seg := q, dest := .g d, reg := d, cmp := low (rg th d) } (low (rg th b)) true true
        (decide (2 ≤ q.type))
    accesses (.take w d a g) { kind := .take, z := 8, seg := q, dest := .g d, reg := d } 0 true true (!q.presence) ∧
    accesses (.put w a b g) { kind := .put, z := 8, seg := q, dest := .nowhere, reg := b } (rg th b) false true (!q.presence) ∧
    accesses (.readf w d a g) { kind := .readf, z := 8, seg := q, dest := .g d, reg := d } 0 true false (!q.presence) ∧
    (th.sup = true → accesses (.pset w a g) { kind := .pset, z := 8, seg := q } 0 false true (!q.presence) ∧
      accesses (.pclr w a g) { kind := .pclr, z := 8, seg := q } 0 false true (!q.presence)) ∧
    accesses (.rsv w d a z g) { kind := .rsv, z := n, seg := q, dest := .g d, reg := d } 0 true true (decide (2 ≤ q.type)) ∧
    accesses (.rls w a b z g) { kind := .rls, z := n, seg := q, reg := b } (low (rg th b)) false true (decide (2 ≤ q.type)) ∧
    amo (.amoAdd w d a b z g) 2 ∧ amo (.amoAnd w d a b z g) 3 ∧ amo (.amoOr w d a b z g) 4 ∧ amo (.amoXor w d a b z g) 5 ∧
    amo (.amoMin w d a b z g) 6 ∧ amo (.amoMax w d a b z g) 7 ∧ amo (.amoMinu w d a b z g) 8 ∧ amo (.amoMaxu w d a b z g) 9 ∧
    amo (.amoSwap w d a b z g) 10 ∧ amo (.amoCas w d a b z g) 11

/-- Scalar loads, stores, presence accesses and atomics, up to their issue. -/
def Obligations.ScalarAccessesIssue : Prop := ScalarLoadsAndStores ∧ PresenceAndAtomicsIssue

/-- The vector loads and stores (R363 to R365). Where the element of every enabled lane passes the checks of R85 and R319, the instruction
completes: one element access for every enabled lane is issued, in ascending order, and the thread goes on behind it; the lowest lane that
fails its check traps, with no access made. -/
def Obligations.VectorLoadsAndStores : Prop :=
  ∀ (s s' : State) (w : Bool) (th : Thread) (d x : BitVec 4) (i : BitVec 8) (k : BitVec 2) (l : Bool) (b : BitVec 5) (g : BitVec 3)
    (h : BitVec 2) (rd : BitVec 4 → VReg), Ready s w th →
    let q := rseg th g
    let z := if l then 2 else 4
    let seq (n : Nat) : DWord := rg th b + i.signExtend 64 * 64 + BitVec.ofNat 64 (n * z)
    let idx (n : Nat) : DWord := rg th b + BitVec.ofNat 64 (lane l (rd x) n * 2 ^ h.toNat)
    let accesses (j : Instr) (u : State) (wr : Bool) (off : Nat → DWord) (v : Nat → DWord) : Prop :=
      let acc : Access := { kind := if wr then .write else .read, z := z, seg := q, dest := if wr then .nowhere else .v d, half := l,
                            reg := d.setWidth 5, vec := true }
      let on := enabled l (rk th k)
      let all : Access :=
        { acc with els := on.map fun n => { lane := n, va := BitVec.ofNat 64 ((q.base + (off n).toNat) % 2 ^ 56), val := v n } }
      ((∀ n ∈ on, Admits u (tidPart th.tid) q (off n).toNat z (!wr) wr) → q.type ≠ 3 →
        Gives j s (issueAccess u (nextPc { th with unbIn := [], unbOut := [] }) th.pc all none) ∧ (NoStreams s th → Issues j s th all)) ∧
      ∀ pre n post c, on = pre ++ n :: post → (∀ m ∈ pre, segCheck u (tidPart th.tid) q (off m).toNat z wr = none) →
        segCheck u (tidPart th.tid) q (off n).toNat z wr = some c →
        Gives j s (takeTrap s th (trapAcc th c acc (BitVec.ofNat 64 ((q.base + (off n).toNat) % 2 ^ 56)) n))
    accesses (.vld w d i k l b g) s false seq (fun _ => 0) ∧
    (VecReads s th [d] none s' rd → accesses (.vst w d i k l b g) s' true seq fun n => BitVec.ofNat 64 (lane l (rd d) n)) ∧
    (VecReads s th [x] none s' rd → accesses (.vldx w d x k l b g h) s' false idx fun _ => 0) ∧
    (VecReads s th [d, x] none s' rd → accesses (.vstx w d x k l b g h) s' true idx fun n => BitVec.ofNat 64 (lane l (rd d) n))

/-- An access issued is an outstanding long operation of its thread, which keeps every register (R34). -/
def Sys2Proof.IssuedAccessesAreOutstanding : Prop :=
  ∀ (s : State) (th : Thread) (pc : DWord) (a : Access), (∀ o ∈ th.ops, o.id < th.nextOp) →
    ∃ u, getThr (issueAccess s th pc a none) th.tid = some u ∧ u.g = th.g ∧ u.v = th.v ∧ u.pc = th.pc ∧ u.st = th.st ∧
      outstanding u = true ∧ ∃ o ∈ u.ops, o.id = th.nextOp ∧ o.done = false ∧ o.acc = some a ∧ o.dest = a.dest ∧ o.pc = pc

/-- Issuing an access writes no byte of memory where the D bits of the cached translations are set (R458): a store's own bytes are written
when it is performed at its home. -/
def Sys2Proof.IssuingWritesNoData : Prop :=
  ∀ (s : State) (th : Thread) (pc : DWord) (a : Access) (x : Nat), (∀ c, ∀ t ∈ (clus s c).tlb, t.leaf.getLsbD 7 = true) →
    rdB (issueAccess s th pc a none) x = rdB s x

/-- What issuing a request does to its thread, and that it writes no data (R34). -/
def Obligations.IssuedRequests : Prop := IssuedAccessesAreOutstanding ∧ IssuingWritesNoData

/-- A store is performed at its home (R325): its bytes are written at its place, and every other byte reads as before at that home. A
tile slot takes it while its tag is EMPTY, or FILLING but not by an engine (R214, R396). A peer's bytes are not of this device (log 1). -/
def Sys2Proof.PerformedStoresWriteTheirBytes : Prop :=
  ∀ (s : State) (r : Req) (key : Nat) (t : Word) (op ln : Nat), Arrives s r key → CleanSlice s r.bank → r.kind = .write →
    r.who = .thread t op ln → r.mask = 0 → (2 ^ 61 ≤ key → key < 2 ^ 62 →
      let x := vget (stn s ((key - 2 ^ 61) / 2 ^ 19)).tiles ((key - 2 ^ 61) / 2 ^ 15 % 16)
      x.tag = .empty ∨ (x.tag = .filling ∧ x.eng = false)) →
    ∃ u, exec .accessPerformed { s with hand := .event (.accessPerformed r.id) } = .next u ∧ ∀ a, isPeer a = false →
      hRdB u r.bank a = if key ≤ a ∧ a < key + r.z then r.val.extractLsb' (8 * (a - key)) 8 else hRdB s r.bank a

/-- A combining sector is performed at its home (R327): the bytes of its mask are written, and no other. -/
def Sys2Proof.PerformedSectorsWriteTheirMask : Prop :=
  ∀ (s : State) (r : Req) (key : Nat) (ops : List (Word × Nat × Nat)), Arrives s r key → CleanSlice s r.bank → r.kind = .sector →
    r.who = .sector ops → r.mask ≠ 0 →
    ∃ u, exec .accessPerformed { s with hand := .event (.accessPerformed r.id) } = .next u ∧ ∀ a, isPeer a = false →
      hRdB u r.bank a = if key ≤ a ∧ a < key + 64 ∧ r.mask.getLsbD (a - key) then r.data.extractLsb' (8 * (a - key)) 8
        else hRdB s r.bank a

/-- A read, an AMO, an RSV or an RLS is performed at its home (R325, R369 to R372): its operation gets the word that stood there, an AMO
writes the new one, an RSV holds its word from then on, and an RLS of the holder writes its word and ends the reservation, or faults
without one; every other byte reads as before. A presence operation whose tag it finds takes or gives its word and turns the tag; one that
does not find it waits at the home in the order of arrival; PSET and PCLR set and clear the tag (R366, R367). -/
def Sys2Proof.PerformedReadsAndAtomics : Prop :=
  ∀ (s : State) (r : Req) (key : Nat) (th : Thread) (op ln : Nat) (o : LongOp), Arrives s r key → CleanSlice s r.bank →
    r.who = .thread th.tid op ln → getThr s th.tid = some th → th.ops.find? (fun x => x.id == op && !x.done && x.left != 0) = some o →
    (∀ i, i < r.z → isPeer (key + i) = false) →
    let old := hRdN s r.bank key r.z
    let answersIf (v : Nat) (new : Nat → Byte) (lo n : Nat) (more : State → Prop) : Prop := ∃ u w p,
      exec .accessPerformed { s with hand := .event (.accessPerformed r.id) } = .next u ∧ getThr u th.tid = some w ∧ p ∈ w.ops ∧
      p.id = op ∧ p.left = o.left - 1 ∧ kget p.res ln = some (BitVec.ofNat 64 v) ∧ w.g = th.g ∧ w.pc = th.pc ∧ more u ∧
      ∀ a, isPeer a = false → hRdB u r.bank a = if lo ≤ a ∧ a < lo + n then new (a - lo) else hRdB s r.bank a
    let answers (new : Nat → Byte) (lo n : Nat) : Prop := answersIf old new lo n fun _ => True
    let defers : Prop := s.waits.countP (fun x => x.bank == r.bank) < 1024 →
      Does (.accessPerformed r.id) s fun s => { s with reqs := kdel s.reqs r.id, waits := s.waits ++ [r] }
    (r.kind = .read ∨ r.kind = .hashed → answers (fun _ => 0) 0 0) ∧
    (∀ fn, r.kind = .amo fn →
      let y := r.val.toNat % 2 ^ (8 * r.z)
      let least := decide (sgnOf (8 * r.z) old ≤ sgnOf (8 * r.z) y)
      let becomes (n v : Nat) : Prop := fn = n → answers (fun i => BitVec.ofNat 8 (v / 2 ^ (8 * i))) key r.z
      becomes 2 (old + y) ∧ becomes 3 (old &&& y) ∧ becomes 4 (old ||| y) ∧ becomes 5 (old ^^^ y) ∧
      becomes 6 (if least then old else y) ∧ becomes 7 (if least then y else old) ∧ becomes 8 (min old y) ∧ becomes 9 (max old y) ∧
      becomes 10 y ∧ (old = r.cmp.toNat % 2 ^ (8 * r.z) → becomes 11 y) ∧
      (fn = 11 → old ≠ r.cmp.toNat % 2 ^ (8 * r.z) → answers (fun _ => 0) 0 0)) ∧
    (r.kind = .rsv → answersIf old (fun _ => 0) 0 0 fun u => ∃ e, kget u.rsv (key / 8) = some e ∧ e.holder = some th.tid) ∧
    (r.kind = .rls → (∀ e, kget s.rsv (key / 8) = some e → e.holder = some th.tid → e.queue = [] →
        answersIf 0 (fun i => BitVec.ofNat 8 (r.val.toNat / 2 ^ (8 * i))) key r.z fun u => kget u.rsv (key / 8) = none) ∧
      ((∀ e, kget s.rsv (key / 8) = some e → e.holder = none) → o.fault = none → ∃ u w p f,
        exec .accessPerformed { s with hand := .event (.accessPerformed r.id) } = .next u ∧ getThr u th.tid = some w ∧ p ∈ w.ops ∧
        p.id = op ∧ p.left = o.left - 1 ∧ p.fault = some f ∧ f.cause = 0x0B ∧ ∀ a, isPeer a = false → hRdB u r.bank a = hRdB s r.bank a)) ∧
    (r.z = 8 → (∀ x ∈ s.waits, ∀ k, x.pa = some k → k / 8 ≠ key / 8) →
      (r.kind = .pset → answersIf 0 (fun _ => 0) 0 0 fun u => tagFull u key = true) ∧
      (r.kind = .pclr → answersIf 0 (fun _ => 0) 0 0 fun u => tagFull u key = false) ∧
      (tagFull s key = true →
        (r.kind = .take → answersIf old (fun _ => 0) 0 0 fun u => tagFull u key = false) ∧
        (r.kind = .readf → answersIf old (fun _ => 0) 0 0 fun u => tagFull u key = true) ∧ (r.kind = .put → defers)) ∧
      (tagFull s key = false → (r.kind = .take ∨ r.kind = .readf → defers) ∧
        (r.kind = .put → answersIf 0 (fun i => r.val.extractLsb' (8 * i) 8) key 8 fun u => tagFull u key = true)))

/-- What a request does when it is performed at its home: stores, vector sectors, reads, atomics and presence operations. -/
def Obligations.PerformedRequests : Prop :=
  PerformedStoresWriteTheirBytes ∧ PerformedSectorsWriteTheirMask ∧ PerformedReadsAndAtomics

/-- A long operation completes (R35, R131, R360): its value reaches the register, extended as its access says, its flags are raised,
every other register stays, and a thread parked at its marker becomes READY with the last one. No kill waits for the operation (R509). -/
def Sys2Proof.LongOperationsDeliver : Prop :=
  ∀ (s : State) (th : Thread) (o : LongOp) (d : BitVec 5), getThr s th.tid = some th → th.wait = none → th.ending = none →
    th.ops.find? (fun x => x.id == o.id && !x.done && x.left == 0) = some o → o.replay = none → o.fault = none →
    o.saveAt = none → o.kill = false → o.hold = false → o.dest = .g d →
    let rest := th.ops.filter fun x => x.id != o.id
    ∃ t u, exec .longOpComplete { s with hand := .event (.longOpComplete th.tid.toNat o.id) } = .next t ∧
      getThr t th.tid = some u ∧ u.ops = rest ∧ u.fpcsr = th.fpcsr ||| (o.flags.setWidth 64 <<< 5) ∧ u.pc = th.pc ∧ u.v = th.v ∧
      rg u d = (if d = 0 then 0 else match o.acc with
        | some a => if a.sx then ((kget o.res 0).getD 0 |>.extractLsb' 0 (8 * a.z)).signExtend 64 else (kget o.res 0).getD 0
        | none => (kget o.res 0).getD 0) ∧
      (∀ r, r ≠ d → rg u r = rg th r) ∧
      (th.st = .parked .marker → (∀ x ∈ rest, x.done = true) → u.st = .ready) ∧ (∀ sl, th.st = .running sl → u.st = .running sl) ∧
      MemSame s t

/-! ### Fences and seals -/

/-- The fences (R332 to R338): SEG_RIGHTS for a scope that R333 refuses, nothing to do for a scope of the thread alone; else an acquire leaves
the station's L1 without an unsealed line but those that the eviction schedule keeps, which are read again (R355), and a release without a
combining sector, the thread parked at the fence while one is still on its way or, for scope 6, a store to host memory is not acknowledged
(log 42, log 58); where nothing is on its way the release goes on at once. That a release waits for other threads' sectors too is log 48,
what FENCEX does log 61. -/
def Sys2Proof.FencesOrderTheL1 : Prop :=
  ∀ (s : State) (w : Bool) (th : Thread) (a : BitVec 5), Ready s true th →
    let x := rg th a
    let pn := tidPart th.tid
    let here := l1Stations s th.station
    let drained := here.foldl (fun s st => drainWhere s st fun _ => true) s
    let goes (i : Instr) (p : State → Prop) : Prop :=
      ∃ t u, exec i s = .next t ∧ getThr t th.tid = some u ∧ u.pc = th.pc + 4 ∧ u.g = th.g ∧ u.st = th.st ∧ p t
    let acquired (t : State) : Prop := ∀ st ∈ here, ∀ l ∈ (stn t st).l1, l.sealedIdx.isSome = true ∨ l.sched = true
    let released (t : State) : Prop := ∀ st ∈ here, (stn t st).comb = []
    let waits (i : Instr) : Prop := ∃ t u, exec i s = .next t ∧ getThr t th.tid = some u ∧ u.pc = th.pc ∧ u.st = .parked .marker
    let out := sectorsFlying drained th.station || (scopeKind x == 6 && hostWritesOut drained pn)
    let kind := x.toNat / 2 ^ 60
    let x0 := x.toNat % 256
    let y0 := x.toNat / 2 ^ 8 % 256
    let x1 := x.toNat / 2 ^ 16 % 256
    let y1 := x.toNat / 2 ^ 24 % 256
    let legal := kind < 7 ∧ (kind = 0 → x0 ≤ x1 ∧ y0 ≤ y1 ∧ x1 < 16 ∧ y1 < 16 ∧ (part s pn).hasStation (16 * y0 + x0) = true ∧
      (part s pn).hasStation (16 * y1 + x1) = true)
    (¬ legal → Gives (.fenceAcq w a) s (trapState s th 0x04 0 2) ∧ Gives (.fenceRel w a) s (trapState s th 0x04 0 2) ∧
      Gives (.fenceAr w a) s (trapState s th 0x04 0 2)) ∧
    (kind = 1 → Gives (.fenceAcq w a) s (setThr s (nextPc th)) ∧
      Gives (.fenceRel w a) s (setThr s (nextPc th)) ∧ Gives (.fenceAr w a) s (setThr s (nextPc th))) ∧
    (legal → kind ≠ 1 → goes (.fenceAcq w a) acquired ∧
      (th.relDone = false → NothingFlies s pn → goes (.fenceRel w a) released ∧ goes (.fenceAr w a) fun t => acquired t ∧ released t) ∧
      (th.relDone = false → out = false →
        goes (.fenceRel w a) released ∧ goes (.fenceAr w a) fun t => acquired t ∧ released t) ∧
      (th.relDone = true → goes (.fenceRel w a) (fun _ => True) ∧ goes (.fenceAr w a) acquired) ∧
      (th.relDone = false → out = true → waits (.fenceRel w a) ∧ waits (.fenceAr w a))) ∧
    ∀ p q, goes (.fencex w p q) fun t => q = 0 → p ≠ 0 → acquired t

/-- SEAL and UNSEAL (R346 to R349, R375): SEG_RIGHTS for a register that does not name a buffer set by SEGSET with the right to write, and for a
seal beyond the table's 256 entries; a change that stands already goes on at once; a new one enters the seal table, and the thread parks
until it is complete. That the thread parks as at a marker is log 58. -/
def Sys2Proof.SealsChangeTheTable : Prop :=
  ∀ (s : State) (w : Bool) (th : Thread) (g : BitVec 3), Ready s true th →
    let pn := tidPart th.tid
    let q := rseg th g
    let entry (t : State) : Option Seal := kget (part t pn).seals q.idx
    let parks (i : Instr) (p : Option Seal → Prop) : Prop :=
      ∃ t u, exec i s = .next t ∧ getThr t th.tid = some u ∧ u.st = .parked .marker ∧ u.pc = th.pc ∧ p (entry t)
    let sealable := q.type = 1 ∧ q.bySet = true ∧ q.write = true
    let room := entry s ≠ none ∨ (part s pn).seals.length < 256
    (¬ sealable ∨ ¬ room → Gives (.seal w g) s (trapState s th 0x04 0 2)) ∧
    (¬ sealable → Gives (.unseal w g) s (trapState s th 0x04 0 2)) ∧
    (sealable → room →
      (entry s = none → parks (.seal w g) fun e => ∃ x, e = some x ∧ x.st = .sealing ∧ x.base = BitVec.ofNat 64 q.base ∧ x.limit = q.limit) ∧
      (∀ x, entry s = some x → (x.st = .isSealed → Gives (.seal w g) s (setThr s (nextPc th))) ∧
        (x.st ≠ .isSealed → parks (.seal w g) (· = some x)))) ∧
    (sealable →
      (entry s = none → Gives (.unseal w g) s (setThr s (nextPc th))) ∧
      (∀ x, entry s = some x → (x.st = .isSealed → parks (.unseal w g) fun e => ∃ y, e = some y ∧ y.st = .unsealing) ∧
        (x.st ≠ .isSealed → parks (.unseal w g) (· = some x))))

/-- Fences, flushes, invalidations and seals. -/
def Obligations.FencesAndSeals : Prop := FencesOrderTheL1 ∧ SealsChangeTheTable

/-! ### Threads -/

/-- YIELD and SETPRIO (R39, R407, R409): the thread at the tail of the run queue, its slot free and its priority at BPRIO; both
priorities set, or PRIV in user mode for a value above BPRIO. -/
def Sys2Proof.YieldAndPriority : Prop :=
  ∀ (s : State) (w : Bool) (th : Thread) (a : BitVec 5), Ready s w th →
    let p : BitVec 2 := (rg th a).extractLsb' 0 2
    (th.ops = [] → ∃ t u, exec (.yield w) s = .next t ∧ getThr t th.tid = some u ∧ u.st = .ready ∧ u.pc = th.pc + 4 ∧
      u.prio = th.bprio ∧ u.g = th.g ∧ (stn t th.station).runq = (stn s th.station).runq ++ [th.tid] ∧
      ∀ n, n < 16 → vget (stn t th.station).slots n ≠ some th.tid) ∧
    (th.sup = true ∨ p ≤ th.bprio → Gives (.setprio w a) s (setThr s { th with prio := p, bprio := p, pc := th.pc + 4 })) ∧
    (th.sup = false → th.bprio < p → Gives (.setprio w a) s (trapState s th 0x02 0 2))

/-- EXIT and JALR to 0 end the thread, its exit code g[a] or g1 (R52, R180, R406); JOIN answers with the outcome that is known, or parks its
thread until the child ends (R408). Which records a JOIN finds is log 40 and, of a LOST thread, log 64. -/
def Sys2Proof.ExitAndJoin : Prop :=
  ∀ (s : State) (w : Bool) (th : Thread) (d a : BitVec 5) (i : BitVec 15), Ready s w th →
    let c : Word := (rg th a).extractLsb' 0 32
    let n := classOf th.station (tidHome c)
    let known (v : Nat) : Prop := Gives (.join w d a) s (answer s th d (BitVec.ofNat 64 v) n)
    let reaped (v : Nat) : Prop := Gives (.join w d a) s { answer s th d (BitVec.ofNat 64 v) n with
      threads := kdel (answer s th d (BitVec.ofNat 64 v) n).threads c.toNat }
    (th.ops = [] → Gives (.exit w a) s (beginEnd s th .exited 0 (rg th a)) ∧
      (rg th a + i.signExtend 64 = 0 → Gives (.jalr w d a i) s (beginEnd s th .exited 0 (rg th 1)))) ∧
    (c = th.tid → known (5 * 2 ^ 60)) ∧
    (c ≠ th.tid → c = 0 ∨ tidPart c ≠ tidPart th.tid ∨ getThr s c = none → known 0) ∧
    (∀ ch, c ≠ th.tid → c ≠ 0 → tidPart c = tidPart th.tid → getThr s c = some ch → (stn s (tidHome c)).dead = false →
      (ch.st.live = true → Gives (.join w d a) s (startWait s th (.join c d) .join false)) ∧
      (ch.st = .exited → reaped (2 ^ 60 + ch.exitCode.toNat % 2 ^ 32)) ∧
      (ch.st = .faulted → reaped (2 * 2 ^ 60 + ch.endCause.toNat * 2 ^ 32)) ∧ (ch.st = .killed → reaped (3 * 2 ^ 60)) ∧
      (ch.st = .lost → th.sup = true → reaped (4 * 2 ^ 60)) ∧ (ch.st = .lost → th.sup = false → known (4 * 2 ^ 60)))

/-- YIELD, SETPRIO, EXIT and JOIN (R406 to R409). -/
def Obligations.ThreadScheduling : Prop := YieldAndPriority ∧ ExitAndJoin

/-- An answer of another unit: the thread parks behind its instruction, and the completion of the answer, within its class, writes it
(R404, R411, R419). -/
def Sys2Proof.AnswersParkTheirThread : Prop :=
  ∀ (s : State) (th : Thread) (d : BitVec 5) (v : DWord) (n : Nat), 0 < n →
    ∃ u o k, getThr (answer s th d v n) th.tid = some u ∧ u.st = .parked .marker ∧ u.pc = th.pc + 4 ∧ u.g = th.g ∧
      u.ops = th.ops ++ [o] ∧ o.dest = .g d ∧ kget o.res 0 = some v ∧ o.hold = true ∧ o.pc = th.pc ∧ 1 ≤ k ∧ k ≤ n ∧
      (s.time + k, Event.longOpComplete th.tid.toNat o.id) ∈ (answer s th d v n).agenda

/-- A long operation of a thread's own (R34, R36, R200): the thread goes on behind its instruction with one outstanding operation more,
which will write the destination and raise the flags it was given, and the operation's completion is due within its class. -/
def Sys2Proof.LongResultsAreDue : Prop :=
  ∀ (s : State) (th : Thread) (o : LongOp) (n : Nat), 0 < n →
    let t := longResult s th o n
    OthersSame s t th ∧
    getThr t th.tid = some { th with pc := th.pc + 4, nextOp := th.nextOp + 1, ops := th.ops ++ [{ o with id := th.nextOp, pc := th.pc }] } ∧
    ∃ k, 1 ≤ k ∧ k ≤ n ∧ t.agenda = s.agenda ++ [(s.time + k, Event.longOpComplete th.tid.toNat th.nextOp)]

/-- How a long operation starts and how its result arrives (R34, R36, R200, R404). -/
def Obligations.LongOperations : Prop := LongResultsAreDue ∧ AnswersParkTheirThread ∧ LongOperationsDeliver

/-- SPAWN (R62, R400 to R404): the traps of its pointer and its block, or the packet to the target core, the thread parked for the
answer (log 28). A block that R402 admits, read through a LOCAL segment, is sent without more conditions. -/
def Sys2Proof.SpawnSendsAPacket : Prop :=
  ∀ (s : State) (w : Bool) (th : Thread) (d a b : BitVec 5) (t : Bool) (g : BitVec 3), Ready s true th →
    let fp := rg th a
    let q := rseg th g
    let off := rg th b
    let e := BitVec.ofNat 64 (fp.toNat % 2 ^ 56)
    let to_ (blk : List Byte) : Nat := if field blk 96 2 = 0xFFFF then th.station else field blk 96 2
    let admitted (s : State) (blk : List Byte) : Prop := field blk 98 1 < 4 ∧ field blk 99 29 = 0 ∧
      (∀ i, i < 4 → field blk (133 + 16 * i) 1 < 8 ∧ field blk (134 + 16 * i) 2 = 0 ∧ field blk (140 + 16 * i) 4 = 0) ∧
      (th.sup = true ∨ field blk 98 1 ≤ th.bprio.toNat) ∧
      (field blk 96 2 = 0xFFFF ∨ (part s (tidPart th.tid)).hasStation (field blk 96 2) = true) ∧
      ∀ i, i < 4 → field blk (136 + 16 * i) 4 ≠ 0 → let f := vget th.seg (field blk (133 + 16 * i) 1)
        f.read = true ∧ f.translated = true ∧ field blk (128 + 16 * i) 5 + field blk (136 + 16 * i) 4 ≤ f.limit
    (badTag fp = true → Gives (.spawn w d a b t g) s (trapState s th 0x1D e 2)) ∧
    (badTag fp = false → bits fp.toNat 63 62 = 1 → Gives (.spawn w d a b t g) s (trapState s th 0x04 e 2)) ∧
    (badTag fp = false → bits fp.toNat 63 62 = 0 → ∀ c, porlekEntry (rseg th 0) fp = .error c →
      Gives (.spawn w d a b t g) s (trapState s th c e 2)) ∧
    (∀ pc s' blk, badTag fp = false → bits fp.toNat 63 62 = 0 → porlekEntry (rseg th 0) fp = .ok pc → q.read = true → q.type ≠ 3 →
      off.toNat + 192 ≤ q.limit → off.toNat % 64 = 0 → segRead s th q off.toNat 192 = (s', .ok blk) →
      (∀ p, blockTrap s' th blk = some p → Gives (.spawn w d a b t g) s (takeTrap s' th p)) ∧
      (admitted s' blk →
        let r := addOp (nextPc th) { id := 0, pc := th.pc, dest := .g d, left := 1, hold := true }
        let p := parkThr s' r.2 .marker
        Gives (.spawn w d a b t g) s
          (sendPacket p th.station (to_ blk) (tidPart th.tid) (spawnPacket p th fp blk t r.1 (to_ blk)) .spawnDelivery))) ∧
    let c := rseg th 0
    let n := fp.toNat
    let blk := rdL s (localKey (tidPart th.tid) th.station (q.base + off.toNat)) 192
    (n < 2 ^ 56 → n % 4 = 0 → c.exec = true → c.base ≤ n → n < c.base + c.limit → q.read = true → q.isLocal = true → q.type = 0 →
      off.toNat % 64 = 0 → off.toNat + 192 ≤ q.limit → admitted s blk →
      ∃ x u o id k due, exec (.spawn w d a b t g) s = .next x ∧ getThr x th.tid = some u ∧ u.st = .parked .marker ∧ u.pc = th.pc + 4 ∧
        u.g = th.g ∧ u.ops = [o] ∧ o.dest = .g d ∧ o.done = false ∧ kget x.pkts id = some k ∧ k.target = BitVec.ofNat 16 (to_ blk) ∧
        k.parent = th.tid ∧ k.answer = o.id ∧ k.g = (List.range 10).map (fun i => BitVec.ofNat 64 (field blk (8 * i) 8)) ∧
        (due, Event.spawnDelivery id) ∈ x.agenda ∧ s.time < due)

/-- MIGR (R43, R405): SEG_RIGHTS, SEG_LIMIT and, in a handler, ILLEGAL_OP; else the thread is MIGRATING, without monitors, and its packet is on
its way to the home of the line, which it reaches within its class or, of a timed partition, behind the wait for its own slot (R462). The
wait for an own slot is log 127. -/
def Sys2Proof.MigrationLeavesTheCore : Prop :=
  ∀ (s : State) (w : Bool) (th : Thread) (a : BitVec 5) (g : BitVec 3), Ready s true th →
    let q := rseg th g
    let off := rg th a
    let va := vaOf q off
    (q.translated = false ∨ q.read = false → Gives (.migr w a g) s (trapState s th 0x04 va 2)) ∧
    (q.translated = true → q.read = true → q.limit ≤ off.toNat → Gives (.migr w a g) s (trapState s th 0x03 va 2)) ∧
    (q.translated = true → q.read = true → off.toNat < q.limit → th.inh = true → Gives (.migr w a g) s (trapState s th 0x01 0 2)) ∧
    (q.translated = true → q.read = true → off.toNat < q.limit → th.inh = false →
      ∃ t u k, exec (.migr w a g) s = .next t ∧ getThr t th.tid = some u ∧ u.st = .migrating ∧ u.mon = Vector.replicate 4 {} ∧
        kget t.pkts s.fresh = some k ∧ k = packetOf { th with pc := th.pc + 4, prio := th.bprio } (homeOf s (tidPart th.tid) va.toNat q.hashed) ∧
        ∃ n, (n, Event.migrationArrival s.fresh) ∈ t.agenda ∧ s.time < n ∧
          n ≤ s.time + max (distClass th.station (homeOf s (tidPart th.tid) va.toNat q.hashed)) (slotWait s (tidPart th.tid) false + 1))

/-- SPAWN and MIGR (R400 to R405). What the read of a SPAWN block that traps leaves cached is log 62. -/
def Obligations.ThreadsLeaveTheCore : Prop := SpawnSendsAPacket ∧ MigrationLeavesTheCore

/-! ### Rakes, monitors and messages -/

/-- The functions of RAKE on a live rake (R53 to R55, R410 to R413), with the RAKE fault of an id or a member that is none. -/
def Obligations.RakeFunctions : Prop :=
  ∀ (s : State) (w : Bool) (th : Thread) (d a b : BitVec 5) (j k : Bool) (m : BitVec 6), Ready s w th →
    let pn := tidPart th.tid
    let id : Half := (rg th a).extractLsb' 0 16
    let i := bits id.toNat 9 0
    let fault (x : Instr) : Prop := Gives x s (trapState s th 0x1B 0 2)
    deadTable s th = false →
    (rakeFind s pn id = none → fault (.rkjoin w a b) ∧ fault (.rkleave w a) ∧ fault (.rkfree w a) ∧ fault (.barstat w d a k) ∧
      fault (.rkfix w d a k) ∧ (th.ops = [] → fault (.bar w d a m))) ∧
    (j = true → 8 ≤ th.rakes.length → fault (.rknew w d j)) ∧
    (j = false ∨ th.rakes.length < 8 → (rakeNew s pn = none → Gives (.rknew w d j) s (rakeAnswer s th d 0)) ∧
      ∀ n s', rakeNew s pn = some (n, s') →
        Gives (.rknew w d j) s (rakeAnswer (if j then rakeJoin s' pn th.tid n else s') th d (n.setWidth 64))) ∧
    ∀ r, rakeFind s pn id = some r →
      (∀ o, let t : Word := if b = 0 then th.tid else (rg th b).extractLsb' 0 32
        r.members.contains t = false → getThr s t = some o → tidPart t = pn → o.st.live = true → o.rakes.length < 8 →
        Gives (.rkjoin w a b) s (rakeAnswer (rakeJoin s pn t id) th 0 0)) ∧
      (r.members.contains th.tid = true → Gives (.rkleave w a) s (rakeAnswer (rakeLeave s pn th.tid id false) th 0 0)) ∧
      (r.members.contains th.tid = false → fault (.rkleave w a) ∧ (th.sup = false → fault (.rkfree w a)) ∧
        (th.ops = [] → fault (.bar w d a m))) ∧
      (r.members.contains th.tid = true ∨ th.sup = true → Gives (.rkfree w a) s (rakeAnswer (rakeFree s pn id) th 0 0)) ∧
      Gives (.barstat w d a k) s (rakeAnswer s th d (barWord r k)) ∧
      Gives (.rkfix w d a k) s (rakeAnswer (modRake s pn i fun r => { r with broken := false, lost := 0 }) th d (barWord r k)) ∧
      (th.ops = [] → r.members.contains th.tid = true → m.getLsbD 0 = false ∨ (th.relDone = false ∧ NothingFlies s pn) →
        Gives (.bar w d a m) s (barCheck (modRake (startWait s th (.bar id d m) .barrier false) pn i fun r =>
          { r with arrived := r.arrived ++ [th.tid] }) pn i))

/-- MONARM, MONCLR and MONWAIT (R416 to R418): an arm goes to its home and the thread parks for the answer; MONCLR disarms; MONWAIT
returns at once when a monitor is triggered or a message waits, else parks. -/
def Sys2Proof.Monitors : Prop :=
  ∀ (s : State) (w : Bool) (th : Thread) (d a : BitVec 5) (g : BitVec 3) (x : Bool) (n : BitVec 2), Ready s w th →
    let q := rseg th g
    let va := vaOf q (rg th a)
    let hot := (th.mon.any fun m => m.line.isSome && m.trig) || !th.mbox.isEmpty
    (q.translated = false ∨ q.read = false → Gives (.monarm w a g n) s (trapState s th 0x04 va 2)) ∧
    (q.translated = true → q.read = true → q.limit ≤ (rg th a).toNat → Gives (.monarm w a g n) s (trapState s th 0x03 va 2)) ∧
    (q.translated = true → q.read = true → (rg th a).toNat < q.limit →
      ∃ t u o, exec (.monarm w a g n) s = .next t ∧ getThr t th.tid = some u ∧ u.st = .parked .marker ∧ u.pc = th.pc + 4 ∧
        o ∈ u.ops ∧ o.id = th.nextOp ∧ o.hold = true ∧ ∃ r, ∃ e ∈ t.reqs, e.2 = r ∧ r.kind = .arm n.toNat ∧ r.va = va ∧
          r.who = .thread th.tid th.nextOp 0) ∧
    (x = true → Gives (.monclr w x n) s (setThr { s with arms := s.arms.filter fun e => e.tid != th.tid }
      { th with mon := Vector.replicate 4 {}, pc := th.pc + 4 })) ∧
    (x = false → Gives (.monclr w x n) s (setThr { s with arms := s.arms.filter fun e => !(e.tid == th.tid && e.n == n.toNat) }
      { th with mon := vset th.mon n.toNat {}, pc := th.pc + 4 })) ∧
    (th.ops = [] → hot = true → Gives (.monwait w d a) s (monReturn s th d false)) ∧
    (th.ops = [] → hot = false → ∃ t u v, exec (.monwait w d a) s = .next t ∧ getThr t th.tid = some u ∧ u.st = .parked .monitor ∧
      u.pc = th.pc ∧ u.wait = some v ∧ v.on = .mon d ∧
      (a ≠ 0 → (s.time + (rg th a).toNat, Event.monwaitTimeout th.tid.toNat v.id) ∈ t.agenda))

/-- SEND and RECV (R419, R420): the message is on its way and its thread parked for the status; a RECV takes the oldest message, or
answers 0 without one, or parks. A message to a host counts in the digest of a lockstep partition (R465). -/
def Sys2Proof.Messages : Prop :=
  ∀ (s : State) (w : Bool) (th : Thread) (d a b : BitVec 5) (n : BitVec 2) (now : Bool), Ready s w th →
    let to_ : Word := (rg th a).extractLsb' 0 32
    let h := (rg th a).toNat % 2 ^ 16
    let data := sendWords th b n
    let back := classOf th.station (tidHome th.tid)
    (∃ t u o, exec (.send w d a b n) s = .next t ∧ getThr t th.tid = some u ∧ u.st = .parked .marker ∧ u.pc = th.pc + 4 ∧
      o ∈ u.ops ∧ o.id = th.nextOp ∧ o.dest = .g d ∧
      kget t.msgs s.fresh = some (some (th.tid, th.nextOp), to_, { sender := th.tid, data := data, src := th.station }) ∧ data.length = 8 * (n.toNat + 1)) ∧
    (h < 16 → agentKnown s (part s (tidPart th.tid)) h = true → agentRight (part s (tidPart th.tid)) h 3 = true →
      Gives (.sendHost w d a b n) s (answer (sendAgent (foldEvent s (tidPart th.tid) th.station (portCorner th.station) 1
        (ownDev s * 2 ^ 56) data) h 5 (tidPart th.tid) (natLe 4 th.tid.toNat ++ [BitVec.ofNat 8 data.length, 0, 0, 0] ++ data)) th d 0 360)) ∧
    (16 ≤ h ∨ agentKnown s (part s (tidPart th.tid)) h = false ∨ agentRight (part s (tidPart th.tid)) h 3 = false →
      Gives (.sendHost w d a b n) s (answer s th d 3 360)) ∧
    (∀ s' u, takeMsg s th d.toNat = some (s', u) → Gives (.recv w d now) s (answer s' u 0 0 back)) ∧
    (th.mbox = [] → now = true → Gives (.recv w d now) s (answer s th (BitVec.ofNat 5 (d.toNat + 4)) 0 back)) ∧
    (th.mbox = [] → now = false → Gives (.recv w d now) s (startWait s th (.recv d) .recv false))

/-- Monitors and messages (R416 to R420). -/
def Obligations.MonitorsAndMessages : Prop := Monitors ∧ Messages

/-! ### Arrays, copies, streams, generators and collectives -/

/-- MXCFG, MXCFG.FD, MXSCL, TFULL, TEMPTY and TSTAT (R139, R212 to R214, R232 to R236): a template and a format that the rules admit are
written, any other traps; the bits [31:24] of a format register are not written. Log 116 and log 145 name what of a rewritten template and
of a filled slot is the model's choice. What WAITING and WBQ say is log 69, when the overflow bits go log 54. -/
def Obligations.ArrayRegisters : Prop :=
  ∀ (s : State) (w : Bool) (th : Thread) (d a b c : BitVec 5) (n : BitVec 4) (m : BitVec 3) (k : BitVec 2) (o : Bool),
    Ready s w th →
    let st := th.station
    let traps (i : Instr) (e : Byte) : Prop := Gives i s (trapState s th e 0 2)
    let p := (rg th b).toNat
    let bits4 : BitVec 256 := rgN th (a.toNat + 3) ++ rgN th (a.toNat + 2) ++ rgN th (a.toNat + 1) ++ rg th a
    let put (q : Nat) (x : Template) : State := setThr (modStn s st fun y => { y with tms := vset y.tms q x }) (nextPc th)
    let f := templateFault (templateFields bits4) (fdOf s st) (bWindow s th)
    let v : Word := (rg th b).setWidth 32 &&& 0x00FFFFFF
    let spoils := (stn s st).tms.any fun x => templateSpoilt x fun i => if i = m.toNat then v else fdOf s st i
    let z := (rg th a).toNat
    let tm := vget (stn s st).tms z
    let t := tileAt s st n.toNat
    (15 < p → traps (.mxcfg w a b) 0x14) ∧
    (p ≤ 15 → bits4.getLsbD 0 = false →
      Gives (.mxcfg w a b) s (put p { vget (stn s st).tms p with valid := false, scan := none })) ∧
    (p ≤ 15 → bits4.getLsbD 0 = true → (∀ e, f = some e → traps (.mxcfg w a b) e) ∧
      (TemplateAdmitted (templateFields bits4) (fdOf s st) (bWindow s th) → Gives (.mxcfg w a b) s (put p
        { valid := true, bits := bits4, owner := th.tid, part := tidPart th.tid, reporting := (vget (stn s st).tms p).reporting }))) ∧
    (¬ FormatLegal v → traps (.mxcfgFd w b m) 0x24) ∧
    (FormatLegal v → (spoils = true → traps (.mxcfgFd w b m) 0x0C) ∧
      ((∀ x ∈ (stn s st).tms.toList, x.valid = true → FormatsAdmitted (templateFields x.bits) fun i => if i = m.toNat then v else fdOf s st i) →
        Gives (.mxcfgFd w b m) s (setThr (modStn s st fun x => { x with fd := vset x.fd m.toNat v }) (nextPc th)))) ∧
    (15 < z ∨ tm.valid = false → traps (.mxscl w a b c) 0x14) ∧
    (z ≤ 15 → tm.valid = true → Gives (.mxscl w a b c) s
      (put z { tm with sA := (rg th b).setWidth 32, sB := (rg th c).setWidth 32 })) ∧
    (t.tag = .empty ∨ (t.tag = .filling ∧ t.eng = false) → Gives (.tfull w d a n) s (setThr (fillSlot
      (modTile s st n.toNat fun t => { t with eng := false }) st n.toNat ((rg th a).extractLsb' 0 16)
      ((rg th a).extractLsb' 16 16) ((rg th a).getLsbD 32) ((rg th a).getLsbD 33))
      (nextPc (wg th d (if t.tag = .empty then 0 else 1))))) ∧
    (t.tag = .full ∨ t.tag = .draining ∨ (t.tag = .filling ∧ t.eng = true) →
      Gives (.tfull w d a n) s (setG s th d (if t.tag = .full then 6 else if t.tag = .draining then 7 else 5))) ∧
    (t.tag = .full → Gives (.tempty w d n) s (setThr (settleSlot
      (modTile s st n.toNat fun t => { t with tag := .draining }) st n.toNat) (nextPc (wg th d 2)))) ∧
    (t.tag = .filling → t.eng = false → Gives (.tempty w d n) s (setThr (tileChanged
      (modTile s st n.toNat fun t => { t with tag := .empty }) st n.toNat) (nextPc (wg th d 1)))) ∧
    (t.tag = .empty ∨ t.tag = .draining ∨ (t.tag = .filling ∧ t.eng = true) →
      Gives (.tempty w d n) s (setG s th d (if t.tag = .empty then 4 else if t.tag = .draining then 7 else 5))) ∧
    (let x := if (rg th a).getLsbD 24 then (rg th a).toNat / 2 ^ 16 % 256 else st
     let y := (rg th a).toNat % 2 ^ 16
     let count := if k = 0 then 16 else if k = 1 then 8 else if k = 2 then 16 else 4
     let inside := (part s (tidPart th.tid)).hasStation x
     (inside = false → traps (.tstat w d a o k) 0x04) ∧ (inside = true → count ≤ y → traps (.tstat w d a o k) 0x14) ∧
     (inside = true → y < count → Answers s th [2, x, y, k.toNat, b2n o] (if o && k == 3 then modStn s x fun q => { q with
          ovf := q.ovf &&& ~~~(((BitVec.ofNat 64 (tstatWord s x 3 y)).setWidth 256 : BitVec 256) <<< (64 * y)) } else s,
          BitVec.ofNat 64 (tstatWord s x k.toNat y)) fun t v => Gives (.tstat w d a o k) s (longG t th d v (statClass st x))))

/-- CPY, CPYX and CPYWP (R378 to R382, R385): the first failing check traps and sends nothing; a legal command takes the channel's next serial,
joins its queue and starts when it is its head; STRBIND and STRUNB (R386, R388) set and clear both ends of a port. The model's readings are
log 14 (ISTR), log 20 (a command that waits for its slot is queued), log 46 (unused fields), log 60 and log 71 (streams). -/
def Sys2Proof.CopiesAndPorts : Prop :=
  ∀ (s : State) (w : Bool) (th : Thread) (d a : BitVec 5) (c : BitVec 3), Ready s w th →
    let st := th.station
    let n := vget (stn s st).serials c.toNat + 1
    let cmd (ix : Bool) : CopyCmd := { serial := n, indexed := ix, words := (List.range 8).map fun i => rgN th (a.toNat + i),
                                       issuer := th.tid, part := tidPart th.tid }
    let queued (ix : Bool) : State := chanNext (modChan (modStn s st fun x => { x with serials := vset x.serials c.toNat n }) st c.toNat
      fun h => { h with queue := h.queue ++ [cmd ix] }) st c.toNat
    let sends (i : Instr) (ix : Bool) : Prop :=
      (∀ e, copyFault s st (cmd ix) = some e → Gives i s (trapState s th e 0 2)) ∧
      (CopyAdmitted s st (cmd ix) → Gives i s (setThr (queued ix) (nextPc (wg th d (n.setWidth 64)))))
    let q := portAt s st c.toNat
    let x := (rg th a).toNat
    let prod := bindEnd th (bits x 7 0) false
    let cons := bindEnd th (bits x 15 8) true
    let refused := Gives (.strbind w a c) s (trapState s th 0x14 0 2)
    sends (.cpy w d a c) false ∧ sends (.cpyx w d a c) true ∧
    Gives (.cpywp w d a c) s (longG s th d (BitVec.ofNat 64 (cpywpWord (vget (stn s st).ch c.toNat) ((rg th a).setWidth 16))) 40) ∧
    (prod = none ∨ cons = none → refused) ∧
    (let p := x % 256
     let y := x / 2 ^ 8 % 256
     let fits (b kinds : Nat) : Prop := b / 16 < kinds ∧ (b / 16 = 0 → 12 ≤ b % 16) ∧ (b / 16 = 1 → b % 16 < 8) ∧ (b / 16 = 2 → b % 16 = 0) ∧
       (b / 16 = 3 → b % 16 < 2)
     fits p 4 → fits y 3 → (∀ e, e < 8 → (portAt s st e).prod = none ∧ (portAt s st e).cons = none) →
       ∃ t u, exec (.strbind w a c) s = .next t ∧ getThr t th.tid = some u ∧ u.pc = th.pc + 4 ∧ u.st = th.st ∧ u.g = th.g ∧
         (portAt t st c.toNat).prod.isSome = true ∧ (portAt t st c.toNat).cons.isSome = true) ∧
    (∀ y z, prod = some y → cons = some z →
      (q.prod.isSome = true ∨ q.cons.isSome = true ∨ endTaken s th false y = true ∨ endTaken s th true z = true → refused) ∧
      (q.prod = none → q.cons = none → endTaken s th false y = false → endTaken s th true z = false →
        Gives (.strbind w a c) s (setThr (touchPort (modPort s st c.toNat fun q => { q with prod := some y, cons := some z })
          st c.toNat) (nextPc th)))) ∧
    Gives (.strunb w c) s (modThr (touchPort (releaseAt (unparkStream (modPort s st c.toNat fun _ => {}) st c.toNat q) st 2 c.toNat)
      st c.toNat) th.tid nextPc)

/-- IGLOAD, IGSTART and IGSTAT (R264 to R266) and COLLRED, COLLBC and COLLSTAT (R390, R391, R393): the first failing check traps; an accepted
command joins its unit's queue, and a status is a long operation. The order of a collective's checks is log 142's, and that a COLLSTAT goes
behind the commands that its cluster sent before is log 123's. What of a generator is kept after an IGLOAD is log 72 and log 150. -/
def Sys2Proof.GeneratorsAndCollectives : Prop :=
  ∀ (s : State) (w : Bool) (th : Thread) (d a b : BitVec 5) (g : BitVec 3) (n : Bool) (k : BitVec 2), Ready s w th →
    let st := th.station
    let pn := tidPart th.tid
    let x := rseg th g
    let off := rg th a
    let va := vaOf x off
    let ctl := rg th a
    let win := rg th b
    let bad := winW win = 0 ∨ winH win = 0 ∨ (ctl.getLsbD 17 = false ∧ (ctl.getLsbD 16 = true ∨ winH win ≠ 16 ∨ 2048 < winW win))
    let ws := (List.range 4).map fun i => rgN th (a.toNat + i)
    let cid : Half := BitVec.ofNat 16 (collCmd ws).cid
    let sends (i : Instr) (bc : Bool) : Prop :=
      (∀ e, collFault s pn st bc ws = some e → Gives i s (trapState s th e 0 2)) ∧
      (CollAdmitted s pn st bc ws → Gives i s (within (setThr (foldEvent
        (modColl { s with fresh := s.fresh + 1 } pn cid fun c => { c with waiting := c.waiting ++
          [{ st := st, tid := th.tid, bc := bc, words := ws, n := s.fresh }] })
        pn st (portCorner st) 1 (ownDev s * 2 ^ 56) (ws.flatMap fun x => natLe 8 x.toNat)) (nextPc th)) 360
        (.collectiveContribution pn (collCmd ws).cid)))
    (x.read = false ∨ x.engine = false → Gives (.igload w a g n) s (trapState s th 0x04 va 2)) ∧
    (x.read = true → x.engine = true →
      (off.toNat % 64 ≠ 0 → Gives (.igload w a g n) s (trapState s th 0x05 va 2)) ∧
      (off.toNat % 64 = 0 → x.limit < off.toNat + 128 → Gives (.igload w a g n) s (trapState s th 0x03 va 2)) ∧
      (off.toNat % 64 = 0 → off.toNat + 128 ≤ x.limit →
        Gives (.igload w a g n) s (igAccept (setThr s (nextPc th)) st (b2n n) (.load th.tid pn va x)))) ∧
    (bad → Gives (.igstart w a b n) s (trapState s th 0x14 0 2)) ∧
    (¬ bad → Gives (.igstart w a b n) s (igAccept (setThr s (nextPc th)) st (b2n n) (.start th.tid pn ctl win))) ∧
    (let y := if (rg th a).getLsbD 24 then (rg th a).toNat / 2 ^ 16 % 256 else st
     let inside := (part s pn).hasStation y
     (inside = false → Gives (.igstat w d a k n) s (trapState s th 0x04 0 2)) ∧
     (inside = true → Answers s th [1, y, b2n n, k.toNat] (s, BitVec.ofNat 64 (igstatWord (igAt s y (b2n n)) k.toNat)) fun t v =>
        Gives (.igstat w d a k n) s (longG t th d v (statClass st y)))) ∧
    sends (.collred w a) false ∧ sends (.collbc w a) true ∧
    let id := (rg th a).setWidth 16
    let word (t : State) : Nat := match (part t pn).colls.find? fun c => c.cid == id with
      | some c => c.state + (if c.state = 3 then c.cause.toNat else 0) * 2 ^ 8 + c.contribs.length * 2 ^ 16
      | none => 0
    let near := (List.range 256).filter fun x => clusterOf x == clusterOf st && collOut s pn x
    let t := near.foldl (fun s x => collReach s pn x s.fresh) s
    Answers t th [3, id.toNat] (t, BitVec.ofNat 64 (word t)) fun u v => Gives (.collstat w d a) s (longG u th d v 360)

/-- Copy engines, ports, stream generators and collectives. -/
def Obligations.CopiesPortsAndGenerators : Prop := CopiesAndPorts ∧ GeneratorsAndCollectives

/-! ### Tickets -/

/-- The functions of SCHD (R430 to R434): SEG_RIGHTS for a cluster outside the partition, CFG_ILLEGAL for a block that cannot be committed,
COVERAGE for a ticket the thread does not hold; else a staged word, or an answer of the cluster's unit. The model's readings are log 47
(words of a retired block), log 77 (the GEN field of word 0). -/
def Obligations.TicketFunctions : Prop :=
  ∀ (s : State) (w : Bool) (th : Thread) (d a b : BitVec 5) (n : BitVec 4) (k : BitVec 3), Ready s w th →
    let pn := tidPart th.tid
    let mine (c : Nat) : Prop := (part s pn).hasCluster c = true
    let foreign (i : Instr) (c : Nat) : Prop := (part s pn).hasCluster c = false → Gives i s (trapState s th 0x04 0 2)
    let answers (i : Instr) (t : State) (v c : Nat) : Prop := Gives i s (answer t th d (BitVec.ofNat 64 v) (unitClass th c))
    let ca := bits (rg th a).toNat 5 0
    let cb := bits (rg th b).toNat 5 0
    let ct := bits (rg th a).toNat 21 16
    let ends (i : Instr) (fin : Bool) : Prop := foreign i ct ∧ (mine ct →
      (ticketEnd s pn th.tid (rg th a) (rg th b) fin = none → Gives i s (trapState s th 0x1A 0 2)) ∧
      (∀ t v, ticketEnd s pn th.tid (rg th a) (rg th b) fin = some (t, v) → answers i t v ct) ∧
      ∀ x pre post, (sbGet s ct pn ((rg th a).toNat / 2 ^ 22 % 8)).tickets = pre ++ x :: post → x.num = (rg th a).extractLsb' 0 16 → x.tid = th.tid →
        (∀ y ∈ pre, y.num ≠ x.num ∨ y.tid ≠ th.tid) → rg th b &&& ~~~x.mask = 0 → ∃ t u o, exec i s = .next t ∧ getThr t th.tid = some u ∧
          u.st = .parked .marker ∧ u.pc = th.pc + 4 ∧ o ∈ u.ops ∧ o.dest = .g d ∧
          kget o.res 0 = some (BitVec.ofNat 64 (b2n x.handover + if x.mask &&& ~~~(rg th b) = 0 then 2 else 0)))
    foreign (.sbwr w a b n k) cb ∧ foreign (.sbrd w d a n k) ca ∧ foreign (.sbcommit w d a k) ca ∧ foreign (.tget w a k) ca ∧
    (let v : DWord := if n = 0 then rg th a &&& 0x0000FFFFFFFFFFFF else rg th a
     mine cb → Gives (.sbwr w a b n k) s
      (setThr (modSb s cb pn k.toNat fun x => { x with staged := vset x.staged n.toNat v }) (nextPc th))) ∧
    (mine ca →
      (let st := (rg th a).getLsbD 8
       Answers s th [0, ca, k.toNat, n.toNat, b2n st] (s, sbReadWord (sbGet s ca pn k.toNat) n.toNat st) fun t v =>
        Gives (.sbrd w d a n k) s (longG t th d v (unitClass th ca))) ∧
      (sbCommit s ca pn k.toNat th.tid = none → Gives (.sbcommit w d a k) s (trapState s th 0x14 0 2)) ∧
      (∀ t v, sbCommit s ca pn k.toNat th.tid = some (t, v) → answers (.sbcommit w d a k) t v ca) ∧
      (let y := vget (sbGet s ca pn k.toNat).staged 0
       y.extractLsb' 0 4 = 0 → y.extractLsb' 6 42 = 0 → y.extractLsb' 4 2 ≠ 3 → answers (.sbcommit w d a k) (retire s ca pn k.toNat th.tid) 0 ca) ∧
      ∀ t l, tget s ca pn k.toNat th.station th.tid = (t, l) → Gives (.tget w a k) s (longResult t th
        { id := 0, pc := 0, dest := .tget, res := (List.range 8).map fun i => (i, l.getD i 0) } (unitClass th ca))) ∧
    ends (.tdone w d a b) true ∧ ends (.tret w d a b) false

/-! ### Special registers, traps and contexts -/

/-- CRR, CRW, SEGGET and SEGSET (R46, R78, R477, R478, R506, R507): ILLEGAL_OP for a selector that names no register, PRIV for one that the mode
may not reach; a supervisor's write of a read-only register is illegal, and reserved bits are ignored. A SEGSET whose entry meets an error
takes its cause, ECC_UNCORRECTED for the first reader of an error and POISON for any later one (log 131). The address in cr.faddr is log 19,
when a SEGSET ends log 76. -/
def Obligations.SpecialRegisters : Prop :=
  ∀ (s : State) (w : Bool) (th : Thread) (d a : BitVec 5) (x : BitVec 12) (n : BitVec 3) (h : Bool), Ready s w th →
    let v := rg th a
    let my : Option CrRight := (crRights x.toNat).map fun r => if th.sup then r.2 else r.1
    let traps (i : Instr) (e : Byte) : Prop := Gives i s (trapState s th e 0 2)
    let writes (sel : BitVec 12) (u : Thread) : Prop := Gives (.crw w a sel) s (setThr s u)
    (my = none → traps (.crr w d x) 0x01 ∧ traps (.crw w a x) 0x01) ∧
    (my = some .no → traps (.crr w d x) 0x02 ∧ traps (.crw w a x) 0x02) ∧
    (my = some .read → traps (.crw w a x) (if th.sup then 0x01 else 0x02)) ∧
    (my = some .write → Gives (.crw w a x) s (crWrite s (nextPc th) x.toNat v)) ∧
    (my = some .read ∨ my = some .write → Gives (.crr w d x) s (setG s th d (crValue s th x.toNat))) ∧
    Gives (.crr w d 0x000) s (setG s th d (th.tid.setWidth 64)) ∧
    Gives (.crr w d 0x005) s (setG s th d (BitVec.ofNat 64 s.time)) ∧
    Gives (.crr w d 0x020) s (setG s th d th.fpcsr) ∧
    (th.sup = true →
      Gives (.crr w d 0x010) s (setG s th d th.cause) ∧ Gives (.crr w d 0x011) s (setG s th d th.epc) ∧
      Gives (.crr w d 0x012) s (setG s th d th.mpc) ∧ Gives (.crr w d 0x013) s (setG s th d th.faddr) ∧
      Gives (.crr w d 0x014) s (setG s th d th.finfo) ∧ Gives (.crr w d 0x015) s (setG s th d th.tvec) ∧
      writes 0x003 { th with inh := v.getLsbD 4, te := v.getLsbD 2, ps := v.getLsbD 1, pc := th.pc + 4 } ∧
      writes 0x004 { th with bprio := v.extractLsb' 2 2, prio := v.extractLsb' 0 2, pc := th.pc + 4 } ∧
      writes 0x010 { th with cause := v &&& 0x1FF, pc := th.pc + 4 } ∧
      writes 0x011 { th with epc := v &&& 0x00FFFFFFFFFFFFFC, pc := th.pc + 4 } ∧
      writes 0x012 { th with mpc := v &&& 0x00FFFFFFFFFFFFFC, pc := th.pc + 4 } ∧
      writes 0x013 { th with faddr := v, pc := th.pc + 4 } ∧ writes 0x015 { th with tvec := v &&& 0x00FFFFFFFFFFFFFC, pc := th.pc + 4 }) ∧
    Gives (.segget w d h n) s (setG s th d ((rseg th n).desc.extractLsb' (if h then 64 else 0) 64)) ∧
    (th.ops = [] →
      let p := part s (tidPart th.tid)
      let i := v.toNat
      let q := { tableSeg s (tidPart th.tid) i with
        bySet := true, seal_ := (tableSeg s (tidPart th.tid) i).type == 1 && (kget p.seals i).isSome }
      let key := memKey s (bits p.segtab.toNat 51 6 * 64 + 16 * i)
      let dead := (stn s (homeOf s (tidPart th.tid) key false)).dead
      let hurt (l : List Nat) : Prop := ∃ n ∈ l, key / 64 ≤ n ∧ n ≤ (key + 15) / 64
      let sound := dead = false ∧ ¬ hurt s.eccNew ∧ ¬ hurt s.poison
      (p.segCount ≤ i → traps (.segset w a n) 0x03) ∧
      (i < p.segCount → dead = true → traps (.segset w a n) 0x0A) ∧
      (i < p.segCount → dead = false → hurt s.eccNew → traps (.segset w a n) 0x08) ∧
      (i < p.segCount → dead = false → ¬ hurt s.eccNew → hurt s.poison → traps (.segset w a n) 0x09) ∧
      (i < p.segCount → sound → q.sup = true → th.sup = false → traps (.segset w a n) 0x02) ∧
      (i < p.segCount → sound → q.sup = false ∨ th.sup = true →
        (q.ok p.ssq = false → traps (.segset w a n) 0x04) ∧
        (q.ok p.ssq = true → Gives (.segset w a n) s
          (answer (tableRead s (tidPart th.tid) (16 * i) 16) { th with seg := vset th.seg n.toNat q } 0 0 1560))))

/-- TRAP and ERET (R483, R484, R506): TRAP enters the handler with its code in cr.faddr and cr.mpc behind it; without a handler its
thread ends FAULTED (R485). ERET goes back to cr.mpc in the saved mode; PRIV in user mode, ILLEGAL_OP outside a handler. -/
def Obligations.TrapsAndReturns : Prop :=
  ∀ (s : State) (w : Bool) (th : Thread) (c : BitVec 12), Ready s w th →
    let e : Thread := { th with cause := 0x1C, epc := th.pc &&& 0x00FFFFFFFFFFFFFC, mpc := (th.pc + 4) &&& 0x00FFFFFFFFFFFFFC,
                                faddr := c.setWidth 64, finfo := 5, pend := none, relDone := false, cur := none }
    (th.inh = false → th.tvec ≠ 0 →
      Gives (.trap w c) s (setThr s { e with ps := th.sup, sup := true, inh := true, pc := th.tvec })) ∧
    (th.inh = true ∨ th.tvec = 0 → Gives (.trap w c) s (beginEnd s e .faulted 0x1C 0)) ∧
    (th.ops = [] →
      (th.sup = false → Gives (.eret w) s (trapState s th 0x02 0 2)) ∧
      (th.sup = true → th.inh = false → Gives (.eret w) s (trapState s th 0x01 0 2)) ∧
      (th.sup = true → th.inh = true → th.kept = [] → th.faultFrame = none → th.pend = none → th.pends = [] →
        Gives (.eret w) s (setThr s { th with sup := th.ps, inh := false, pc := th.mpc, cur := none })) ∧
      (th.sup = true → th.inh = true → Gives (.eret w) s (eret s th)))

/-- A supervisor's instruction in user mode takes PRIV and does nothing else (R86, R366). -/
def Obligations.UserModeIsRefused : Prop :=
  ∀ (s : State) (w : Bool) (th : Thread) (d a b : BitVec 5) (n : BitVec 3) (u : BitVec 2) (c : BitVec 9), Ready s true th →
    th.sup = false →
    ∀ i ∈ [Instr.pset w a n, .pclr w a n, .eret w, .tlbinv w a u c, .tlbinvAll w, .replay w d, .ctxsv w d a b n, .ctxld w d a b n, .rqpush w d a b,
           .rqpop w d a, .rqpopId w d a, .rqpopKill w d a, .rqpeek w d a, .cfgfreeze w a b n, .cfgfreezeThaw w a],
      Gives i s (trapState s th 0x02 0 2)

/-- TLBINV, REPLAY and the functions of CTX in supervisor mode (R460, R487, R490 to R497, R508). CTXSV and CTXLD answer for a thread held on
this core alone; a save area in LOCAL memory is read or written with no more conditions. The model's readings are log 19 and log 75
(REPLAY), log 78 (run queues), log 79 (contexts) and log 80 (TLBINV). -/
def Obligations.SupervisorFunctions : Prop :=
  ∀ (s : State) (w : Bool) (th : Thread) (d a b : BitVec 5) (n : BitVec 3) (u : BitVec 2) (c : BitVec 9), Ready s true th →
    th.sup = true →
    let v := (rg th a).toNat
    let z := if u = 0 then 12 else if u = 1 then 16 else if u = 2 then 21 else 30
    let hi := v + (c.toNat + 1) * 2 ^ z
    let t := tidArg th a
    let g := rseg th n
    let off := rg th b
    let k := bits th.finfo.toNat 7 0
    let held := s.threads.countP fun e => e.2.st == .parked .held && e.2.station == th.station
    let mine (x : Thread) : Prop := getThr s t = some x ∧ x.st = .parked .held ∧ x.station = th.station ∧ tidPart t = tidPart th.tid ∧
      x.ending = none
    let area (wr : Bool) : Prop := g.pinned = true ∧ (wr = true → g.write = true ∧ (g.type = 1 → kget (part s (tidPart th.tid)).seals g.idx = none)) ∧
      (wr = false → g.read = true) ∧ off.toNat % 8 = 0 ∧ off.toNat + 264 ≤ g.limit
    let ready := readyAt s th ((rg th a).setWidth 2)
    let ansd (i : Instr) (x : State) (q n : Nat) : Prop := Gives i s (answer x th d (BitVec.ofNat 64 q) n)
    let foe := !th.inh || (k != 0 && k != 4)
    (v % 2 ^ z ≠ 0 → Gives (.tlbinv w a u c) s (trapState s th 0x05 (rg th a) 2)) ∧
    (v % 2 ^ z = 0 → 2 ^ 56 ≤ v ∨ 2 ^ 56 < hi → Gives (.tlbinv w a u c) s (trapState s th 0x03 (rg th a) 2)) ∧
    (v % 2 ^ z = 0 → v < 2 ^ 56 → hi ≤ 2 ^ 56 → Gives (.tlbinv w a u c) s (tlbInval s th v hi)) ∧
    Gives (.tlbinvAll w) s (tlbInval s th 0 (2 ^ 56)) ∧
    (th.cur = none → Gives (.replay w d) s (setG s th d 0xFF)) ∧
    (∀ q, th.cur = some q → (foe = true ∨ q.replayed = true → Gives (.replay w d) s (setG s th d 0xFF)) ∧
      (foe = false → q.replayed = false →
        let x := issueAccess s th th.pc q.acc (some d)
        let y := (getThr x th.tid).getD th
        Gives (.replay w d) s (drainFor (parkThr x y .marker) y))) ∧
    (∀ p, areaTrap s th g off true = some p → Gives (.ctxsv w d a b n) s (takeTrap s th p)) ∧
    (∀ p, areaTrap s th g off false = some p → Gives (.ctxld w d a b n) s (takeTrap s th p)) ∧
    (area true → (∀ x, ¬ mine x) → ansd (.ctxsv w d a b n) s 1 1) ∧
    (area false → (∀ x, ¬ mine x) → ansd (.ctxld w d a b n) s 1 1) ∧
    ((∀ x, ¬ mine x) → ansd (.rqpush w d a b) s 1 1) ∧
    (∀ x, mine x →
      (area false → (∀ y l, segRead s th g off.toNat 264 = (y, .ok l) →
          Gives (.ctxld w d a b n) s (answerCtx (setThr y (loadImage x l)) th.tid d 0 x.tid)) ∧
        ∀ y e, segRead s th g off.toNat 264 = (y, .error e) → Gives (.ctxld w d a b n) s (answerCtx y th.tid d 3 x.tid)) ∧
      (area true → x.ops = [] → ∀ y, segWrite s th g off.toNat (saveImage x) = (y, none) →
        Gives (.ctxsv w d a b n) s (answerCtx y th.tid d 0 x.tid)) ∧
      (g.isLocal = true → g.type = 0 → x.tid ≠ th.tid →
        let key := localKey (tidPart th.tid) th.station (g.base + off.toNat)
        (area false → ∃ y u o, exec (.ctxld w d a b n) s = .next y ∧ getThr y x.tid = some (loadImage x (rdL s key 264)) ∧
          getThr y th.tid = some u ∧ u.pc = th.pc + 4 ∧ u.st = .parked .marker ∧ o ∈ u.ops ∧ o.dest = .g d ∧ kget o.res 0 = some 0 ∧ o.ctx = some x.tid) ∧
        (area true → x.ops = [] → ∃ y u o, exec (.ctxsv w d a b n) s = .next y ∧ getThr y th.tid = some u ∧ u.pc = th.pc + 4 ∧
          u.st = .parked .marker ∧ o ∈ u.ops ∧ o.dest = .g d ∧ kget o.res 0 = some 0 ∧ o.ctx = some x.tid ∧
          ∀ a, rdB y a = if key ≤ a ∧ a < key + 264 then (saveImage x).getD (a - key) 0 else rdB s a)) ∧
      ansd (.rqpush w d a b) (makeReady s { x with prio := (rg th b).setWidth 2 }) 0 1) ∧
    (ready = [] → ansd (.rqpop w d a) s 0 1) ∧
    (∀ x l, ready = x :: l → ansd (.rqpop w d a) (holdThr s x) x.tid.toNat 1) ∧
    (popTarget s th t = none → ansd (.rqpopId w d a) s 0 1) ∧
    (∀ x, popTarget s th t = some x →
      (t = th.tid → Gives (.rqpopId w d a) s (holdThr s (nextPc (wg th d (t.setWidth 64))))) ∧
      (t ≠ th.tid → x.pend = none → Gives (.rqpopId w d a) s (answer (holdThr s x) th d (t.setWidth 64) 64))) ∧
    (t = th.tid → Gives (.rqpopKill w d a) s (killThr s t)) ∧
    (t ≠ th.tid → getThr s t = none → ansd (.rqpopKill w d a) s 0 360) ∧
    (∀ x, t ≠ th.tid → getThr s t = some x → x.st.live = true → x.ending = none → tidPart t = tidPart th.tid →
      ∀ o, getThr (killThr s t) th.tid = some o → Gives (.rqpopKill w d a) s (answer (killThr s t) o d (t.setWidth 64) 360)) ∧
    Gives (.rqpeek w d a) s (setG s th d
      (BitVec.ofNat 64 (((ready.head?).map (·.tid.toNat)).getD 0 + ready.length * 2 ^ 32 + held * 2 ^ 48)))

/-- The functions of CACHE and CFG (R92 to R94, R311 to R316, R395): a prefetch never traps; CLEAN and INVAL check their range; a consist is
loaded, freed, frozen, thawed and read, and one that is not resident answers by message. A freeze is read out within 2,048 cycles, once the
stop has come to every tile (R59); that the watchdog's freeze is not thawed is log 141's. Ranges are log 81, a thaw and the readout's area
log 74. -/
def Obligations.CachesAndConsists : Prop :=
  ∀ (s : State) (w : Bool) (th : Thread) (d a b : BitVec 5) (n : BitVec 3) (k : BitVec 2), Ready s w th →
    let pn := tidPart th.tid
    let g := rseg th n
    let off := rg th a
    let o := off.toNat
    let len := rangeLen (rg th b)
    let cid : Half := (rg th a).setWidth 16
    let next := setThr s (nextPc th)
    let goes (i : Instr) : Prop := ∃ t, Gives i s (setThr t (nextPc th)) ∧ t.mem = s.mem ∧ t.wbuf = s.wbuf
    goes (.pfi w a b) ∧ goes (.pfiRf w a b) ∧ goes (.pfd w a b n) ∧
    (∀ p, rangeTrap th g o len false = some p → Gives (.clean w a b n) s (takeTrap s th p)) ∧
    (∀ p, rangeTrap th g o len true = some p → Gives (.inval w a b n) s (takeTrap s th p)) ∧
    let range := g.type ≠ 3 ∧ o + len ≤ g.limit ∧ len ≤ 16384
    (range → Gives (.clean w a b n) s
      (setThr (if g.cached then cleanLines s th.station pn (g.base + o) (g.base + o + len) else s) (nextPc th))) ∧
    (range → g.read = true → (g.cached = false → Gives (.inval w a b n) s next) ∧
      (g.cached = true → ∃ t, Gives (.inval w a b n) s (setThr t (nextPc th)) ∧
        ∀ x ∈ l1Stations s th.station, ∀ l ∈ (stn t x).l1, l.part = pn → l.sched = false → (g.base + o) / 256 ≤ l.line →
          ¬ l.line ≤ (g.base + o + len - 1) / 256)) ∧
    (g.read = false → Gives (.cfgload w a n) s (trapState s th 0x04 (vaOf g off) 2)) ∧
    (g.read = true → o % 64 ≠ 0 → Gives (.cfgload w a n) s (trapState s th 0x05 (vaOf g off) 2)) ∧
    (g.read = true → o % 64 = 0 → g.limit < o + 64 → Gives (.cfgload w a n) s (trapState s th 0x03 (vaOf g off) 2)) ∧
    (g.read = true → o % 64 = 0 → o + 64 ≤ g.limit →
      Gives (.cfgload w a n) s (startLoad next pn (vaOf g off) g th.tid th.station none).1) ∧
    Gives (.cfgfree w a) s (cfgFree next th cid) ∧
    (let v := vaOf g (rg th b)
     th.sup = true →
      (g.write = false ∨ g.engine = false → Gives (.cfgfreeze w a b n) s (trapState s th 0x04 v 2)) ∧
      (g.write = true → g.engine = true →
        (consistOf next pn cid = none → Gives (.cfgfreeze w a b n) s (cfgRefuse next th cid 0xFFFF)) ∧
        (∀ c, consistOf next pn cid = some c →
          let r : Readout := { issuer := th.tid, st := th.station, off := rg th b, seg := g }
          ((∀ x ∈ c.freezing, x.ring = false) → ∃ k,
            Gives (.cfgfreeze w a b n) s (let t := abortFrozen (applyHold (modConsist next pn cid fun c =>
              { c with frozen := true, freezing := c.freezing ++ [r] }) pn cid c.anchor 16 5 0) pn cid
              later { t with freeCtr := t.freeCtr + 1 } k (.freezeComplete pn cid)) ∧
            (∀ x ∈ c.tiles, hops c.anchor x.st < k) ∧ ((∀ x ∈ c.tiles, hops c.anchor x.st < 2048) → k ≤ 2048)) ∧
          ((∃ x ∈ c.freezing, x.ring = true) → Gives (.cfgfreeze w a b n) s (modConsist next pn cid fun c =>
            { c with freezing := c.freezing.map fun x => if x.ring then { r with wdog := true } else x })))) ∧
      (consistOf next pn cid = none → Gives (.cfgfreezeThaw w a) s (cfgRefuse next th cid 0xFFFF)) ∧
      ∀ c, consistOf next pn cid = some c →
        (c.frozen = false ∨ c.wdog = true → Gives (.cfgfreezeThaw w a) s (cfgRefuse next th cid c.anchor)) ∧
        (c.frozen = true → c.wdog = false → Gives (.cfgfreezeThaw w a) s (checkActs (cfgReport (releaseHold
          (modConsist next pn cid fun c => { c with frozen := false }) pn cid 0 fun h => h.kind == 5)
          pn th.tid th.station { result := 5, cid := cid.toNat, anchor := c.anchor, addr := c.image }) pn cid))) ∧
    (let r := cfgWord s th o k.toNat
     Answers s th [4, o, k.toNat] (s, BitVec.ofNat 64 r.1) fun t v =>
      Gives (.cfgread w d a k) s (longG t th d v (if r.2 = th.station then 40 else distClass th.station r.2)))

/-! ### Graph ops -/

/-- Tokens that are not data (R108): equal markers, End-of-stream and Barriers go on as one token without payload, and a mixture
faults the activation with TAG_MISMATCH. -/
def Obligations.GraphMarkersGoOn : Prop :=
  ∀ (s : State) (f : Firing) (pn : Nat) (c : Consist) (a b : Token), FiresOn s f pn c → Operands f a b →
    let t := fired s f pn c
    let each (p : Instr → Prop) : Prop := ∀ i ∈ [Instr.iadd, .isub, .imul, .imin, .imax, .graphAnd, .graphOr, .graphXor, .shl, .shr,
      .icmp, .graphFadd, .graphFmul, .graphFfma, .graphFmin, .graphFmax, .fcmp, .sfu, .scale, .steer, .settag, .gettag, .const,
      .filter, .emit], p i
    (a.kind ≠ b.kind → each fun i => FiresTo i s f pn c (fireFault t pn c f 0x1D 0)) ∧
    (a.kind = b.kind → a.kind ≠ 0 → each fun i => FiresTo i s f pn c
      (sendAll t f (both { a with pay := 0, valid := 0, kind := a.kind } (latOf f.word)) false)) ∧
    FiresTo .pass s f pn c (sendAll t f (both a 1) (a.kind == 0))

/-- The integer, float and special functions of a graph (R144, R274 to R283): each element of each lane that both operands have, from
the elements in its place; SCALE_MISMATCH where their SC differ. The result has port a's tags. The special functions are those of
log 6. -/
def Obligations.GraphLaneResults : Prop :=
  ∀ (s : State) (f : Firing) (pn : Nat) (c : Consist) (a b : Token), FiresOn s f pn c → Operands f a b →
    a.kind = 0 → b.kind = 0 →
    let t := fired s f pn c
    let m := f.word.mod
    let n := m.toNat
    let out (i : Instr) (w : Nat) (v : BitVec 8) (h : Nat → Nat → Nat) : Prop := ∃ r : Token,
      FiresTo i s f pn c (sendAll t f (both r (latOf f.word)) true) ∧ r = { a with pay := r.pay, valid := v, kind := 0 } ∧
      ∀ j k, j < 8 → k < 32 / w → elemOf w k (r.laneN j) = if v.getLsbD j then h j k % 2 ^ w else 0
    let bad (i : Instr) : Prop := FiresTo i s f pn c (fireFault t pn c f 0x0D 0)
    (let w := if n % 4 < 2 then 32 else 16
     let u := n % 2 == 1
     let imm := m.getLsbD 3
     let e := (f.word.imm.signExtend 32).toNat % 2 ^ w
     let v := if imm then a.valid else a.valid &&& b.valid
     let x (j k : Nat) : Nat := elemOf w k (a.laneN j)
     let y (j k : Nat) : Nat := if imm then e else elemOf w k (b.laneN j)
     let X (j k : Nat) : Int := laneInt w u (x j k)
     let Y (j k : Nat) : Int := laneInt w u (y j k)
     let fit (z : Int) : Nat := if m.getLsbD 2 then clampOf w u z else wrapOf w z
     let each (p : Instr → Prop) : Prop := ∀ i ∈ [Instr.iadd, .isub, .imul, .imin, .imax, .graphAnd, .graphOr, .graphXor, .shl,
       .shr, .icmp], p i
     (imm = false → sameSc f a b = false → each bad) ∧
     (imm = true ∨ sameSc f a b = true →
      out .iadd w v (fun j k => fit (X j k + Y j k)) ∧ out .isub w v (fun j k => fit (X j k - Y j k)) ∧
      out .imul w v (fun j k => fit (X j k * Y j k)) ∧
      out .imin w v (fun j k => if X j k ≤ Y j k then x j k else y j k) ∧
      out .imax w v (fun j k => if X j k ≤ Y j k then y j k else x j k) ∧
      out .graphAnd w v (fun j k => x j k &&& y j k) ∧ out .graphOr w v (fun j k => x j k ||| y j k) ∧
      out .graphXor w v (fun j k => x j k ^^^ y j k) ∧ out .shl w v (fun j k => x j k * 2 ^ (y j k % w)) ∧
      out .shr w v (fun j k => wrapOf w (X j k / (2 ^ (y j k % w) : Nat))) ∧
      out .icmp w v (fun j k => b2n (intCond (bits n 6 4) (X j k) (Y j k))))) ∧
    (let q := floatFmt (n % 4)
     let w := q.width
     let rm := bits n 4 2
     let x := elemAt t f.st f.elem
     let y := floatB x w m f.word.imm a b
     let g (h : Word → Nat → Nat → Nat → Nat) (j k : Nat) : Nat := h (laneState a.iter a.seq j k) (elemOf w k (a.laneN j))
       (elemOf w k (y.1 j)) (elemOf w k (((vget x.consts (bits f.word.imm.toNat 1 0)).extractLsb' (32 * j) 32).toNat))
     let each (p : Instr → Prop) : Prop := ∀ i ∈ [Instr.graphFadd, .graphFmul, .graphFfma, .graphFmin, .graphFmax, .fcmp], p i
     (n / 64 ≠ 1 → sameSc f a b = false → each bad) ∧
     (n / 64 = 1 ∨ sameSc f a b = true →
      out .graphFadd w y.2 (g fun r x y _ => (fpOp q 0 rm r x y 0).1) ∧
      out .graphFmul w y.2 (g fun r x y _ => (fpOp q 2 rm r x y 0).1) ∧
      out .graphFfma w y.2 (g fun r x y z => (fpOp q 5 rm r x y z).1) ∧
      out .graphFmin w y.2 (g fun _ x y _ => (minMax q false x y).1) ∧
      out .graphFmax w y.2 (g fun _ x y _ => (minMax q true x y).1) ∧
      out .fcmp w y.2 (g fun _ x y _ => b2n (fcmp q rm x y).1))) ∧
    (a.sc = true → bad .sfu) ∧
    (a.sc = false → out .sfu 32 a.valid fun j _ => (sfuOp (bits n 2 0) (a.lane j)).1)

/-- STEER, FILTER, GETTAG, SETTAG, CONST, EMIT, MERGE and CARRY (R269, R270, R277, R289 to R292, R310): MERGE and CARRY fire from either port
alone, and CARRY counts the iteration of a token from port b up. The model's reading of the tags is log 85. -/
def Sys2Proof.GraphTagResults : Prop :=
  ∀ (s : State) (f : Firing) (pn : Nat) (c : Consist) (a b : Token), FiresOn s f pn c →
    let t := fired s f pn c
    (f.a = none → f.b = some b → FiresTo .merge s f pn c (sendAll t f (both b 1) (b.kind == 0)) ∧
      FiresTo .carry s f pn c (sendAll t f (both { b with iter := b.iter + 1 } 1) (b.kind == 0))) ∧
    (Operands f a b → FiresTo .merge s f pn c (sendAll t f (both a 1) (a.kind == 0)) ∧
      FiresTo .carry s f pn c (sendAll t f (both { a with iter := f.word.imm } 1) (a.kind == 0))) ∧
    (Operands f a b → a.kind = 0 → b.kind = 0 →
      (∃ p q : Token, FiresTo .steer s f pn c (sendAll t f [(0, p, 1), (1, q, 1)] true) ∧
        p = { a with pay := p.pay, valid := p.valid, kind := 0 } ∧ q = { a with pay := q.pay, valid := q.valid, kind := 0 } ∧
        ∀ j, j < 8 → let sel := b.valid.getLsbD j && b.lane j != 0
          p.valid.getLsbD j = (a.valid.getLsbD j && sel) ∧ q.valid.getLsbD j = (a.valid.getLsbD j && !sel) ∧
          p.lane j = (if p.valid.getLsbD j then a.lane j else 0) ∧ q.lane j = if q.valid.getLsbD j then a.lane j else 0) ∧
      (∃ r : Token, FiresTo .filter s f pn c (sendAll t f (both r 1) true) ∧
        let ls := ((List.range 8).filter fun j => a.valid.getLsbD j).map a.lane
        r = { a with pay := r.pay, valid := BitVec.ofNat 8 (2 ^ ls.length - 1), kind := 0 } ∧ ∀ j, j < 8 → r.lane j = ls.getD j 0) ∧
      (f.word.mod.getLsbD 0 = true → FiresTo .settag s f pn c (sendAll t f (both { a with iter := f.word.imm } 1) true)) ∧
      (f.word.mod.getLsbD 0 = false → (b.valid.getLsbD 0 = false → FiresTo .settag s f pn c (fireFault t pn c f 0x1D 0)) ∧
        (b.valid.getLsbD 0 = true →
          FiresTo .settag s f pn c (sendAll t f (both { a with iter := (b.lane 0).extractLsb' 0 16 } 1) true))) ∧
      (let v := f.word.imm.extractLsb' 8 8
       let k := vget (elemAt t f.st f.elem).consts (bits f.word.imm.toNat 1 0)
       ∃ r : Token, FiresTo .const s f pn c (sendAll t f (both r 1) true) ∧
        r = { a with pay := r.pay, valid := v, kind := f.word.mod.extractLsb' 0 4, fmt := f.word.mod.extractLsb' 4 3, sc := false } ∧
        ∀ j, j < 8 → r.lane j = if v.getLsbD j then k.extractLsb' (32 * j) 32 else 0) ∧
      FiresTo .emit s f pn c (sendAll t f (both { a with
        pay := 0, valid := 0, kind := f.word.mod.extractLsb' 0 4, seq := a.seq + f.word.imm, sc := false, fmt := 0 } 1) true))

/-- GETTAG (R291). -/
def Obligations.GettagReadsTheTags : Prop :=
  (∀ (x : BitVec 64) (r : RoszonWord), decodeRoszon x = .ok r → r.op = .gettag → x.extractLsb' 56 8 = 0x24 ∧ r.mod = 0 ∧ r.imm = 0) ∧
  ∀ (s : State) (f : Firing) (pn : Nat) (c : Consist) (a b : Token), FiresOn s f pn c → Operands f a b → a.kind = 0 → b.kind = 0 →
    ∃ r : Token, FiresTo .gettag s f pn c (sendAll (fired s f pn c) f (both r 1) true) ∧
      r = { a with pay := r.pay, valid := 0x07, kind := 0, sc := false, fmt := 0 } ∧
      r.lane 0 = a.iter.setWidth 32 ∧ r.lane 1 = a.act.setWidth 32 ∧ r.lane 2 = a.seq.setWidth 32

/-- CVT and SCALE (R151, R284 to R287): the converted elements of each valid lane; SCALE's tile format and scale byte, and back. The exponent of
a format whose only finite value is zero is log 12's free value. Saturation in a directed mode is log 13, CVT's settings log 85 and log 117,
NaN scales log 107. -/
def Sys2Proof.GraphConversions : Prop :=
  ∀ (s : State) (f : Firing) (pn : Nat) (c : Consist) (a b : Token), FiresOn s f pn c →
    let t := fired s f pn c
    let x := elemAt t f.st f.elem
    let imm := f.word.imm.toNat
    let fails (i : Instr) (e : Byte) : Prop := FiresTo i s f pn c (fireFault t pn c f e 0)
    (f.a = none → FiresTo .cvt s f pn c (sendAll t f [] (f.b.any fun t => t.kind == 0))) ∧
    (f.a = some a → (f.b = none ∨ f.b = some a) → a.kind = 0 →
      let src := bits f.word.mod.toNat 3 0
      let dst := bits imm 3 0
      let sc := if src = 8 then bits (vget (stn t f.st).fd a.fmt.toNat).toNat 23 20 else 0
      let p := elemTy t f.st (if src = 8 then 8 + a.fmt.toNat else src)
      let q := elemTy t f.st dst
      let m := cvtSetting x f a.iter
      let v (j : Nat) : Nat := (List.range (min (32 / p.c) (32 / q.c))).foldl (fun o i => o +
        (convert q.ty m.1 m.2 (laneState a.iter a.seq j i) (p.ty.num (a.laneN j / 2 ^ (p.c * i) % 2 ^ p.w))).1 * 2 ^ (q.c * i)) 0
      (a.sc = true → fails .cvt 0x0D) ∧ (a.sc = false → 3 ≤ sc → fails .cvt 0x24) ∧
      (a.sc = false → sc < 3 → m.2 = 1 → q.ty.isFp = true → fails .cvt 0x14) ∧
      (a.sc = false → sc < 3 → (m.2 ≠ 1 ∨ q.ty.isFp = false) → ∃ r : Token, FiresTo .cvt s f pn c (sendAll t f (both r 3) true) ∧
        r = { a with pay := r.pay, kind := 0, fmt := if 8 ≤ dst then BitVec.ofNat 3 (dst - 8) else a.fmt } ∧
        ∀ j, j < 8 → r.laneN j = if a.valid.getLsbD j then v j % 2 ^ 32 else 0)) ∧
    (Operands f a b → a.kind = 0 → b.kind = 0 →
      let n := bits imm 2 0
      let mode := bits imm 5 3
      (f.word.mod.getLsbD 0 = false → (a.sc = true → fails .scale 0x0D) ∧ (a.sc = false →
        let q := elemTy t f.st (8 + n)
        let k := scaleByte (formatExp t f.st n) (((List.range 8).filter fun j => a.valid.getLsbD j).map a.lane)
        ∃ r z : Token, FiresTo .scale s f pn c (sendAll t f [(0, r, 4), (1, z, 4)] true) ∧
          r = { a with pay := r.pay, kind := 0, sc := true, fmt := BitVec.ofNat 3 n } ∧
          z = { a with pay := z.pay, valid := 1, kind := 0, sc := false } ∧ z.laneN 0 = k ∧
          ∀ j, j < 8 → r.laneN j = if a.valid.getLsbD j then
            (convert q.ty mode 0 (laneState a.iter a.seq j 0) ((f32.num (a.laneN j)).shift ((k : Int) - 127))).1 % 2 ^ 32 else 0)) ∧
      (f.word.mod.getLsbD 0 = true → (a.sc = false ∨ b.valid.getLsbD 0 = false ∨ b.sc = true → fails .scale 0x0D) ∧
        (a.sc = true → b.valid.getLsbD 0 = true → b.sc = false →
          let p := elemTy t f.st (8 + a.fmt.toNat)
          let k := b.laneN 0 % 256
          ∃ r : Token, FiresTo .scale s f pn c (sendAll t f (both r 4) true) ∧
            r = { a with pay := r.pay, kind := 0, sc := false, fmt := 0 } ∧
            ∀ j, j < 8 → r.laneN j = if a.valid.getLsbD j then (if k = 255 then f32.nanCode else
              (roundNum f32 mode (laneState a.iter a.seq j 0) ((p.ty.num (a.laneN j % 2 ^ p.w)).shift (127 - (k : Int)))).1) % 2 ^ 32
              else 0)))

/-- Graph ops on tags, masks and formats. -/
def Obligations.GraphScalarResults : Prop := GraphTagResults ∧ GraphConversions

/-- The ops that take the tokens of a pair in order (R271, R273, R293 to R298, R303): what a data token, a closing marker and a barrier do to
the pair, and what is sent; and what a STREAM in emits by itself, a group popped from its port for each token, an End-of-row after every R
of them, and at the end an End-of-stream. The model's readings are log 50 (DELAY), log 51 (record groups), log 86 (COALESCE and REDUCE) and
log 87 (a control token emits nothing). -/
def Obligations.GraphPairsInOrder : Prop :=
  (∀ (s : State) (f : Firing) (pn : Nat) (c : Consist) (y : Pair) (h : Token) (l : List Token), FiresOn s f pn c → f.a = none →
    f.word.mod.getLsbD 0 = false → emitting (elemAt (fired s f pn c) f.st f.elem) f.slot = some y → y.toks = h :: l →
    let t := fired s f pn c
    let r := f.word.imm.toNat / 2 ^ 3 % 256
    let port := f.word.imm.toNat % 8
    let mark (k : BitVec 4) : Token := { h with pay := 0, valid := 0, kind := k, seq := y.out }
    let on (u : State) (n : Half) : State := modElem u f.st f.elem fun x => putPair x { y with left := y.left - 1, out := y.out + 1, next := n }
    let emits (u : State) (z : Token) (k : Bool) : Prop := FiresTo .stream s f pn c (sendAll u f (both z 1) k)
    (y.left = 1 → emits (modElem t f.st f.elem fun x => dropPair x y) (mark 9) false) ∧
    (y.left ≠ 1 → r ≠ 0 → y.next.toNat = r → emits (on t 0) (mark 1) false) ∧
    (y.left ≠ 1 → r = 0 ∨ y.next.toNat ≠ r → graphEnd (portAt t f.st port).cons = true → ∀ d v u, portPop t f.st port 1 = some ([(d, v)], u) →
      ∃ z : Token, emits (on u (y.next + 1)) z true ∧ z = { h with pay := z.pay, valid := 0xFF, kind := 0, seq := y.out } ∧
        ∀ j, j < 8 → z.lane j = if v.getLsbD j then d.extractLsb' (32 * j) 32 else 0)) ∧
  ∀ (s : State) (f : Firing) (pn : Nat) (c : Consist) (a : Token), FiresOn s f pn c → f.a = some a →
    let t := fired s f pn c
    let x := elemAt t f.st f.elem
    let p := pairFor x f.word f.slot a
    let sends (i : Instr) (u : State) (o : Sent) (k : Bool) : Prop := FiresTo i s f pn c (sendAll u f o k)
    let fails (i : Instr) (e : Byte) : Prop := FiresTo i s f pn c (fireFault t pn c f e 0)
    let joins (i : Instr) : Prop := FiresTo i s f pn c (joinGroup t f a p)
    let top := levelOf f ≤ a.closes
    (a.kind = 8 → sends .seq t (both a 1) false ∧ sends .reduce t (both a 1) false ∧ sends .rowstat t (both a 1) false ∧
      sends .coalesce (modElem t f.st f.elem fun _ => (flushAll x f a.act).2) (inTurn 1 ((flushAll x f a.act).1 ++ [a])) false ∧
      ∀ b, f.b = some b → sends .delay t (both a 1) false) ∧
    (a.kind ≠ 8 → sends .seq (keepPair t f a { p with out := p.out + 1 }) (both { a with seq := p.out } 1) (a.kind == 0)) ∧
    (a.kind ≠ 0 → a.kind ≠ 8 →
      (let r := p.toks.map fun t => { t with seq := p.out }
       let n : Half := BitVec.ofNat 16 r.length
       sends .coalesce (keepPair t f a { p with toks := [], out := p.out + n + 1 })
        (inTurn 1 (r ++ [{ a with pay := 0, valid := 0, seq := p.out + n }])) false) ∧
      (¬ top → joins .reduce ∧ joins .rowstat) ∧
      (top → (let r := reduceResult f.word.mod.toNat p.toks
        let h := p.toks.head?.getD a
        FiresTo .reduce s f pn c (closeGroup t f a p { a with pay := r.1, valid := r.2, kind := 0, sc := h.sc, fmt := h.fmt } (latOf f.word))) ∧
       (let r := rowStats (p.toks.flatMap fun t => t.lanes.map (·.toNat))
        ∃ z : Token, FiresTo .rowstat s f pn c (closeGroup t f a p z (8 + 2 * p.toks.length)) ∧
          z = { a with pay := z.pay, valid := 7, kind := 0, sc := false } ∧ z.laneN 0 = r.1 % 2 ^ 32 ∧ z.laneN 1 = r.2.1 % 2 ^ 32 ∧
          z.laneN 2 = r.2.2 % 2 ^ 32)) ∧
      ∀ b, f.b = some b →
        (top → sends .delay (modElem (keepPair t f a { p with next := a.seq + 1, left := 0, grp := p.grp + 1 }) f.st f.elem
          fun x => dropRelease x f) (both { a with pay := 0, valid := 0 } 1) false) ∧
        (¬ top → sends .delay (keepPair t f a { p with next := a.seq + 1 }) [(0, { a with pay := 0, valid := 0 }, 1)] false)) ∧
    (a.kind = 0 →
      (p.toks = [] → (a.lanes.length = 8 →
          sends .coalesce (keepPair t f a { p with out := p.out + 1 }) (both { packed a a.lanes with seq := p.out } 1) true) ∧
        (a.lanes.length < 8 →
          sends .coalesce (keepPair t f a { p with toks := if a.lanes.isEmpty then [] else [packed a a.lanes] }) [] true)) ∧
      (∀ h l, p.toks = h :: l → let ls := p.toks.flatMap Token.lanes ++ a.lanes
        (a.lanes ≠ [] → h.sc ≠ a.sc → fails .coalesce 0x0D) ∧ (a.lanes ≠ [] → h.sc = a.sc → h.fmt ≠ a.fmt → fails .coalesce 0x1D) ∧
        (a.lanes = [] ∨ (h.sc = a.sc ∧ h.fmt = a.fmt) →
          (8 ≤ ls.length → sends .coalesce (keepPair t f a { p with
            toks := (if ls.length = 8 then [] else [packed a (ls.drop 8)]), out := p.out + 1 })
            (both { packed a (ls.take 8) with seq := p.out } 1) true) ∧
          (ls.length < 8 → sends .coalesce (keepPair t f a { p with toks := [packed h ls] }) [] true))) ∧
      ((p.toks.any fun t => t.sc != a.sc) = true → fails .reduce 0x0D) ∧ ((p.toks.any fun t => t.sc != a.sc) = false → joins .reduce) ∧
      (a.sc = true → fails .rowstat 0x0D) ∧ (a.sc = false → (32 ≤ p.toks.length → fails .rowstat 0x21) ∧
        (p.toks.length < 32 → joins .rowstat)) ∧
      (∀ b, f.b = some b → sends .delay (keepPair t f a { p with next := a.seq + 1, left := p.left + 1 })
        [(0, a, 1), (1, { b with act := a.act, iter := a.iter, seq := a.seq }, 1)] true)) ∧
    (a.kind = 9 → f.word.mod.getLsbD 0 = true → sends .stream t [(0, { a with pay := 0, valid := 0, kind := 9 }, 1)] false) ∧
    (let port := bits f.word.imm.toNat 2 0
     let q := portAt t f.st port
     a.kind = 0 → (f.b = none ∨ f.b = some a) →
      (f.word.mod.getLsbD 0 = true → (graphEnd q.prod = false → fails .stream 0x13) ∧
        (graphEnd q.prod = true → ∀ u, portPush t f.st port [(lanesFrom a.valid a.laneN, a.valid)] = some u → sends .stream u [] true)) ∧
      (f.word.mod.getLsbD 0 = false → (graphEnd q.cons = false → fails .stream 0x13) ∧
        (let n := if a.valid.getLsbD 0 then a.laneN 0 else 0
         let z : Pair := { slot := f.slot, act := a.act, iter := a.iter, left := streamLength n (bits f.word.imm.toNat 10 3),
                           toks := [a], arr := t.time }
         graphEnd q.cons = true → sends .stream (modElem t f.st f.elem fun x => putPair x z) [] true)))

/-- The ops that reach memory, tile slots and threads (R299 to R309): the address and rights check of their lanes, with its fault, and the
accesses they issue; and what a TILEGET emits by itself, the slot's bytes in order and then an End-of-tile (R306). The model's readings are
log 56 (TILEPUT), log 87 (the firing itself emits nothing), log 88 (lanes) and log 89 (CALLOUT). -/
def Obligations.GraphAccesses : Prop :=
  (∀ (s : State) (f : Firing) (pn : Nat) (c : Consist) (y : Pair) (h : Token) (l : List Token), FiresOn s f pn c → f.a = none →
    emitting (elemAt (fired s f pn c) f.st f.elem) f.slot = some y → y.toks = h :: l →
    let t := fired s f pn c
    let n := f.word.imm.toNat % 16
    (y.left = 1 → FiresTo .tileget s f pn c (settleSlot (sendAll (modElem t f.st f.elem fun x => dropPair x y) f
      (both { h with pay := 0, valid := 0, kind := 2, seq := y.out } 1) false) f.st n)) ∧
    (y.left ≠ 1 → FiresTo .tileget s f pn c (sendAll
      (modElem t f.st f.elem fun x => putPair x { y with left := y.left - 1, out := y.out + 1 }) f
      (both { h with pay := BitVec.ofNat 256 (rdN t (tileKey f.st n (32 * y.out.toNat)) 32), valid := 0xFF, kind := 0, seq := y.out,
                     fmt := f.word.mod.extractLsb' 0 3 } 1) true))) ∧
  ∀ (s : State) (f : Firing) (pn : Nat) (c : Consist) (a b : Token), FiresOn s f pn c → Operands f a b → a.kind = 0 → b.kind = 0 →
    let t := fired s f pn c
    let goes (i : Instr) (u : State) : Prop := FiresTo i s f pn c u
    let z := nodeSize f
    let g := nodeSeg t f.st (bits f.word.mod.toNat 2 0)
    let lns (v : BitVec 8) (d : Nat → DWord) : List (Nat × Int × DWord) :=
      ((List.range 8).filter fun j => v.getLsbD j).map fun j => (j, nodeOff f a j, d j)
    let rl := lns a.valid fun _ => 0
    let wl := lns (a.valid &&& b.valid) fun j => (b.lane j).setWidth 64
    let o : Int := if a.valid.getLsbD 0 then a.laneN 0 else 0
    let pres (i : Instr) (kind : AccKind) (get : Bool) (v : DWord) (valid : BitVec 8) : Prop :=
      (∀ e, nodeEls t pn g 8 get true true [(0, o, v)] = .error e → goes i (nodeFault t pn c f e)) ∧
      (LanesAdmitted t pn g 8 get true [(0, o, v)] → g.presence = true →
        let r := nodeIssue (countFiring t f valid) pn c f kind 8 g (laneElsOf g [(0, o, v)])
        goes i (if f.word.imm = 0 then r.2 else later r.2 (256 * f.word.imm.toNat) (.graphPresenceWaitLimit r.1)))
    let n := tileNo f
    let p := pairFor (elemAt t f.st f.elem) f.word f.slot a
    (∀ e, nodeEls t pn g z true false false rl = .error e → goes .graphLoad (nodeFault t pn c f e)) ∧
    (LanesAdmitted t pn g z true false rl → goes .graphLoad (nodeRead t pn c f z g (laneElsOf g rl) a.valid (loadLat f.word))) ∧
    (∀ e, nodeEls t pn g z false true false wl = .error e → goes .graphStore (nodeFault t pn c f e)) ∧
    (LanesAdmitted t pn g z false true wl → goes .graphStore (nodeWrite (countFiring t f 0) pn c f z g (laneElsOf g wl))) ∧
    pres .graphTake .take true 0 3 ∧ pres .graphPut .put false (pairWord b 0) 0 ∧
    (let va := (pairWord a 0).toNat + 32 + 32 * bits f.word.mod.toNat 1 0
     goes .arg (nodeRead t pn c f 8 (nodeSeg t f.st 6) ((List.range 4).map fun k => { lane := k, va := BitVec.ofNat 64 (va + 8 * k) })
      0xFF 48)) ∧
    (let u := sinkStep (sinkOpen t f a) f a
     let g := nodeSeg u f.st (bits f.word.mod.toNat 2 0)
     let base := (((sinkBase (elemAt u f.st f.elem) f.slot a.act).bind (·.base)).getD 0).toNat
     let off := base + 32 * f.word.imm.toNat * a.iter.toNat + 32 * a.seq.toNat
     let ls := ((List.range 8).filter fun j => a.valid.getLsbD j).map fun j => (j, ((off + 4 * j : Nat) : Int), (a.lane j).setWidth 64)
     (∀ e, nodeEls u pn g 4 false true false ls = .error e → goes .sink (nodeFault u pn c f e)) ∧
     (LanesAdmitted u pn g 4 false true ls → goes .sink (sendAll (nodeWrite u pn c f 4 g (laneElsOf g ls)) f [(0, a, 1)] true))) ∧
    goes .tileput (tilePutData t pn c f a p) ∧
    (let z : Pair := { slot := f.slot, act := a.act, iter := a.iter, left := bits f.word.imm.toNat 13 4 + 2,
                       toks := [{ a with sc := (tileAt t f.st n).sc }], arr := t.time }
     goes .tileget (sendAll (modElem (modTile t f.st n fun t => { t with tag := .draining }) f.st f.elem fun x => putPair x z)
      f [] true)) ∧
    goes .ret (checkAct (modAct (sendAll t f [] true) pn c.cid a.act fun x =>
      { x with ret := some (x.ret.getD (pairWord a 0, pairWord a 2)) }) pn c.cid a.act) ∧
    (a.valid.getLsbD 0 = false ∨ a.valid.getLsbD 1 = false → goes .callout (fireFault (sendAll t f [] true) pn c f 0x1D 0)) ∧
    (a.valid.getLsbD 0 = true → a.valid.getLsbD 1 = true →
      (actOf c f.act = none → goes .callout (sendAll t f [] true)) ∧
      ∀ x, actOf c f.act = some x → goes .callout (calloutGo (sendAll t f [] true) pn c f x (pairWord a 0)
        (padTo 8 0 ((List.range 4).map fun k => pairWord b (2 * k)))))

/-! ### Events -/

/-- What happens to slots and threads without an instruction (R38 to R40, R47, R50, R88, R93, R368, R387, R398, R404, R405, R418, R419, R421,
R423, R460, R483). The turn after a refill is log 98, further pending traps log 114, a call's limit log 63. -/
def Sys2Proof.ThreadEvents : Prop :=
  ∀ s : State,
    (∀ st sl th, vget (stn s st).slots sl = none → (refillHead s st sl).bind (getThr s) = some th → Does (.slotRefill st sl) s fun s =>
      setThr (modStn s st fun x => { x with slots := vset x.slots sl (some th.tid), runq := x.runq.filter (· != th.tid) })
        { th with st := .running sl, slotSince := s.time }) ∧
    (∀ st sl th, slotThr s st sl = some th → Does (.timerPreempt st sl) s fun s => makeReady s th) ∧
    (∀ st th, preemptVictim s st = some th → Does (.priorityPreempt st) s fun s => makeReady s th) ∧
    (∀ (t : Word) th, getThr s t = some th → th.st = .ready → s.time ≠ th.readySince → (s.time - th.readySince) % 2 ^ 20 = 0 →
      th.readySince ≤ s.time → Does (.priorityAging t.toNat) s fun s =>
      later (modStn (setThr s { th with prio := if th.prio = 3 then 3 else th.prio + 1 }) th.station fun x =>
        if x.runq.contains t then { x with runq := x.runq.filter (· != t) ++ [t] } else x) (2 ^ 20) (.priorityAging t.toNat)) ∧
    (∀ st sl th p, slotThr s st sl = some th → th.pend = some p → Does (.trapEntry st sl) s fun s =>
      takeTrap s th (if p.acc.isSome then { p with mpc := th.pc } else p)) ∧
    (∀ pk k th, kget s.pkts pk = some k → k.way ≠ 2 → packetAhead s pk k = false → getThr s k.tid = some th → th.st.live = true →
      th.ending = none → (stn s k.target.toNat).dead = false → Does (.migrationArrival pk) s fun s =>
        arrivePacket (setThr { s with pkts := kdel s.pkts pk } { th with station := k.target.toNat }) k.target.toNat k) ∧
    (∀ pk k, kget s.pkts pk = some k → k.way ≠ 2 → packetAhead s pk k = true → Does (.migrationArrival pk) s fun s =>
      later s 1 (.migrationArrival pk)) ∧
    (∀ (t : Word) th x, getThr s t = some th → th.wait = some x → x.on.limited = true → callLoading s th = false →
      Does (.waitLimitExpiry t.toNat x.id) s fun s =>
        wakeThr (withdraw s th) (pendTrap ((getThr (withdraw s th) t).getD th) { cause := 0x0B, epc := x.pc, mpc := x.pc, finfo := 4 })) ∧
    (∀ (t : Word) th x d, getThr s t = some th → th.wait = some x → x.on = .mon d →
      Does (.monwaitTimeout t.toNat x.id) s fun s => monReturn s th d true) ∧
    (∀ m (u : Word) op t msg, kget s.msgs m = some (some (u, op), t, msg) → tidPart u = tidPart t → msgAhead s m t msg = false →
      Does (.messageDelivery m) s fun s => let r := deliverMsg { s with msgs := kdel s.msgs m } t msg
        opLane r.1 u op 0 r.2) ∧
    (∀ pn c b tid cause va grain, Does (.mapWriteFail pn c b tid cause va grain) s fun s => report s pn tid (clusStation c)
      (reportBytes [(1, cause.toNat), (1, b), (1, c), (1, 0), (4, tid.toNat), (8, va.toNat), (4, grain)]))

/-- What comes to a core from outside it (R47, R70, R88, R93, R94, R355, R388, R404, R460; log 28, log 29, log 70, log 71, log 80, log 110, log 134): the
line of a fill enters the instruction cache unless the fill was killed or failed; the first packet of the arrival queue whose partition is
resident becomes a READY thread with the packet's registers; a SPAWN packet makes a new thread, or its creator gets 0 or a trap; a
footprint is copied before its packet arrives; a report enters its mailbox, or its partition's queue of 64, or waits; the last Drain token
lets a TLBINV go on; a stream that has what a thread waits for wakes it. -/
def Sys2Proof.ArrivalEvents : Prop :=
  ∀ s : State,
    (∀ st pn line, let e : Event := .icacheFill st pn line
      let found := (stn s st).fills.find? fun y => y.here && !y.l1 && !y.prefetch && !y.done && y.part == pn && y.line == line
      (found = none → Does e s id) ∧ ∀ f, found = some f → ∃ t, Happens e s t ∧
        (f.killed = true → (stn t st).fills = (stn s st).fills.erase f) ∧
        (f.killed = true ∨ f.fault ≠ none → (stn t st).icache = (stn s st).icache) ∧
        (f.killed = false → f.fault = none → ({ part := pn, line := line, data := f.data } : ILine) ∈ (stn t st).icache)) ∧
    (∀ st pn line l1, let e : Event := .prefetchFill st pn line l1
      let found := (stn s st).fills.find? fun y => y.here && y.prefetch && y.l1 == l1 && y.part == pn && y.line == line
      (found = none → Does e s id) ∧ ∀ f, found = some f → ∃ t, Happens e s t ∧ (stn t st).fills = (stn s st).fills.erase f ∧
        (f.killed = true ∨ l1 = true ∨ f.fault ≠ none → (stn t st).icache = (stn s st).icache) ∧
        (f.killed = false → l1 = false → f.fault = none → (stn s st).icache.any (fun l => l.part == pn && l.line == line) = false →
          ({ part := pn, line := line, data := f.data } : ILine) ∈ (stn t st).icache)) ∧
    (∀ st, let e : Event := .runQueueEntry st
      let head := (stn s st).arrq.find? fun k => !(part s (tidPart k.tid)).swapped
      (head = none ∨ 256 ≤ contexts s st → Does e s id) ∧
      ∀ k th, head = some k → contexts s st < 256 → getThr s k.tid = some th → th.tid = k.tid → th.ending = none →
        ∃ t u, Happens e s t ∧ getThr t k.tid = some u ∧ u.st = .ready ∧ u.station = st ∧ u.pc = pcBits k.pcsw ∧
          u.sup = k.pcsw.getLsbD 63 ∧ (∀ i, i < 10 → rg u (BitVec.ofNat 5 (i + 1)) = k.g.getD i 0) ∧ u.k1 = k.pw.extractLsb' 16 16 ∧
          u.ops = [] ∧ k.tid ∈ (stn t st).runq) ∧
    (∀ pk k, kget s.pkts pk = some k → packetAhead s pk k = true → Does (.spawnDelivery pk) s fun s => later s 1 (.spawnDelivery pk)) ∧
    (∀ pk k, kget s.pkts pk = some k → packetAhead s pk k = false → k.cocall = none →
      let pn := packetPart k
      let st := k.target.toNat
      let x := stn s st
      let n := nextSerial s pn st
      let full := pfield (part s pn) 48 4 ≤ liveThreads s pn ∨ x.dead = true ∨ x.outOfService = true ∨ 256 ≤ contexts s st ∨ x.spill ≠ [] ∨
        st ∉ (part s pn).stations
      (full → Does (.spawnDelivery pk) s fun s => opLane { s with pkts := kdel s.pkts pk } k.parent k.answer 0
        (if k.trap then .error { cause := 0x20, addr := 0 } else .ok 0)) ∧
      (¬ full → getThr s (tidOf pn st n) = none → k.foot = [] → ∃ v th,
        Happens (.spawnDelivery pk) s (opLane v k.parent k.answer 0 (.ok (tidOf pn st n).toNat)) ∧ kget v.pkts pk = none ∧
        getThr v (tidOf pn st n) = some th ∧ th.tid = tidOf pn st n ∧ th.st = .migrating ∧ th.station = st ∧ th.parent = k.parent ∧
        th.launch = k.launch ∧ kget (stn v st).serial pn = some (if n = 0xFFFFF then 1 else n + 1))) ∧
    (∀ t id k th f, getThr s t = some th → th.tid = t → (s.pkts.find? fun e => e.2.tid.toNat == t.toNat && !e.2.foot.isEmpty) = some (id, k) →
      th.ending = none → k.foot = [f] → (∀ n, (stn s n).comb = []) →
      let e : Event := .footprintReady t.toNat
      let read := vread { s with hand := .event e, pkts := kdel s.pkts id } th.station (tidPart t) f.va.toNat f.len f.seg.hashed f.seg.pinned
      (∀ v b, read = (v, .ok b) → ∃ u w, Happens e s u ∧ getThr u t = some w ∧
        w.foot = [{ f with copy := (List.range f.len).map fun i => (f.va.toNat + i, b.getD i 0) }] ∧
        (ringShut v th.station v.fresh = false → k ∈ (stn u th.station).arrq ∨ k ∈ (stn u th.station).spill)) ∧
      ∀ v g, read = (v, .error g) →
        let w := { th with foot := k.foot }
        Happens e s (beginEnd (setThr v w) { w with faddr := g.addr } .faulted g.cause 0)) ∧
    (∀ m o t msg, kget s.msgs m = some (o, t, msg) → msg.waits = false → msgAhead s m t msg = true →
      Does (.deviceReport m) s fun s => later s 1 (.deviceReport m)) ∧
    (∀ m o t msg, kget s.msgs m = some (o, t, msg) → msg.waits = true ∨ msgAhead s m t msg = false →
      let e : Event := .deviceReport m
      let pn := tidPart t
      (getThr s t = none → t ≠ (part s pn).supervisor → Does e s fun s =>
        sendMsg { s with msgs := kdel s.msgs m } none (part s pn).supervisor msg (tidHome t)) ∧
      ∀ th, getThr s t = some th → th.tid = t → th.st.live = true → (stn s (tidHome t)).dead = false →
        (stn s (tidHome t)).outOfService = false → ∃ u, Happens e s u ∧
          (th.mbox.length < 16 → th.wait = none → kget u.msgs m = none ∧ ∃ w, getThr u t = some w ∧ w.mbox = th.mbox ++ [msg]) ∧
          (16 ≤ th.mbox.length → getThr u t = some th ∧
            ((part s pn).reports.countP (fun x => tidHome x.1 == tidHome t) < 64 →
              kget u.msgs m = none ∧ (part u pn).reports = (part s pn).reports ++ [(t, msg)]) ∧
            (64 ≤ (part s pn).reports.countP (fun x => tidHome x.1 == tidHome t) →
              kget u.msgs m = some (none, t, { msg with waits := true }) ∧ (part u pn).reports = (part s pn).reports ∧
              (s.time + 1, e) ∈ u.agenda))) ∧
    (∀ pn n, let e : Event := .drainTokenArrival pn n
      let ahead (r : Req) : Prop := r.part = pn ∧ r.id < n ∧ r.pa ≠ none
      let drains := (part s pn).drains
      (drains.find? (·.n == n) = none → Does e s id) ∧ ∀ x, drains.find? (·.n == n) = some x →
        ((∃ q ∈ s.reqs, ahead q.2) ∨ (∃ q ∈ s.waits, ahead q) → Does e s fun s => later s 1 e) ∧
        ((∀ q ∈ s.reqs, ¬ ahead q.2) → (∀ q ∈ s.waits, ¬ ahead q) → (∀ q ∈ s.rsv, ∀ r ∈ q.2.queue, ¬ ahead r) →
          (1 < x.left → Does e s fun s => modPart s pn fun p =>
            { p with drains := p.drains.map fun y => if y.n = n then { y with left := y.left - 1 } else y }) ∧
          (x.left ≤ 1 → ∃ u, Happens e s u ∧ (∀ y ∈ (part u pn).drains, y.n ≠ n) ∧
            ∀ th w, getThr s x.tid = some th → th.tid = x.tid → th.wait = some w → w.on = .inval n →
              ∃ z, getThr u x.tid = some z ∧ z.pc = th.pc + 4 ∧ z.wait = none))) ∧
    ∀ st p th w, getThr s th.tid = some th → (∀ e ∈ s.threads, e.2.tid = th.tid → e.2 = th) → th.station = st → th.wait = some w →
      w.on = .stream p → (∀ c, headCmd s st c = none) → (∀ e ∈ s.threads, e.2.station = st → e.2.ops = []) →
      let q := portAt s st p
      (q.cons.any fun x => x.kind == 0 && x.tid == th.tid) = true → 2 ≤ q.queue.length →
      ∃ u z, Happens (.streamWake st p) s u ∧ getThr u th.tid = some z ∧ z.wait = none ∧ z.pc = th.pc ∧
        (th.st = .parked .marker → z.st = .ready)

/-- What happens to requests, lines, reservations and seals without an instruction (R327, R347, R348, R351, R359, R367, R370, R457). The model's
readings are log 24 and log 103 (holders), log 27 (limits), log 30 (order at a home), log 58 (seals) and log 132 (walks). -/
def Sys2Proof.MemoryEvents : Prop :=
  ∀ s : State,
    (∀ r agent, kget s.reqs r = none → Does (.recallAck r agent) s id) ∧
    (∀ r agent q key, kget s.reqs r = some q → q.pa = some key →
      let left := q.recalls.filter (· != agent)
      let gone (v : State) : Prop := kget v.reqs r = some { q with recalls := left } ∧
        ∀ x ∈ recallSet s q key, x.1 = agent → ∀ h ∈ (kget v.dirs x.2.1).getD [], h.agent = agent → x.2.2 = true ∧ h.st = 1
      (left ≠ [] → ∃ v, Happens (.recallAck r agent) s v ∧ gone v) ∧
      (left = [] → ∃ v, Happens (.recallAck r agent) s (doHome v { q with recalls := [] } key) ∧ gone v ∧
        (64 ≤ agent → ∀ a, rdB v a = rdB s a))) ∧
    (∀ r key, Arrives s r key → (∀ x ∈ s.waits, ∀ k, x.pa = some k → k / 8 ≠ key / 8) → let e : Event := .presenceResend r.id
      let now (full : Bool) : Prop := ∃ u, Happens e s u ∧ kget u.reqs r.id = none ∧ u.waits = s.waits ∧ tagFull u key = full
      let defers : Prop :=
        (s.waits.countP (fun x => x.bank == r.bank) < 1024 → Does e s fun s => { s with reqs := kdel s.reqs r.id, waits := s.waits ++ [r] }) ∧
        (1024 ≤ s.waits.countP (fun x => x.bank == r.bank) → Does e s fun s => later { s with reqs := kput s.reqs r.id r } 256 e)
      (∀ t op ln, r.who = .thread t op ln → (tagFull s key = true → (r.kind = .take → now false) ∧ (r.kind = .readf → now true)) ∧
        (tagFull s key = false → r.kind = .put → now true)) ∧
      (tagFull s key = true → r.kind = .put → defers) ∧ (tagFull s key = false → r.kind = .take ∨ r.kind = .readf → defers)) ∧
    (∀ key (t : Word) x, kget s.rsv key = some x → x.holder = some t →
      (x.granted + 4096 ≤ s.time → Does (.reservationHoldExpiry key t.toNat) s fun s => releaseRsv s key) ∧
      (s.time < x.granted + 4096 → rsvWanted s t x.op = true → Does (.reservationHoldExpiry key t.toNat) s id)) ∧
    (∀ st pn line, Does (.sectorDrain st pn line) s fun s => drainWhere s st fun c => c.part == pn && c.line == line) ∧
    (∀ st pn line, ∃ t, Happens (.lineExpiry st pn line) s t ∧
      ∀ l ∈ (stn t st).l1, l.part = pn → l.line = line → l.sealedIdx.isSome = true ∨ l.sched = true) ∧
    (∀ r q, kget s.reqs r = some q → (q.pa.isSome = true → Does (.translationWalk r) s id) ∧
      (q.pa = none → q.kind.isHold = false → (s.reqs.map (·.2)).filter (fun x => x.pa.isNone && (x.id == q.id || (x.walk == 2 && missPage x q))) = [q] →
        let s' : State := { s with hand := .event (.translationWalk r) }
        let look := translateKeep s' q.st q.part q.va.toNat q.kind.writes q.code q.pinned q.stale
        ∀ t, (∀ key, look = (t, .ok key) → Happens (.translationWalk r) s (portServe (toBank t q key) (clusterOf q.st))) ∧
          ∀ f, look = (t, .error f) → Happens (.translationWalk r) s (portServe (deliver t q (.error f)) (clusterOf q.st)))) ∧
    (∀ (t : Word) th op, getThr s t = some th → (∀ o ∈ th.ops, o.id = op → o.done = true ∨ o.left = 0) →
      Does (.memTimeoutExpiry t.toNat op) s id) ∧
    (∀ (t : Word) th op o, getThr s t = some th → (th.ops.find? fun o => o.id == op && !o.done && o.left != 0) = some o →
      let own (q : Req) : Prop := ∃ n, q.who = .thread t op n
      (∀ q ∈ s.waits, ¬ own q) → (∀ q ∈ s.reqs, own q.2 → ∀ x ∈ s.agenda, x.2 ≠ .presenceResend q.2.id) →
      (∀ e ∈ s.rsv, ∀ q ∈ e.2.queue, ¬ own q) →
      ∃ f : DFault, f.cause = 0x17 ∧ Does (.memTimeoutExpiry t.toNat op) s fun s =>
        completeOp (setThr s { th with ops := th.ops.map fun x => if x.id = op then { x with left := 0, fault := some f } else x }) t op) ∧
    (∀ pn idx x, kget (part s pn).seals idx = some x →
      (x.st = .sealing → (s.reqs.any fun e => e.2.into pn idx) = false → (s.rsv.any fun e => e.2.queue.any fun r => r.into pn idx) = false →
        Does (.sealComplete pn idx) s fun s =>
        sealWake (sealFoot (putSeal (dropBuffer s pn x true) pn idx { x with st := .isSealed, count := 0 }) pn idx) pn idx) ∧
      (x.st = .unsealing → x.count = 0 → Does (.unsealComplete pn idx) s fun s =>
        sealWake (markSeal (modPart s pn fun p => { p with seals := kdel p.seals idx }) pn idx false) pn idx) ∧
      (x.st = .unsealing → x.count ≠ 0 → Does (.unsealComplete pn idx) s fun s => later s 1 (.unsealComplete pn idx))) ∧
    ∀ sector to_, (s.parts.find? fun p => p.2.inStep && bit (pfield p.2 40 8) (peerOf (64 * sector))) = none → to_ < 4 →
      ∃ u, Happens (.holderRecall sector to_) s u ∧ ∀ st, (∀ l ∈ (stn u st).slice, l.line = sector / 4 → l.sec (sector % 4) ≤ to_) ∧
        (stn u st).slice.map (·.line) = (stn s st).slice.map (·.line) ∧ (stn u st).slice.map (·.data) = (stn s st).slice.map (·.data)

/-- The rows that end waits of threads and those of the memory system. -/
def Obligations.ThreadAndMemoryEvents : Prop := ThreadEvents ∧ ArrivalEvents ∧ MemoryEvents

/-- What a matrix array does in its own time (R206, R214 to R216, R218, R223, R226, R261). A ready step fires where no other takes a fault and
the array is free: its template counts it, its groups take its tags, and its stream begins in the next cycle; a PAT-3 step first has its
metadata scanned. A step that takes a fault is FAULTED with its cause. A stream's end empties a releasing step's slot. A LAST step's set
waits for its write-back, which fills the output slot and leaves the set EMPTY. The model's readings are log 53 (the cycle in which operands
are read), log 116, log 118 and log 148 (inner sums). -/
def Sys2Proof.ArrayEvents : Prop :=
  ∀ (s : State) (st n : Nat),
    let x := stn s st
    let t := vget x.tms n
    let f := templateFields t.bits
    let tags := stepTags f (tileAt s st f.aslot)
    (n < 16 → (∀ m c, m < 16 → stepLook s st m ≠ .fault c) → arrayBusy s st = false → stepLook s st n = .ready →
      (∀ m, m < n → stepLook s st m ≠ .ready) → scannedNow s st = none → (∀ g ∈ f.groups, g < 8) →
      (f.pat ≠ 3 → ∃ u y, Happens (.stepFire st) s u ∧
        (let z := vget (stn u st).tms n
         z.fires = t.fires + 1 ∧ z.lseq = tags.2.1 ∧ z.ovf = false ∧ z.bits = t.bits ∧ z.faulted = t.faulted) ∧
        (∀ g ∈ f.groups, let o := vget (stn u st).groups g
          o.tag = (if tags.2.2 then .done else .accum) ∧ o.iter = tags.1 ∧ o.next = tags.2.1 + 1) ∧
        (stn u st).streams = x.streams ++ [y] ∧ y.tm = n ∧ y.bits = t.bits ∧ y.iter = tags.1 ∧ y.seq = tags.2.1 ∧
        y.last = tags.2.2 ∧ y.start = s.time + 1 ∧ (f.pat = 0 → y.len = f.m * f.k)) ∧
      (f.pat = 3 → ∃ u d, Happens (.stepFire st) s u ∧ (stn u st).streams = x.streams ∧
        (vget (stn u st).tms n).scan = some (s.time + d + 1, (tileAt s st f.aslot).epoch, []) ∧
        (vget (stn u st).tms n).fires = t.fires ∧ (s.time + d, Event.nmMetaScan st n) ∈ u.agenda)) ∧
    (∀ c, n < 16 → stepLook s st n = .fault c → (∀ m e, m < 16 → m ≠ n → stepLook s st m ≠ .fault e) →
      (x.streams.any fun y => decide (s.time + 1 ≤ y.start + y.len - 1)) = true →
      Does (.stepFire st) s fun s => stepFault s st n t c tags.1 tags.2.1 0 0) ∧
    (∀ due seen, t.scan = some (due, (tileAt s st f.aslot).epoch, seen) → due = s.time + 1 →
      let read := scanRead { s with hand := .event (.nmMetaScan st n) } st n
      stepLook read st n = .ready →
      (nmScanBad read st n = false → Happens (.nmMetaScan st n) s read) ∧
      (n < 16 → nmScanBad read st n = true → ∃ u, Happens (.nmMetaScan st n) s u ∧
        (let z := vget (stn u st).tms n; z.faulted = true ∧ z.cause = 0x0E ∧ z.scan = none ∧ z.fires = t.fires) ∧
        (stn u st).streams = x.streams)) ∧
    (∀ y, (x.streams.find? fun z => !z.ended) = some y →
      let a := (templateFields y.bits).aslot
      ∃ v, Happens (.stepStreamEnd st) s (igNext (igNext v st 0) st 1) ∧
        (stn v st).streams = x.streams.map (fun z => if z = y then { z with ended := true } else z) ∧
        ((templateFields y.bits).arel = true → a < 16 → (tileAt s st a).tag = .full → (tileAt v st a).tag = .empty) ∧
        ((templateFields y.bits).arel = false → (tileAt s st a).tag ≠ .draining → (tileAt v st a) = tileAt s st a)) ∧
    (∀ y, (x.streams.find? fun z => z.start == n) = some y →
      let left (s : State) : State := modStn s st fun q => { q with streams := q.streams.filter (· != y) }
      (y.last = false → Does (.stepAccumulationComplete st n) s left) ∧
      (y.last = true → (vget x.groups (templateFields y.bits).accg).bad = false → ∃ v,
        Happens (.stepAccumulationComplete st n) s (tryWriteback (modStn v st fun q => { q with pipe := q.pipe ++ [y] }) st 1) ∧
        (stn v st).streams = x.streams.filter (· != y) ∧ (stn v st).pipe = x.pipe ∧ (stn v st).groups = x.groups ∧
        (intPath y.fda y.fdb = false → (stn v st).acc = x.acc ∧ (stn v st).ovf = x.ovf)) ∧
      (y.last = true → (vget x.groups (templateFields y.bits).accg).bad = true →
        (∀ g ∈ (templateFields y.bits).groups, g < 8) → ∃ u, Happens (.stepAccumulationComplete st n) s u ∧ (stn u st).pipe = x.pipe ∧
          ∀ g ∈ (templateFields y.bits).groups, (vget (stn u st).groups g).tag = .empty ∧ (vget (stn u st).groups g).next = 0)) ∧
    ∀ y rest, x.pipe = y :: rest →
      let g := templateFields y.bits
      (x.wbBusy = false → (vget x.tiles g.oslot).tag = .empty → Does (.writebackStart st) s fun s =>
        later (modStn (modTile s st g.oslot fun t => { t with tag := .filling, eng := true }) st fun q => { q with wbBusy := true })
          ((if g.nmm = 0 then 4 else 8) * g.m + 7) (.writebackComplete st)) ∧
      (x.wbBusy = true ∨ (vget x.tiles g.oslot).tag ≠ .empty → Does (.writebackStart st) s id) ∧
      (g.oslot < 16 → (∀ k ∈ g.groups, k < 8) → ∃ u, Happens (.writebackComplete st) s u ∧ (stn u st).pipe = rest ∧
        (stn u st).wbBusy = false ∧ (∀ k ∈ g.groups, (vget (stn u st).groups k).tag = .empty ∧
          (vget (stn u st).groups k).mode = (vget x.groups k).mode) ∧
        (let z := tileAt u st g.oslot
         z.tag = .full ∧ z.iter = y.iter ∧ z.seq = 0 ∧ z.last = true ∧ z.sc = g.oscale ∧ z.epoch = (tileAt s st g.oslot).epoch + 1) ∧
        ∀ a, rdB u a = rdB ((outBytes s st y).foldl (fun s p => wrL s (tileKey st g.oslot p.1) p.2) s) a)

/-- What a stream generator does in its own time (R243, R250 to R253): a queued IGLOAD begins its read and leaves the generator LOADED or, where
the read fails, EMPTY with a report; a queued IGSTART begins to build, or fails its checks; an enumeration ends READY, DONE or FAULTED;
records leave for its port eight at a time while it has room. The model's readings are log 66 (areas), log 67 (COL and ROW), log 68 (records
that wait), log 72, log 149, log 150 and log 151 (COUNT while it builds). -/
def Sys2Proof.GeneratorEvents : Prop :=
  ∀ (s : State) (st g : Nat), g < 2 →
    let x := igAt s st g
    let at_ (e : Event) : State := { s with hand := .event e }
    (∀ issuer pn va sg q, x.queue = .load issuer pn va sg :: q →
      (x.st = .ready → igStreams s st g = true → Does (.generatorLoad st g) s id) ∧
      let loading (s : State) : State := modIg s st g fun x =>
        { x with st := .loading, image := 0, lists := [], lines := [], recs := [], cause := 0, rowCur := 0, colCur := 0, count := 0,
                 issuer := issuer, part := pn, addr := va, seg := sg, queue := q }
      (x.st ≠ .ready ∨ igStreams s st g = false → Does (.generatorLoad st g) s fun s =>
        within (loading s) (64 + imageClass (loading s) st pn sg va.toNat) (.generatorLoadComplete st g))) ∧
    (x.st = .loading →
      (∀ t l, engRead (at_ (.generatorLoadComplete st g)) st x.part x.seg x.addr.toNat 128 = (t, .ok l) →
        Happens (.generatorLoadComplete st g) s
          (igNext (modIg t st g fun x => { x with st := .loaded, image := BitVec.ofNat 1024 (leNat l) }) st g)) ∧
      ∀ t e, engRead (at_ (.generatorLoadComplete st g)) st x.part x.seg x.addr.toNat 128 = (t, .error e) →
        Happens (.generatorLoadComplete st g) s (igNext (igReport (modIg t st g fun x => { x with st := .empty }) st g e.cause 0 e.addr) st g)) ∧
    (∀ issuer pn ctl win q, x.queue = .start issuer pn ctl win :: q → (x.st ≠ .ready ∨ igStreams s st g = false) →
      let y : Igen :=
        { x with st := .building, eid := ctl.extractLsb' 0 16, dir := ctl.getLsbD 16, dest := ctl.getLsbD 17,
                 port := bits ctl.toNat 20 18, window := win, rowCur := BitVec.ofNat 16 (winR0 win),
                 colCur := BitVec.ofNat 16 (winC0 win), count := 0, cause := 0, lists := [], lines := [], recs := [],
                 issuer := issuer, part := pn, queue := q }
      let t := modIg (at_ (.enumerationStart st g)) st g fun _ => y
      (x.st = .empty → Happens (.enumerationStart st g) s (igFail t st g 0x10)) ∧
      (∀ c, x.st ≠ .empty → patCheck t y y.dir (!y.dest) = .error c → Happens (.enumerationStart st g) s (igFail t st g c)) ∧
      ∀ p, x.st ≠ .empty → patCheck t y y.dir (!y.dest) = .ok p → y.dest = false → ∃ u d, Happens (.enumerationStart st g) s u ∧
        (igAt u st g).st = .building ∧ (igAt u st g).eid = y.eid ∧ (igAt u st g).window = win ∧ (igAt u st g).queue = q ∧
        (d, Event.enumerationEnd st g) ∈ u.agenda ∧ s.time < d) ∧
    (∀ p limit ls o, x.st = .building → patCheck (at_ (.enumerationEnd st g)) x x.dir (!x.dest) = .ok (p, limit) →
      enumerate x p limit = (ls, o) → ∃ u, Happens (.enumerationEnd st g) s u ∧
        (let z := igAt u st g
         z.count = (ls.map (·.length)).sum ∧ z.lines = ls.map (·.length) ∧
         (o = none → z.st = (if x.dest then .done else .ready) ∧
           z.lists = if x.dest then [] else ls.map fun l => l.map fun e => e.2.1 - winC0 x.window) ∧
         (∀ e, o = some e → z.st = .faulted ∧ z.cause = 0x13 ∧ z.rowCur = BitVec.ofNat 16 e.1 ∧ z.colCur = BitVec.ofNat 16 e.2.1))) ∧
    (x.recs = [] → x.st = .building → Does (.generatorRecordPush st g) s fun s => later s 1 (.enumerationEnd st g)) ∧
    (x.recs ≠ [] → ((portAt s st x.port).prod.any fun e => e.kind == 3 && e.idx.toNat == g) = true →
      let l := x.recs.take 8
      let push (s : State) : Option State := portPush s st x.port [recEntry (l.take 4), recEntry (l.drop 4)]
      (push (at_ (.generatorRecordPush st g)) = none → Does (.generatorRecordPush st g) s id) ∧
      ∀ t, push (at_ (.generatorRecordPush st g)) = some t → Happens (.generatorRecordPush st g) s
        (igPush st g 16 (modIg t st g fun x =>
          { x with
            recs := x.recs.drop 8, count := x.count + l.countP (fun r => r.kind == 0),
            rowCur := (match x.recs.drop 8 with | r :: _ => BitVec.ofNat 16 r.pos.1 | [] => x.rowCur),
            colCur := (match x.recs.drop 8 with | r :: _ => BitVec.ofNat 16 r.pos.2 | [] => x.colCur) })))

/-- What copy channels and collective units do in their own time (R157, R383, R384, R391, R392, R394): a command starts once its tile slot is
EMPTY to fill or FULL to drain; it ends DONE with its tags set, or stops FAULTED with a report; a contribution registers; a collective is
written at every contributor or fails with its cause; the tokens of one tag are combined once every device's is there. The model's readings
are log 20, log 113 (pace), log 65 (a failure's bytes), log 84 (collective tokens) and log 143 (queues of the units). -/
def Sys2Proof.CopyEvents : Prop :=
  ∀ (s : State),
    (∀ st c x, headCmd s st c = some x → (part s x.part).swapped = false → x.state = 0 →
      let go (s : State) : State := copyAdvance st c 64 (modCmd s st c fun x => { x with state := 1 })
      (x.tileSlot s st true = none → x.tileSlot s st false = none → Does (.copyCommandStart st c) s go) ∧
      (∀ n, x.tileSlot s st true = some n →
        ((tileAt s st n).tag ≠ .empty → Does (.copyCommandStart st c) s id) ∧
        ((tileAt s st n).tag = .empty → Does (.copyCommandStart st c) s fun s =>
          go (modTile s st n fun t => { t with tag := .filling, eng := true }))) ∧
      ∀ n, x.tileSlot s st true = none → x.tileSlot s st false = some n →
        ((tileAt s st n).tag ≠ .full → Does (.copyCommandStart st c) s id) ∧
        ((tileAt s st n).tag = .full → Does (.copyCommandStart st c) s fun s =>
          go (modTile s st n fun t => { t with tag := .draining }))) ∧
    (∀ st c x, headCmd s st c = some x → x.state = 1 →
      (x.count ≤ x.wp → x.tileSlot s st false = none →
        let y := { x with state := 2, hold := none }
        let ends (s : State) : State := if bit (x.w 0) 55 then copyReport s st c y else s
        (x.tileSlot s st true = none → Does (.copyCommandEnd st c) s fun s => ends (copyRetire s st c y)) ∧
        ∀ n, x.tileSlot s st true = some n → Does (.copyCommandEnd st c) s fun s => ends (fillSlot (copyRetire s st c y) st n
          (BitVec.ofNat 16 (x.w 7)) (BitVec.ofNat 16 (x.w 7 / 2 ^ 16)) (bit (x.w 7) 32) (bit (x.w 7) 33))) ∧
      (∀ n, x.count ≤ x.wp → x.tileSlot s st true = none → x.tileSlot s st false = some n →
        let y := { x with state := 2, hold := none }
        Does (.copyCommandEnd st c) s fun s =>
          let s := settleSlot (copyRetire s st c y) st n
          if bit (x.w 0) 55 then copyReport s st c y else s) ∧
      (∀ e a p, x.acc ≠ [] → dataPort s st c x false = some p →
        portPush { s with hand := .event (.copyCommandStop st c e a) } st p [accEntry x.acc] = none →
        Does (.copyCommandStop st c e a) s fun s => later s 1 (.copyCommandStop st c e a)) ∧
      ∀ e a, x.tileSlot s st false = none → x.acc = [] →
        let y := { x with state := 3, cause := e, addr := a, hold := none }
        (x.tileSlot s st true = none → Does (.copyCommandStop st c e a) s fun s => copyReport (copyRetire s st c y) st c y) ∧
        ∀ n, x.tileSlot s st true = some n → Does (.copyCommandStop st c e a) s fun s =>
          copyReport (tileChanged (modTile (copyRetire s st c y) st n fun t => { t with tag := .empty }) st n) st c y) ∧
    (∀ pn cid c k, (part s pn).colls.find? (fun c => c.cid.toNat == cid) = some c → c.waiting.find? (fun k => k.place == 0) = some k →
      Does (.collectiveContribution pn cid) s fun s => collReach s pn k.st k.n) ∧
    (∀ pn c k, (part s pn).colls = [c] → (∀ q, q ≠ pn → (part s q).colls = []) → c.waiting = [k] → k.place = 0 → c.state ≠ 1 → 1 < (collCmd k.words).npart →
      ∃ u z, Happens (.collectiveContribution pn c.cid.toNat) s u ∧ (part u pn).colls = [z] ∧ z.cid = c.cid ∧ z.state = 1 ∧
        z.cause = 0 ∧ z.bc = k.bc ∧ z.contribs = [(k.st, k.tid, k.words)] ∧ z.waiting = []) ∧
    (∀ pn cid cause c, (part s pn).colls.find? (fun c => c.cid == cid && c.state == 1) = some c → (part s pn).swapped = false →
      let e : Event := .collectiveDone pn cid cause
      let members := (List.range 256).flatMap fun st => (c.contribs.filter fun x => x.1 == st).map fun x => (st, collCmd x.2.2)
      let fails (s : State) (e : Byte) : State := collGo (collFail s pn c e) pn
      (cause ≠ 0 → Does e s fun s => fails s cause) ∧
      (cause = 0 → c.bc = false → members ≠ [] →
        (∀ t f, collSources { s with hand := .event e } pn members = (t, .error f) → Happens e s (fails t f.cause)) ∧
        ∀ t r rest, collSources { s with hand := .event e } pn members = (t, .ok (r :: rest)) →
          let m := (members.head?.map (·.2)).getD (collCmd [])
          let own := rest.foldl (fun a b => (a.zip b).map fun e => collCombine m.op e.1 e.2) r
          let all := collAcross t m own (chainOf t pn)
          (∀ v, collWrites pn all.1 members all.2 = (v, none) →
            Happens e s (collGo (modColl v pn cid fun x => { x with state := 2, cause := 0 }) pn)) ∧
          ∀ v f, collWrites pn all.1 members all.2 = (v, some f) → Happens e s (fails v f.cause))) ∧
    ∀ unit dev id t pn cid g, legOf s id = some (pn, cid, g) → g.dead = false →
      let key := t.act.toNat + t.iter.toNat * 2 ^ 12 + t.seq.toNat * 2 ^ 28 + id * 2 ^ 44
      let all := s.ctoks ++ [(unit, key, dev, t)]
      let mine := (all.filter fun x => x.1 == unit && x.2.1 == key).map fun x => (x.2.2.1, x.2.2.2)
      let e : Event := .collectiveTokenCombine unit dev id t
      (combineAll g.collop.toNat mine (chainOf s pn).length = none → Does e s fun s => { s with ctoks := all }) ∧
      ∀ r, combineAll g.collop.toNat mine (chainOf s pn).length = some r → Does e s fun s =>
        unitSend { s with ctoks := all.filter fun x => !(x.1 == unit && x.2.1 == key) } pn cid unit r

/-- What loads, frees, freezes, watchdogs and waiting calls of consists come to (R57, R65, R122, R124, R311 to R314, R437, R442): a load fails
at its first failing check or makes its consist resident; a free unloads it once its activations have ended; a freeze is read out; the
watchdog freezes for good and the readout follows once every tile has stopped, within 2,048 cycles (log 124); a call that waits goes on when
its frame, its consist and an activation id are there. The model's readings are log 63, log 73 and log 74 (readouts), log 82 (checks of a
load), log 83 (a watchdog's issuer) and log 49. -/
def Sys2Proof.ConsistEvents : Prop :=
  ∀ (s : State) (pn : Nat),
    (∀ n l, (part s pn).loads = [l] → l.n = n →
      let e : Event := .consistLoad pn n
      let s' : State := { s with hand := .event e }
      let ends (t : State) (r : LoadEnd) : Prop := Happens e s (loadEnded t pn l r)
      (∀ t f, imgRead s' pn l 0 64 = (t, .error f) → ends t (.error { cause := f.cause, va := f.addr })) ∧
      ∀ t h, imgRead s' pn l 0 64 = (t, .ok h) →
        let cid := field h 6 2
        (headerOk h l.va = false → ends t (.error { cause := 0x14, check := 1, cid := cid })) ∧
        (headerOk h l.va = true →
          (∀ c, consistOf t pn (BitVec.ofNat 16 cid) = some c → ends t (.ok (c.cid, c.anchor, none))) ∧
          (consistOf t pn (BitVec.ofNat 16 cid) = none →
            (∀ u f, imgRead t pn l 0 (field h 36 4) = (u, .error f) → ends u (.error { cause := f.cause, cid := cid, va := f.addr })) ∧
            ∀ u b, imgRead t pn l 0 (field h 36 4) = (u, .ok b) →
              (∀ i, imgParse b h = .error i → ends u (.error { cause := 0x14, check := 2, entry := i, cid := cid })) ∧
              ∀ m, imgParse b h = .ok m →
                let place := chooseAnchor u pn m (anchors (part u pn) m) { cause := 0x14, check := 3, cid := cid }
                (∀ x, place = .error x → ends u (.error x)) ∧
                ∀ x y, place = .ok (x, y) →
                  ends (install u pn m l.va x y) (.ok (BitVec.ofNat 16 cid, 16 * y + x, some b))))) ∧
    (∀ cid c, consistOf s pn cid = some c →
      (c.freePending = true → c.acts = [] → Does (.consistFreeComplete pn cid) s fun s =>
        wakeCalls (c.freeing.foldl (fun s t => cfgReport s pn t (c.anchor % 256)
          { result := 3, cid := cid.toNat, anchor := c.anchor, addr := c.image })
          (unloadConsist (c.freezing.foldl (fun s r => freezeDone s pn c r) s) pn c)) pn) ∧
      (c.freePending = false ∨ c.acts ≠ [] → Does (.consistFreeComplete pn cid) s id) ∧
      (∀ r l, c.freezing = r :: l → r.wdog = false →
        let e : Event := .freezeComplete pn cid
        let s' : State := modConsist { s with hand := .event e } pn cid fun c => { c with freezing := l }
        (r.ring = false → ∀ t o, areaWrite s' pn r.st r.seg r.off.toNat (readoutBytes s' pn c (readElems c).length) = (t, o) →
          Happens e s (cfgReport t pn r.issuer c.anchor
            { result := 4, cid := c.cid.toNat, anchor := c.anchor, cause := o.getD 0, addr := vaOf r.seg r.off })) ∧
        (r.ring = true → ∀ t va, ringWrite s' pn c = (t, va) → Happens e s (cfgReport t pn 0 c.anchor
            { result := 4, cid := c.cid.toNat, anchor := c.anchor, cause := 0x16, addr := va }))) ∧
      (c.freezing = [] → Does (.watchdogExpiry pn cid) s fun s =>
        let t := applyHold (modConsist (modConsist s pn c.cid fun c => { c with wdog := true }) pn c.cid fun c =>
          { c with frozen := true, freezing := c.freezing ++ [{ ring := true }] }) pn c.cid c.anchor 16 5 0
        planReadout (abortFrozen t pn c.cid) pn c) ∧
      (c.freezing = [] → (∀ t ∈ c.tiles, t.st < 256) → ∃ u d, Happens (.watchdogExpiry pn cid) s u ∧ d ≤ 2048 ∧
        (s.time + d, Event.freezeComplete pn c.cid) ∈ u.agenda ∧ ∀ t ∈ c.tiles, hops c.anchor t.st < d) ∧
      ∀ r l, c.freezing = r :: l → Does (.watchdogExpiry pn cid) s fun s =>
        modConsist (modConsist s pn c.cid fun c => { c with wdog := true }) pn c.cid fun c =>
          { c with freezing := { r with wdog := true } :: l }) ∧
    ∀ (e : Event) (w : CallWait),
      ((∃ n, e = .callWaitResume pn n ∧ (part s pn).calls.find? (·.n == n) = some w ∧ w.load = none) ∨
        ∃ cid c, e = .activationInterval pn cid ∧ consistOf s pn cid = some c ∧ (part s pn).calls.find? (fun w =>
          w.frame.isSome && w.load.isNone && (BitVec.ofNat 64 (bits w.ptr.toNat 55 0) == c.image || w.cid == some cid)) = some w) →
      let s' : State := { s with hand := .event e }
      (w.frame = none → frameTake s' pn w.station = none → Happens e s s') ∧
      ∀ fr, w.frame = some fr →
        let va := BitVec.ofNat 64 (bits w.ptr.toNat 55 0)
        ∀ c, ((part s pn).consists.find? fun c => c.image == va || w.cid == some c.cid) = some c → c.freePending = false →
          (slotsWith s c (fun x => x.op == .arg) = [] → Happens e s (callFailed s' pn w 0x14 0)) ∧
          (slotsWith s c (fun x => x.op == .arg) ≠ [] →
            (∀ t, c.lastStart = some t → (part s pn).timed = true → c.cwcl ≠ 0 → t + c.cint ≤ s.time) →
            ∀ u, startAct s' pn c w.caller fr w.station w.launch = some u →
              (∀ t, w.caller = .thread t → Happens e s (modThr (dropCall u pn w.n) t fun th => { th with wait := none })) ∧
              ∀ g cid a i k el d, w.caller = .graph g cid a i k el d → Happens e s (dropCall u pn w.n))

/-- Tokens of graphs (R19, R20, R59, R101, R105 to R107, R116, R151, R308): what a token does at a matching store, a return token at its
CALLOUT's tile, and tokens and acknowledgements at the converters of a leg. The model's readings are log 84, log 111 and log 112
(converters), log 117 (CVT), log 50 (DELAY), log 124 (tokens on the way to a stopped tile). -/
def Sys2Proof.TokenEvents : Prop :=
  ∀ (s : State),
    (∀ st el sl port t pn c w, tileOwner s st = some (pn, c) → (slotWord s st el sl).getD noOp = w → (actOf c t.act).isSome = true →
      let e : Event := .tokenArrival st el sl port t
      let x := elemAt s st el
      let y : Ent := { tok := t, slot := sl, port := port, arr := s.time }
      let same (y : Ent) : Bool := y.slot == sl && y.port == port && y.tok.act == t.act && y.tok.iter == t.iter &&
        (!sequenced w port || y.tok.seq == t.seq)
      let fails (c' : Byte) : Prop := Does e s fun s => faultAct s pn c.cid t.act c' st el sl t.iter 0
      (t.kind = 11 → let v : Byte := (t.lane 0).extractLsb' 0 8
        fails (if v = 0 ∨ 0x25 ≤ v.toNat then 0x1D else v)) ∧
      (12 ≤ t.kind.toNat → fails 0x1D) ∧ (t.kind = 10 → Does e s id) ∧
      (w.op = .cvt → port = true → t.kind.toNat < 10 → (t.kind ≠ 0 ∨ t.valid.getLsbD 0 = false) → Does e s id) ∧
      (w.op = .cvt → port = true → t.kind = 0 → t.valid.getLsbD 0 = true → (x.store ++ x.link).any same = false →
        6 ≤ bits (t.lane 0).toNat 2 0 ∨ bits (t.lane 0).toNat 5 4 = 3 → fails 0x14) ∧
      (t.kind.toNat < 10 → (w.op ≠ .cvt ∨ port = false) → (x.store ++ x.link).any same = true → fails 0x1D) ∧
      (t.kind.toNat < 10 → (w.op ≠ .cvt ∨ port = false) → w.op ≠ .delay → (x.store ++ x.link).any same = false →
        (x.store.length < 64 → x.link = [] → Does e s fun s => modElem s st el fun x => { x with store := x.store ++ [y] }) ∧
        (64 ≤ x.store.length ∨ x.link ≠ [] → Does e s fun s =>
          applyHold (modElem s st el fun x => { x with link := x.link ++ [y] }) pn c.cid st el 1 0))) ∧
    (∀ st el d t pn c, tileOwner s st = some (pn, c) → (actOf c t.act).isSome = true →
      let e : Event := .returnTokenArrival st el d t
      (tileStopped s pn c st el = true → Does e s fun s => later s 1 e) ∧
      (tileStopped s pn c st el = false → destK d = false → Does e s fun s => arrive s st (destE d) (destSlot d) (destP d) t) ∧
      (tileStopped s pn c st el = false → destK d = true → destV d = true → Does e s fun s =>
        modElem s st el fun x => { x with late := x.late ++ [[(d, t)]] })) ∧
    (∀ id n t pn cid g u, legOf s id = some (pn, cid, g) →
      (g.dead = true → ∀ k, Does (.converterToken id k n t u) s fun s => s) ∧
      (g.dead = false → (64 ≤ (n - g.expect).toNat ∨ (g.window.any fun x => x.1 == n) = true) → Does (.converterToken id 0 n t u) s fun s => s) ∧
      (g.dead = false → (n - g.expect).toNat < 64 → (g.window.any fun x => x.1 == n) = false →
        Does (.converterToken id 0 n t u) s fun s => legDrain id 64 (modLeg s pn cid id fun x => { x with window := x.window ++ [(n, t)] })) ∧
      (g.dead = false → (n - g.expect2).toNat < 64 → (g.window2.any fun x => x.1 == n) = false →
        Does (.converterToken id 1 n t u) s fun s => legIn id 64 (modLeg s pn cid id fun x => { x with window2 := x.window2 ++ [(n, t)] })) ∧
      (g.dead = false → g.claimed = true → g.unacked < 64 → g.held = [] → Does (.converterToken id 2 n t u) s fun s => legSend s pn cid g t) ∧
      (g.dead = false → g.claimed = false ∨ 64 ≤ g.unacked ∨ g.held ≠ [] → Does (.converterToken id 2 n t u) s fun s =>
        applyHold (modLeg s pn cid g.id fun x => { x with held := x.held ++ [t] }) pn cid g.src 16 4 g.id) ∧
      Does (.converterAck id 0) s (fun s => legIn id 64 (legFree id 64 (modLeg s pn cid id fun x => { x with unacked := x.unacked - 1 }))) ∧
      Does (.converterAck id 1) s (fun s => legDrain id 64 (modLeg s pn cid id fun x => { x with unacked2 := x.unacked2 - 1 }))) ∧
    ∀ pn a cid id on, Does (.inboundLegClaim pn a cid id on) s fun s => legFree id 64 (modLeg s pn cid id fun x => { x with claimed := on })

/-- The replies of graph nodes (R67, R299 to R302, R304): a load's result at its scheduled cycle, or a hold until it comes; the end of a store
or a presence access; a fault of a lane; a page fault's retry; a wait limit. The model's readings are log 88 and log 89. -/
def Sys2Proof.NodeEvents : Prop :=
  ∀ (s : State) (fid : Nat) (g : GAcc) (c : Consist) (a : Token), kget s.gaccs fid = some g → consistOf s g.part g.cid = some c →
    (actOf c g.f.act).isSome = true → g.f.a = some a →
    let done (s : State) : State := nodeDone s fid g
    let reap (s : State) : State := reapAct s g.part g.cid g.f.act
    let quiet : Prop := g.left = [] ∧ g.news = [] ∧ g.faulted = []
    (g.left ≠ [] → g.news = [] →
      (g.late = false → Does (.graphLoadReply fid) s fun s =>
        applyHold { s with gaccs := kput s.gaccs fid { g with late := true } } g.part g.cid g.f.st g.f.elem 0 fid) ∧
      (g.late = true → Does (.graphLoadReply fid) s id) ∧ Does (.graphStoreAck fid) s id ∧ Does (.graphPresenceReply fid) s id) ∧
    (∀ d, g.left = [] → g.news = [] → g.fault = some d →
      let fails (s : State) : State := reap (faultAct (done s) g.part g.cid g.f.act d.cause g.f.st g.f.elem g.f.slot g.f.iter d.addr)
      Does (.graphLoadReply fid) s fails ∧ Does (.graphStoreAck fid) s fails ∧ Does (.graphPresenceReply fid) s fails) ∧
    (g.news ≠ [] → (∀ d, g.fault = some d → pageCause d = true) →
      Does (.graphLoadReply fid) s (fun s => nodePage s fid g) ∧ Does (.graphStoreAck fid) s (fun s => nodePage s fid g) ∧
      Does (.graphPresenceReply fid) s fun s => nodePage s fid g) ∧
    (quiet → g.fault = none →
      (g.f.word.op ≠ .arg → Does (.graphLoadReply fid) s fun s =>
        let t := resultTok a a.valid (loadedLane g)
        reap (nodeSendTo (done s) g [(g.f.word.d0, t), (g.f.word.d1, t)])) ∧
      (g.f.word.op = .arg → Does (.graphLoadReply fid) s fun s =>
        let w (k : Nat) : Nat := ((kget g.res (k / 2)).getD 0).toNat / 2 ^ (32 * (k % 2)) % 2 ^ 32
        let t : Token := { dataTok (lanesFrom 0xFF w) 0xFF a.act 0 0 with fmt := 0, sc := false }
        reap (nodeSendTo (done s) g [(g.f.word.d0, t), (g.f.word.d1, a)])) ∧
      (let acked (s : State) : State := modAct (done s) g.part g.cid g.f.act fun x => { x with acks := x.acks - 1 }
       (g.f.word.op = .graphStore → Does (.graphStoreAck fid) s fun s =>
         reap (checkAct (nodeSendTo (acked s) g [(g.f.word.d0, resultTok a 0 fun _ => 0)]) g.part g.cid g.f.act)) ∧
       (g.f.word.op ≠ .graphStore → Does (.graphStoreAck fid) s fun s => reap (checkAct (acked s) g.part g.cid g.f.act))) ∧
      (g.kind = .put → Does (.graphPresenceReply fid) s fun s =>
        reap (nodeSendTo (done s) g [(g.f.word.d0, resultTok a 0 fun _ => 0)])) ∧
      (g.kind ≠ .put → Does (.graphPresenceReply fid) s fun s =>
        let t := resultTok a 3 fun j => ((kget g.res 0).getD 0).toNat / 2 ^ (32 * j) % 2 ^ 32
        reap (nodeSendTo (done s) g [(g.f.word.d0, t), (g.f.word.d1, t)]))) ∧
    (g.left = [] ∨ s.time < g.firedAt + 256 * g.f.word.imm.toNat → Does (.graphPresenceWaitLimit fid) s id) ∧
    (g.left ≠ [] → g.firedAt + 256 * g.f.word.imm.toNat ≤ s.time → (part s g.part).swapped = false →
      let of (r : Req) : Bool := match r.who with | .graph n _ => n == fid | _ => false
      Does (.graphPresenceWaitLimit fid) s fun s =>
        let s := { s with waits := s.waits.filter (fun r => !of r), reqs := s.reqs.filter (fun r => !of r.2),
                          rsv := s.rsv.map fun e => (e.1, { e.2 with queue := e.2.queue.filter fun r => !of r }) }
        reap (faultAct (done s) g.part g.cid g.f.act 0x0B g.f.st g.f.elem g.f.slot g.f.iter ((g.els.head?.map (·.va)).getD 0))) ∧
    (g.faulted = [] ∨ g.fault.isSome = true ∨ g.news ≠ [] → Does (.graphFaultRetry fid) s id) ∧
    (g.faulted ≠ [] → g.fault = none → g.news = [] → g.kind = .read ∨ g.kind = .write → Does (.graphFaultRetry fid) s fun s =>
      let s := unplan s fun e => e == .graphFaultRetry fid
      let h := { g with left := g.left ++ g.faulted.map (·.lane), faulted := [] }
      nodeSend { s with gaccs := kput s.gaccs fid h } fid h g.faulted) ∧
    (g.faulted ≠ [] → g.fault = none → g.news = [] → g.kind = .take ∨ g.kind = .put → Does (.graphFaultRetry fid) s fun s =>
      let s := unplan s fun e => e == .graphFaultRetry fid
      let h := { g with left := g.left ++ g.faulted.map (·.lane), faulted := [], firedAt := s.time }
      let s := nodeSend { s with gaccs := kput s.gaccs fid h } fid h g.faulted
      if g.f.word.imm = 0 then s else later s (256 * g.f.word.imm.toNat) (.graphPresenceWaitLimit fid))

/-- The rows that the units of a station, its consists and their graphs perform. -/
def Obligations.GraphAndUnitEvents : Prop :=
  ArrayEvents ∧ GeneratorEvents ∧ CopyEvents ∧ ConsistEvents ∧ TokenEvents ∧ NodeEvents

/-- Configuration operations, slices and launches of partitions (R355, R414, R443, R444, R448, R451, R452, R471, R498, R539): COMMIT starts a
partition whose record passes every check; STOP stops one; DESTROY forgets one; each answers in the command status. A slice's end stops its
partition, and the swap puts the next one in. A launch is decided, started, finished and, past its budget, ended. The model's readings are
log 16 and log 18 (launches), log 21, log 22 and log 23 (records), log 41 and log 49 (causes), log 42 (schedules), log 90 (decisions), log
91 and log 99 (swaps and the window), log 130 (dead agents). -/
def Sys2Proof.PartitionEvents : Prop :=
  ∀ (s : State) (pn : Nat),
    let p := part s pn
    let fails (e : Event) (o : Nat) : Prop := Does e s fun s => opResult s 0x14 o 14400
    (p.st = .running → fails (.commit pn) 0) ∧
    (p.st ≠ .running → (∀ o, firstBad s { st := .running, record := slotRecord s pn } pn = some o → fails (.commit pn) o) ∧
      (firstBad s { st := .running, record := slotRecord s pn } pn = none → ∃ u t, Happens (.commit pn) s u ∧
        u = opResult (commitRecord { s with hand := .event (.commit pn) } pn (slotRecord s pn)) 0 0 t ∧ 14400 ≤ t ∧
        (part u pn).st = .running ∧ (part u pn).record = slotRecord s pn)) ∧
    (p.st ≠ .running → fails (.stop pn) 0) ∧
    (p.st = .running → ∃ u, Happens (.stop pn) s u ∧ u = opResult (stopPart { s with hand := .event (.stop pn) } pn) 0 0 14464 ∧
      (part u pn).st = .stopped ∧ (part u pn).consists = [] ∧ (part u pn).calls = [] ∧ (part u pn).launches = []) ∧
    (p.st ≠ .stopped → fails (.destroy pn) 0) ∧
    (p.st = .stopped → ∃ u, Happens (.destroy pn) s u ∧ u = opResult { s with
      hand := .event (.destroy pn), parts := kdel s.parts pn, threads := s.threads.filter fun e => tidPart e.2.tid != pn } 0 0 14400) ∧
    (∃ u, Happens .configOpComplete s u ∧ u.cmdStatus.getLsbD 32 = false ∧
      ∀ i, i < 64 → i ≠ 32 → u.cmdStatus.getLsbD i = s.cmdStatus.getLsbD i) ∧
    (∀ g q, (groupMembers s g).find? (fun e => e.2.resident) = some (pn, q) → 2 ≤ (groupMembers s g).length →
      ((q.consists.any fun c => !c.freezing.isEmpty) = false ∨ q.sliceEnd + 2048 = s.time → Does (.sliceExpiry g) s fun s =>
        let t := s.threads.foldl (fun s e => match e.2.st with
          | .running _ => if tidPart e.2.tid = pn then makeReady s e.2 else s
          | _ => s) s
        later (shelveEvents (modPart t pn fun p => { p with swapped := true, sliceEnd := t.time }) pn) 14464 (.swapComplete g false)) ∧
      ((q.consists.any fun c => !c.freezing.isEmpty) = true → q.sliceEnd + 2048 ≠ s.time → Does (.sliceExpiry g) s fun s =>
        later (modPart s pn fun p => { p with sliceEnd := s.time }) 2048 (.sliceExpiry g))) ∧
    (∀ g q r, (groupMembers s g).find? (fun e => e.2.resident) = some (q, r) → nextMember (groupMembers s g) q = some pn →
      (pn ≠ q → Does (.swapComplete g false) s fun s => planSlice (moveIn (moveOut s q) pn) g) ∧
      (pn = q → Does (.swapComplete g false) s fun s => planSlice (moveIn s pn) g) ∧
      (pn ≠ q → Does (.swapComplete g true) s fun s =>
        let t := partLost s pn
        if (groupMembers t g).isEmpty then t else later t 14464 (.swapComplete g false))) ∧
    (∀ n, (p.st ≠ .running → Does (.launchStart pn n) s id) ∧
      (p.st = .running →
        (∀ l, p.launches.find? (fun l => l.state == 2) = some l → l.n = n →
          (p.launches.any fun x => x.n == n && x.state == 1) = false →
          let rest := p.launches.filter fun x => x.n != n
          (rejectReason s p l = none → Does (.launchStart pn n) s fun s =>
            startQueues (modPart s pn fun p => { p with launches := rest ++ [{ l with state := 0 }] }) pn) ∧
          ∀ r x, rejectReason s p l = some r → s.sessions.find? (fun x => x.id == l.session && x.up) = some x →
            ∃ u, Happens (.launchStart pn n) s (startQueues u pn) ∧
              u = sendFrame (modPart { s with hand := .event (.launchStart pn n) } pn fun p => { p with launches := rest }) x 9 pn
                (natLe 4 l.tag.toNat ++ natLe 1 l.queue ++ natLe 1 r)) ∧
        ∀ l, (p.launches.any fun l => l.state == 2) = false → p.launches.find? (fun l => l.n == n && l.state == 1) = some l →
          (∀ c, l.cause = some c → launchFinished s pn n = false → Does (.launchStart pn n) s fun s => startQueues (launchError s pn l c.toNat) pn) ∧
          (l.cause = none → launchFinished s pn n = false → Does (.launchStart pn n) s fun s => startQueues s pn) ∧
          (l.cause = none → launchFinished s pn n = true → Does (.launchStart pn n) s fun s =>
            startQueues (fuseCluster (modPart (unplan s fun e => e == .budgetExpiry pn n) pn fun p =>
              { p with launches := p.launches.filter (·.n != n) }) (clusterOf l.station)) pn))) ∧
    (∀ n, p.launches.find? (fun l => l.n == n && l.state == 1) = none → Does (.budgetExpiry pn n) s id) ∧
    (∀ n l, p.launches.find? (fun l => l.n == n && l.state == 1) = some l → Does (.budgetExpiry pn n) s fun s =>
      let t := dropSpawns s pn n
      let t := t.threads.foldl (fun s e => if tidPart e.2.tid = pn ∧ e.2.launch = some n then killThr s e.2.tid else s) t
      let t := ((part t pn).calls.filter fun w => w.launch == some n).foldl (fun s w => callFailed s pn w 0x18 0) t
      let t := (part t pn).consists.foldl (fun s c =>
        (c.acts.filter fun a => a.launch == some n && !a.ended).foldl (fun s a => faultAct s pn c.cid a.id 0x18 c.anchor 0 0 0 0) s) t
      later (launchError t pn l 0x18) 1 (.launchStart pn n)) ∧
    (∀ c n e, p.evict[n]? = some e →
      (e.cache < 256 → Does (.evictionScheduleEntry c pn n) s fun s =>
        later (scheduleSlice s e.cache (memKey s (256 * e.line)) e.sect e.evict) 4096 (.evictionScheduleEntry e.cache pn n)) ∧
      (256 ≤ e.cache → Does (.evictionScheduleEntry c pn n) s fun s =>
        later (scheduleL1 s (e.cache % 256) pn (memKey s (256 * e.line)) e.sect e.evict) 4096 (.evictionScheduleEntry e.cache pn n)))

/-- Lockstep pairs (R464 to R466): a forwarded input waits for its delivery cycle, or the pair diverges when it has passed; at that cycle the
input acts; a window's end forms its digest; equal digests release the window's output, others make the pair diverge; the aligned pair
starts. The model's readings are log 92, log 125 and log 128. -/
def Sys2Proof.LockstepEvents : Prop :=
  ∀ (s : State) (pn : Nat),
    let p := part s pn
    (inStep s pn = false → (∀ t f, Does (.lockstepInputForward pn t f) s id) ∧ Does (.digestWindowEnd pn) s id ∧
      ∀ n d, Does (.digestArrival pn n d) s id) ∧
    (inStep s pn = true →
      let apart (s : State) (n : Nat) : State := supReport (stopPart s pn) pn 0x19 5 0xFFFF 0 0 0 n
      (∀ t f, t < partCycle s pn → Does (.lockstepInputForward pn t f) s fun s => apart s (partCycle s pn / 1024)) ∧
      (∀ t f, partCycle s pn ≤ t → Does (.lockstepInputForward pn t f) s fun s =>
        later (modPart s pn fun p => { p with inputs := p.inputs ++ [(t, asMessage f)] }) (t - partCycle s pn) (.lockstepInputInject pn)) ∧
      (let w := partCycle s pn / 1024 - 1
       let closed (s : State) : State := modPart s pn fun p => 
         { p with digests := kput p.digests w (foldWindow p w), folds := p.folds.filter fun e => w < e.1 / 1024 }
       (w = 0 ∨ kget p.digests (w - 1) = none → kget p.partner w = none → Does (.digestWindowEnd pn) s fun s =>
         later (closed s) 1024 (.digestWindowEnd pn)) ∧
       (∀ a, lockPartner s pn = some a → w ≠ 0 → (kget p.digests (w - 1)).isSome = true → Does (.digestWindowEnd pn) s fun s =>
         diverge (suspectAll (closed s) a) pn (w - 1))) ∧
      (∀ n d, kget p.digests n = none → Does (.digestArrival pn n d) s fun s =>
        modPart s pn fun p => { p with partner := kput p.partner n d }) ∧
      ∀ n d a, kget p.digests n = some a →
        let seen (s : State) : State := modPart s pn fun p => { p with partner := kput p.partner n d }
        (a ≠ d → Does (.digestArrival pn n d) s fun s => apart (seen s) n) ∧
        (a = d → Does (.digestArrival pn n d) s fun s => (p.heldOut.filter (·.1 == n)).foldl (fun s h => queueFrame s h.2)
          (modPart (seen s) pn fun q =>
            { q with heldOut := q.heldOut.filter (·.1 != n), digests := kdel q.digests n, partner := kdel q.partner n }))) ∧
    (∀ i e, p.inputs = [i] → i.1 ≤ partCycle s pn → inputEvent i.2 = some e → Does (.lockstepInputInject pn) s fun s =>
      later (modPart s pn fun p => { p with inputs := [], ready := p.ready ++ [i.2] }) 0 e) ∧
    (∀ i, p.inputs = [i] → partCycle s pn < i.1 → Does (.lockstepInputInject pn) s fun s =>
      modPart s pn fun p => { p with inputs := [i], ready := p.ready ++ [] }) ∧
    (∀ t, p.st = .running → p.lockstep = true → p.lockBase = none →
      (s.time < t → Does (.lockstepAlignment pn t) s fun s => later s (t - s.time) (.lockstepAlignment pn t)) ∧
      (t ≤ s.time → Does (.lockstepAlignment pn t) s fun s =>
        let u := startSupervisor (modPart s pn fun p => { p with lockBase := some s.time }) pn
        later (((List.range 16).filter (leased u)).foldl (fun u h => noteTo u pn h 1) u) 1024 (.digestWindowEnd pn))) ∧
    ∀ t, p.st ≠ .running ∨ p.lockstep = false ∨ p.lockBase.isSome = true → Does (.lockstepAlignment pn t) s id

/-- Heartbeats, probes and self-tests (R500 to R504): an agent that shows life is awaited anew; one that does not is suspected and probed; one
that fails its probe is declared dead. A self-test is recorded in the error log, and a lasting fault retires what it met. The model's
readings are log 93 and log 136 (suspicions), log 94 (dead stations), log 120 (records), log 135 (lanes of the Ethernet link). -/
def Sys2Proof.AgentEvents : Prop :=
  ∀ (s : State),
    (∀ a, s.deadAgents.contains a = true → Does (.heartbeat a) s id) ∧
    (∀ a, s.deadAgents.contains a = false →
      let alive (s : State) : State :=
        { s with agenda := s.agenda.filter fun x => !(x.2 == .probeExpiry a || x.2 == .agentSuspect a)
                 suspects := s.suspects.filter fun x => x != a && !(decide (256 ≤ a ∧ a < 512) && x == dieAgent (dieOf (a - 256))) }
      (a < 64 → Does (.heartbeat a) s fun s => later (alive s) 360001 (.agentSuspect a)) ∧
      (256 ≤ a → a < 512 → Does (.heartbeat a) s fun s => later (later (alive s) 36001 (.agentSuspect a)) 36000 (.heartbeat a)) ∧
      Does (.probeAnswer a) s alive ∧
      (s.suspects.contains a = true → a < 512 → Does (.agentSuspect a) s id) ∧
      (s.suspects.contains a = false →
        (a < 64 → Does (.agentSuspect a) s fun s => later { s with suspects := s.suspects ++ [a] } 18400 (.probeExpiry a)) ∧
        (64 ≤ a → a < 256 → Does (.agentSuspect a) s fun s => { s with suspects := s.suspects ++ [a] }) ∧
        (256 ≤ a → a < 512 → Does (.agentSuspect a) s fun s => later { s with suspects := s.suspects ++ [a] } 1440 (.probeExpiry a)) ∧
        Does (.probeExpiry a) s id) ∧
      (s.suspects.contains a = true →
        (a < 64 → Does (.probeExpiry a) s fun s => peerDead s a) ∧
        (512 ≤ a → Does (.probeExpiry a) s fun s => dieDead s (a - 512)) ∧
        (256 ≤ a → a < 512 →
          let t := stationDead { s with hand := .event (.probeExpiry a) } (a - 256)
          let d := dieOf (a - 256)
          (((dieStations d).all fun st => (stn t st).dead) = false → Happens (.probeExpiry a) s t) ∧
          (((dieStations d).all fun st => (stn t st).dead) = true → t.deadAgents.contains (dieAgent d) = false →
            Happens (.probeExpiry a) s (dieDead t d)))) ∧
      ∀ r q, kget s.reqs r = some q → s.suspects.contains a = false →
        (a < 64 → q.recalls.contains a = true → Does (.transactionLate a r) s fun s =>
          later { s with suspects := s.suspects ++ [a] } 18400 (.probeExpiry a)) ∧
        (a < 256 → q.recalls.contains a = false → Does (.transactionLate a r) s id) ∧
        (256 ≤ a → a < 512 → q.bank + 256 = a → (stn s q.bank).dead = false → ∃ u d, Happens (.transactionLate a r) s u ∧
          u.suspects = s.suspects ++ [a] ∧ (s.time + 1440, Event.probeExpiry a) ∈ u.agenda ∧ d < 1440 ∧
          (s.time + d, Event.probeAnswer a) ∈ u.agenda)) ∧
    (∀ n pass x, s.selftests.find? (·.n == n) = some x →
      let e : Event := .selftestComplete n pass
      let recent := s.transients.countP fun t => t.1 == x.kind && t.2.1 == x.struct && t.2.2.1 == x.unit && t.2.2.2.1 == x.addr &&
        decide (x.time < t.2.2.2.2 + 2 ^ 30)
      let l := x :: s.selftests.filter fun y => y.joins == some n
      let logged (s : State) (last : Bool) : State := l.foldl (fun s y =>
        logRecord s y.kind.toNat (b2n last) y.severity.toNat y.struct.toNat y.unit y.part.toNat y.addr.toNat y.time)
        { s with selftests := s.selftests.filter fun y => y.n != n && y.joins != some n }
      (pass = true → recent + l.length < 3 → Does e s fun s =>
        let t := logged s false
        { t with transients := t.transients ++ l.map fun y => (y.kind, y.struct, y.unit, y.addr, y.time) }) ∧
      (pass = false ∨ 3 ≤ recent + l.length →
        (x.kind = 2 → let k := stackOf x.addr.toNat
          Does e s fun s => let t := logged s true
            { t with retired := vset t.retired k (vget t.retired k ++ [x.addr.toNat / 4096]) }) ∧
        (x.kind = 3 → x.struct = 12 → Does e s fun s => let t := logged s true
          { t with lanes := vset t.lanes x.unit (if vget t.lanes x.unit = 8 then 4 else 2) }) ∧
        (x.kind = 3 → x.struct = 11 → Does e s fun s => let t := logged s true
          { t with narrow := x.unit :: t.narrow.filter (· != x.unit) }) ∧
        (x.kind = 3 → x.struct = 13 → Does e s fun s => let t := logged s true
          { t with etherLanes := if t.etherLanes = 8 then 4 else 2 }) ∧
        (x.kind ≠ 2 → x.kind ≠ 3 → 10 ≤ x.struct.toNat → Does e s fun s => logged s true) ∧
        (x.kind ≠ 2 → x.kind ≠ 3 → x.struct.toNat < 10 → (s.parts.any fun e => e.2.st == .running && e.2.stations.contains x.unit) = false →
          Does e s fun s => stationDead (logged s true) x.unit))) ∧
    ∀ n pass, s.selftests.find? (·.n == n) = none → Does (.selftestComplete n pass) s id

/-- Pins, firmware, self-tests, the link and power (R473, R534 to R541): the power pin follows the board; RESET_N high lets the port die read
its firmware; an image that verifies releases the dies at cycle 0, one that does not makes the other slot be read and then FWFAIL; stations
and stacks end their tests; the link comes and goes; RESET_N low and THERMTRIP stop everything. The model's readings are log 95 (the ends of
the tests, PWRGOOD), log 96 (power) and log 97 (halts and resets). -/
def Sys2Proof.BoardEvents : Prop :=
  ∀ (s : State),
    (Does .pwrgood s fun s => { s with pins := { s.pins with pwrgood := true } }) ∧
    (Does .pwrgoodDeassert s fun s => { s with pins := { s.pins with pwrgood := false } }) ∧
    (Does .resetRelease s fun s => { s with pins := { s.pins with resetN := true } }) ∧
    (∃ u, Happens .resetAssert s u ∧ u.live = false ∧ u.boot = .fwload ∧ u.bootSlot = 0 ∧ u.parts = [] ∧ u.sessions = [] ∧ u.threads = [] ∧
      u.stations = [] ∧ u.elems = [] ∧ u.linkUp = false ∧ u.pins = { pwrgood := s.pins.pwrgood } ∧ u.domain = State.reset.domain ∧
      (∀ a, a < 2 ^ 45 ∨ 2 ^ 46 ≤ a ∧ a < 2 ^ 64 → mget (settle s u).mem a = 0) ∧
      (∀ a, 2 ^ 45 ≤ a → a < 2 ^ 46 → mget (settle s u).mem a = mget s.mem a) ∧
      (∀ x ∈ s.agenda, outsideInput x.2 = true → (x.1 - s.time, x.2) ∈ u.agenda) ∧ ∀ x ∈ u.agenda, outsideInput x.2 = true) ∧
    (∀ f, s.pins.pwrgood = true → s.pins.resetN = true → s.boot = .fwload → s.live = false → s.halted = false →
      (imageGood f = true → ∃ u, Happens (.firmwareVerified f) s u ∧ u.live = true ∧ u.boot = .selftest ∧ u.time = 0 ∧
        u.mf = BitVec.ofNat 512 (leNat (Config.shake256 (f.take (256 + field f 8 4)) 64)) ∧ (36000, Event.dutyStep) ∈ u.agenda ∧
        ∀ st, st < 256 → (36000, Event.heartbeat (256 + st)) ∈ u.agenda) ∧
      (imageGood f = false → (s.bootSlot = 0 → Does (.firmwareVerified f) s fun s => { s with bootSlot := 1 }) ∧
        (s.bootSlot ≠ 0 → Does (.firmwareVerified f) s fun s => { s with boot := .fwfail, pins := { s.pins with faultN := false } }))) ∧
    (∀ st pass, s.boot = .selftest → st < 256 → s.tested.contains st = false → Does (.stationSelftestDone st pass) s fun s =>
      testsDone (if pass then { s with tested := s.tested ++ [st] } else
        modStn { s with tested := s.tested ++ [st] } st fun x => { x with outOfService := true })) ∧
    (∀ n bad, s.boot = .selftest → n < 8 → s.trained.contains n = false →
      (Does (.lmTrainingDone n true bad) s fun s =>
        testsDone { s with trained := s.trained ++ [n], retired := vset s.retired n (vget s.retired n ++ bad) }) ∧
      Does (.lmTrainingDone n false bad) s fun s => haltDies { s with boot := .lmfail, pins := { s.pins with faultN := false } }) ∧
    (s.live = true → s.boot = .link ∨ s.boot = .ready → Does .linkTrained s fun s => { s with linkUp := true, boot := .ready }) ∧
    (Does .linkLoss s fun s => { s with linkUp := false }) ∧
    (∀ mw, Does (.powerSample mw) s fun s =>
      later { s with power := (mw :: s.power).take 100, agenda := s.agenda.filter fun e => match e.2 with | .powerSample _ => false | _ => true }
        3600 (.powerSample (Config.modulePower (s.time + 3600)))) ∧
    (∃ u, Happens .dutyStep s u ∧ (s.time + 36000, Event.dutyStep) ∈ u.agenda ∧ ∀ pn p, kget s.parts pn = some p →
      let d := ((kget u.parts pn).getD {}).duty
      (p.st ≠ .running → d = p.duty) ∧ (p.st = .running → p.timed = false →
        (powerAbove s 2600000 = true → d = max 1 (p.duty - 1)) ∧
        (powerAbove s 2600000 = false → powerBelow s 2500000 = true → d = min 16 (p.duty + 1)) ∧
        (powerAbove s 2600000 = false → powerBelow s 2500000 = false → d = p.duty)) ∧
      (p.st = .running → p.timed = true → overPower s pn p = false → d = 16)) ∧
    ∃ u, Happens .thermalTrip s u ∧ u.halted = true ∧ u.live = false ∧ u.pins.thermtripN = false ∧ (∀ pn, (part u pn).st ≠ .running) ∧
      ∀ x ∈ u.agenda, boardInput x.2 = true

/-- The rows that partitions, their pairs, the agents and the device's board perform. -/
def Obligations.PartitionAndDeviceEvents : Prop := PartitionEvents ∧ LockstepEvents ∧ AgentEvents ∧ BoardEvents

/-- What a message does once it acts (R51, R350, R351, R419, R443, R451, R469 to R471, R474, R542), and what its session then tries: f waits in
session x, it may act, and it is no input of a lockstep pair. The model's readings are log 32 and log 34 (layouts), log 35, log 36 and log
37 (host accesses and their order), log 38 and log 99 (the window), log 90 (launches). -/
def Sys2Proof.MessageEvents : Prop :=
  ∀ (s : State) (f : Frame) (x : Session) (e : Event), (s.sessions.find? fun x => x.up && x.waitq.any fun y => y.2 == f) = some x →
    frameEvent f = some e → mayAct s x f = true → lockstepInput s f = false →
    let t : State := { s with hand := .event e, sessions := s.sessions.map fun y => if y.id = x.id then { y with waitq := y.waitq.filter (·.2 != f) } else y }
    let pn := field f 26 1
    let va := field f 32 8
    let acts (u : State) : Prop := Happens e s (wakeSession u x.id)
    let fails (c : Nat) : Prop := acts (errorTo t x pn c)
    let data := f.drop 40
    let reg := (windowOffset va).getD 0
    let run := (part s pn).st = .running
    (e = .write f → (inWindow t pn x.agent 1 va data.length = false → fails 0x04) ∧ (inWindow t pn x.agent 1 va data.length = true →
      acts (hostAccess t x pn 1 va ((sectorPieces va data.length).map (writePiece va data))))) ∧
    (e = .read f → let n := field f 40 4
      (∀ o, windowOffset va = some o → x.admin = true →
        acts (sendFrame t x 3 pn (natLe 8 va ++ (List.range n).map fun i => windowByte t (o + i)))) ∧
      (∀ o, windowOffset va = some o → x.admin = false → fails 0x02) ∧
      (windowOffset va = none → inWindow t pn x.agent 0 va n = false → fails 0x04) ∧
      (windowOffset va = none → inWindow t pn x.agent 0 va n = true →
        acts (hostAccess t x pn 2 va ((sectorPieces va n).map fun q => hostReq .read q.1 q.2)))) ∧
    (e = .readresp f → let base := 2 ^ 45 + x.agent * 2 ^ 40
      (va < base ∨ base + 2 ^ 40 < va + data.length → acts t) ∧
      (base ≤ va → va + data.length ≤ base + 2 ^ 40 → (∀ q ∈ s.reqs, q.2.recalls ≠ [64 + x.agent]) → acts (wrL t va data))) ∧
    (e = .launchFrame f → let b := f.drop 32
      let tag := BitVec.ofNat 32 (field b 4 4)
      let timed := bit (field b 1 1) 0
      let bad := decide (2 ≤ field b 1 1) || decide (64 ≤ field b 0 1) || (!timed && field b 2 2 != 0) ||
        packetIllegal (part s pn) (b.drop 16)
      let error (c : Nat) : Prop := x.up = true → acts (sendFrame t x 10 pn (errorPayload tag c pn 0))
      ((part s pn).st = .absent → error 0x02) ∧
      ((part s pn).st = .stopped → x.up = true → acts (sendFrame t x 9 pn (natLe 4 tag.toNat ++ natLe 1 (field b 0 1) ++ natLe 1 1))) ∧
      (run → agentRight (part s pn) x.agent 3 = false → error 0x04) ∧
      (run → agentRight (part s pn) x.agent 3 = true → bad = true → error 0x14) ∧
      (run → agentRight (part s pn) x.agent 3 = true → bad = false → ∀ came, (x.waitq.find? fun y => y.2 == f) = some (came, f) →
        ∃ l : Launch, l.n = s.fresh ∧ l.queue = field b 0 1 ∧ l.timed = timed ∧ l.cert = field b 2 2 ∧ l.deadline = field b 8 8 ∧
          l.arrived = came ∧ l.tag = tag ∧ l.agent = x.agent ∧ l.session = x.id ∧ l.state = 2 ∧
          acts (within (modPart { t with fresh := s.fresh + 1 } pn fun p => { p with launches := p.launches ++ [l] })
            (max 1 (3600 - (s.time - came))) (.launchStart pn s.fresh)))) ∧
    (e = .msg f → let m : Word := BitVec.ofNat 32 (field f 32 4)
      let n := field f 36 1
      let legal := 8 ≤ n ∧ n ≤ 32 ∧ field f 37 3 = 0 ∧ 40 + n ≤ f.length
      (¬ run ∨ agentRight (part s pn) x.agent 3 = false → fails 0x04) ∧
      (run → agentRight (part s pn) x.agent 3 = true → (¬ legal → fails 0x14) ∧ (legal → tidPart m ≠ pn → fails 2) ∧
        (legal → tidPart m = pn → ∃ w : Word, ∀ r, deliverMsg (draw t (2 ^ 32)).2 m { sender := w, data := data.take n } = r →
          (r.2 = .ok 0 → acts r.1) ∧ (∀ v, r.2 = .ok v → v ≠ 0 → acts (errorTo r.1 x pn v)) ∧
          ∀ c, r.2 = .error c → acts (errorTo r.1 x pn c.cause.toNat)))) ∧
    (e = .acq f → let lo := va / 64 * 64
      let want := field f 41 1
      let ks := (List.range 8).filter (bit (field f 40 1))
      let mine := ks.all fun k => inWindow t pn x.agent 2 (lo + 64 * k) 64
      (want < 1 ∨ 3 < want → fails 0x14) ∧ (1 ≤ want → want ≤ 3 → (mine = false → fails 0x04) ∧
        (mine = true → acts (hostAccess t x pn 6 lo (ks.map fun k => hostReq (.acq want) (lo + 64 * k) 64))))) ∧
    (e = .release f → let lo := va / 64 * 64
      let ks := (List.range 8).filter (bit (field f 40 1))
      let mine := ks.all fun k => inWindow t pn x.agent 2 (lo + 64 * k) 64
      (mine = false → fails 0x04) ∧ (mine = true → ∀ k, ks = [k] →
        (∀ u key, translate t ((part s pn).stations.headD 0) pn (lo + 64 * k) false false false = (u, .ok key) →
          acts (releaseSector u (64 + x.agent) (key / 64) (field f 41 1 == 1))) ∧
        ∀ u g, translate t ((part s pn).stations.headD 0) pn (lo + 64 * k) false false false = (u, .error g) →
          acts (errorTo u x pn g.cause.toNat))) ∧
    (e = .attest f → acts (sendFrame t x 11 0 (attestReport t ((f.drop 32).take 32) (field f 64 2)))) ∧
    (e = .leaseRenew f → acts t) ∧
    (e = .leaseClose f → (∀ y, (t.sessions.find? fun y => y.id == x.id) = some y →
      let u := drainWake { t with sessions := t.sessions.filter fun y => y.id != x.id }
      (leased u y.agent = true → acts u) ∧ (leased u y.agent = false → acts (hostDead u y.agent)))) ∧
    (e = .registerWrite f → (x.admin = false → fails 0x02) ∧ (x.admin = true →
      let v : State := { t with cfg := data.zipIdx.foldl (fun c b => cfgPut (t.cmdStatus.getLsbD 32) c (reg + b.2) b.1) t.cfg }
      let u : State := match Config.portConfig reg data with | some c => { v with ethType := c.1, udpPort := c.2 } | none => v
      (0x2000 < reg ∨ reg + data.length < 0x2008 → acts u) ∧
      (reg ≤ 0x2000 → 0x2008 ≤ reg + data.length → acts (command u (field data (0x2000 - reg) 8))))) ∧
    (e = .domainTableWrite f → (x.admin = false → fails 0x02) ∧
      (x.admin = true → (s.parts.any fun p => p.2.st == .running) = true → fails 0x14) ∧
      (x.admin = true → (s.parts.any fun p => p.2.st == .running) = false →
        let o := reg - 0x4000
        ∃ v : Vector DWord 64, acts { t with domain := v } ∧ ∀ i, i < 64 → vget v i =
          BitVec.ofNat 64 (if o ≤ 8 * i ∧ 8 * i < o + data.length then field data (8 * i - o) 1 else (vget s.domain i).toNat)))

/-- Frames that reach the Ethernet port (R467 to R469, R538), and the ends of waits and leases. A frame acts only while the port is up; one that
is not alone an acknowledgement also needs an open admin session. It must be whole, of an open session, and under its tag. The model's
readings are log 33 (LEASE frames), log 37 (order), log 104 (which frames are YXT), log 128 (lease events of a pair). -/
def Sys2Proof.PortEvents : Prop :=
  ∀ (s : State),
    (∀ (f : Frame) (e : Event), (s.sessions.find? fun x => x.up && x.waitq.any fun y => y.2 == f) = none →
      (part s (field f 26 1)).ready.contains f = false →
      e ∈ [Event.write f, .read f, .readresp f, .launchFrame f, .msg f, .acq f, .release f, .attest f, .leaseRenew f, .leaseClose f,
        .registerWrite f, .domainTableWrite f] →
      (field f 1 1 = 0 → Does e s id) ∧
      (portUp s = false ∨ adminOpen s = false ∨ frameSession s f = none → Does e s id)) ∧
    (∀ (f : Frame) (x : Session), let pn := field f 26 1
      (s.sessions.find? fun x => x.up && x.waitq.any fun y => y.2 == f) = none → (part s pn).ready.contains f = true → field f 1 1 = 1 →
      (s.sessions.find? fun x => x.up && x.id.toNat == field f 4 4) = some x →
      (readyMay s pn f = false → Does (.write f) s id) ∧
      (readyMay s pn f = true → inWindow s pn x.agent 1 (field f 32 8) (f.drop 40).length = true → Does (.write f) s fun s =>
        wakeSession (hostAccess (modPart s pn fun p => { p with ready := p.ready.erase f }) x pn 1 (field f 32 8)
          ((sectorPieces (field f 32 8) (f.drop 40).length).map (writePiece (field f 32 8) (f.drop 40)))) x.id)) ∧
    (∀ ty udp f, let ours := ty = s.ethType ∨ ((ty = 0x0800 ∨ ty = 0x86DD) ∧ udp ≠ none ∧ udp = s.udpPort)
      (¬ ours → Does (.etherFrame ty udp f) s id) ∧
      (ours → field f 1 1 = 12 → field f 32 1 = 1 → Does (.etherFrame ty udp f) s fun s => later s 0 (.leaseOpen f)) ∧
      (ours → field f 1 1 ≠ 12 → portUp s = false ∨ frameSession s f = none → Does (.etherFrame ty udp f) s id)) ∧
    (∀ (f : Frame) (x : Session), field f 1 1 = 0 → portUp s = true → frameSession s f = some x →
      Does (.acknowledgement f) s fun s =>
        drainWake (ackFrames (agentHeard s x.agent) x (BitVec.ofNat 32 (field f 12 4)) (field f 16 8))) ∧
    (∀ f, field f 1 1 ≠ 0 ∨ portUp s = false ∨ frameSession s f = none → Does (.acknowledgement f) s id) ∧
    (∀ f h key, field f 1 1 = 12 → field f 32 1 = 1 → portUp s = true → headerLegal f = true → h = field f 3 1 →
      let b := f.drop 32
      let admin := field b 1 1 == 1
      let nonce := (b.drop 8).take 32
      let own := Config.nonce s.nextSession
      key = Config.shake256 (Config.x448Shared s.nextSession ((b.drop 40).take 56) ++ nonce ++ own) 64 →
      (signer (b.take 96) ((b.drop 96).take 114) = none → Does (.leaseOpen f) s id) ∧
      ∀ k, signer (b.take 96) ((b.drop 96).take 114) = some k →
        (1 < field b 1 1 ∨ (admin = true ∧ k ≠ 0) → Does (.leaseOpen f) s id) ∧
        (field b 1 1 = 0 ∨ (field b 1 1 = 1 ∧ k = 0) →
          let x : Session := { id := BitVec.ofNat 32 s.nextSession, agent := h, admin := admin, recallMax := field b 4 4, key := key, lastRx := s.time }
          let a := natLe 8 1 ++ own ++ Config.x448Public s.nextSession
          Does (.leaseOpen f) s fun s => noteLease (queueFrame (agentHeard
            { s with sessions := s.sessions ++ [x], nextSession := s.nextSession + 1,
                     deadAgents := s.deadAgents.filter (· != 64 + h) } h) (protoFrame x 12 1 0 (a ++ Config.ed448Sign a))) h 1)) ∧
    (∀ h, (∀ x ∈ s.sessions, x.agent = h → s.time < x.lastRx + 1440000) → Does (.leaseLapse h) s id) ∧
    (∀ h x, (s.sessions.filter fun x => x.agent == h && decide (x.lastRx + 1440000 ≤ s.time)) = [x] →
      (s.sessions.find? fun y => y.id == x.id) = some x →
      let u := drainWake { s with hand := .event (.leaseLapse h), sessions := s.sessions.filter fun y => y.id != x.id }
      (leased u h = true → Happens (.leaseLapse h) s u) ∧ (leased u h = false → Happens (.leaseLapse h) s (hostDead u h))) ∧
    (∀ i n x u, (s.sessions.find? fun x => x.id.toNat == i && x.up) = some x → ((x.unacked.take 64).find? fun u => u.1.toNat == n) = some u →
      Does (.frameResend i n) s fun s => later (transmit s x u.1 u.2.2) 72000 (.frameResend i n)) ∧
    ∀ i n, ((s.sessions.find? fun x => x.id.toNat == i && x.up).bind fun x => (x.unacked.take 64).find? fun u => u.1.toNat == n) = none →
      Does (.frameResend i n) s id

/-- The rows of the frames that hosts send. -/
def Obligations.HostFrames : Prop := MessageEvents ∧ PortEvents

/-! ### Markers and frames -/

/-- The wait marker (R35): while a long operation of its thread is outstanding, an instruction whose word has W = 1, and each of
MIGR, CALLT, SPAWN, EXIT, YIELD and BAR whatever its W, does not issue: the thread parks at it with its operations, and its slot
is free. Sectors that hold its stores go out (R327). -/
def Obligations.MarkersWait : Prop :=
  ∀ (s : State) (th : Thread), focus s = some th → outstanding th = true →
    let waits (i : Instr) : Prop := exec i s = .next (settle s (drainFor (parkThr s th .marker) th))
    (∀ (i : Instr) (x : BitVec 32), encodePorlek i = some x → x.getLsbD 31 = true → waits i) ∧
    (∀ (w : Bool) (d a b : BitVec 5) (t : Bool) (g : BitVec 3) (m : BitVec 6), waits (.migr w a g) ∧ waits (.callt w a) ∧
      waits (.spawn w d a b t g) ∧ waits (.exit w a) ∧ waits (.yield w) ∧ waits (.bar w d a m)) ∧
    ∃ u, getThr (parkThr s th .marker) th.tid = some u ∧ u.st = .parked .marker ∧ u.pc = th.pc ∧ u.g = th.g ∧ u.ops = th.ops ∧
      ∀ n, n < 16 → vget (stn (parkThr s th .marker) th.station).slots n ≠ some th.tid

/-- What the register instructions leave alone: every general register but the destination (all, when that is g0), every special, exception and
mask register but those named, every other thread, every unit, and every byte of memory. Integer instructions and branches change their
destination and the pc alone; scalar floating point also cr.fpcsr and the generators (R131, R134); mask functions k1 to k3 (R75); a
division, until its result arrives, the list of outstanding operations (R34). That a generator may step for every operand is log 52. -/
def Obligations.InstructionFrames : Prop :=
  ∀ (s : State) (w : Bool) (th : Thread) (d a b c : BitVec 5) (i : BitVec 15) (o : BitVec 20) (h : BitVec 6) (p y : BitVec 2)
    (r x : BitVec 3) (k l m : BitVec 2), Ready s w th →
    let frame (j : Instr) (d : BitVec 5) (f : Thread → Thread) : Prop :=
      ∃ t u, exec j s = .next t ∧ getThr t th.tid = some u ∧ u = f u ∧ (∀ q, q ≠ d → rg u q = rg th q) ∧ (d = 0 → u.g = th.g) ∧
        OthersSame s t th
    (∀ j ∈ [Instr.add w d a b, .sub w d a b, .mul w d a b, .mulh w d a b, .mulhu w d a b, .and w d a b, .or w d a b, .xor w d a b,
        .andn w d a b, .orn w d a b, .sll w d a b, .srl w d a b, .sra w d a b, .rol w d a b, .ror w d a b, .min w d a b, .max w d a b,
        .minu w d a b, .maxu w d a b, .slt w d a b, .sltu w d a b, .clz w d a, .ctz w d a, .popc w d a, .brev w d a, .sextB w d a,
        .sextH w d a, .sextW w d a, .addi w d a i, .andi w d a i, .ori w d a i, .xori w d a i, .slti w d a i, .sltiu w d a i,
        .slli w d a h, .srli w d a h, .srai w d a h, .rori w d a h, .lui w d o, .addpc w d o, .jal w d o, .kmovGk w d k,
        .kmovGpw w d, .kpopc w d k], frame j d fun u => { th with g := u.g, pc := u.pc }) ∧
    (∀ j ∈ [Instr.beq w a b i, .bne w a b i, .blt w a b i, .bge w a b i, .bltu w a b i, .bgeu w a b i],
      frame j 0 fun u => { th with pc := u.pc }) ∧
    (∀ j ∈ [Instr.fadd w d a b p r, .fsub w d a b p r, .fmul w d a b p r, .ffma w d a b c p, .ffms w d a b c p, .fnma w d a b c p,
        .fnms w d a b c p, .fmin w d a b p, .fmax w d a b p, .feq w d a b p, .flt w d a b p, .fle w d a b p, .fclass w d a p,
        .fcvtI w d a y p r, .fcvtF w d a x p r, .fmvb w d a p],
      frame j d fun u => { th with g := u.g, pc := u.pc, fpcsr := u.fpcsr, gens := u.gens }) ∧
    (∀ j ∈ [Instr.kand w k l m, .kor w k l m, .kxor w k l m, .knot w k l, .kmovKk w k l, .kmovKg w k a, .kmovPwg w a],
      frame j 0 fun u => { th with pc := u.pc, k1 := u.k1, k2 := u.k2, k3 := u.k3 }) ∧
    (∀ j ∈ [Instr.div w d a b, .divu w d a b, .rem w d a b, .remu w d a b],
      frame j 0 fun u => { th with pc := u.pc, ops := u.ops, nextOp := u.nextOp })
end

