-- ==== Sys2Proof/Laws/Map.lean ====
section
/-! SUPPORT. Laws of keyed collections: what is read after a write, and the canonical form of memory. -/

namespace Sys2Proof.Machine

/-! ### Reading after a write -/

theorem kget_kput {α : Type} (m : KMap α) (i j : Nat) (a : α) :
    kget (kput m i a) j = if i = j then some a else kget m j := by
  induction m with
  | nil => simp [kput, kget]
  | cons e m ih =>
    obtain ⟨k, b⟩ := e
    simp only [kput]
    split
    · simp [kget]
    · split <;> simp only [kget]
      · split <;> simp_all
      · rw [ih]; split <;> split <;> simp_all

@[simp] theorem kget_kput_same {α : Type} (m : KMap α) (i : Nat) (a : α) : kget (kput m i a) i = some a := by
  simp [kget_kput]

theorem kget_kput_other {α : Type} (m : KMap α) {i j : Nat} (a : α) (h : i ≠ j) :
    kget (kput m i a) j = kget m j := by
  simp [kget_kput, h]

theorem kget_kdel {α : Type} (m : KMap α) (i j : Nat) :
    kget (kdel m i) j = if i = j then none else kget m j := by
  induction m with
  | nil => simp [kdel, kget]
  | cons e m ih =>
    obtain ⟨k, b⟩ := e
    simp only [kdel]
    split
    · rw [ih]; simp only [kget]; by_cases h : i = j <;> simp_all
    · simp only [kget]; rw [ih]; by_cases h : k = j <;> by_cases h' : i = j <;> simp_all

theorem mget_mput (m : KMap Byte) (i j : Nat) (b : Byte) :
    mget (mput m i b) j = if i = j then b else mget m j := by
  unfold mget mput
  split
  · next h => rw [kget_kdel]; split <;> simp_all
  · rw [kget_kput]; split <;> simp_all

theorem kget_filter {α : Type} (m : KMap α) (p : Nat → Bool) (j : Nat) :
    kget (m.filter fun e => p e.1) j = if p j then kget m j else none := by
  induction m with
  | nil => simp [kget]
  | cons e m ih =>
    obtain ⟨k, b⟩ := e
    simp only [List.filter_cons]
    by_cases h : k = j <;> by_cases h' : p k = true <;> simp_all [kget]

theorem mget_mclear (m : KMap Byte) (lo n j : Nat) :
    mget (mclear m lo n) j = if lo ≤ j ∧ j < lo + n then 0 else mget m j := by
  unfold mget mclear
  rw [kget_filter m (fun k => !(decide (lo ≤ k) && decide (k < lo + n)))]
  by_cases h : lo ≤ j ∧ j < lo + n
  · simp [h]
  · have : (!(decide (lo ≤ j) && decide (j < lo + n))) = true := by simp; omega
    rw [if_pos this, if_neg h]

/-! ### Rising keys -/

theorem ksorted_iff {α : Type} (m : KMap α) : ksorted m = true ↔ List.Pairwise (fun a b => a < b) (m.map Prod.fst) := by
  induction m with
  | nil => simp [ksorted]
  | cons e m ih =>
    obtain ⟨i, a⟩ := e
    cases m with
    | nil => simp [ksorted]
    | cons f m =>
      obtain ⟨j, b⟩ := f
      simp only [ksorted, Bool.and_eq_true, decide_eq_true_eq, ih, List.map_cons, List.pairwise_cons, List.mem_cons, forall_eq_or_imp]
      constructor
      · rintro ⟨h, h1, h2⟩
        exact ⟨⟨h, fun x hx => lt_trans h (h1 x hx)⟩, h1, h2⟩
      · rintro ⟨⟨h, -⟩, h1, h2⟩
        exact ⟨h, h1, h2⟩

theorem mem_kput {α : Type} {m : KMap α} {i : Nat} {a : α} {e : Nat × α} (h : e ∈ kput m i a) : e = (i, a) ∨ e ∈ m := by
  induction m with
  | nil => simpa [kput] using h
  | cons f m ih =>
    obtain ⟨k, b⟩ := f
    simp only [kput] at h
    split at h
    · simpa using h
    · split at h
      · rcases List.mem_cons.1 h with h | h <;> simp_all
      · rcases List.mem_cons.1 h with h | h
        · simp [h]
        · rcases ih h with h | h <;> simp [h]

theorem mem_kdel {α : Type} {m : KMap α} {i : Nat} {e : Nat × α} (h : e ∈ kdel m i) : e ∈ m := by
  induction m with
  | nil => simp [kdel] at h
  | cons f m ih =>
    obtain ⟨k, b⟩ := f
    simp only [kdel] at h
    split at h
    · exact List.mem_cons_of_mem _ (ih h)
    · rcases List.mem_cons.1 h with h | h
      · simp [h]
      · exact List.mem_cons_of_mem _ (ih h)

theorem ksorted_kput {α : Type} {m : KMap α} (i : Nat) (a : α) (h : ksorted m = true) : ksorted (kput m i a) = true := by
  rw [ksorted_iff] at *
  induction m with
  | nil => simp [kput]
  | cons f m ih =>
    obtain ⟨k, b⟩ := f
    simp only [List.map_cons, List.pairwise_cons] at h
    simp only [kput]
    split
    · next hik =>
      simp only [List.map_cons, List.pairwise_cons, List.mem_cons, forall_eq_or_imp]
      exact ⟨⟨hik, fun x hx => lt_trans hik (h.1 x hx)⟩, h.1, h.2⟩
    · split
      · next hik => subst hik; simpa using h
      · simp only [List.map_cons, List.pairwise_cons]
        refine ⟨?_, ih h.2⟩
        intro x hx
        obtain ⟨e, he, rfl⟩ := List.mem_map.1 hx
        rcases mem_kput he with rfl | he
        · simp only; omega
        · exact h.1 _ (List.mem_map_of_mem he)

theorem kdel_sublist {α : Type} (m : KMap α) (i : Nat) : List.Sublist (kdel m i) m := by
  induction m with
  | nil => simp [kdel]
  | cons f m ih =>
    obtain ⟨k, b⟩ := f
    simp only [kdel]
    split
    · exact ih.cons _
    · exact ih.cons_cons _

theorem ksorted_sublist {α : Type} {m n : KMap α} (h : List.Sublist n m) (hm : ksorted m = true) : ksorted n = true := by
  rw [ksorted_iff] at *
  exact hm.sublist (h.map _)

/-! ### The canonical form of memory is kept -/

theorem mwf_iff (m : KMap Byte) : mwf m = true ↔ ksorted m = true ∧ ∀ e ∈ m, e.2 ≠ 0 := by
  simp [mwf]

theorem mwf_mput {m : KMap Byte} (i : Nat) (b : Byte) (h : mwf m = true) : mwf (mput m i b) = true := by
  rw [mwf_iff] at *
  unfold mput
  split
  · exact ⟨ksorted_sublist (kdel_sublist m i) h.1, fun e he => h.2 e (mem_kdel he)⟩
  · next hb =>
    refine ⟨ksorted_kput i b h.1, fun e he => ?_⟩
    rcases mem_kput he with rfl | he
    · exact hb
    · exact h.2 e he

theorem mwf_mclear {m : KMap Byte} (lo n : Nat) (h : mwf m = true) : mwf (mclear m lo n) = true := by
  rw [mwf_iff] at *
  exact ⟨ksorted_sublist List.filter_sublist h.1, fun e he => h.2 e (List.mem_of_mem_filter he)⟩

/-- Equal contents in the canonical form are equal data. -/
theorem mwf_ext {m n : KMap Byte} (hm : mwf m = true) (hn : mwf n = true) (h : ∀ a, mget m a = mget n a) : m = n := by
  rw [mwf_iff] at *
  obtain ⟨sm, zm⟩ := hm
  obtain ⟨sn, zn⟩ := hn
  rw [ksorted_iff] at sm sn
  have key : ∀ (l : KMap Byte), List.Pairwise (fun a b => a < b) (l.map Prod.fst) → (∀ e ∈ l, e.2 ≠ 0) →
      ∀ a b, (a, b) ∈ l ↔ (b ≠ 0 ∧ mget l a = b) := by
    intro l
    induction l with
    | nil => intro _ _ a b; simp only [List.not_mem_nil, mget, kget, Option.getD_none, false_iff]; tauto
    | cons e l ih =>
      obtain ⟨k, c⟩ := e
      intro hs hz a b
      simp only [List.map_cons, List.pairwise_cons] at hs
      have hc : c ≠ 0 := hz (k, c) (by simp)
      have ih' := ih hs.2 (fun e he => hz e (List.mem_cons_of_mem _ he)) a b
      simp only [List.mem_cons, Prod.mk.injEq, mget, kget]
      by_cases hk : k = a
      · subst hk
        simp only [if_true, Option.getD_some, true_and]
        constructor
        · rintro (rfl | hin)
          · exact ⟨hc, rfl⟩
          · exact absurd (hs.1 k (List.mem_map_of_mem (f := Prod.fst) hin)) (lt_irrefl k)
        · rintro ⟨-, rfl⟩; exact Or.inl rfl
      · simp only [if_neg hk]
        rw [show ((kget l a).getD 0) = mget l a from rfl, ← ih']
        constructor
        · rintro (⟨rfl, -⟩ | hin)
          · exact absurd rfl hk
          · exact hin
        · exact Or.inr
  have hmem : ∀ e : Nat × Byte, e ∈ m ↔ e ∈ n := by
    intro ⟨a, b⟩
    rw [key m sm zm, key n sn zn, h]
  have nd : ∀ (l : KMap Byte), List.Pairwise (fun a b => a < b) (l.map Prod.fst) →
      List.Pairwise (fun (e f : Nat × Byte) => e.1 < f.1) l := fun l hl => by
    simpa [List.pairwise_map] using hl
  have pm : List.Perm m n := (List.perm_ext_iff_of_nodup ((nd m sm).imp (fun {a b} h => by rintro rfl; exact lt_irrefl _ h))
    ((nd n sn).imp (fun {a b} h => by rintro rfl; exact lt_irrefl _ h))).2 hmem
  exact List.Perm.eq_of_pairwise (fun a b _ _ h1 h2 => absurd h1 (lt_asymm h2)) (nd m sm) (nd n sn) pm

end Sys2Proof.Machine
end

