-- ==== Sys2Proof/Laws/State.lean ====
section
/-! SUPPORT. One law per field of State and named update: what the update makes of the field. -/

namespace Sys2Proof.Machine

/-! ### setThr -/

section
variable (s : State) (th : Thread)

@[simp] theorem setThr_time : (setThr s th).time = s.time := rfl
@[simp] theorem setThr_cursor : (setThr s th).cursor = s.cursor := rfl
@[simp] theorem setThr_agenda : (setThr s th).agenda = s.agenda := rfl
@[simp] theorem setThr_hand : (setThr s th).hand = s.hand := rfl
@[simp] theorem setThr_freeCtr : (setThr s th).freeCtr = s.freeCtr := rfl
@[simp] theorem setThr_fresh : (setThr s th).fresh = s.fresh := rfl
@[simp] theorem setThr_live : (setThr s th).live = s.live := rfl
@[simp] theorem setThr_boot : (setThr s th).boot = s.boot := rfl
@[simp] theorem setThr_bootSlot : (setThr s th).bootSlot = s.bootSlot := rfl
@[simp] theorem setThr_pins : (setThr s th).pins = s.pins := rfl
@[simp] theorem setThr_trained : (setThr s th).trained = s.trained := rfl
@[simp] theorem setThr_tested : (setThr s th).tested = s.tested := rfl
@[simp] theorem setThr_halted : (setThr s th).halted = s.halted := rfl
@[simp] theorem setThr_mf : (setThr s th).mf = s.mf := rfl
@[simp] theorem setThr_mem : (setThr s th).mem = s.mem := rfl
@[simp] theorem setThr_wbuf : (setThr s th).wbuf = s.wbuf := rfl
@[simp] theorem setThr_held : (setThr s th).held = s.held := rfl
@[simp] theorem setThr_passed : (setThr s th).passed = s.passed := rfl
@[simp] theorem setThr_needs : (setThr s th).needs = s.needs := rfl
@[simp] theorem setThr_walked : (setThr s th).walked = s.walked := rfl
@[simp] theorem setThr_shut : (setThr s th).shut = s.shut := rfl
@[simp] theorem setThr_ptags : (setThr s th).ptags = s.ptags := rfl
@[simp] theorem setThr_poison : (setThr s th).poison = s.poison := rfl
@[simp] theorem setThr_eccNew : (setThr s th).eccNew = s.eccNew := rfl
@[simp] theorem setThr_dirs : (setThr s th).dirs = s.dirs := rfl
@[simp] theorem setThr_rsv : (setThr s th).rsv = s.rsv := rfl
@[simp] theorem setThr_waits : (setThr s th).waits = s.waits := rfl
@[simp] theorem setThr_arms : (setThr s th).arms = s.arms := rfl
@[simp] theorem setThr_threads : (setThr s th).threads = kput s.threads th.tid.toNat th := rfl
@[simp] theorem setThr_stations : (setThr s th).stations = s.stations := rfl
@[simp] theorem setThr_elems : (setThr s th).elems = s.elems := rfl
@[simp] theorem setThr_clusters : (setThr s th).clusters = s.clusters := rfl
@[simp] theorem setThr_parts : (setThr s th).parts = s.parts := rfl
@[simp] theorem setThr_reqs : (setThr s th).reqs = s.reqs := rfl
@[simp] theorem setThr_gaccs : (setThr s th).gaccs = s.gaccs := rfl
@[simp] theorem setThr_pkts : (setThr s th).pkts = s.pkts := rfl
@[simp] theorem setThr_msgs : (setThr s th).msgs = s.msgs := rfl
@[simp] theorem setThr_cfg : (setThr s th).cfg = s.cfg := rfl
@[simp] theorem setThr_cmdStatus : (setThr s th).cmdStatus = s.cmdStatus := rfl
@[simp] theorem setThr_errlog : (setThr s th).errlog = s.errlog := rfl
@[simp] theorem setThr_errcount : (setThr s th).errcount = s.errcount := rfl
@[simp] theorem setThr_domain : (setThr s th).domain = s.domain := rfl
@[simp] theorem setThr_selftests : (setThr s th).selftests = s.selftests := rfl
@[simp] theorem setThr_transients : (setThr s th).transients = s.transients := rfl
@[simp] theorem setThr_retired : (setThr s th).retired = s.retired := rfl
@[simp] theorem setThr_sessions : (setThr s th).sessions = s.sessions := rfl
@[simp] theorem setThr_hostOps : (setThr s th).hostOps = s.hostOps := rfl
@[simp] theorem setThr_nextSession : (setThr s th).nextSession = s.nextSession := rfl
@[simp] theorem setThr_out : (setThr s th).out = s.out := rfl
@[simp] theorem setThr_suspects : (setThr s th).suspects = s.suspects := rfl
@[simp] theorem setThr_deadAgents : (setThr s th).deadAgents = s.deadAgents := rfl
@[simp] theorem setThr_lanes : (setThr s th).lanes = s.lanes := rfl
@[simp] theorem setThr_etherLanes : (setThr s th).etherLanes = s.etherLanes := rfl
@[simp] theorem setThr_ethType : (setThr s th).ethType = s.ethType := rfl
@[simp] theorem setThr_udpPort : (setThr s th).udpPort = s.udpPort := rfl
@[simp] theorem setThr_narrow : (setThr s th).narrow = s.narrow := rfl
@[simp] theorem setThr_linkUp : (setThr s th).linkUp = s.linkUp := rfl
@[simp] theorem setThr_convs : (setThr s th).convs = s.convs := rfl
@[simp] theorem setThr_netLast : (setThr s th).netLast = s.netLast := rfl
@[simp] theorem setThr_toPeer : (setThr s th).toPeer = s.toPeer := rfl
@[simp] theorem setThr_ctoks : (setThr s th).ctoks = s.ctoks := rfl
@[simp] theorem setThr_shadow : (setThr s th).shadow = s.shadow := rfl
@[simp] theorem setThr_shadowElems : (setThr s th).shadowElems = s.shadowElems := rfl
@[simp] theorem setThr_shadowDone : (setThr s th).shadowDone = s.shadowDone := rfl
@[simp] theorem setThr_shadowEvents : (setThr s th).shadowEvents = s.shadowEvents := rfl
@[simp] theorem setThr_lateReplies : (setThr s th).lateReplies = s.lateReplies := rfl
@[simp] theorem setThr_power : (setThr s th).power = s.power := rfl

end

/-! ### setStn -/

section
variable (s : State) (i : Nat) (x : Station)

@[simp] theorem setStn_time : (setStn s i x).time = s.time := rfl
@[simp] theorem setStn_cursor : (setStn s i x).cursor = s.cursor := rfl
@[simp] theorem setStn_agenda : (setStn s i x).agenda = s.agenda := rfl
@[simp] theorem setStn_hand : (setStn s i x).hand = s.hand := rfl
@[simp] theorem setStn_freeCtr : (setStn s i x).freeCtr = s.freeCtr := rfl
@[simp] theorem setStn_fresh : (setStn s i x).fresh = s.fresh := rfl
@[simp] theorem setStn_live : (setStn s i x).live = s.live := rfl
@[simp] theorem setStn_boot : (setStn s i x).boot = s.boot := rfl
@[simp] theorem setStn_bootSlot : (setStn s i x).bootSlot = s.bootSlot := rfl
@[simp] theorem setStn_pins : (setStn s i x).pins = s.pins := rfl
@[simp] theorem setStn_trained : (setStn s i x).trained = s.trained := rfl
@[simp] theorem setStn_tested : (setStn s i x).tested = s.tested := rfl
@[simp] theorem setStn_halted : (setStn s i x).halted = s.halted := rfl
@[simp] theorem setStn_mf : (setStn s i x).mf = s.mf := rfl
@[simp] theorem setStn_mem : (setStn s i x).mem = s.mem := rfl
@[simp] theorem setStn_wbuf : (setStn s i x).wbuf = s.wbuf := rfl
@[simp] theorem setStn_held : (setStn s i x).held = s.held := rfl
@[simp] theorem setStn_passed : (setStn s i x).passed = s.passed := rfl
@[simp] theorem setStn_needs : (setStn s i x).needs = s.needs := rfl
@[simp] theorem setStn_walked : (setStn s i x).walked = s.walked := rfl
@[simp] theorem setStn_shut : (setStn s i x).shut = s.shut := rfl
@[simp] theorem setStn_ptags : (setStn s i x).ptags = s.ptags := rfl
@[simp] theorem setStn_poison : (setStn s i x).poison = s.poison := rfl
@[simp] theorem setStn_eccNew : (setStn s i x).eccNew = s.eccNew := rfl
@[simp] theorem setStn_dirs : (setStn s i x).dirs = s.dirs := rfl
@[simp] theorem setStn_rsv : (setStn s i x).rsv = s.rsv := rfl
@[simp] theorem setStn_waits : (setStn s i x).waits = s.waits := rfl
@[simp] theorem setStn_arms : (setStn s i x).arms = s.arms := rfl
@[simp] theorem setStn_threads : (setStn s i x).threads = s.threads := rfl
@[simp] theorem setStn_stations : (setStn s i x).stations = kput s.stations i x := rfl
@[simp] theorem setStn_elems : (setStn s i x).elems = s.elems := rfl
@[simp] theorem setStn_clusters : (setStn s i x).clusters = s.clusters := rfl
@[simp] theorem setStn_parts : (setStn s i x).parts = s.parts := rfl
@[simp] theorem setStn_reqs : (setStn s i x).reqs = s.reqs := rfl
@[simp] theorem setStn_gaccs : (setStn s i x).gaccs = s.gaccs := rfl
@[simp] theorem setStn_pkts : (setStn s i x).pkts = s.pkts := rfl
@[simp] theorem setStn_msgs : (setStn s i x).msgs = s.msgs := rfl
@[simp] theorem setStn_cfg : (setStn s i x).cfg = s.cfg := rfl
@[simp] theorem setStn_cmdStatus : (setStn s i x).cmdStatus = s.cmdStatus := rfl
@[simp] theorem setStn_errlog : (setStn s i x).errlog = s.errlog := rfl
@[simp] theorem setStn_errcount : (setStn s i x).errcount = s.errcount := rfl
@[simp] theorem setStn_domain : (setStn s i x).domain = s.domain := rfl
@[simp] theorem setStn_selftests : (setStn s i x).selftests = s.selftests := rfl
@[simp] theorem setStn_transients : (setStn s i x).transients = s.transients := rfl
@[simp] theorem setStn_retired : (setStn s i x).retired = s.retired := rfl
@[simp] theorem setStn_sessions : (setStn s i x).sessions = s.sessions := rfl
@[simp] theorem setStn_hostOps : (setStn s i x).hostOps = s.hostOps := rfl
@[simp] theorem setStn_nextSession : (setStn s i x).nextSession = s.nextSession := rfl
@[simp] theorem setStn_out : (setStn s i x).out = s.out := rfl
@[simp] theorem setStn_suspects : (setStn s i x).suspects = s.suspects := rfl
@[simp] theorem setStn_deadAgents : (setStn s i x).deadAgents = s.deadAgents := rfl
@[simp] theorem setStn_lanes : (setStn s i x).lanes = s.lanes := rfl
@[simp] theorem setStn_etherLanes : (setStn s i x).etherLanes = s.etherLanes := rfl
@[simp] theorem setStn_ethType : (setStn s i x).ethType = s.ethType := rfl
@[simp] theorem setStn_udpPort : (setStn s i x).udpPort = s.udpPort := rfl
@[simp] theorem setStn_narrow : (setStn s i x).narrow = s.narrow := rfl
@[simp] theorem setStn_linkUp : (setStn s i x).linkUp = s.linkUp := rfl
@[simp] theorem setStn_convs : (setStn s i x).convs = s.convs := rfl
@[simp] theorem setStn_netLast : (setStn s i x).netLast = s.netLast := rfl
@[simp] theorem setStn_toPeer : (setStn s i x).toPeer = s.toPeer := rfl
@[simp] theorem setStn_ctoks : (setStn s i x).ctoks = s.ctoks := rfl
@[simp] theorem setStn_shadow : (setStn s i x).shadow = s.shadow := rfl
@[simp] theorem setStn_shadowElems : (setStn s i x).shadowElems = s.shadowElems := rfl
@[simp] theorem setStn_shadowDone : (setStn s i x).shadowDone = s.shadowDone := rfl
@[simp] theorem setStn_shadowEvents : (setStn s i x).shadowEvents = s.shadowEvents := rfl
@[simp] theorem setStn_lateReplies : (setStn s i x).lateReplies = s.lateReplies := rfl
@[simp] theorem setStn_power : (setStn s i x).power = s.power := rfl

end

/-! ### modStn -/

section
variable (s : State) (i : Nat) (f : Station → Station)

@[simp] theorem modStn_time : (modStn s i f).time = s.time := rfl
@[simp] theorem modStn_cursor : (modStn s i f).cursor = s.cursor := rfl
@[simp] theorem modStn_agenda : (modStn s i f).agenda = s.agenda := rfl
@[simp] theorem modStn_hand : (modStn s i f).hand = s.hand := rfl
@[simp] theorem modStn_freeCtr : (modStn s i f).freeCtr = s.freeCtr := rfl
@[simp] theorem modStn_fresh : (modStn s i f).fresh = s.fresh := rfl
@[simp] theorem modStn_live : (modStn s i f).live = s.live := rfl
@[simp] theorem modStn_boot : (modStn s i f).boot = s.boot := rfl
@[simp] theorem modStn_bootSlot : (modStn s i f).bootSlot = s.bootSlot := rfl
@[simp] theorem modStn_pins : (modStn s i f).pins = s.pins := rfl
@[simp] theorem modStn_trained : (modStn s i f).trained = s.trained := rfl
@[simp] theorem modStn_tested : (modStn s i f).tested = s.tested := rfl
@[simp] theorem modStn_halted : (modStn s i f).halted = s.halted := rfl
@[simp] theorem modStn_mf : (modStn s i f).mf = s.mf := rfl
@[simp] theorem modStn_mem : (modStn s i f).mem = s.mem := rfl
@[simp] theorem modStn_wbuf : (modStn s i f).wbuf = s.wbuf := rfl
@[simp] theorem modStn_held : (modStn s i f).held = s.held := rfl
@[simp] theorem modStn_passed : (modStn s i f).passed = s.passed := rfl
@[simp] theorem modStn_needs : (modStn s i f).needs = s.needs := rfl
@[simp] theorem modStn_walked : (modStn s i f).walked = s.walked := rfl
@[simp] theorem modStn_shut : (modStn s i f).shut = s.shut := rfl
@[simp] theorem modStn_ptags : (modStn s i f).ptags = s.ptags := rfl
@[simp] theorem modStn_poison : (modStn s i f).poison = s.poison := rfl
@[simp] theorem modStn_eccNew : (modStn s i f).eccNew = s.eccNew := rfl
@[simp] theorem modStn_dirs : (modStn s i f).dirs = s.dirs := rfl
@[simp] theorem modStn_rsv : (modStn s i f).rsv = s.rsv := rfl
@[simp] theorem modStn_waits : (modStn s i f).waits = s.waits := rfl
@[simp] theorem modStn_arms : (modStn s i f).arms = s.arms := rfl
@[simp] theorem modStn_threads : (modStn s i f).threads = s.threads := rfl
@[simp] theorem modStn_stations : (modStn s i f).stations = kput s.stations i (f (stn s i)) := rfl
@[simp] theorem modStn_elems : (modStn s i f).elems = s.elems := rfl
@[simp] theorem modStn_clusters : (modStn s i f).clusters = s.clusters := rfl
@[simp] theorem modStn_parts : (modStn s i f).parts = s.parts := rfl
@[simp] theorem modStn_reqs : (modStn s i f).reqs = s.reqs := rfl
@[simp] theorem modStn_gaccs : (modStn s i f).gaccs = s.gaccs := rfl
@[simp] theorem modStn_pkts : (modStn s i f).pkts = s.pkts := rfl
@[simp] theorem modStn_msgs : (modStn s i f).msgs = s.msgs := rfl
@[simp] theorem modStn_cfg : (modStn s i f).cfg = s.cfg := rfl
@[simp] theorem modStn_cmdStatus : (modStn s i f).cmdStatus = s.cmdStatus := rfl
@[simp] theorem modStn_errlog : (modStn s i f).errlog = s.errlog := rfl
@[simp] theorem modStn_errcount : (modStn s i f).errcount = s.errcount := rfl
@[simp] theorem modStn_domain : (modStn s i f).domain = s.domain := rfl
@[simp] theorem modStn_selftests : (modStn s i f).selftests = s.selftests := rfl
@[simp] theorem modStn_transients : (modStn s i f).transients = s.transients := rfl
@[simp] theorem modStn_retired : (modStn s i f).retired = s.retired := rfl
@[simp] theorem modStn_sessions : (modStn s i f).sessions = s.sessions := rfl
@[simp] theorem modStn_hostOps : (modStn s i f).hostOps = s.hostOps := rfl
@[simp] theorem modStn_nextSession : (modStn s i f).nextSession = s.nextSession := rfl
@[simp] theorem modStn_out : (modStn s i f).out = s.out := rfl
@[simp] theorem modStn_suspects : (modStn s i f).suspects = s.suspects := rfl
@[simp] theorem modStn_deadAgents : (modStn s i f).deadAgents = s.deadAgents := rfl
@[simp] theorem modStn_lanes : (modStn s i f).lanes = s.lanes := rfl
@[simp] theorem modStn_etherLanes : (modStn s i f).etherLanes = s.etherLanes := rfl
@[simp] theorem modStn_ethType : (modStn s i f).ethType = s.ethType := rfl
@[simp] theorem modStn_udpPort : (modStn s i f).udpPort = s.udpPort := rfl
@[simp] theorem modStn_narrow : (modStn s i f).narrow = s.narrow := rfl
@[simp] theorem modStn_linkUp : (modStn s i f).linkUp = s.linkUp := rfl
@[simp] theorem modStn_convs : (modStn s i f).convs = s.convs := rfl
@[simp] theorem modStn_netLast : (modStn s i f).netLast = s.netLast := rfl
@[simp] theorem modStn_toPeer : (modStn s i f).toPeer = s.toPeer := rfl
@[simp] theorem modStn_ctoks : (modStn s i f).ctoks = s.ctoks := rfl
@[simp] theorem modStn_shadow : (modStn s i f).shadow = s.shadow := rfl
@[simp] theorem modStn_shadowElems : (modStn s i f).shadowElems = s.shadowElems := rfl
@[simp] theorem modStn_shadowDone : (modStn s i f).shadowDone = s.shadowDone := rfl
@[simp] theorem modStn_shadowEvents : (modStn s i f).shadowEvents = s.shadowEvents := rfl
@[simp] theorem modStn_lateReplies : (modStn s i f).lateReplies = s.lateReplies := rfl
@[simp] theorem modStn_power : (modStn s i f).power = s.power := rfl

end

/-! ### modElem -/

section
variable (s : State) (st e : Nat) (f : Elem → Elem)

@[simp] theorem modElem_time : (modElem s st e f).time = s.time := rfl
@[simp] theorem modElem_cursor : (modElem s st e f).cursor = s.cursor := rfl
@[simp] theorem modElem_agenda : (modElem s st e f).agenda = s.agenda := rfl
@[simp] theorem modElem_hand : (modElem s st e f).hand = s.hand := rfl
@[simp] theorem modElem_freeCtr : (modElem s st e f).freeCtr = s.freeCtr := rfl
@[simp] theorem modElem_fresh : (modElem s st e f).fresh = s.fresh := rfl
@[simp] theorem modElem_live : (modElem s st e f).live = s.live := rfl
@[simp] theorem modElem_boot : (modElem s st e f).boot = s.boot := rfl
@[simp] theorem modElem_bootSlot : (modElem s st e f).bootSlot = s.bootSlot := rfl
@[simp] theorem modElem_pins : (modElem s st e f).pins = s.pins := rfl
@[simp] theorem modElem_trained : (modElem s st e f).trained = s.trained := rfl
@[simp] theorem modElem_tested : (modElem s st e f).tested = s.tested := rfl
@[simp] theorem modElem_halted : (modElem s st e f).halted = s.halted := rfl
@[simp] theorem modElem_mf : (modElem s st e f).mf = s.mf := rfl
@[simp] theorem modElem_mem : (modElem s st e f).mem = s.mem := rfl
@[simp] theorem modElem_wbuf : (modElem s st e f).wbuf = s.wbuf := rfl
@[simp] theorem modElem_held : (modElem s st e f).held = s.held := rfl
@[simp] theorem modElem_passed : (modElem s st e f).passed = s.passed := rfl
@[simp] theorem modElem_needs : (modElem s st e f).needs = s.needs := rfl
@[simp] theorem modElem_walked : (modElem s st e f).walked = s.walked := rfl
@[simp] theorem modElem_shut : (modElem s st e f).shut = s.shut := rfl
@[simp] theorem modElem_ptags : (modElem s st e f).ptags = s.ptags := rfl
@[simp] theorem modElem_poison : (modElem s st e f).poison = s.poison := rfl
@[simp] theorem modElem_eccNew : (modElem s st e f).eccNew = s.eccNew := rfl
@[simp] theorem modElem_dirs : (modElem s st e f).dirs = s.dirs := rfl
@[simp] theorem modElem_rsv : (modElem s st e f).rsv = s.rsv := rfl
@[simp] theorem modElem_waits : (modElem s st e f).waits = s.waits := rfl
@[simp] theorem modElem_arms : (modElem s st e f).arms = s.arms := rfl
@[simp] theorem modElem_threads : (modElem s st e f).threads = s.threads := rfl
@[simp] theorem modElem_stations : (modElem s st e f).stations = s.stations := rfl
@[simp] theorem modElem_elems : (modElem s st e f).elems = kput s.elems (16 * st + e) (f (elemAt s st e)) := rfl
@[simp] theorem modElem_clusters : (modElem s st e f).clusters = s.clusters := rfl
@[simp] theorem modElem_parts : (modElem s st e f).parts = s.parts := rfl
@[simp] theorem modElem_reqs : (modElem s st e f).reqs = s.reqs := rfl
@[simp] theorem modElem_gaccs : (modElem s st e f).gaccs = s.gaccs := rfl
@[simp] theorem modElem_pkts : (modElem s st e f).pkts = s.pkts := rfl
@[simp] theorem modElem_msgs : (modElem s st e f).msgs = s.msgs := rfl
@[simp] theorem modElem_cfg : (modElem s st e f).cfg = s.cfg := rfl
@[simp] theorem modElem_cmdStatus : (modElem s st e f).cmdStatus = s.cmdStatus := rfl
@[simp] theorem modElem_errlog : (modElem s st e f).errlog = s.errlog := rfl
@[simp] theorem modElem_errcount : (modElem s st e f).errcount = s.errcount := rfl
@[simp] theorem modElem_domain : (modElem s st e f).domain = s.domain := rfl
@[simp] theorem modElem_selftests : (modElem s st e f).selftests = s.selftests := rfl
@[simp] theorem modElem_transients : (modElem s st e f).transients = s.transients := rfl
@[simp] theorem modElem_retired : (modElem s st e f).retired = s.retired := rfl
@[simp] theorem modElem_sessions : (modElem s st e f).sessions = s.sessions := rfl
@[simp] theorem modElem_hostOps : (modElem s st e f).hostOps = s.hostOps := rfl
@[simp] theorem modElem_nextSession : (modElem s st e f).nextSession = s.nextSession := rfl
@[simp] theorem modElem_out : (modElem s st e f).out = s.out := rfl
@[simp] theorem modElem_suspects : (modElem s st e f).suspects = s.suspects := rfl
@[simp] theorem modElem_deadAgents : (modElem s st e f).deadAgents = s.deadAgents := rfl
@[simp] theorem modElem_lanes : (modElem s st e f).lanes = s.lanes := rfl
@[simp] theorem modElem_etherLanes : (modElem s st e f).etherLanes = s.etherLanes := rfl
@[simp] theorem modElem_ethType : (modElem s st e f).ethType = s.ethType := rfl
@[simp] theorem modElem_udpPort : (modElem s st e f).udpPort = s.udpPort := rfl
@[simp] theorem modElem_narrow : (modElem s st e f).narrow = s.narrow := rfl
@[simp] theorem modElem_linkUp : (modElem s st e f).linkUp = s.linkUp := rfl
@[simp] theorem modElem_convs : (modElem s st e f).convs = s.convs := rfl
@[simp] theorem modElem_netLast : (modElem s st e f).netLast = s.netLast := rfl
@[simp] theorem modElem_toPeer : (modElem s st e f).toPeer = s.toPeer := rfl
@[simp] theorem modElem_ctoks : (modElem s st e f).ctoks = s.ctoks := rfl
@[simp] theorem modElem_shadow : (modElem s st e f).shadow = s.shadow := rfl
@[simp] theorem modElem_shadowElems : (modElem s st e f).shadowElems = s.shadowElems := rfl
@[simp] theorem modElem_shadowDone : (modElem s st e f).shadowDone = s.shadowDone := rfl
@[simp] theorem modElem_shadowEvents : (modElem s st e f).shadowEvents = s.shadowEvents := rfl
@[simp] theorem modElem_lateReplies : (modElem s st e f).lateReplies = s.lateReplies := rfl
@[simp] theorem modElem_power : (modElem s st e f).power = s.power := rfl

end

/-! ### modClus -/

section
variable (s : State) (c : Nat) (f : Cluster → Cluster)

@[simp] theorem modClus_time : (modClus s c f).time = s.time := rfl
@[simp] theorem modClus_cursor : (modClus s c f).cursor = s.cursor := rfl
@[simp] theorem modClus_agenda : (modClus s c f).agenda = s.agenda := rfl
@[simp] theorem modClus_hand : (modClus s c f).hand = s.hand := rfl
@[simp] theorem modClus_freeCtr : (modClus s c f).freeCtr = s.freeCtr := rfl
@[simp] theorem modClus_fresh : (modClus s c f).fresh = s.fresh := rfl
@[simp] theorem modClus_live : (modClus s c f).live = s.live := rfl
@[simp] theorem modClus_boot : (modClus s c f).boot = s.boot := rfl
@[simp] theorem modClus_bootSlot : (modClus s c f).bootSlot = s.bootSlot := rfl
@[simp] theorem modClus_pins : (modClus s c f).pins = s.pins := rfl
@[simp] theorem modClus_trained : (modClus s c f).trained = s.trained := rfl
@[simp] theorem modClus_tested : (modClus s c f).tested = s.tested := rfl
@[simp] theorem modClus_halted : (modClus s c f).halted = s.halted := rfl
@[simp] theorem modClus_mf : (modClus s c f).mf = s.mf := rfl
@[simp] theorem modClus_mem : (modClus s c f).mem = s.mem := rfl
@[simp] theorem modClus_wbuf : (modClus s c f).wbuf = s.wbuf := rfl
@[simp] theorem modClus_held : (modClus s c f).held = s.held := rfl
@[simp] theorem modClus_passed : (modClus s c f).passed = s.passed := rfl
@[simp] theorem modClus_needs : (modClus s c f).needs = s.needs := rfl
@[simp] theorem modClus_walked : (modClus s c f).walked = s.walked := rfl
@[simp] theorem modClus_shut : (modClus s c f).shut = s.shut := rfl
@[simp] theorem modClus_ptags : (modClus s c f).ptags = s.ptags := rfl
@[simp] theorem modClus_poison : (modClus s c f).poison = s.poison := rfl
@[simp] theorem modClus_eccNew : (modClus s c f).eccNew = s.eccNew := rfl
@[simp] theorem modClus_dirs : (modClus s c f).dirs = s.dirs := rfl
@[simp] theorem modClus_rsv : (modClus s c f).rsv = s.rsv := rfl
@[simp] theorem modClus_waits : (modClus s c f).waits = s.waits := rfl
@[simp] theorem modClus_arms : (modClus s c f).arms = s.arms := rfl
@[simp] theorem modClus_threads : (modClus s c f).threads = s.threads := rfl
@[simp] theorem modClus_stations : (modClus s c f).stations = s.stations := rfl
@[simp] theorem modClus_elems : (modClus s c f).elems = s.elems := rfl
@[simp] theorem modClus_clusters : (modClus s c f).clusters = kput s.clusters c (f (clus s c)) := rfl
@[simp] theorem modClus_parts : (modClus s c f).parts = s.parts := rfl
@[simp] theorem modClus_reqs : (modClus s c f).reqs = s.reqs := rfl
@[simp] theorem modClus_gaccs : (modClus s c f).gaccs = s.gaccs := rfl
@[simp] theorem modClus_pkts : (modClus s c f).pkts = s.pkts := rfl
@[simp] theorem modClus_msgs : (modClus s c f).msgs = s.msgs := rfl
@[simp] theorem modClus_cfg : (modClus s c f).cfg = s.cfg := rfl
@[simp] theorem modClus_cmdStatus : (modClus s c f).cmdStatus = s.cmdStatus := rfl
@[simp] theorem modClus_errlog : (modClus s c f).errlog = s.errlog := rfl
@[simp] theorem modClus_errcount : (modClus s c f).errcount = s.errcount := rfl
@[simp] theorem modClus_domain : (modClus s c f).domain = s.domain := rfl
@[simp] theorem modClus_selftests : (modClus s c f).selftests = s.selftests := rfl
@[simp] theorem modClus_transients : (modClus s c f).transients = s.transients := rfl
@[simp] theorem modClus_retired : (modClus s c f).retired = s.retired := rfl
@[simp] theorem modClus_sessions : (modClus s c f).sessions = s.sessions := rfl
@[simp] theorem modClus_hostOps : (modClus s c f).hostOps = s.hostOps := rfl
@[simp] theorem modClus_nextSession : (modClus s c f).nextSession = s.nextSession := rfl
@[simp] theorem modClus_out : (modClus s c f).out = s.out := rfl
@[simp] theorem modClus_suspects : (modClus s c f).suspects = s.suspects := rfl
@[simp] theorem modClus_deadAgents : (modClus s c f).deadAgents = s.deadAgents := rfl
@[simp] theorem modClus_lanes : (modClus s c f).lanes = s.lanes := rfl
@[simp] theorem modClus_etherLanes : (modClus s c f).etherLanes = s.etherLanes := rfl
@[simp] theorem modClus_ethType : (modClus s c f).ethType = s.ethType := rfl
@[simp] theorem modClus_udpPort : (modClus s c f).udpPort = s.udpPort := rfl
@[simp] theorem modClus_narrow : (modClus s c f).narrow = s.narrow := rfl
@[simp] theorem modClus_linkUp : (modClus s c f).linkUp = s.linkUp := rfl
@[simp] theorem modClus_convs : (modClus s c f).convs = s.convs := rfl
@[simp] theorem modClus_netLast : (modClus s c f).netLast = s.netLast := rfl
@[simp] theorem modClus_toPeer : (modClus s c f).toPeer = s.toPeer := rfl
@[simp] theorem modClus_ctoks : (modClus s c f).ctoks = s.ctoks := rfl
@[simp] theorem modClus_shadow : (modClus s c f).shadow = s.shadow := rfl
@[simp] theorem modClus_shadowElems : (modClus s c f).shadowElems = s.shadowElems := rfl
@[simp] theorem modClus_shadowDone : (modClus s c f).shadowDone = s.shadowDone := rfl
@[simp] theorem modClus_shadowEvents : (modClus s c f).shadowEvents = s.shadowEvents := rfl
@[simp] theorem modClus_lateReplies : (modClus s c f).lateReplies = s.lateReplies := rfl
@[simp] theorem modClus_power : (modClus s c f).power = s.power := rfl

end

/-! ### modPart -/

section
variable (s : State) (p : Nat) (f : Partition → Partition)

@[simp] theorem modPart_time : (modPart s p f).time = s.time := rfl
@[simp] theorem modPart_cursor : (modPart s p f).cursor = s.cursor := rfl
@[simp] theorem modPart_agenda : (modPart s p f).agenda = s.agenda := rfl
@[simp] theorem modPart_hand : (modPart s p f).hand = s.hand := rfl
@[simp] theorem modPart_freeCtr : (modPart s p f).freeCtr = s.freeCtr := rfl
@[simp] theorem modPart_fresh : (modPart s p f).fresh = s.fresh := rfl
@[simp] theorem modPart_live : (modPart s p f).live = s.live := rfl
@[simp] theorem modPart_boot : (modPart s p f).boot = s.boot := rfl
@[simp] theorem modPart_bootSlot : (modPart s p f).bootSlot = s.bootSlot := rfl
@[simp] theorem modPart_pins : (modPart s p f).pins = s.pins := rfl
@[simp] theorem modPart_trained : (modPart s p f).trained = s.trained := rfl
@[simp] theorem modPart_tested : (modPart s p f).tested = s.tested := rfl
@[simp] theorem modPart_halted : (modPart s p f).halted = s.halted := rfl
@[simp] theorem modPart_mf : (modPart s p f).mf = s.mf := rfl
@[simp] theorem modPart_mem : (modPart s p f).mem = s.mem := rfl
@[simp] theorem modPart_wbuf : (modPart s p f).wbuf = s.wbuf := rfl
@[simp] theorem modPart_held : (modPart s p f).held = s.held := rfl
@[simp] theorem modPart_passed : (modPart s p f).passed = s.passed := rfl
@[simp] theorem modPart_needs : (modPart s p f).needs = s.needs := rfl
@[simp] theorem modPart_walked : (modPart s p f).walked = s.walked := rfl
@[simp] theorem modPart_shut : (modPart s p f).shut = s.shut := rfl
@[simp] theorem modPart_ptags : (modPart s p f).ptags = s.ptags := rfl
@[simp] theorem modPart_poison : (modPart s p f).poison = s.poison := rfl
@[simp] theorem modPart_eccNew : (modPart s p f).eccNew = s.eccNew := rfl
@[simp] theorem modPart_dirs : (modPart s p f).dirs = s.dirs := rfl
@[simp] theorem modPart_rsv : (modPart s p f).rsv = s.rsv := rfl
@[simp] theorem modPart_waits : (modPart s p f).waits = s.waits := rfl
@[simp] theorem modPart_arms : (modPart s p f).arms = s.arms := rfl
@[simp] theorem modPart_threads : (modPart s p f).threads = s.threads := rfl
@[simp] theorem modPart_stations : (modPart s p f).stations = s.stations := rfl
@[simp] theorem modPart_elems : (modPart s p f).elems = s.elems := rfl
@[simp] theorem modPart_clusters : (modPart s p f).clusters = s.clusters := rfl
@[simp] theorem modPart_parts : (modPart s p f).parts = kput s.parts p (f (part s p)) := rfl
@[simp] theorem modPart_reqs : (modPart s p f).reqs = s.reqs := rfl
@[simp] theorem modPart_gaccs : (modPart s p f).gaccs = s.gaccs := rfl
@[simp] theorem modPart_pkts : (modPart s p f).pkts = s.pkts := rfl
@[simp] theorem modPart_msgs : (modPart s p f).msgs = s.msgs := rfl
@[simp] theorem modPart_cfg : (modPart s p f).cfg = s.cfg := rfl
@[simp] theorem modPart_cmdStatus : (modPart s p f).cmdStatus = s.cmdStatus := rfl
@[simp] theorem modPart_errlog : (modPart s p f).errlog = s.errlog := rfl
@[simp] theorem modPart_errcount : (modPart s p f).errcount = s.errcount := rfl
@[simp] theorem modPart_domain : (modPart s p f).domain = s.domain := rfl
@[simp] theorem modPart_selftests : (modPart s p f).selftests = s.selftests := rfl
@[simp] theorem modPart_transients : (modPart s p f).transients = s.transients := rfl
@[simp] theorem modPart_retired : (modPart s p f).retired = s.retired := rfl
@[simp] theorem modPart_sessions : (modPart s p f).sessions = s.sessions := rfl
@[simp] theorem modPart_hostOps : (modPart s p f).hostOps = s.hostOps := rfl
@[simp] theorem modPart_nextSession : (modPart s p f).nextSession = s.nextSession := rfl
@[simp] theorem modPart_out : (modPart s p f).out = s.out := rfl
@[simp] theorem modPart_suspects : (modPart s p f).suspects = s.suspects := rfl
@[simp] theorem modPart_deadAgents : (modPart s p f).deadAgents = s.deadAgents := rfl
@[simp] theorem modPart_lanes : (modPart s p f).lanes = s.lanes := rfl
@[simp] theorem modPart_etherLanes : (modPart s p f).etherLanes = s.etherLanes := rfl
@[simp] theorem modPart_ethType : (modPart s p f).ethType = s.ethType := rfl
@[simp] theorem modPart_udpPort : (modPart s p f).udpPort = s.udpPort := rfl
@[simp] theorem modPart_narrow : (modPart s p f).narrow = s.narrow := rfl
@[simp] theorem modPart_linkUp : (modPart s p f).linkUp = s.linkUp := rfl
@[simp] theorem modPart_convs : (modPart s p f).convs = s.convs := rfl
@[simp] theorem modPart_netLast : (modPart s p f).netLast = s.netLast := rfl
@[simp] theorem modPart_toPeer : (modPart s p f).toPeer = s.toPeer := rfl
@[simp] theorem modPart_ctoks : (modPart s p f).ctoks = s.ctoks := rfl
@[simp] theorem modPart_shadow : (modPart s p f).shadow = s.shadow := rfl
@[simp] theorem modPart_shadowElems : (modPart s p f).shadowElems = s.shadowElems := rfl
@[simp] theorem modPart_shadowDone : (modPart s p f).shadowDone = s.shadowDone := rfl
@[simp] theorem modPart_shadowEvents : (modPart s p f).shadowEvents = s.shadowEvents := rfl
@[simp] theorem modPart_lateReplies : (modPart s p f).lateReplies = s.lateReplies := rfl
@[simp] theorem modPart_power : (modPart s p f).power = s.power := rfl

end

/-! ### later -/

section
variable (s : State) (n : Nat) (e : Event)

@[simp] theorem later_time : (later s n e).time = s.time := rfl
@[simp] theorem later_cursor : (later s n e).cursor = s.cursor := rfl
@[simp] theorem later_agenda : (later s n e).agenda = s.agenda ++ [(s.time + n, e)] := rfl
@[simp] theorem later_hand : (later s n e).hand = s.hand := rfl
@[simp] theorem later_freeCtr : (later s n e).freeCtr = s.freeCtr := rfl
@[simp] theorem later_fresh : (later s n e).fresh = s.fresh := rfl
@[simp] theorem later_live : (later s n e).live = s.live := rfl
@[simp] theorem later_boot : (later s n e).boot = s.boot := rfl
@[simp] theorem later_bootSlot : (later s n e).bootSlot = s.bootSlot := rfl
@[simp] theorem later_pins : (later s n e).pins = s.pins := rfl
@[simp] theorem later_trained : (later s n e).trained = s.trained := rfl
@[simp] theorem later_tested : (later s n e).tested = s.tested := rfl
@[simp] theorem later_halted : (later s n e).halted = s.halted := rfl
@[simp] theorem later_mf : (later s n e).mf = s.mf := rfl
@[simp] theorem later_mem : (later s n e).mem = s.mem := rfl
@[simp] theorem later_wbuf : (later s n e).wbuf = s.wbuf := rfl
@[simp] theorem later_held : (later s n e).held = s.held := rfl
@[simp] theorem later_passed : (later s n e).passed = s.passed := rfl
@[simp] theorem later_needs : (later s n e).needs = s.needs := rfl
@[simp] theorem later_walked : (later s n e).walked = s.walked := rfl
@[simp] theorem later_shut : (later s n e).shut = s.shut := rfl
@[simp] theorem later_ptags : (later s n e).ptags = s.ptags := rfl
@[simp] theorem later_poison : (later s n e).poison = s.poison := rfl
@[simp] theorem later_eccNew : (later s n e).eccNew = s.eccNew := rfl
@[simp] theorem later_dirs : (later s n e).dirs = s.dirs := rfl
@[simp] theorem later_rsv : (later s n e).rsv = s.rsv := rfl
@[simp] theorem later_waits : (later s n e).waits = s.waits := rfl
@[simp] theorem later_arms : (later s n e).arms = s.arms := rfl
@[simp] theorem later_threads : (later s n e).threads = s.threads := rfl
@[simp] theorem later_stations : (later s n e).stations = s.stations := rfl
@[simp] theorem later_elems : (later s n e).elems = s.elems := rfl
@[simp] theorem later_clusters : (later s n e).clusters = s.clusters := rfl
@[simp] theorem later_parts : (later s n e).parts = s.parts := rfl
@[simp] theorem later_reqs : (later s n e).reqs = s.reqs := rfl
@[simp] theorem later_gaccs : (later s n e).gaccs = s.gaccs := rfl
@[simp] theorem later_pkts : (later s n e).pkts = s.pkts := rfl
@[simp] theorem later_msgs : (later s n e).msgs = s.msgs := rfl
@[simp] theorem later_cfg : (later s n e).cfg = s.cfg := rfl
@[simp] theorem later_cmdStatus : (later s n e).cmdStatus = s.cmdStatus := rfl
@[simp] theorem later_errlog : (later s n e).errlog = s.errlog := rfl
@[simp] theorem later_errcount : (later s n e).errcount = s.errcount := rfl
@[simp] theorem later_domain : (later s n e).domain = s.domain := rfl
@[simp] theorem later_selftests : (later s n e).selftests = s.selftests := rfl
@[simp] theorem later_transients : (later s n e).transients = s.transients := rfl
@[simp] theorem later_retired : (later s n e).retired = s.retired := rfl
@[simp] theorem later_sessions : (later s n e).sessions = s.sessions := rfl
@[simp] theorem later_hostOps : (later s n e).hostOps = s.hostOps := rfl
@[simp] theorem later_nextSession : (later s n e).nextSession = s.nextSession := rfl
@[simp] theorem later_out : (later s n e).out = s.out := rfl
@[simp] theorem later_suspects : (later s n e).suspects = s.suspects := rfl
@[simp] theorem later_deadAgents : (later s n e).deadAgents = s.deadAgents := rfl
@[simp] theorem later_lanes : (later s n e).lanes = s.lanes := rfl
@[simp] theorem later_etherLanes : (later s n e).etherLanes = s.etherLanes := rfl
@[simp] theorem later_ethType : (later s n e).ethType = s.ethType := rfl
@[simp] theorem later_udpPort : (later s n e).udpPort = s.udpPort := rfl
@[simp] theorem later_narrow : (later s n e).narrow = s.narrow := rfl
@[simp] theorem later_linkUp : (later s n e).linkUp = s.linkUp := rfl
@[simp] theorem later_convs : (later s n e).convs = s.convs := rfl
@[simp] theorem later_netLast : (later s n e).netLast = s.netLast := rfl
@[simp] theorem later_toPeer : (later s n e).toPeer = s.toPeer := rfl
@[simp] theorem later_ctoks : (later s n e).ctoks = s.ctoks := rfl
@[simp] theorem later_shadow : (later s n e).shadow = s.shadow := rfl
@[simp] theorem later_shadowElems : (later s n e).shadowElems = s.shadowElems := rfl
@[simp] theorem later_shadowDone : (later s n e).shadowDone = s.shadowDone := rfl
@[simp] theorem later_shadowEvents : (later s n e).shadowEvents = s.shadowEvents := rfl
@[simp] theorem later_lateReplies : (later s n e).lateReplies = s.lateReplies := rfl
@[simp] theorem later_power : (later s n e).power = s.power := rfl

end

/-! ### unplan -/

section
variable (s : State) (f : Event → Bool)

@[simp] theorem unplan_time : (unplan s f).time = s.time := rfl
@[simp] theorem unplan_cursor : (unplan s f).cursor = s.cursor := rfl
@[simp] theorem unplan_agenda : (unplan s f).agenda = s.agenda.filter fun x => !f x.2 := rfl
@[simp] theorem unplan_hand : (unplan s f).hand = s.hand := rfl
@[simp] theorem unplan_freeCtr : (unplan s f).freeCtr = s.freeCtr := rfl
@[simp] theorem unplan_fresh : (unplan s f).fresh = s.fresh := rfl
@[simp] theorem unplan_live : (unplan s f).live = s.live := rfl
@[simp] theorem unplan_boot : (unplan s f).boot = s.boot := rfl
@[simp] theorem unplan_bootSlot : (unplan s f).bootSlot = s.bootSlot := rfl
@[simp] theorem unplan_pins : (unplan s f).pins = s.pins := rfl
@[simp] theorem unplan_trained : (unplan s f).trained = s.trained := rfl
@[simp] theorem unplan_tested : (unplan s f).tested = s.tested := rfl
@[simp] theorem unplan_halted : (unplan s f).halted = s.halted := rfl
@[simp] theorem unplan_mf : (unplan s f).mf = s.mf := rfl
@[simp] theorem unplan_mem : (unplan s f).mem = s.mem := rfl
@[simp] theorem unplan_wbuf : (unplan s f).wbuf = s.wbuf := rfl
@[simp] theorem unplan_held : (unplan s f).held = s.held := rfl
@[simp] theorem unplan_passed : (unplan s f).passed = s.passed := rfl
@[simp] theorem unplan_needs : (unplan s f).needs = s.needs := rfl
@[simp] theorem unplan_walked : (unplan s f).walked = s.walked := rfl
@[simp] theorem unplan_shut : (unplan s f).shut = s.shut := rfl
@[simp] theorem unplan_ptags : (unplan s f).ptags = s.ptags := rfl
@[simp] theorem unplan_poison : (unplan s f).poison = s.poison := rfl
@[simp] theorem unplan_eccNew : (unplan s f).eccNew = s.eccNew := rfl
@[simp] theorem unplan_dirs : (unplan s f).dirs = s.dirs := rfl
@[simp] theorem unplan_rsv : (unplan s f).rsv = s.rsv := rfl
@[simp] theorem unplan_waits : (unplan s f).waits = s.waits := rfl
@[simp] theorem unplan_arms : (unplan s f).arms = s.arms := rfl
@[simp] theorem unplan_threads : (unplan s f).threads = s.threads := rfl
@[simp] theorem unplan_stations : (unplan s f).stations = s.stations := rfl
@[simp] theorem unplan_elems : (unplan s f).elems = s.elems := rfl
@[simp] theorem unplan_clusters : (unplan s f).clusters = s.clusters := rfl
@[simp] theorem unplan_parts : (unplan s f).parts = s.parts := rfl
@[simp] theorem unplan_reqs : (unplan s f).reqs = s.reqs := rfl
@[simp] theorem unplan_gaccs : (unplan s f).gaccs = s.gaccs := rfl
@[simp] theorem unplan_pkts : (unplan s f).pkts = s.pkts := rfl
@[simp] theorem unplan_msgs : (unplan s f).msgs = s.msgs := rfl
@[simp] theorem unplan_cfg : (unplan s f).cfg = s.cfg := rfl
@[simp] theorem unplan_cmdStatus : (unplan s f).cmdStatus = s.cmdStatus := rfl
@[simp] theorem unplan_errlog : (unplan s f).errlog = s.errlog := rfl
@[simp] theorem unplan_errcount : (unplan s f).errcount = s.errcount := rfl
@[simp] theorem unplan_domain : (unplan s f).domain = s.domain := rfl
@[simp] theorem unplan_selftests : (unplan s f).selftests = s.selftests := rfl
@[simp] theorem unplan_transients : (unplan s f).transients = s.transients := rfl
@[simp] theorem unplan_retired : (unplan s f).retired = s.retired := rfl
@[simp] theorem unplan_sessions : (unplan s f).sessions = s.sessions := rfl
@[simp] theorem unplan_hostOps : (unplan s f).hostOps = s.hostOps := rfl
@[simp] theorem unplan_nextSession : (unplan s f).nextSession = s.nextSession := rfl
@[simp] theorem unplan_out : (unplan s f).out = s.out := rfl
@[simp] theorem unplan_suspects : (unplan s f).suspects = s.suspects := rfl
@[simp] theorem unplan_deadAgents : (unplan s f).deadAgents = s.deadAgents := rfl
@[simp] theorem unplan_lanes : (unplan s f).lanes = s.lanes := rfl
@[simp] theorem unplan_etherLanes : (unplan s f).etherLanes = s.etherLanes := rfl
@[simp] theorem unplan_ethType : (unplan s f).ethType = s.ethType := rfl
@[simp] theorem unplan_udpPort : (unplan s f).udpPort = s.udpPort := rfl
@[simp] theorem unplan_narrow : (unplan s f).narrow = s.narrow := rfl
@[simp] theorem unplan_linkUp : (unplan s f).linkUp = s.linkUp := rfl
@[simp] theorem unplan_convs : (unplan s f).convs = s.convs := rfl
@[simp] theorem unplan_netLast : (unplan s f).netLast = s.netLast := rfl
@[simp] theorem unplan_toPeer : (unplan s f).toPeer = s.toPeer := rfl
@[simp] theorem unplan_ctoks : (unplan s f).ctoks = s.ctoks := rfl
@[simp] theorem unplan_shadow : (unplan s f).shadow = s.shadow := rfl
@[simp] theorem unplan_shadowElems : (unplan s f).shadowElems = s.shadowElems := rfl
@[simp] theorem unplan_shadowDone : (unplan s f).shadowDone = s.shadowDone := rfl
@[simp] theorem unplan_shadowEvents : (unplan s f).shadowEvents = s.shadowEvents := rfl
@[simp] theorem unplan_lateReplies : (unplan s f).lateReplies = s.lateReplies := rfl
@[simp] theorem unplan_power : (unplan s f).power = s.power := rfl

end

/-! ### wrB -/

section
variable (s : State) (a : Nat) (b : Byte)

@[simp] theorem wrB_time : (wrB s a b).time = s.time := rfl
@[simp] theorem wrB_cursor : (wrB s a b).cursor = s.cursor := rfl
@[simp] theorem wrB_agenda : (wrB s a b).agenda = s.agenda := rfl
@[simp] theorem wrB_hand : (wrB s a b).hand = s.hand := rfl
@[simp] theorem wrB_freeCtr : (wrB s a b).freeCtr = s.freeCtr := rfl
@[simp] theorem wrB_fresh : (wrB s a b).fresh = s.fresh := rfl
@[simp] theorem wrB_live : (wrB s a b).live = s.live := rfl
@[simp] theorem wrB_boot : (wrB s a b).boot = s.boot := rfl
@[simp] theorem wrB_bootSlot : (wrB s a b).bootSlot = s.bootSlot := rfl
@[simp] theorem wrB_pins : (wrB s a b).pins = s.pins := rfl
@[simp] theorem wrB_trained : (wrB s a b).trained = s.trained := rfl
@[simp] theorem wrB_tested : (wrB s a b).tested = s.tested := rfl
@[simp] theorem wrB_halted : (wrB s a b).halted = s.halted := rfl
@[simp] theorem wrB_mf : (wrB s a b).mf = s.mf := rfl
@[simp] theorem wrB_mem : (wrB s a b).mem = s.mem := rfl
@[simp] theorem wrB_wbuf : (wrB s a b).wbuf = .byte a b :: s.wbuf := rfl
@[simp] theorem wrB_held : (wrB s a b).held = s.held := rfl
@[simp] theorem wrB_passed : (wrB s a b).passed = s.passed := rfl
@[simp] theorem wrB_needs : (wrB s a b).needs = s.needs := rfl
@[simp] theorem wrB_walked : (wrB s a b).walked = s.walked := rfl
@[simp] theorem wrB_shut : (wrB s a b).shut = s.shut := rfl
@[simp] theorem wrB_ptags : (wrB s a b).ptags = s.ptags := rfl
@[simp] theorem wrB_poison : (wrB s a b).poison = s.poison := rfl
@[simp] theorem wrB_eccNew : (wrB s a b).eccNew = s.eccNew := rfl
@[simp] theorem wrB_dirs : (wrB s a b).dirs = s.dirs := rfl
@[simp] theorem wrB_rsv : (wrB s a b).rsv = s.rsv := rfl
@[simp] theorem wrB_waits : (wrB s a b).waits = s.waits := rfl
@[simp] theorem wrB_arms : (wrB s a b).arms = s.arms := rfl
@[simp] theorem wrB_threads : (wrB s a b).threads = s.threads := rfl
@[simp] theorem wrB_stations : (wrB s a b).stations = s.stations := rfl
@[simp] theorem wrB_elems : (wrB s a b).elems = s.elems := rfl
@[simp] theorem wrB_clusters : (wrB s a b).clusters = s.clusters := rfl
@[simp] theorem wrB_parts : (wrB s a b).parts = s.parts := rfl
@[simp] theorem wrB_reqs : (wrB s a b).reqs = s.reqs := rfl
@[simp] theorem wrB_gaccs : (wrB s a b).gaccs = s.gaccs := rfl
@[simp] theorem wrB_pkts : (wrB s a b).pkts = s.pkts := rfl
@[simp] theorem wrB_msgs : (wrB s a b).msgs = s.msgs := rfl
@[simp] theorem wrB_cfg : (wrB s a b).cfg = s.cfg := rfl
@[simp] theorem wrB_cmdStatus : (wrB s a b).cmdStatus = s.cmdStatus := rfl
@[simp] theorem wrB_errlog : (wrB s a b).errlog = s.errlog := rfl
@[simp] theorem wrB_errcount : (wrB s a b).errcount = s.errcount := rfl
@[simp] theorem wrB_domain : (wrB s a b).domain = s.domain := rfl
@[simp] theorem wrB_selftests : (wrB s a b).selftests = s.selftests := rfl
@[simp] theorem wrB_transients : (wrB s a b).transients = s.transients := rfl
@[simp] theorem wrB_retired : (wrB s a b).retired = s.retired := rfl
@[simp] theorem wrB_sessions : (wrB s a b).sessions = s.sessions := rfl
@[simp] theorem wrB_hostOps : (wrB s a b).hostOps = s.hostOps := rfl
@[simp] theorem wrB_nextSession : (wrB s a b).nextSession = s.nextSession := rfl
@[simp] theorem wrB_out : (wrB s a b).out = s.out := rfl
@[simp] theorem wrB_suspects : (wrB s a b).suspects = s.suspects := rfl
@[simp] theorem wrB_deadAgents : (wrB s a b).deadAgents = s.deadAgents := rfl
@[simp] theorem wrB_lanes : (wrB s a b).lanes = s.lanes := rfl
@[simp] theorem wrB_etherLanes : (wrB s a b).etherLanes = s.etherLanes := rfl
@[simp] theorem wrB_ethType : (wrB s a b).ethType = s.ethType := rfl
@[simp] theorem wrB_udpPort : (wrB s a b).udpPort = s.udpPort := rfl
@[simp] theorem wrB_narrow : (wrB s a b).narrow = s.narrow := rfl
@[simp] theorem wrB_linkUp : (wrB s a b).linkUp = s.linkUp := rfl
@[simp] theorem wrB_convs : (wrB s a b).convs = s.convs := rfl
@[simp] theorem wrB_netLast : (wrB s a b).netLast = s.netLast := rfl
@[simp] theorem wrB_toPeer : (wrB s a b).toPeer = s.toPeer := rfl
@[simp] theorem wrB_ctoks : (wrB s a b).ctoks = s.ctoks := rfl
@[simp] theorem wrB_shadow : (wrB s a b).shadow = s.shadow := rfl
@[simp] theorem wrB_shadowElems : (wrB s a b).shadowElems = s.shadowElems := rfl
@[simp] theorem wrB_shadowDone : (wrB s a b).shadowDone = s.shadowDone := rfl
@[simp] theorem wrB_shadowEvents : (wrB s a b).shadowEvents = s.shadowEvents := rfl
@[simp] theorem wrB_lateReplies : (wrB s a b).lateReplies = s.lateReplies := rfl
@[simp] theorem wrB_power : (wrB s a b).power = s.power := rfl

end

/-! ### clearMem -/

section
variable (s : State) (lo n : Nat)

@[simp] theorem clearMem_time : (clearMem s lo n).time = s.time := rfl
@[simp] theorem clearMem_cursor : (clearMem s lo n).cursor = s.cursor := rfl
@[simp] theorem clearMem_agenda : (clearMem s lo n).agenda = s.agenda := rfl
@[simp] theorem clearMem_hand : (clearMem s lo n).hand = s.hand := rfl
@[simp] theorem clearMem_freeCtr : (clearMem s lo n).freeCtr = s.freeCtr := rfl
@[simp] theorem clearMem_fresh : (clearMem s lo n).fresh = s.fresh := rfl
@[simp] theorem clearMem_live : (clearMem s lo n).live = s.live := rfl
@[simp] theorem clearMem_boot : (clearMem s lo n).boot = s.boot := rfl
@[simp] theorem clearMem_bootSlot : (clearMem s lo n).bootSlot = s.bootSlot := rfl
@[simp] theorem clearMem_pins : (clearMem s lo n).pins = s.pins := rfl
@[simp] theorem clearMem_trained : (clearMem s lo n).trained = s.trained := rfl
@[simp] theorem clearMem_tested : (clearMem s lo n).tested = s.tested := rfl
@[simp] theorem clearMem_halted : (clearMem s lo n).halted = s.halted := rfl
@[simp] theorem clearMem_mf : (clearMem s lo n).mf = s.mf := rfl
@[simp] theorem clearMem_mem : (clearMem s lo n).mem = s.mem := rfl
@[simp] theorem clearMem_wbuf : (clearMem s lo n).wbuf = .clear lo n :: s.wbuf := rfl
@[simp] theorem clearMem_held : (clearMem s lo n).held = s.held := rfl
@[simp] theorem clearMem_passed : (clearMem s lo n).passed = s.passed := rfl
@[simp] theorem clearMem_needs : (clearMem s lo n).needs = s.needs := rfl
@[simp] theorem clearMem_walked : (clearMem s lo n).walked = s.walked := rfl
@[simp] theorem clearMem_shut : (clearMem s lo n).shut = s.shut := rfl
@[simp] theorem clearMem_ptags : (clearMem s lo n).ptags = s.ptags := rfl
@[simp] theorem clearMem_poison : (clearMem s lo n).poison = s.poison := rfl
@[simp] theorem clearMem_eccNew : (clearMem s lo n).eccNew = s.eccNew := rfl
@[simp] theorem clearMem_dirs : (clearMem s lo n).dirs = s.dirs := rfl
@[simp] theorem clearMem_rsv : (clearMem s lo n).rsv = s.rsv := rfl
@[simp] theorem clearMem_waits : (clearMem s lo n).waits = s.waits := rfl
@[simp] theorem clearMem_arms : (clearMem s lo n).arms = s.arms := rfl
@[simp] theorem clearMem_threads : (clearMem s lo n).threads = s.threads := rfl
@[simp] theorem clearMem_stations : (clearMem s lo n).stations = s.stations := rfl
@[simp] theorem clearMem_elems : (clearMem s lo n).elems = s.elems := rfl
@[simp] theorem clearMem_clusters : (clearMem s lo n).clusters = s.clusters := rfl
@[simp] theorem clearMem_parts : (clearMem s lo n).parts = s.parts := rfl
@[simp] theorem clearMem_reqs : (clearMem s lo n).reqs = s.reqs := rfl
@[simp] theorem clearMem_gaccs : (clearMem s lo n).gaccs = s.gaccs := rfl
@[simp] theorem clearMem_pkts : (clearMem s lo n).pkts = s.pkts := rfl
@[simp] theorem clearMem_msgs : (clearMem s lo n).msgs = s.msgs := rfl
@[simp] theorem clearMem_cfg : (clearMem s lo n).cfg = s.cfg := rfl
@[simp] theorem clearMem_cmdStatus : (clearMem s lo n).cmdStatus = s.cmdStatus := rfl
@[simp] theorem clearMem_errlog : (clearMem s lo n).errlog = s.errlog := rfl
@[simp] theorem clearMem_errcount : (clearMem s lo n).errcount = s.errcount := rfl
@[simp] theorem clearMem_domain : (clearMem s lo n).domain = s.domain := rfl
@[simp] theorem clearMem_selftests : (clearMem s lo n).selftests = s.selftests := rfl
@[simp] theorem clearMem_transients : (clearMem s lo n).transients = s.transients := rfl
@[simp] theorem clearMem_retired : (clearMem s lo n).retired = s.retired := rfl
@[simp] theorem clearMem_sessions : (clearMem s lo n).sessions = s.sessions := rfl
@[simp] theorem clearMem_hostOps : (clearMem s lo n).hostOps = s.hostOps := rfl
@[simp] theorem clearMem_nextSession : (clearMem s lo n).nextSession = s.nextSession := rfl
@[simp] theorem clearMem_out : (clearMem s lo n).out = s.out := rfl
@[simp] theorem clearMem_suspects : (clearMem s lo n).suspects = s.suspects := rfl
@[simp] theorem clearMem_deadAgents : (clearMem s lo n).deadAgents = s.deadAgents := rfl
@[simp] theorem clearMem_lanes : (clearMem s lo n).lanes = s.lanes := rfl
@[simp] theorem clearMem_etherLanes : (clearMem s lo n).etherLanes = s.etherLanes := rfl
@[simp] theorem clearMem_ethType : (clearMem s lo n).ethType = s.ethType := rfl
@[simp] theorem clearMem_udpPort : (clearMem s lo n).udpPort = s.udpPort := rfl
@[simp] theorem clearMem_narrow : (clearMem s lo n).narrow = s.narrow := rfl
@[simp] theorem clearMem_linkUp : (clearMem s lo n).linkUp = s.linkUp := rfl
@[simp] theorem clearMem_convs : (clearMem s lo n).convs = s.convs := rfl
@[simp] theorem clearMem_netLast : (clearMem s lo n).netLast = s.netLast := rfl
@[simp] theorem clearMem_toPeer : (clearMem s lo n).toPeer = s.toPeer := rfl
@[simp] theorem clearMem_ctoks : (clearMem s lo n).ctoks = s.ctoks := rfl
@[simp] theorem clearMem_shadow : (clearMem s lo n).shadow = s.shadow := rfl
@[simp] theorem clearMem_shadowElems : (clearMem s lo n).shadowElems = s.shadowElems := rfl
@[simp] theorem clearMem_shadowDone : (clearMem s lo n).shadowDone = s.shadowDone := rfl
@[simp] theorem clearMem_shadowEvents : (clearMem s lo n).shadowEvents = s.shadowEvents := rfl
@[simp] theorem clearMem_lateReplies : (clearMem s lo n).lateReplies = s.lateReplies := rfl
@[simp] theorem clearMem_power : (clearMem s lo n).power = s.power := rfl

end

/-! ### settle -/

section
variable (s0 s : State)

@[simp] theorem settle_time : (settle s0 s).time = s.time := rfl
@[simp] theorem settle_cursor : (settle s0 s).cursor = s.cursor := rfl
@[simp] theorem settle_agenda : (settle s0 s).agenda = s.agenda := rfl
@[simp] theorem settle_hand : (settle s0 s).hand = s.hand := rfl
@[simp] theorem settle_freeCtr : (settle s0 s).freeCtr = s.freeCtr := rfl
@[simp] theorem settle_fresh : (settle s0 s).fresh = s.fresh := rfl
@[simp] theorem settle_live : (settle s0 s).live = s.live := rfl
@[simp] theorem settle_boot : (settle s0 s).boot = s.boot := rfl
@[simp] theorem settle_bootSlot : (settle s0 s).bootSlot = s.bootSlot := rfl
@[simp] theorem settle_pins : (settle s0 s).pins = s.pins := rfl
@[simp] theorem settle_trained : (settle s0 s).trained = s.trained := rfl
@[simp] theorem settle_tested : (settle s0 s).tested = s.tested := rfl
@[simp] theorem settle_halted : (settle s0 s).halted = s.halted := rfl
@[simp] theorem settle_mf : (settle s0 s).mf = s.mf := rfl
@[simp] theorem settle_mem : (settle s0 s).mem = s.wbuf.foldr applyMem s0.mem := rfl
@[simp] theorem settle_wbuf : (settle s0 s).wbuf = [] := rfl
@[simp] theorem settle_held : (settle s0 s).held = s.held := rfl
@[simp] theorem settle_passed : (settle s0 s).passed = s.passed := rfl
@[simp] theorem settle_needs : (settle s0 s).needs = s.needs := rfl
@[simp] theorem settle_walked : (settle s0 s).walked = s.walked := rfl
@[simp] theorem settle_shut : (settle s0 s).shut = s.shut := rfl
@[simp] theorem settle_ptags : (settle s0 s).ptags = s.ptags := rfl
@[simp] theorem settle_poison : (settle s0 s).poison = s.poison := rfl
@[simp] theorem settle_eccNew : (settle s0 s).eccNew = s.eccNew := rfl
@[simp] theorem settle_dirs : (settle s0 s).dirs = s.dirs := rfl
@[simp] theorem settle_rsv : (settle s0 s).rsv = s.rsv := rfl
@[simp] theorem settle_waits : (settle s0 s).waits = s.waits := rfl
@[simp] theorem settle_arms : (settle s0 s).arms = s.arms := rfl
@[simp] theorem settle_threads : (settle s0 s).threads = s.threads := rfl
@[simp] theorem settle_stations : (settle s0 s).stations = s.stations := rfl
@[simp] theorem settle_elems : (settle s0 s).elems = s.elems := rfl
@[simp] theorem settle_clusters : (settle s0 s).clusters = s.clusters := rfl
@[simp] theorem settle_parts : (settle s0 s).parts = s.parts := rfl
@[simp] theorem settle_reqs : (settle s0 s).reqs = s.reqs := rfl
@[simp] theorem settle_gaccs : (settle s0 s).gaccs = s.gaccs := rfl
@[simp] theorem settle_pkts : (settle s0 s).pkts = s.pkts := rfl
@[simp] theorem settle_msgs : (settle s0 s).msgs = s.msgs := rfl
@[simp] theorem settle_cfg : (settle s0 s).cfg = s.cfg := rfl
@[simp] theorem settle_cmdStatus : (settle s0 s).cmdStatus = s.cmdStatus := rfl
@[simp] theorem settle_errlog : (settle s0 s).errlog = s.errlog := rfl
@[simp] theorem settle_errcount : (settle s0 s).errcount = s.errcount := rfl
@[simp] theorem settle_domain : (settle s0 s).domain = s.domain := rfl
@[simp] theorem settle_selftests : (settle s0 s).selftests = s.selftests := rfl
@[simp] theorem settle_transients : (settle s0 s).transients = s.transients := rfl
@[simp] theorem settle_retired : (settle s0 s).retired = s.retired := rfl
@[simp] theorem settle_sessions : (settle s0 s).sessions = s.sessions := rfl
@[simp] theorem settle_hostOps : (settle s0 s).hostOps = s.hostOps := rfl
@[simp] theorem settle_nextSession : (settle s0 s).nextSession = s.nextSession := rfl
@[simp] theorem settle_out : (settle s0 s).out = s.out := rfl
@[simp] theorem settle_suspects : (settle s0 s).suspects = s.suspects := rfl
@[simp] theorem settle_deadAgents : (settle s0 s).deadAgents = s.deadAgents := rfl
@[simp] theorem settle_lanes : (settle s0 s).lanes = s.lanes := rfl
@[simp] theorem settle_etherLanes : (settle s0 s).etherLanes = s.etherLanes := rfl
@[simp] theorem settle_ethType : (settle s0 s).ethType = s.ethType := rfl
@[simp] theorem settle_udpPort : (settle s0 s).udpPort = s.udpPort := rfl
@[simp] theorem settle_narrow : (settle s0 s).narrow = s.narrow := rfl
@[simp] theorem settle_linkUp : (settle s0 s).linkUp = s.linkUp := rfl
@[simp] theorem settle_convs : (settle s0 s).convs = s.convs := rfl
@[simp] theorem settle_netLast : (settle s0 s).netLast = s.netLast := rfl
@[simp] theorem settle_toPeer : (settle s0 s).toPeer = s.toPeer := rfl
@[simp] theorem settle_ctoks : (settle s0 s).ctoks = s.ctoks := rfl
@[simp] theorem settle_shadow : (settle s0 s).shadow = s.shadow := rfl
@[simp] theorem settle_shadowElems : (settle s0 s).shadowElems = s.shadowElems := rfl
@[simp] theorem settle_shadowDone : (settle s0 s).shadowDone = s.shadowDone := rfl
@[simp] theorem settle_shadowEvents : (settle s0 s).shadowEvents = s.shadowEvents := rfl
@[simp] theorem settle_lateReplies : (settle s0 s).lateReplies = s.lateReplies := rfl
@[simp] theorem settle_power : (settle s0 s).power = s.power := rfl

end

/-! ### draw -/

section
variable (s : State) (n : Nat)

@[simp] theorem draw_snd_time : (draw s n).2.time = s.time := rfl
@[simp] theorem draw_snd_cursor : (draw s n).2.cursor = s.cursor := rfl
@[simp] theorem draw_snd_agenda : (draw s n).2.agenda = s.agenda := rfl
@[simp] theorem draw_snd_hand : (draw s n).2.hand = s.hand := rfl
@[simp] theorem draw_snd_freeCtr : (draw s n).2.freeCtr = s.freeCtr + 1 := rfl
@[simp] theorem draw_snd_fresh : (draw s n).2.fresh = s.fresh := rfl
@[simp] theorem draw_snd_live : (draw s n).2.live = s.live := rfl
@[simp] theorem draw_snd_boot : (draw s n).2.boot = s.boot := rfl
@[simp] theorem draw_snd_bootSlot : (draw s n).2.bootSlot = s.bootSlot := rfl
@[simp] theorem draw_snd_pins : (draw s n).2.pins = s.pins := rfl
@[simp] theorem draw_snd_trained : (draw s n).2.trained = s.trained := rfl
@[simp] theorem draw_snd_tested : (draw s n).2.tested = s.tested := rfl
@[simp] theorem draw_snd_halted : (draw s n).2.halted = s.halted := rfl
@[simp] theorem draw_snd_mf : (draw s n).2.mf = s.mf := rfl
@[simp] theorem draw_snd_mem : (draw s n).2.mem = s.mem := rfl
@[simp] theorem draw_snd_wbuf : (draw s n).2.wbuf = s.wbuf := rfl
@[simp] theorem draw_snd_held : (draw s n).2.held = s.held := rfl
@[simp] theorem draw_snd_passed : (draw s n).2.passed = s.passed := rfl
@[simp] theorem draw_snd_needs : (draw s n).2.needs = s.needs := rfl
@[simp] theorem draw_snd_walked : (draw s n).2.walked = s.walked := rfl
@[simp] theorem draw_snd_shut : (draw s n).2.shut = s.shut := rfl
@[simp] theorem draw_snd_ptags : (draw s n).2.ptags = s.ptags := rfl
@[simp] theorem draw_snd_poison : (draw s n).2.poison = s.poison := rfl
@[simp] theorem draw_snd_eccNew : (draw s n).2.eccNew = s.eccNew := rfl
@[simp] theorem draw_snd_dirs : (draw s n).2.dirs = s.dirs := rfl
@[simp] theorem draw_snd_rsv : (draw s n).2.rsv = s.rsv := rfl
@[simp] theorem draw_snd_waits : (draw s n).2.waits = s.waits := rfl
@[simp] theorem draw_snd_arms : (draw s n).2.arms = s.arms := rfl
@[simp] theorem draw_snd_threads : (draw s n).2.threads = s.threads := rfl
@[simp] theorem draw_snd_stations : (draw s n).2.stations = s.stations := rfl
@[simp] theorem draw_snd_elems : (draw s n).2.elems = s.elems := rfl
@[simp] theorem draw_snd_clusters : (draw s n).2.clusters = s.clusters := rfl
@[simp] theorem draw_snd_parts : (draw s n).2.parts = s.parts := rfl
@[simp] theorem draw_snd_reqs : (draw s n).2.reqs = s.reqs := rfl
@[simp] theorem draw_snd_gaccs : (draw s n).2.gaccs = s.gaccs := rfl
@[simp] theorem draw_snd_pkts : (draw s n).2.pkts = s.pkts := rfl
@[simp] theorem draw_snd_msgs : (draw s n).2.msgs = s.msgs := rfl
@[simp] theorem draw_snd_cfg : (draw s n).2.cfg = s.cfg := rfl
@[simp] theorem draw_snd_cmdStatus : (draw s n).2.cmdStatus = s.cmdStatus := rfl
@[simp] theorem draw_snd_errlog : (draw s n).2.errlog = s.errlog := rfl
@[simp] theorem draw_snd_errcount : (draw s n).2.errcount = s.errcount := rfl
@[simp] theorem draw_snd_domain : (draw s n).2.domain = s.domain := rfl
@[simp] theorem draw_snd_selftests : (draw s n).2.selftests = s.selftests := rfl
@[simp] theorem draw_snd_transients : (draw s n).2.transients = s.transients := rfl
@[simp] theorem draw_snd_retired : (draw s n).2.retired = s.retired := rfl
@[simp] theorem draw_snd_sessions : (draw s n).2.sessions = s.sessions := rfl
@[simp] theorem draw_snd_hostOps : (draw s n).2.hostOps = s.hostOps := rfl
@[simp] theorem draw_snd_nextSession : (draw s n).2.nextSession = s.nextSession := rfl
@[simp] theorem draw_snd_out : (draw s n).2.out = s.out := rfl
@[simp] theorem draw_snd_suspects : (draw s n).2.suspects = s.suspects := rfl
@[simp] theorem draw_snd_deadAgents : (draw s n).2.deadAgents = s.deadAgents := rfl
@[simp] theorem draw_snd_lanes : (draw s n).2.lanes = s.lanes := rfl
@[simp] theorem draw_snd_etherLanes : (draw s n).2.etherLanes = s.etherLanes := rfl
@[simp] theorem draw_snd_ethType : (draw s n).2.ethType = s.ethType := rfl
@[simp] theorem draw_snd_udpPort : (draw s n).2.udpPort = s.udpPort := rfl
@[simp] theorem draw_snd_narrow : (draw s n).2.narrow = s.narrow := rfl
@[simp] theorem draw_snd_linkUp : (draw s n).2.linkUp = s.linkUp := rfl
@[simp] theorem draw_snd_convs : (draw s n).2.convs = s.convs := rfl
@[simp] theorem draw_snd_netLast : (draw s n).2.netLast = s.netLast := rfl
@[simp] theorem draw_snd_toPeer : (draw s n).2.toPeer = s.toPeer := rfl
@[simp] theorem draw_snd_ctoks : (draw s n).2.ctoks = s.ctoks := rfl
@[simp] theorem draw_snd_shadow : (draw s n).2.shadow = s.shadow := rfl
@[simp] theorem draw_snd_shadowElems : (draw s n).2.shadowElems = s.shadowElems := rfl
@[simp] theorem draw_snd_shadowDone : (draw s n).2.shadowDone = s.shadowDone := rfl
@[simp] theorem draw_snd_shadowEvents : (draw s n).2.shadowEvents = s.shadowEvents := rfl
@[simp] theorem draw_snd_lateReplies : (draw s n).2.lateReplies = s.lateReplies := rfl
@[simp] theorem draw_snd_power : (draw s n).2.power = s.power := rfl

end

/-! ### freshId -/

section
variable (s : State)

@[simp] theorem freshId_snd_time : (freshId s).2.time = s.time := rfl
@[simp] theorem freshId_snd_cursor : (freshId s).2.cursor = s.cursor := rfl
@[simp] theorem freshId_snd_agenda : (freshId s).2.agenda = s.agenda := rfl
@[simp] theorem freshId_snd_hand : (freshId s).2.hand = s.hand := rfl
@[simp] theorem freshId_snd_freeCtr : (freshId s).2.freeCtr = s.freeCtr := rfl
@[simp] theorem freshId_snd_fresh : (freshId s).2.fresh = s.fresh + 1 := rfl
@[simp] theorem freshId_snd_live : (freshId s).2.live = s.live := rfl
@[simp] theorem freshId_snd_boot : (freshId s).2.boot = s.boot := rfl
@[simp] theorem freshId_snd_bootSlot : (freshId s).2.bootSlot = s.bootSlot := rfl
@[simp] theorem freshId_snd_pins : (freshId s).2.pins = s.pins := rfl
@[simp] theorem freshId_snd_trained : (freshId s).2.trained = s.trained := rfl
@[simp] theorem freshId_snd_tested : (freshId s).2.tested = s.tested := rfl
@[simp] theorem freshId_snd_halted : (freshId s).2.halted = s.halted := rfl
@[simp] theorem freshId_snd_mf : (freshId s).2.mf = s.mf := rfl
@[simp] theorem freshId_snd_mem : (freshId s).2.mem = s.mem := rfl
@[simp] theorem freshId_snd_wbuf : (freshId s).2.wbuf = s.wbuf := rfl
@[simp] theorem freshId_snd_held : (freshId s).2.held = s.held := rfl
@[simp] theorem freshId_snd_passed : (freshId s).2.passed = s.passed := rfl
@[simp] theorem freshId_snd_needs : (freshId s).2.needs = s.needs := rfl
@[simp] theorem freshId_snd_walked : (freshId s).2.walked = s.walked := rfl
@[simp] theorem freshId_snd_shut : (freshId s).2.shut = s.shut := rfl
@[simp] theorem freshId_snd_ptags : (freshId s).2.ptags = s.ptags := rfl
@[simp] theorem freshId_snd_poison : (freshId s).2.poison = s.poison := rfl
@[simp] theorem freshId_snd_eccNew : (freshId s).2.eccNew = s.eccNew := rfl
@[simp] theorem freshId_snd_dirs : (freshId s).2.dirs = s.dirs := rfl
@[simp] theorem freshId_snd_rsv : (freshId s).2.rsv = s.rsv := rfl
@[simp] theorem freshId_snd_waits : (freshId s).2.waits = s.waits := rfl
@[simp] theorem freshId_snd_arms : (freshId s).2.arms = s.arms := rfl
@[simp] theorem freshId_snd_threads : (freshId s).2.threads = s.threads := rfl
@[simp] theorem freshId_snd_stations : (freshId s).2.stations = s.stations := rfl
@[simp] theorem freshId_snd_elems : (freshId s).2.elems = s.elems := rfl
@[simp] theorem freshId_snd_clusters : (freshId s).2.clusters = s.clusters := rfl
@[simp] theorem freshId_snd_parts : (freshId s).2.parts = s.parts := rfl
@[simp] theorem freshId_snd_reqs : (freshId s).2.reqs = s.reqs := rfl
@[simp] theorem freshId_snd_gaccs : (freshId s).2.gaccs = s.gaccs := rfl
@[simp] theorem freshId_snd_pkts : (freshId s).2.pkts = s.pkts := rfl
@[simp] theorem freshId_snd_msgs : (freshId s).2.msgs = s.msgs := rfl
@[simp] theorem freshId_snd_cfg : (freshId s).2.cfg = s.cfg := rfl
@[simp] theorem freshId_snd_cmdStatus : (freshId s).2.cmdStatus = s.cmdStatus := rfl
@[simp] theorem freshId_snd_errlog : (freshId s).2.errlog = s.errlog := rfl
@[simp] theorem freshId_snd_errcount : (freshId s).2.errcount = s.errcount := rfl
@[simp] theorem freshId_snd_domain : (freshId s).2.domain = s.domain := rfl
@[simp] theorem freshId_snd_selftests : (freshId s).2.selftests = s.selftests := rfl
@[simp] theorem freshId_snd_transients : (freshId s).2.transients = s.transients := rfl
@[simp] theorem freshId_snd_retired : (freshId s).2.retired = s.retired := rfl
@[simp] theorem freshId_snd_sessions : (freshId s).2.sessions = s.sessions := rfl
@[simp] theorem freshId_snd_hostOps : (freshId s).2.hostOps = s.hostOps := rfl
@[simp] theorem freshId_snd_nextSession : (freshId s).2.nextSession = s.nextSession := rfl
@[simp] theorem freshId_snd_out : (freshId s).2.out = s.out := rfl
@[simp] theorem freshId_snd_suspects : (freshId s).2.suspects = s.suspects := rfl
@[simp] theorem freshId_snd_deadAgents : (freshId s).2.deadAgents = s.deadAgents := rfl
@[simp] theorem freshId_snd_lanes : (freshId s).2.lanes = s.lanes := rfl
@[simp] theorem freshId_snd_etherLanes : (freshId s).2.etherLanes = s.etherLanes := rfl
@[simp] theorem freshId_snd_ethType : (freshId s).2.ethType = s.ethType := rfl
@[simp] theorem freshId_snd_udpPort : (freshId s).2.udpPort = s.udpPort := rfl
@[simp] theorem freshId_snd_narrow : (freshId s).2.narrow = s.narrow := rfl
@[simp] theorem freshId_snd_linkUp : (freshId s).2.linkUp = s.linkUp := rfl
@[simp] theorem freshId_snd_convs : (freshId s).2.convs = s.convs := rfl
@[simp] theorem freshId_snd_netLast : (freshId s).2.netLast = s.netLast := rfl
@[simp] theorem freshId_snd_toPeer : (freshId s).2.toPeer = s.toPeer := rfl
@[simp] theorem freshId_snd_ctoks : (freshId s).2.ctoks = s.ctoks := rfl
@[simp] theorem freshId_snd_shadow : (freshId s).2.shadow = s.shadow := rfl
@[simp] theorem freshId_snd_shadowElems : (freshId s).2.shadowElems = s.shadowElems := rfl
@[simp] theorem freshId_snd_shadowDone : (freshId s).2.shadowDone = s.shadowDone := rfl
@[simp] theorem freshId_snd_shadowEvents : (freshId s).2.shadowEvents = s.shadowEvents := rfl
@[simp] theorem freshId_snd_lateReplies : (freshId s).2.lateReplies = s.lateReplies := rfl
@[simp] theorem freshId_snd_power : (freshId s).2.power = s.power := rfl

end

/-! ### within -/

section
variable (s : State) (n : Nat) (e : Event)

@[simp] theorem within_time : (within s n e).time = s.time := rfl
@[simp] theorem within_cursor : (within s n e).cursor = s.cursor := rfl
@[simp] theorem within_agenda : (within s n e).agenda = s.agenda ++ [(s.time + (1 + (draw s n).1), e)] := rfl
@[simp] theorem within_hand : (within s n e).hand = s.hand := rfl
@[simp] theorem within_freeCtr : (within s n e).freeCtr = s.freeCtr + 1 := rfl
@[simp] theorem within_fresh : (within s n e).fresh = s.fresh := rfl
@[simp] theorem within_live : (within s n e).live = s.live := rfl
@[simp] theorem within_boot : (within s n e).boot = s.boot := rfl
@[simp] theorem within_bootSlot : (within s n e).bootSlot = s.bootSlot := rfl
@[simp] theorem within_pins : (within s n e).pins = s.pins := rfl
@[simp] theorem within_trained : (within s n e).trained = s.trained := rfl
@[simp] theorem within_tested : (within s n e).tested = s.tested := rfl
@[simp] theorem within_halted : (within s n e).halted = s.halted := rfl
@[simp] theorem within_mf : (within s n e).mf = s.mf := rfl
@[simp] theorem within_mem : (within s n e).mem = s.mem := rfl
@[simp] theorem within_wbuf : (within s n e).wbuf = s.wbuf := rfl
@[simp] theorem within_held : (within s n e).held = s.held := rfl
@[simp] theorem within_passed : (within s n e).passed = s.passed := rfl
@[simp] theorem within_needs : (within s n e).needs = s.needs := rfl
@[simp] theorem within_walked : (within s n e).walked = s.walked := rfl
@[simp] theorem within_shut : (within s n e).shut = s.shut := rfl
@[simp] theorem within_ptags : (within s n e).ptags = s.ptags := rfl
@[simp] theorem within_poison : (within s n e).poison = s.poison := rfl
@[simp] theorem within_eccNew : (within s n e).eccNew = s.eccNew := rfl
@[simp] theorem within_dirs : (within s n e).dirs = s.dirs := rfl
@[simp] theorem within_rsv : (within s n e).rsv = s.rsv := rfl
@[simp] theorem within_waits : (within s n e).waits = s.waits := rfl
@[simp] theorem within_arms : (within s n e).arms = s.arms := rfl
@[simp] theorem within_threads : (within s n e).threads = s.threads := rfl
@[simp] theorem within_stations : (within s n e).stations = s.stations := rfl
@[simp] theorem within_elems : (within s n e).elems = s.elems := rfl
@[simp] theorem within_clusters : (within s n e).clusters = s.clusters := rfl
@[simp] theorem within_parts : (within s n e).parts = s.parts := rfl
@[simp] theorem within_reqs : (within s n e).reqs = s.reqs := rfl
@[simp] theorem within_gaccs : (within s n e).gaccs = s.gaccs := rfl
@[simp] theorem within_pkts : (within s n e).pkts = s.pkts := rfl
@[simp] theorem within_msgs : (within s n e).msgs = s.msgs := rfl
@[simp] theorem within_cfg : (within s n e).cfg = s.cfg := rfl
@[simp] theorem within_cmdStatus : (within s n e).cmdStatus = s.cmdStatus := rfl
@[simp] theorem within_errlog : (within s n e).errlog = s.errlog := rfl
@[simp] theorem within_errcount : (within s n e).errcount = s.errcount := rfl
@[simp] theorem within_domain : (within s n e).domain = s.domain := rfl
@[simp] theorem within_selftests : (within s n e).selftests = s.selftests := rfl
@[simp] theorem within_transients : (within s n e).transients = s.transients := rfl
@[simp] theorem within_retired : (within s n e).retired = s.retired := rfl
@[simp] theorem within_sessions : (within s n e).sessions = s.sessions := rfl
@[simp] theorem within_hostOps : (within s n e).hostOps = s.hostOps := rfl
@[simp] theorem within_nextSession : (within s n e).nextSession = s.nextSession := rfl
@[simp] theorem within_out : (within s n e).out = s.out := rfl
@[simp] theorem within_suspects : (within s n e).suspects = s.suspects := rfl
@[simp] theorem within_deadAgents : (within s n e).deadAgents = s.deadAgents := rfl
@[simp] theorem within_lanes : (within s n e).lanes = s.lanes := rfl
@[simp] theorem within_etherLanes : (within s n e).etherLanes = s.etherLanes := rfl
@[simp] theorem within_ethType : (within s n e).ethType = s.ethType := rfl
@[simp] theorem within_udpPort : (within s n e).udpPort = s.udpPort := rfl
@[simp] theorem within_narrow : (within s n e).narrow = s.narrow := rfl
@[simp] theorem within_linkUp : (within s n e).linkUp = s.linkUp := rfl
@[simp] theorem within_convs : (within s n e).convs = s.convs := rfl
@[simp] theorem within_netLast : (within s n e).netLast = s.netLast := rfl
@[simp] theorem within_toPeer : (within s n e).toPeer = s.toPeer := rfl
@[simp] theorem within_ctoks : (within s n e).ctoks = s.ctoks := rfl
@[simp] theorem within_shadow : (within s n e).shadow = s.shadow := rfl
@[simp] theorem within_shadowElems : (within s n e).shadowElems = s.shadowElems := rfl
@[simp] theorem within_shadowDone : (within s n e).shadowDone = s.shadowDone := rfl
@[simp] theorem within_shadowEvents : (within s n e).shadowEvents = s.shadowEvents := rfl
@[simp] theorem within_lateReplies : (within s n e).lateReplies = s.lateReplies := rfl
@[simp] theorem within_power : (within s n e).power = s.power := rfl

end

end Sys2Proof.Machine
end

