-- ==== Sys2Proof/Laws/Access.lean ====
section
/-! SUPPORT. Laws of the accessors: memory of the step, threads, stations, registers. -/

namespace Sys2Proof.Machine

/-! ### Memory of the step (log 3) -/

theorem mwf_applyMem {m : KMap Byte} (op : MemOp) (h : mwf m = true) : mwf (applyMem op m) = true := by
  cases op with
  | byte a b => exact mwf_mput a b h
  | clear lo n => exact mwf_mclear lo n h

theorem mwf_foldr {m : KMap Byte} (l : List MemOp) (h : mwf m = true) : mwf (l.foldr applyMem m) = true := by
  induction l with
  | nil => exact h
  | cons op l ih => exact mwf_applyMem op ih

/-- Every step's end leaves memory in its canonical form. -/
theorem mwf_settle {s0 : State} (s : State) (h : mwf s0.mem = true) : mwf (settle s0 s).mem = true := mwf_foldr s.wbuf h

theorem mget_foldr (l : List MemOp) (m : KMap Byte) (a : Nat) :
    mget (l.foldr applyMem m) a = (wbufGet l a).getD (mget m a) := by
  induction l with
  | nil => simp [wbufGet]
  | cons op l ih =>
    cases op with
    | byte b v => simp only [List.foldr_cons, applyMem, mget_mput, ih, wbufGet]; split <;> simp
    | clear lo n => simp only [List.foldr_cons, applyMem, mget_mclear, ih, wbufGet]; split <;> simp

/-- What a byte reads as after a step: the step's last write of it, else what it was. -/
theorem rdB_settle (s0 s : State) (a : Nat) : rdB (settle s0 s) a = (wbufGet s.wbuf a).getD (mget s0.mem a) := by
  simp [rdB, wbufGet, mget_foldr]

theorem rdB_wrB (s : State) (a x : Nat) (b : Byte) : rdB (wrB s a b) x = if a = x then b else rdB s x := by
  simp only [rdB, wrB_wbuf, wrB_mem, wbufGet]; split <;> simp

theorem rdB_clearMem (s : State) (lo n x : Nat) :
    rdB (clearMem s lo n) x = if lo ≤ x ∧ x < lo + n then 0 else rdB s x := by
  simp only [rdB, clearMem_wbuf, clearMem_mem, wbufGet]; split <;> simp

/-- A step that gathers no write leaves every byte. -/
theorem rdB_settle_of_wbuf {s0 s : State} (h : s0.wbuf = []) (hs : s.wbuf = []) (a : Nat) :
    rdB (settle s0 s) a = rdB s0 a := by
  simp [hs, wbufGet, rdB, h]

/-! ### Threads, stations, partitions -/

@[simp] theorem getThr_setThr (s : State) (th : Thread) : getThr (setThr s th) th.tid = some th := by
  simp [getThr]

theorem getThr_setThr_other (s : State) (th : Thread) {t : Word} (h : th.tid ≠ t) : getThr (setThr s th) t = getThr s t := by
  simp only [getThr, setThr_threads]
  exact kget_kput_other _ _ fun e => h (BitVec.eq_of_toNat_eq e)

@[simp] theorem stn_modStn (s : State) (i : Nat) (f : Station → Station) : stn (modStn s i f) i = f (stn s i) := by
  simp [stn]

theorem stn_modStn_other (s : State) {i j : Nat} (f : Station → Station) (h : i ≠ j) : stn (modStn s i f) j = stn s j := by
  simp [stn, kget_kput_other _ _ h]

@[simp] theorem part_modPart (s : State) (p : Nat) (f : Partition → Partition) : part (modPart s p f) p = f (part s p) := by
  simp [part]

theorem part_modPart_other (s : State) {p q : Nat} (f : Partition → Partition) (h : p ≠ q) :
    part (modPart s p f) q = part s q := by
  simp [part, kget_kput_other _ _ h]

@[simp] theorem elemAt_modElem (s : State) (st e : Nat) (f : Elem → Elem) : elemAt (modElem s st e f) st e = f (elemAt s st e) := by
  simp [elemAt]

@[simp] theorem clus_modClus (s : State) (c : Nat) (f : Cluster → Cluster) : clus (modClus s c f) c = f (clus s c) := by
  simp [clus]

@[simp] theorem getThr_settle (s0 s : State) (t : Word) : getThr (settle s0 s) t = getThr s t := rfl
@[simp] theorem stn_settle (s0 s : State) (i : Nat) : stn (settle s0 s) i = stn s i := rfl
@[simp] theorem part_settle (s0 s : State) (p : Nat) : part (settle s0 s) p = part s p := rfl
@[simp] theorem elemAt_settle (s0 s : State) (st e : Nat) : elemAt (settle s0 s) st e = elemAt s st e := rfl
@[simp] theorem clus_settle (s0 s : State) (c : Nat) : clus (settle s0 s) c = clus s c := rfl

/-! ### Registers (R73, R75) -/

theorem rg_zero (th : Thread) : rg th 0 = 0 := by simp [rg]
theorem wg_zero (th : Thread) (x : DWord) : wg th 0 x = th := by simp [wg]
theorem rk_zero (th : Thread) : rk th 0 = 0xFFFF := by simp [rk]
theorem wk_zero (th : Thread) (x : BitVec 16) : wk th 0 x = th := by simp [wk]

theorem rg_of_ne (th : Thread) {r : BitVec 5} (h : r ≠ 0) : rg th r = th.g[r.toNat]'r.isLt := if_neg h
theorem wg_of_ne (th : Thread) {r : BitVec 5} (x : DWord) (h : r ≠ 0) :
    wg th r x = { th with g := th.g.set r.toNat x r.isLt } := if_neg h

theorem rg_wg (th : Thread) {r : BitVec 5} (x : DWord) (h : r ≠ 0) : rg (wg th r x) r = x := by
  rw [rg_of_ne _ h, wg_of_ne _ _ h]
  exact Vector.getElem_set_self r.isLt

theorem rg_wg_other (th : Thread) {r q : BitVec 5} (x : DWord) (h : r ≠ q) : rg (wg th r x) q = rg th q := by
  have ne : r.toNat ≠ q.toNat := fun e => h (BitVec.eq_of_toNat_eq e)
  by_cases hr : r = 0
  · rw [hr, wg_zero]
  by_cases hq : q = 0
  · rw [hq, rg_zero, rg_zero]
  rw [rg_of_ne _ hq, rg_of_ne _ hq, wg_of_ne _ _ hr]
  exact Vector.getElem_set_ne r.isLt q.isLt ne

/-- Writing a general register changes nothing else of the thread. -/
theorem wg_frame (th : Thread) (r : BitVec 5) (x : DWord) : wg th r x = { th with g := (wg th r x).g } := by
  unfold wg; split <;> rfl

@[simp] theorem wg_pc (th : Thread) (r : BitVec 5) (x : DWord) : (wg th r x).pc = th.pc := by unfold wg; split <;> rfl
@[simp] theorem wg_tid (th : Thread) (r : BitVec 5) (x : DWord) : (wg th r x).tid = th.tid := by unfold wg; split <;> rfl
@[simp] theorem wg_ops (th : Thread) (r : BitVec 5) (x : DWord) : (wg th r x).ops = th.ops := by unfold wg; split <;> rfl
@[simp] theorem wg_v (th : Thread) (r : BitVec 5) (x : DWord) : (wg th r x).v = th.v := by unfold wg; split <;> rfl
@[simp] theorem wg_station (th : Thread) (r : BitVec 5) (x : DWord) : (wg th r x).station = th.station := by
  unfold wg; split <;> rfl

end Sys2Proof.Machine
end

