-- ==== Sys2Proof/Laws/Exec.lean ====
section
/-! SUPPORT. Laws of how a row is performed: what an issued instruction, an event and a firing answer, said once. -/

namespace Sys2Proof.Laws

open Sys2Proof Machine

set_option maxRecDepth 4000

/-! ### Every row -/

/-- Every arm performs its row: a next state with the gathered memory operations applied, or the fault of a row without an agent. -/
theorem exec_performs (i : Instr) (s : State) : ∃ r, exec i s = perform s r := by
  cases i <;> exact ⟨_, rfl⟩

/-- A row that answers a next state. -/
theorem perform_next {s t : State} {r : Option State} (h : perform s r = .next t) : ∃ u, r = some u ∧ t = settle s u := by
  cases r with
  | none => cases h
  | some u => exact ⟨u, rfl, (Host.Outcome.next.inj h).symm⟩

/-! ### Instructions (R32, R35, R479) -/

/-- A ready instruction that needs no marker answers what its meaning computes. -/
theorem issue_ok {s : State} {w : Bool} {th : Thread} {k : State → Thread → Res} {u : State} (h : Ready s w th)
    (hk : k s th = .ok u) : issue w s k = .next (settle s u) := by
  have : (if w = true then atMarker s th else none) = none := by
    split
    · next hw => simp [atMarker, outstanding, h.2.2 hw]
    · rfl
  simp only [issue, h.1, this, hk, perform]

/-- A ready instruction whose check fails traps from the state before it. -/
theorem issue_err {s : State} {w : Bool} {th : Thread} {k : State → Thread → Res} {t : PendTrap} (h : Ready s w th)
    (hk : k s th = .error t) : issue w s k = .next (settle s (takeTrap s th t)) := by
  have : (if w = true then atMarker s th else none) = none := by
    split
    · next hw => simp [atMarker, outstanding, h.2.2 hw]
    · rfl
  simp only [issue, h.1, this, hk, perform]

theorem issueThr_ok {s : State} {w : Bool} {th : Thread} {f : Thread → Thread} (h : Ready s w th) :
    issueThr w s f = .next (settle s (setThr s (nextPc (f th)))) := issue_ok h rfl

theorem gives_ok {s : State} {w : Bool} {th : Thread} {i : Instr} {k : State → Thread → Res} {u : State} (h : Ready s w th)
    (hi : exec i s = issue w s k) (hk : k s th = .ok u) : Gives i s u := hi.trans (issue_ok h hk)

theorem gives_err {s : State} {w : Bool} {th : Thread} {i : Instr} {k : State → Thread → Res} {t : PendTrap} (h : Ready s w th)
    (hi : exec i s = issue w s k) (hk : k s th = .error t) : Gives i s (takeTrap s th t) := hi.trans (issue_err h hk)

/-- An instruction with a marker is ready for one without. -/
theorem ready_weaken {s : State} {th : Thread} (h : Ready s true th) (w : Bool) : Ready s w th := ⟨h.1, h.2.1, fun _ => h.2.2 rfl⟩

/-- A thread without outstanding operations is ready for a marker. -/
theorem ready_strengthen {s : State} {w : Bool} {th : Thread} (h : Ready s w th) (ho : th.ops = []) : Ready s true th :=
  ⟨h.1, h.2.1, fun _ => ho⟩

/-- At a marker a thread with an operation outstanding parks (R35). -/
theorem issue_waits {s : State} {th : Thread} {k : State → Thread → Res} (h : focus s = some th) (ho : outstanding th = true) :
    issue true s k = .next (settle s (drainFor (parkThr s th .marker) th)) := by
  simp [issue, h, atMarker, ho, perform]

/-! ### Events (log 3) -/

/-- The event in hand, performed. -/
theorem onEvent_some {s u : State} {e : Event} {k : Event → Option State} (hk : k e = some u) (hs : s.hand = .event e) :
    onEvent s k = .next (settle s u) := by simp [onEvent, hs, hk, perform]

/-! ### Firings (R106, R108) -/

/-- What a firing comes to, a token that waited before a full matching store let in. -/
def landed (u : State) (f : Firing) (pn : Nat) (c : Consist) : State :=
  if (elemAt u f.st f.elem).link.isEmpty then u else enterWaiting u pn c.cid f.st f.elem

theorem withFiring_ok {s : State} {f : Firing} {pn : Nat} {c : Consist} {k : State → Nat → Consist → Firing → State}
    (h : FiresOn s f pn c) : withFiring s k = .next (settle s (landed (k (fired s f pn c) pn c f) f pn c)) := by
  unfold withFiring firingOf
  simp only [h.1, h.2, Option.map_some, perform]
  rfl

/-- An op on data tokens. -/
theorem byKind_data {s : State} {f : Firing} {pn : Nat} {c : Consist} {a b : Token} {l : Nat} {k : Token → Token → State}
    (ho : Operands f a b) (ha : a.kind = 0) (hb : b.kind = 0) : byKind s pn c f l k = k a b := by
  simp [byKind, ho.1, ho.2, ha, hb]

/-- Equal tokens that are not data go on as one. -/
theorem byKind_mark {s : State} {f : Firing} {pn : Nat} {c : Consist} {a b : Token} {l : Nat} {k : Token → Token → State}
    (ho : Operands f a b) (he : a.kind = b.kind) (h0 : a.kind ≠ 0) :
    byKind s pn c f l k = sendAll s f (both (kindTok a.kind a) l) false := by
  simp only [byKind, ho.1, ho.2]
  rw [if_neg (not_not_intro he), if_neg h0]

/-- A mixture faults. -/
theorem byKind_mixed {s : State} {f : Firing} {pn : Nat} {c : Consist} {a b : Token} {l : Nat} {k : Token → Token → State}
    (ho : Operands f a b) (he : a.kind ≠ b.kind) : byKind s pn c f l k = fireFault s pn c f 0x1D 0 := by
  simp only [byKind, ho.1, ho.2]
  rw [if_pos he]

theorem fireOp_ok {s : State} {f : Firing} {pn : Nat} {c : Consist} {a b : Token} {k : Elem → Firing → Token → Token → Except Byte Sent}
    {out : Sent} (h : FiresOn s f pn c) (ho : Operands f a b) (ha : a.kind = 0) (hb : b.kind = 0)
    (hk : k (elemAt (fired s f pn c) f.st f.elem) f a b = .ok out) :
    fireOp s k = .next (settle s (landed (sendAll (fired s f pn c) f out true) f pn c)) := by
  unfold fireOp
  rw [withFiring_ok h, byKind_data ho ha hb]
  simp only [hk]

theorem fireOp_err {s : State} {f : Firing} {pn : Nat} {c : Consist} {a b : Token} {k : Elem → Firing → Token → Token → Except Byte Sent}
    {e : Byte} (h : FiresOn s f pn c) (ho : Operands f a b) (ha : a.kind = 0) (hb : b.kind = 0)
    (hk : k (elemAt (fired s f pn c) f.st f.elem) f a b = .error e) :
    fireOp s k = .next (settle s (landed (fireFault (fired s f pn c) pn c f e 0) f pn c)) := by
  unfold fireOp
  rw [withFiring_ok h, byKind_data ho ha hb]
  simp only [hk]

theorem fireOp_mark {s : State} {f : Firing} {pn : Nat} {c : Consist} {a b : Token} {k : Elem → Firing → Token → Token → Except Byte Sent}
    (h : FiresOn s f pn c) (ho : Operands f a b) (he : a.kind = b.kind) (h0 : a.kind ≠ 0) :
    fireOp s k = .next (settle s (landed (sendAll (fired s f pn c) f (both (kindTok a.kind a) (latOf f.word)) false) f pn c)) := by
  unfold fireOp
  rw [withFiring_ok h, byKind_mark ho he h0]

theorem fireOp_mixed {s : State} {f : Firing} {pn : Nat} {c : Consist} {a b : Token}
    {k : Elem → Firing → Token → Token → Except Byte Sent} (h : FiresOn s f pn c) (ho : Operands f a b) (he : a.kind ≠ b.kind) :
    fireOp s k = .next (settle s (landed (fireFault (fired s f pn c) pn c f 0x1D 0) f pn c)) := by
  unfold fireOp
  rw [withFiring_ok h, byKind_mixed ho he]

/-! ### Threads -/


/-- Trap entry with a handler (R483): what the thread is then. -/
theorem takeTrap_enters {s : State} {th : Thread} {t : PendTrap} (hi : th.inh = false) (hv : th.tvec ≠ 0) :
    ∃ u, takeTrap s th t = setThr s u ∧ u.tid = th.tid ∧ u.epc = pcBits t.epc ∧ u.mpc = pcBits t.mpc ∧ u.faddr = t.faddr ∧
      u.finfo = t.finfo ∧ u.cause = BitVec.ofNat 64 (t.cause.toNat + b2n t.deferred * 256) ∧ u.ps = th.sup ∧ u.sup = true ∧
      u.inh = true ∧ u.pc = th.tvec ∧ u.g = th.g ∧ u.v = th.v := by
  unfold takeTrap
  simp only [hi, Bool.false_or, beq_iff_eq, hv, if_false]
  exact ⟨_, rfl, rfl, rfl, rfl, rfl, rfl, rfl, rfl, rfl, rfl, rfl, rfl, rfl⟩

/-! ### Commands at the combining node (R14, R71) -/

/-- A qualifying command is answered by its engine, whose answer the node then keeps, or gets the answer of its like. -/
theorem answers_combine (s : State) (th : Thread) (fields : List Nat) (engine : State → State × DWord) (f : State → DWord → Prop)
    (h : f (combine s th fields engine).1 (combine s th fields engine).2) : Answers s th fields (engine s) f := by
  unfold combine at h
  refine ⟨fun hn => by simpa [hn] using h, fun v hv => by simpa [hv] using h⟩

/-- Within a cycle, an answer noted is the one that the next command of the same fields gets. -/
theorem combined_noteCmd {s : State} {th : Thread} {fields : List Nat} (v : DWord) (h : combined s th fields = none) :
    combined (noteCmd s th fields v) th fields = some v := by
  unfold combined at *
  simp only [noteCmd, clus_modClus, List.find?_append, List.find?_cons]
  rw [List.find?_filter]
  simp only [Option.map_eq_none_iff, List.find?_eq_none] at h
  rw [List.find?_eq_none.mpr fun x hx => by have := h x hx; simp_all [modClus]]
  simp [modClus]

end Sys2Proof.Laws
end

