-- ==== Sys2Proof/Laws/PerInstr.lean ====
section
/-! SUPPORT. Facts about every instruction as syntax, one lemma per constructor. -/

namespace Sys2Proof.Laws

/-- An instruction is not both a word of a thread and an op of a graph slot: one of the encoders has no word for it (R80, R109). -/
def KindsApart.Statement (i : Instr) : Prop := encodePorlek i = none ∨ roszonOp i = none

theorem KindsApart.add (w : Bool) (d a b : BitVec 5) : KindsApart.Statement (.add w d a b) := .inr rfl
theorem KindsApart.sub (w : Bool) (d a b : BitVec 5) : KindsApart.Statement (.sub w d a b) := .inr rfl
theorem KindsApart.mul (w : Bool) (d a b : BitVec 5) : KindsApart.Statement (.mul w d a b) := .inr rfl
theorem KindsApart.mulh (w : Bool) (d a b : BitVec 5) : KindsApart.Statement (.mulh w d a b) := .inr rfl
theorem KindsApart.mulhu (w : Bool) (d a b : BitVec 5) : KindsApart.Statement (.mulhu w d a b) := .inr rfl
theorem KindsApart.div (w : Bool) (d a b : BitVec 5) : KindsApart.Statement (.div w d a b) := .inr rfl
theorem KindsApart.divu (w : Bool) (d a b : BitVec 5) : KindsApart.Statement (.divu w d a b) := .inr rfl
theorem KindsApart.rem (w : Bool) (d a b : BitVec 5) : KindsApart.Statement (.rem w d a b) := .inr rfl
theorem KindsApart.remu (w : Bool) (d a b : BitVec 5) : KindsApart.Statement (.remu w d a b) := .inr rfl
theorem KindsApart.and (w : Bool) (d a b : BitVec 5) : KindsApart.Statement (.and w d a b) := .inr rfl
theorem KindsApart.or (w : Bool) (d a b : BitVec 5) : KindsApart.Statement (.or w d a b) := .inr rfl
theorem KindsApart.xor (w : Bool) (d a b : BitVec 5) : KindsApart.Statement (.xor w d a b) := .inr rfl
theorem KindsApart.andn (w : Bool) (d a b : BitVec 5) : KindsApart.Statement (.andn w d a b) := .inr rfl
theorem KindsApart.orn (w : Bool) (d a b : BitVec 5) : KindsApart.Statement (.orn w d a b) := .inr rfl
theorem KindsApart.sll (w : Bool) (d a b : BitVec 5) : KindsApart.Statement (.sll w d a b) := .inr rfl
theorem KindsApart.srl (w : Bool) (d a b : BitVec 5) : KindsApart.Statement (.srl w d a b) := .inr rfl
theorem KindsApart.sra (w : Bool) (d a b : BitVec 5) : KindsApart.Statement (.sra w d a b) := .inr rfl
theorem KindsApart.rol (w : Bool) (d a b : BitVec 5) : KindsApart.Statement (.rol w d a b) := .inr rfl
theorem KindsApart.ror (w : Bool) (d a b : BitVec 5) : KindsApart.Statement (.ror w d a b) := .inr rfl
theorem KindsApart.min (w : Bool) (d a b : BitVec 5) : KindsApart.Statement (.min w d a b) := .inr rfl
theorem KindsApart.max (w : Bool) (d a b : BitVec 5) : KindsApart.Statement (.max w d a b) := .inr rfl
theorem KindsApart.minu (w : Bool) (d a b : BitVec 5) : KindsApart.Statement (.minu w d a b) := .inr rfl
theorem KindsApart.maxu (w : Bool) (d a b : BitVec 5) : KindsApart.Statement (.maxu w d a b) := .inr rfl
theorem KindsApart.slt (w : Bool) (d a b : BitVec 5) : KindsApart.Statement (.slt w d a b) := .inr rfl
theorem KindsApart.sltu (w : Bool) (d a b : BitVec 5) : KindsApart.Statement (.sltu w d a b) := .inr rfl
theorem KindsApart.clz (w : Bool) (d a : BitVec 5) : KindsApart.Statement (.clz w d a) := .inr rfl
theorem KindsApart.ctz (w : Bool) (d a : BitVec 5) : KindsApart.Statement (.ctz w d a) := .inr rfl
theorem KindsApart.popc (w : Bool) (d a : BitVec 5) : KindsApart.Statement (.popc w d a) := .inr rfl
theorem KindsApart.brev (w : Bool) (d a : BitVec 5) : KindsApart.Statement (.brev w d a) := .inr rfl
theorem KindsApart.sextB (w : Bool) (d a : BitVec 5) : KindsApart.Statement (.sextB w d a) := .inr rfl
theorem KindsApart.sextH (w : Bool) (d a : BitVec 5) : KindsApart.Statement (.sextH w d a) := .inr rfl
theorem KindsApart.sextW (w : Bool) (d a : BitVec 5) : KindsApart.Statement (.sextW w d a) := .inr rfl
theorem KindsApart.addi (w : Bool) (d a : BitVec 5) (i : BitVec 15) : KindsApart.Statement (.addi w d a i) := .inr rfl
theorem KindsApart.andi (w : Bool) (d a : BitVec 5) (i : BitVec 15) : KindsApart.Statement (.andi w d a i) := .inr rfl
theorem KindsApart.ori (w : Bool) (d a : BitVec 5) (i : BitVec 15) : KindsApart.Statement (.ori w d a i) := .inr rfl
theorem KindsApart.xori (w : Bool) (d a : BitVec 5) (i : BitVec 15) : KindsApart.Statement (.xori w d a i) := .inr rfl
theorem KindsApart.slli (w : Bool) (d a : BitVec 5) (h : BitVec 6) : KindsApart.Statement (.slli w d a h) := .inr rfl
theorem KindsApart.srli (w : Bool) (d a : BitVec 5) (h : BitVec 6) : KindsApart.Statement (.srli w d a h) := .inr rfl
theorem KindsApart.srai (w : Bool) (d a : BitVec 5) (h : BitVec 6) : KindsApart.Statement (.srai w d a h) := .inr rfl
theorem KindsApart.rori (w : Bool) (d a : BitVec 5) (h : BitVec 6) : KindsApart.Statement (.rori w d a h) := .inr rfl
theorem KindsApart.slti (w : Bool) (d a : BitVec 5) (i : BitVec 15) : KindsApart.Statement (.slti w d a i) := .inr rfl
theorem KindsApart.sltiu (w : Bool) (d a : BitVec 5) (i : BitVec 15) : KindsApart.Statement (.sltiu w d a i) := .inr rfl
theorem KindsApart.lui (w : Bool) (d : BitVec 5) (i : BitVec 20) : KindsApart.Statement (.lui w d i) := .inr rfl
theorem KindsApart.addpc (w : Bool) (d : BitVec 5) (i : BitVec 20) : KindsApart.Statement (.addpc w d i) := .inr rfl
theorem KindsApart.fadd (w : Bool) (d a b : BitVec 5) (p : BitVec 2) (r : BitVec 3) : KindsApart.Statement (.fadd w d a b p r) := .inr rfl
theorem KindsApart.fsub (w : Bool) (d a b : BitVec 5) (p : BitVec 2) (r : BitVec 3) : KindsApart.Statement (.fsub w d a b p r) := .inr rfl
theorem KindsApart.fmul (w : Bool) (d a b : BitVec 5) (p : BitVec 2) (r : BitVec 3) : KindsApart.Statement (.fmul w d a b p r) := .inr rfl
theorem KindsApart.fdiv (w : Bool) (d a b : BitVec 5) (p : BitVec 2) (r : BitVec 3) : KindsApart.Statement (.fdiv w d a b p r) := .inr rfl
theorem KindsApart.fsqrt (w : Bool) (d a : BitVec 5) (p : BitVec 2) (r : BitVec 3) : KindsApart.Statement (.fsqrt w d a p r) := .inr rfl
theorem KindsApart.fmin (w : Bool) (d a b : BitVec 5) (p : BitVec 2) : KindsApart.Statement (.fmin w d a b p) := .inr rfl
theorem KindsApart.fmax (w : Bool) (d a b : BitVec 5) (p : BitVec 2) : KindsApart.Statement (.fmax w d a b p) := .inr rfl
theorem KindsApart.feq (w : Bool) (d a b : BitVec 5) (p : BitVec 2) : KindsApart.Statement (.feq w d a b p) := .inr rfl
theorem KindsApart.flt (w : Bool) (d a b : BitVec 5) (p : BitVec 2) : KindsApart.Statement (.flt w d a b p) := .inr rfl
theorem KindsApart.fle (w : Bool) (d a b : BitVec 5) (p : BitVec 2) : KindsApart.Statement (.fle w d a b p) := .inr rfl
theorem KindsApart.fclass (w : Bool) (d a : BitVec 5) (p : BitVec 2) : KindsApart.Statement (.fclass w d a p) := .inr rfl
theorem KindsApart.fcvtI (w : Bool) (d a : BitVec 5) (t p : BitVec 2) (r : BitVec 3) : KindsApart.Statement (.fcvtI w d a t p r) := .inr rfl
theorem KindsApart.fcvtF (w : Bool) (d a : BitVec 5) (t : BitVec 3) (p : BitVec 2) (r : BitVec 3) : KindsApart.Statement (.fcvtF w d a t p r) := .inr rfl
theorem KindsApart.fmvb (w : Bool) (d a : BitVec 5) (p : BitVec 2) : KindsApart.Statement (.fmvb w d a p) := .inr rfl
theorem KindsApart.ffma (w : Bool) (d a b c : BitVec 5) (p : BitVec 2) : KindsApart.Statement (.ffma w d a b c p) := .inr rfl
theorem KindsApart.ffms (w : Bool) (d a b c : BitVec 5) (p : BitVec 2) : KindsApart.Statement (.ffms w d a b c p) := .inr rfl
theorem KindsApart.fnma (w : Bool) (d a b c : BitVec 5) (p : BitVec 2) : KindsApart.Statement (.fnma w d a b c p) := .inr rfl
theorem KindsApart.fnms (w : Bool) (d a b c : BitVec 5) (p : BitVec 2) : KindsApart.Statement (.fnms w d a b c p) := .inr rfl
theorem KindsApart.beq (w : Bool) (a b : BitVec 5) (o : BitVec 15) : KindsApart.Statement (.beq w a b o) := .inr rfl
theorem KindsApart.bne (w : Bool) (a b : BitVec 5) (o : BitVec 15) : KindsApart.Statement (.bne w a b o) := .inr rfl
theorem KindsApart.blt (w : Bool) (a b : BitVec 5) (o : BitVec 15) : KindsApart.Statement (.blt w a b o) := .inr rfl
theorem KindsApart.bge (w : Bool) (a b : BitVec 5) (o : BitVec 15) : KindsApart.Statement (.bge w a b o) := .inr rfl
theorem KindsApart.bltu (w : Bool) (a b : BitVec 5) (o : BitVec 15) : KindsApart.Statement (.bltu w a b o) := .inr rfl
theorem KindsApart.bgeu (w : Bool) (a b : BitVec 5) (o : BitVec 15) : KindsApart.Statement (.bgeu w a b o) := .inr rfl
theorem KindsApart.jal (w : Bool) (d : BitVec 5) (o : BitVec 20) : KindsApart.Statement (.jal w d o) := .inr rfl
theorem KindsApart.jalr (w : Bool) (d a : BitVec 5) (i : BitVec 15) : KindsApart.Statement (.jalr w d a i) := .inr rfl
theorem KindsApart.callt (w : Bool) (a : BitVec 5) : KindsApart.Statement (.callt w a) := .inr rfl
theorem KindsApart.mkfpP (w : Bool) (d a : BitVec 5) : KindsApart.Statement (.mkfpP w d a) := .inr rfl
theorem KindsApart.mkfpR (w : Bool) (d a : BitVec 5) (s : BitVec 3) : KindsApart.Statement (.mkfpR w d a s) := .inr rfl
theorem KindsApart.ldb (w : Bool) (d a : BitVec 5) (g : BitVec 3) (i : BitVec 12) : KindsApart.Statement (.ldb w d a g i) := .inr rfl
theorem KindsApart.ldh (w : Bool) (d a : BitVec 5) (g : BitVec 3) (i : BitVec 12) : KindsApart.Statement (.ldh w d a g i) := .inr rfl
theorem KindsApart.ldw (w : Bool) (d a : BitVec 5) (g : BitVec 3) (i : BitVec 12) : KindsApart.Statement (.ldw w d a g i) := .inr rfl
theorem KindsApart.ldd (w : Bool) (d a : BitVec 5) (g : BitVec 3) (i : BitVec 12) : KindsApart.Statement (.ldd w d a g i) := .inr rfl
theorem KindsApart.ldbu (w : Bool) (d a : BitVec 5) (g : BitVec 3) (i : BitVec 12) : KindsApart.Statement (.ldbu w d a g i) := .inr rfl
theorem KindsApart.ldhu (w : Bool) (d a : BitVec 5) (g : BitVec 3) (i : BitVec 12) : KindsApart.Statement (.ldhu w d a g i) := .inr rfl
theorem KindsApart.ldwu (w : Bool) (d a : BitVec 5) (g : BitVec 3) (i : BitVec 12) : KindsApart.Statement (.ldwu w d a g i) := .inr rfl
theorem KindsApart.stb (w : Bool) (r a : BitVec 5) (g : BitVec 3) (i : BitVec 12) : KindsApart.Statement (.stb w r a g i) := .inr rfl
theorem KindsApart.sth (w : Bool) (r a : BitVec 5) (g : BitVec 3) (i : BitVec 12) : KindsApart.Statement (.sth w r a g i) := .inr rfl
theorem KindsApart.stw (w : Bool) (r a : BitVec 5) (g : BitVec 3) (i : BitVec 12) : KindsApart.Statement (.stw w r a g i) := .inr rfl
theorem KindsApart.std (w : Bool) (r a : BitVec 5) (g : BitVec 3) (i : BitVec 12) : KindsApart.Statement (.std w r a g i) := .inr rfl
theorem KindsApart.ldg (w : Bool) (d a : BitVec 5) (g : BitVec 3) (i : BitVec 12) : KindsApart.Statement (.ldg w d a g i) := .inr rfl
theorem KindsApart.take (w : Bool) (d a : BitVec 5) (g : BitVec 3) : KindsApart.Statement (.take w d a g) := .inr rfl
theorem KindsApart.put (w : Bool) (a b : BitVec 5) (g : BitVec 3) : KindsApart.Statement (.put w a b g) := .inr rfl
theorem KindsApart.readf (w : Bool) (d a : BitVec 5) (g : BitVec 3) : KindsApart.Statement (.readf w d a g) := .inr rfl
theorem KindsApart.pset (w : Bool) (a : BitVec 5) (g : BitVec 3) : KindsApart.Statement (.pset w a g) := .inr rfl
theorem KindsApart.pclr (w : Bool) (a : BitVec 5) (g : BitVec 3) : KindsApart.Statement (.pclr w a g) := .inr rfl
theorem KindsApart.rsv (w : Bool) (d a : BitVec 5) (z : Bool) (g : BitVec 3) : KindsApart.Statement (.rsv w d a z g) := .inr rfl
theorem KindsApart.rls (w : Bool) (a b : BitVec 5) (z : Bool) (g : BitVec 3) : KindsApart.Statement (.rls w a b z g) := .inr rfl
theorem KindsApart.amoAdd (w : Bool) (d a b : BitVec 5) (z : Bool) (g : BitVec 3) : KindsApart.Statement (.amoAdd w d a b z g) := .inr rfl
theorem KindsApart.amoAnd (w : Bool) (d a b : BitVec 5) (z : Bool) (g : BitVec 3) : KindsApart.Statement (.amoAnd w d a b z g) := .inr rfl
theorem KindsApart.amoOr (w : Bool) (d a b : BitVec 5) (z : Bool) (g : BitVec 3) : KindsApart.Statement (.amoOr w d a b z g) := .inr rfl
theorem KindsApart.amoXor (w : Bool) (d a b : BitVec 5) (z : Bool) (g : BitVec 3) : KindsApart.Statement (.amoXor w d a b z g) := .inr rfl
theorem KindsApart.amoMin (w : Bool) (d a b : BitVec 5) (z : Bool) (g : BitVec 3) : KindsApart.Statement (.amoMin w d a b z g) := .inr rfl
theorem KindsApart.amoMax (w : Bool) (d a b : BitVec 5) (z : Bool) (g : BitVec 3) : KindsApart.Statement (.amoMax w d a b z g) := .inr rfl
theorem KindsApart.amoMinu (w : Bool) (d a b : BitVec 5) (z : Bool) (g : BitVec 3) : KindsApart.Statement (.amoMinu w d a b z g) := .inr rfl
theorem KindsApart.amoMaxu (w : Bool) (d a b : BitVec 5) (z : Bool) (g : BitVec 3) : KindsApart.Statement (.amoMaxu w d a b z g) := .inr rfl
theorem KindsApart.amoSwap (w : Bool) (d a b : BitVec 5) (z : Bool) (g : BitVec 3) : KindsApart.Statement (.amoSwap w d a b z g) := .inr rfl
theorem KindsApart.amoCas (w : Bool) (d a b : BitVec 5) (z : Bool) (g : BitVec 3) : KindsApart.Statement (.amoCas w d a b z g) := .inr rfl
theorem KindsApart.vld (w : Bool) (d : BitVec 4) (i : BitVec 8) (k : BitVec 2) (l : Bool) (b : BitVec 5) (g : BitVec 3) : KindsApart.Statement (.vld w d i k l b g) := .inr rfl
theorem KindsApart.vst (w : Bool) (d : BitVec 4) (i : BitVec 8) (k : BitVec 2) (l : Bool) (b : BitVec 5) (g : BitVec 3) : KindsApart.Statement (.vst w d i k l b g) := .inr rfl
theorem KindsApart.vldx (w : Bool) (d x : BitVec 4) (k : BitVec 2) (l : Bool) (b : BitVec 5) (g : BitVec 3) (h : BitVec 2) : KindsApart.Statement (.vldx w d x k l b g h) := .inr rfl
theorem KindsApart.vstx (w : Bool) (d x : BitVec 4) (k : BitVec 2) (l : Bool) (b : BitVec 5) (g : BitVec 3) (h : BitVec 2) : KindsApart.Statement (.vstx w d x k l b g h) := .inr rfl
theorem KindsApart.fenceAcq (w : Bool) (a : BitVec 5) : KindsApart.Statement (.fenceAcq w a) := .inr rfl
theorem KindsApart.fenceRel (w : Bool) (a : BitVec 5) : KindsApart.Statement (.fenceRel w a) := .inr rfl
theorem KindsApart.fenceAr (w : Bool) (a : BitVec 5) : KindsApart.Statement (.fenceAr w a) := .inr rfl
theorem KindsApart.fencex (w : Bool) (p q : BitVec 3) : KindsApart.Statement (.fencex w p q) := .inr rfl
theorem KindsApart.seal (w : Bool) (g : BitVec 3) : KindsApart.Statement (.seal w g) := .inr rfl
theorem KindsApart.unseal (w : Bool) (g : BitVec 3) : KindsApart.Statement (.unseal w g) := .inr rfl
theorem KindsApart.vadd (w : Bool) (d a b : BitVec 4) (k : BitVec 2) (l s u : Bool) : KindsApart.Statement (.vadd w d a b k l s u) := .inr rfl
theorem KindsApart.vsub (w : Bool) (d a b : BitVec 4) (k : BitVec 2) (l s u : Bool) : KindsApart.Statement (.vsub w d a b k l s u) := .inr rfl
theorem KindsApart.vmul (w : Bool) (d a b : BitVec 4) (k : BitVec 2) (l s u : Bool) : KindsApart.Statement (.vmul w d a b k l s u) := .inr rfl
theorem KindsApart.vmin (w : Bool) (d a b : BitVec 4) (k : BitVec 2) (l u : Bool) : KindsApart.Statement (.vmin w d a b k l u) := .inr rfl
theorem KindsApart.vmax (w : Bool) (d a b : BitVec 4) (k : BitVec 2) (l u : Bool) : KindsApart.Statement (.vmax w d a b k l u) := .inr rfl
theorem KindsApart.vand (w : Bool) (d a b : BitVec 4) (k : BitVec 2) (l : Bool) : KindsApart.Statement (.vand w d a b k l) := .inr rfl
theorem KindsApart.vor (w : Bool) (d a b : BitVec 4) (k : BitVec 2) (l : Bool) : KindsApart.Statement (.vor w d a b k l) := .inr rfl
theorem KindsApart.vxor (w : Bool) (d a b : BitVec 4) (k : BitVec 2) (l : Bool) : KindsApart.Statement (.vxor w d a b k l) := .inr rfl
theorem KindsApart.vsll (w : Bool) (d a b : BitVec 4) (k : BitVec 2) (l : Bool) : KindsApart.Statement (.vsll w d a b k l) := .inr rfl
theorem KindsApart.vsrl (w : Bool) (d a b : BitVec 4) (k : BitVec 2) (l : Bool) : KindsApart.Statement (.vsrl w d a b k l) := .inr rfl
theorem KindsApart.vsra (w : Bool) (d a b : BitVec 4) (k : BitVec 2) (l : Bool) : KindsApart.Statement (.vsra w d a b k l) := .inr rfl
theorem KindsApart.vcmp (w : Bool) (m : BitVec 2) (a b : BitVec 4) (k : BitVec 2) (c : BitVec 3) (u : Bool) : KindsApart.Statement (.vcmp w m a b k c u) := .inr rfl
theorem KindsApart.vfadd (w : Bool) (d a b : BitVec 4) (k : BitVec 2) (l f : Bool) (r : BitVec 3) : KindsApart.Statement (.vfadd w d a b k l f r) := .inr rfl
theorem KindsApart.vfsub (w : Bool) (d a b : BitVec 4) (k : BitVec 2) (l f : Bool) (r : BitVec 3) : KindsApart.Statement (.vfsub w d a b k l f r) := .inr rfl
theorem KindsApart.vfmul (w : Bool) (d a b : BitVec 4) (k : BitVec 2) (l f : Bool) (r : BitVec 3) : KindsApart.Statement (.vfmul w d a b k l f r) := .inr rfl
theorem KindsApart.vffma (w : Bool) (d a b : BitVec 4) (k : BitVec 2) (l f : Bool) (r : BitVec 3) : KindsApart.Statement (.vffma w d a b k l f r) := .inr rfl
theorem KindsApart.vfmin (w : Bool) (d a b : BitVec 4) (k : BitVec 2) (l f : Bool) : KindsApart.Statement (.vfmin w d a b k l f) := .inr rfl
theorem KindsApart.vfmax (w : Bool) (d a b : BitVec 4) (k : BitVec 2) (l f : Bool) : KindsApart.Statement (.vfmax w d a b k l f) := .inr rfl
theorem KindsApart.vfcmp (w : Bool) (m : BitVec 2) (a b : BitVec 4) (k : BitVec 2) (c : BitVec 3) : KindsApart.Statement (.vfcmp w m a b k c) := .inr rfl
theorem KindsApart.vfdiv (w : Bool) (d a b : BitVec 4) (k : BitVec 2) (l f : Bool) (r : BitVec 3) : KindsApart.Statement (.vfdiv w d a b k l f r) := .inr rfl
theorem KindsApart.vsel (w : Bool) (d a b : BitVec 4) (k : BitVec 2) (l : Bool) : KindsApart.Statement (.vsel w d a b k l) := .inr rfl
theorem KindsApart.vperm (w : Bool) (d a b : BitVec 4) (k : BitVec 2) (l : Bool) : KindsApart.Statement (.vperm w d a b k l) := .inr rfl
theorem KindsApart.vbcast (w : Bool) (d g : BitVec 4) (k : BitVec 2) (l h : Bool) : KindsApart.Statement (.vbcast w d g k l h) := .inr rfl
theorem KindsApart.vextr (w : Bool) (g a n : BitVec 4) (l h m x : Bool) : KindsApart.Statement (.vextr w g a n l h m x) := .inr rfl
theorem KindsApart.vins (w : Bool) (d g n : BitVec 4) (l h m : Bool) : KindsApart.Statement (.vins w d g n l h m) := .inr rfl
theorem KindsApart.vred (w : Bool) (d a : BitVec 4) (k : BitVec 2) (l : Bool) (c : BitVec 5) : KindsApart.Statement (.vred w d a k l c) := .inr rfl
theorem KindsApart.vcvt (w : Bool) (d a t : BitVec 4) (k : BitVec 2) (s : BitVec 4) (r : BitVec 2) : KindsApart.Statement (.vcvt w d a t k s r) := .inr rfl
theorem KindsApart.vsfu (w : Bool) (d a : BitVec 4) (k : BitVec 2) (f : BitVec 3) : KindsApart.Statement (.vsfu w d a k f) := .inr rfl
theorem KindsApart.viota (w : Bool) (d : BitVec 4) (k : BitVec 2) (l : Bool) : KindsApart.Statement (.viota w d k l) := .inr rfl
theorem KindsApart.kand (w : Bool) (d a b : BitVec 2) : KindsApart.Statement (.kand w d a b) := .inr rfl
theorem KindsApart.kor (w : Bool) (d a b : BitVec 2) : KindsApart.Statement (.kor w d a b) := .inr rfl
theorem KindsApart.kxor (w : Bool) (d a b : BitVec 2) : KindsApart.Statement (.kxor w d a b) := .inr rfl
theorem KindsApart.knot (w : Bool) (d a : BitVec 2) : KindsApart.Statement (.knot w d a) := .inr rfl
theorem KindsApart.kmovKk (w : Bool) (d a : BitVec 2) : KindsApart.Statement (.kmovKk w d a) := .inr rfl
theorem KindsApart.kmovKg (w : Bool) (d : BitVec 2) (a : BitVec 5) : KindsApart.Statement (.kmovKg w d a) := .inr rfl
theorem KindsApart.kmovGk (w : Bool) (d : BitVec 5) (a : BitVec 2) : KindsApart.Statement (.kmovGk w d a) := .inr rfl
theorem KindsApart.kpopc (w : Bool) (d : BitVec 5) (a : BitVec 2) : KindsApart.Statement (.kpopc w d a) := .inr rfl
theorem KindsApart.kmovGpw (w : Bool) (d : BitVec 5) : KindsApart.Statement (.kmovGpw w d) := .inr rfl
theorem KindsApart.kmovPwg (w : Bool) (a : BitVec 5) : KindsApart.Statement (.kmovPwg w a) := .inr rfl
theorem KindsApart.spawn (w : Bool) (d a b : BitVec 5) (t : Bool) (g : BitVec 3) : KindsApart.Statement (.spawn w d a b t g) := .inr rfl
theorem KindsApart.migr (w : Bool) (a : BitVec 5) (g : BitVec 3) : KindsApart.Statement (.migr w a g) := .inr rfl
theorem KindsApart.exit (w : Bool) (a : BitVec 5) : KindsApart.Statement (.exit w a) := .inr rfl
theorem KindsApart.join (w : Bool) (d a : BitVec 5) : KindsApart.Statement (.join w d a) := .inr rfl
theorem KindsApart.yield (w : Bool) : KindsApart.Statement (.yield w) := .inr rfl
theorem KindsApart.setprio (w : Bool) (a : BitVec 5) : KindsApart.Statement (.setprio w a) := .inr rfl
theorem KindsApart.rknew (w : Bool) (d : BitVec 5) (j : Bool) : KindsApart.Statement (.rknew w d j) := .inr rfl
theorem KindsApart.rkjoin (w : Bool) (a b : BitVec 5) : KindsApart.Statement (.rkjoin w a b) := .inr rfl
theorem KindsApart.rkleave (w : Bool) (a : BitVec 5) : KindsApart.Statement (.rkleave w a) := .inr rfl
theorem KindsApart.rkfree (w : Bool) (a : BitVec 5) : KindsApart.Statement (.rkfree w a) := .inr rfl
theorem KindsApart.bar (w : Bool) (d a : BitVec 5) (m : BitVec 6) : KindsApart.Statement (.bar w d a m) := .inr rfl
theorem KindsApart.barstat (w : Bool) (d a : BitVec 5) (k : Bool) : KindsApart.Statement (.barstat w d a k) := .inr rfl
theorem KindsApart.rkfix (w : Bool) (d a : BitVec 5) (k : Bool) : KindsApart.Statement (.rkfix w d a k) := .inr rfl
theorem KindsApart.monarm (w : Bool) (a : BitVec 5) (g : BitVec 3) (n : BitVec 2) : KindsApart.Statement (.monarm w a g n) := .inr rfl
theorem KindsApart.monclr (w x : Bool) (n : BitVec 2) : KindsApart.Statement (.monclr w x n) := .inr rfl
theorem KindsApart.monwait (w : Bool) (d a : BitVec 5) : KindsApart.Statement (.monwait w d a) := .inr rfl
theorem KindsApart.send (w : Bool) (d a b : BitVec 5) (n : BitVec 2) : KindsApart.Statement (.send w d a b n) := .inr rfl
theorem KindsApart.sendHost (w : Bool) (d a b : BitVec 5) (n : BitVec 2) : KindsApart.Statement (.sendHost w d a b n) := .inr rfl
theorem KindsApart.recv (w : Bool) (d : BitVec 5) (n : Bool) : KindsApart.Statement (.recv w d n) := .inr rfl
theorem KindsApart.mxcfg (w : Bool) (a b : BitVec 5) : KindsApart.Statement (.mxcfg w a b) := .inr rfl
theorem KindsApart.mxcfgFd (w : Bool) (b : BitVec 5) (n : BitVec 3) : KindsApart.Statement (.mxcfgFd w b n) := .inr rfl
theorem KindsApart.mxscl (w : Bool) (a b c : BitVec 5) : KindsApart.Statement (.mxscl w a b c) := .inr rfl
theorem KindsApart.tfull (w : Bool) (d a : BitVec 5) (s : BitVec 4) : KindsApart.Statement (.tfull w d a s) := .inr rfl
theorem KindsApart.tempty (w : Bool) (d : BitVec 5) (s : BitVec 4) : KindsApart.Statement (.tempty w d s) := .inr rfl
theorem KindsApart.tstat (w : Bool) (d a : BitVec 5) (c : Bool) (k : BitVec 2) : KindsApart.Statement (.tstat w d a c k) := .inr rfl
theorem KindsApart.cpy (w : Bool) (d a : BitVec 5) (c : BitVec 3) : KindsApart.Statement (.cpy w d a c) := .inr rfl
theorem KindsApart.cpyx (w : Bool) (d a : BitVec 5) (c : BitVec 3) : KindsApart.Statement (.cpyx w d a c) := .inr rfl
theorem KindsApart.cpywp (w : Bool) (d a : BitVec 5) (c : BitVec 3) : KindsApart.Statement (.cpywp w d a c) := .inr rfl
theorem KindsApart.strbind (w : Bool) (a : BitVec 5) (p : BitVec 3) : KindsApart.Statement (.strbind w a p) := .inr rfl
theorem KindsApart.strunb (w : Bool) (p : BitVec 3) : KindsApart.Statement (.strunb w p) := .inr rfl
theorem KindsApart.igload (w : Bool) (a : BitVec 5) (s : BitVec 3) (g : Bool) : KindsApart.Statement (.igload w a s g) := .inr rfl
theorem KindsApart.igstart (w : Bool) (a b : BitVec 5) (g : Bool) : KindsApart.Statement (.igstart w a b g) := .inr rfl
theorem KindsApart.igstat (w : Bool) (d a : BitVec 5) (k : BitVec 2) (g : Bool) : KindsApart.Statement (.igstat w d a k g) := .inr rfl
theorem KindsApart.sbwr (w : Bool) (a b : BitVec 5) (n : BitVec 4) (k : BitVec 3) : KindsApart.Statement (.sbwr w a b n k) := .inr rfl
theorem KindsApart.sbrd (w : Bool) (d a : BitVec 5) (n : BitVec 4) (k : BitVec 3) : KindsApart.Statement (.sbrd w d a n k) := .inr rfl
theorem KindsApart.sbcommit (w : Bool) (d a : BitVec 5) (k : BitVec 3) : KindsApart.Statement (.sbcommit w d a k) := .inr rfl
theorem KindsApart.tget (w : Bool) (a : BitVec 5) (k : BitVec 3) : KindsApart.Statement (.tget w a k) := .inr rfl
theorem KindsApart.tdone (w : Bool) (d a b : BitVec 5) : KindsApart.Statement (.tdone w d a b) := .inr rfl
theorem KindsApart.tret (w : Bool) (d a b : BitVec 5) : KindsApart.Statement (.tret w d a b) := .inr rfl
theorem KindsApart.collred (w : Bool) (a : BitVec 5) : KindsApart.Statement (.collred w a) := .inr rfl
theorem KindsApart.collbc (w : Bool) (a : BitVec 5) : KindsApart.Statement (.collbc w a) := .inr rfl
theorem KindsApart.collstat (w : Bool) (d a : BitVec 5) : KindsApart.Statement (.collstat w d a) := .inr rfl
theorem KindsApart.trap (w : Bool) (c : BitVec 12) : KindsApart.Statement (.trap w c) := .inr rfl
theorem KindsApart.eret (w : Bool) : KindsApart.Statement (.eret w) := .inr rfl
theorem KindsApart.crr (w : Bool) (d : BitVec 5) (s : BitVec 12) : KindsApart.Statement (.crr w d s) := .inr rfl
theorem KindsApart.crw (w : Bool) (a : BitVec 5) (s : BitVec 12) : KindsApart.Statement (.crw w a s) := .inr rfl
theorem KindsApart.segset (w : Bool) (a : BitVec 5) (n : BitVec 3) : KindsApart.Statement (.segset w a n) := .inr rfl
theorem KindsApart.segget (w : Bool) (d : BitVec 5) (h : Bool) (n : BitVec 3) : KindsApart.Statement (.segget w d h n) := .inr rfl
theorem KindsApart.tlbinv (w : Bool) (a : BitVec 5) (u : BitVec 2) (c : BitVec 9) : KindsApart.Statement (.tlbinv w a u c) := .inr rfl
theorem KindsApart.tlbinvAll (w : Bool) : KindsApart.Statement (.tlbinvAll w) := .inr rfl
theorem KindsApart.replay (w : Bool) (d : BitVec 5) : KindsApart.Statement (.replay w d) := .inr rfl
theorem KindsApart.ctxsv (w : Bool) (d a b : BitVec 5) (s : BitVec 3) : KindsApart.Statement (.ctxsv w d a b s) := .inr rfl
theorem KindsApart.ctxld (w : Bool) (d a b : BitVec 5) (s : BitVec 3) : KindsApart.Statement (.ctxld w d a b s) := .inr rfl
theorem KindsApart.rqpush (w : Bool) (d a b : BitVec 5) : KindsApart.Statement (.rqpush w d a b) := .inr rfl
theorem KindsApart.rqpop (w : Bool) (d a : BitVec 5) : KindsApart.Statement (.rqpop w d a) := .inr rfl
theorem KindsApart.rqpopId (w : Bool) (d a : BitVec 5) : KindsApart.Statement (.rqpopId w d a) := .inr rfl
theorem KindsApart.rqpopKill (w : Bool) (d a : BitVec 5) : KindsApart.Statement (.rqpopKill w d a) := .inr rfl
theorem KindsApart.rqpeek (w : Bool) (d a : BitVec 5) : KindsApart.Statement (.rqpeek w d a) := .inr rfl
theorem KindsApart.pfi (w : Bool) (a b : BitVec 5) : KindsApart.Statement (.pfi w a b) := .inr rfl
theorem KindsApart.pfiRf (w : Bool) (a b : BitVec 5) : KindsApart.Statement (.pfiRf w a b) := .inr rfl
theorem KindsApart.pfd (w : Bool) (a b : BitVec 5) (s : BitVec 3) : KindsApart.Statement (.pfd w a b s) := .inr rfl
theorem KindsApart.clean (w : Bool) (a b : BitVec 5) (s : BitVec 3) : KindsApart.Statement (.clean w a b s) := .inr rfl
theorem KindsApart.inval (w : Bool) (a b : BitVec 5) (s : BitVec 3) : KindsApart.Statement (.inval w a b s) := .inr rfl
theorem KindsApart.cfgload (w : Bool) (a : BitVec 5) (s : BitVec 3) : KindsApart.Statement (.cfgload w a s) := .inr rfl
theorem KindsApart.cfgfree (w : Bool) (a : BitVec 5) : KindsApart.Statement (.cfgfree w a) := .inr rfl
theorem KindsApart.cfgfreeze (w : Bool) (a b : BitVec 5) (s : BitVec 3) : KindsApart.Statement (.cfgfreeze w a b s) := .inr rfl
theorem KindsApart.cfgfreezeThaw (w : Bool) (a : BitVec 5) : KindsApart.Statement (.cfgfreezeThaw w a) := .inr rfl
theorem KindsApart.cfgread (w : Bool) (d a : BitVec 5) (k : BitVec 2) : KindsApart.Statement (.cfgread w d a k) := .inr rfl
theorem KindsApart.pass : KindsApart.Statement (.pass) := .inl rfl
theorem KindsApart.iadd : KindsApart.Statement (.iadd) := .inl rfl
theorem KindsApart.isub : KindsApart.Statement (.isub) := .inl rfl
theorem KindsApart.imul : KindsApart.Statement (.imul) := .inl rfl
theorem KindsApart.imin : KindsApart.Statement (.imin) := .inl rfl
theorem KindsApart.imax : KindsApart.Statement (.imax) := .inl rfl
theorem KindsApart.graphAnd : KindsApart.Statement (.graphAnd) := .inl rfl
theorem KindsApart.graphOr : KindsApart.Statement (.graphOr) := .inl rfl
theorem KindsApart.graphXor : KindsApart.Statement (.graphXor) := .inl rfl
theorem KindsApart.shl : KindsApart.Statement (.shl) := .inl rfl
theorem KindsApart.shr : KindsApart.Statement (.shr) := .inl rfl
theorem KindsApart.icmp : KindsApart.Statement (.icmp) := .inl rfl
theorem KindsApart.graphFadd : KindsApart.Statement (.graphFadd) := .inl rfl
theorem KindsApart.graphFmul : KindsApart.Statement (.graphFmul) := .inl rfl
theorem KindsApart.graphFfma : KindsApart.Statement (.graphFfma) := .inl rfl
theorem KindsApart.graphFmin : KindsApart.Statement (.graphFmin) := .inl rfl
theorem KindsApart.graphFmax : KindsApart.Statement (.graphFmax) := .inl rfl
theorem KindsApart.fcmp : KindsApart.Statement (.fcmp) := .inl rfl
theorem KindsApart.sfu : KindsApart.Statement (.sfu) := .inl rfl
theorem KindsApart.cvt : KindsApart.Statement (.cvt) := .inl rfl
theorem KindsApart.scale : KindsApart.Statement (.scale) := .inl rfl
theorem KindsApart.steer : KindsApart.Statement (.steer) := .inl rfl
theorem KindsApart.merge : KindsApart.Statement (.merge) := .inl rfl
theorem KindsApart.carry : KindsApart.Statement (.carry) := .inl rfl
theorem KindsApart.settag : KindsApart.Statement (.settag) := .inl rfl
theorem KindsApart.gettag : KindsApart.Statement (.gettag) := .inl rfl
theorem KindsApart.const : KindsApart.Statement (.const) := .inl rfl
theorem KindsApart.seq : KindsApart.Statement (.seq) := .inl rfl
theorem KindsApart.filter : KindsApart.Statement (.filter) := .inl rfl
theorem KindsApart.coalesce : KindsApart.Statement (.coalesce) := .inl rfl
theorem KindsApart.reduce : KindsApart.Statement (.reduce) := .inl rfl
theorem KindsApart.rowstat : KindsApart.Statement (.rowstat) := .inl rfl
theorem KindsApart.delay : KindsApart.Statement (.delay) := .inl rfl
theorem KindsApart.graphLoad : KindsApart.Statement (.graphLoad) := .inl rfl
theorem KindsApart.graphStore : KindsApart.Statement (.graphStore) := .inl rfl
theorem KindsApart.graphTake : KindsApart.Statement (.graphTake) := .inl rfl
theorem KindsApart.graphPut : KindsApart.Statement (.graphPut) := .inl rfl
theorem KindsApart.stream : KindsApart.Statement (.stream) := .inl rfl
theorem KindsApart.sink : KindsApart.Statement (.sink) := .inl rfl
theorem KindsApart.tileput : KindsApart.Statement (.tileput) := .inl rfl
theorem KindsApart.tileget : KindsApart.Statement (.tileget) := .inl rfl
theorem KindsApart.arg : KindsApart.Statement (.arg) := .inl rfl
theorem KindsApart.ret : KindsApart.Statement (.ret) := .inl rfl
theorem KindsApart.callout : KindsApart.Statement (.callout) := .inl rfl
theorem KindsApart.emit : KindsApart.Statement (.emit) := .inl rfl
theorem KindsApart.slotRefill : KindsApart.Statement (.slotRefill) := .inl rfl
theorem KindsApart.longOpComplete : KindsApart.Statement (.longOpComplete) := .inl rfl
theorem KindsApart.timerPreempt : KindsApart.Statement (.timerPreempt) := .inl rfl
theorem KindsApart.priorityAging : KindsApart.Statement (.priorityAging) := .inl rfl
theorem KindsApart.priorityPreempt : KindsApart.Statement (.priorityPreempt) := .inl rfl
theorem KindsApart.icacheFill : KindsApart.Statement (.icacheFill) := .inl rfl
theorem KindsApart.prefetchFill : KindsApart.Statement (.prefetchFill) := .inl rfl
theorem KindsApart.trapEntry : KindsApart.Statement (.trapEntry) := .inl rfl
theorem KindsApart.migrationArrival : KindsApart.Statement (.migrationArrival) := .inl rfl
theorem KindsApart.runQueueEntry : KindsApart.Statement (.runQueueEntry) := .inl rfl
theorem KindsApart.spawnDelivery : KindsApart.Statement (.spawnDelivery) := .inl rfl
theorem KindsApart.footprintReady : KindsApart.Statement (.footprintReady) := .inl rfl
theorem KindsApart.launchFrame : KindsApart.Statement (.launchFrame) := .inl rfl
theorem KindsApart.launchStart : KindsApart.Statement (.launchStart) := .inl rfl
theorem KindsApart.budgetExpiry : KindsApart.Statement (.budgetExpiry) := .inl rfl
theorem KindsApart.accessPerformed : KindsApart.Statement (.accessPerformed) := .inl rfl
theorem KindsApart.recallAck : KindsApart.Statement (.recallAck) := .inl rfl
theorem KindsApart.presenceResend : KindsApart.Statement (.presenceResend) := .inl rfl
theorem KindsApart.waitLimitExpiry : KindsApart.Statement (.waitLimitExpiry) := .inl rfl
theorem KindsApart.reservationHoldExpiry : KindsApart.Statement (.reservationHoldExpiry) := .inl rfl
theorem KindsApart.sectorDrain : KindsApart.Statement (.sectorDrain) := .inl rfl
theorem KindsApart.lineExpiry : KindsApart.Statement (.lineExpiry) := .inl rfl
theorem KindsApart.translationWalk : KindsApart.Statement (.translationWalk) := .inl rfl
theorem KindsApart.memTimeoutExpiry : KindsApart.Statement (.memTimeoutExpiry) := .inl rfl
theorem KindsApart.monwaitTimeout : KindsApart.Statement (.monwaitTimeout) := .inl rfl
theorem KindsApart.messageDelivery : KindsApart.Statement (.messageDelivery) := .inl rfl
theorem KindsApart.deviceReport : KindsApart.Statement (.deviceReport) := .inl rfl
theorem KindsApart.streamWake : KindsApart.Statement (.streamWake) := .inl rfl
theorem KindsApart.stepFire : KindsApart.Statement (.stepFire) := .inl rfl
theorem KindsApart.nmMetaScan : KindsApart.Statement (.nmMetaScan) := .inl rfl
theorem KindsApart.stepStreamEnd : KindsApart.Statement (.stepStreamEnd) := .inl rfl
theorem KindsApart.stepAccumulationComplete : KindsApart.Statement (.stepAccumulationComplete) := .inl rfl
theorem KindsApart.writebackStart : KindsApart.Statement (.writebackStart) := .inl rfl
theorem KindsApart.writebackComplete : KindsApart.Statement (.writebackComplete) := .inl rfl
theorem KindsApart.generatorLoad : KindsApart.Statement (.generatorLoad) := .inl rfl
theorem KindsApart.generatorLoadComplete : KindsApart.Statement (.generatorLoadComplete) := .inl rfl
theorem KindsApart.enumerationStart : KindsApart.Statement (.enumerationStart) := .inl rfl
theorem KindsApart.enumerationEnd : KindsApart.Statement (.enumerationEnd) := .inl rfl
theorem KindsApart.generatorRecordPush : KindsApart.Statement (.generatorRecordPush) := .inl rfl
theorem KindsApart.copyCommandStart : KindsApart.Statement (.copyCommandStart) := .inl rfl
theorem KindsApart.copyCommandEnd : KindsApart.Statement (.copyCommandEnd) := .inl rfl
theorem KindsApart.copyCommandStop : KindsApart.Statement (.copyCommandStop) := .inl rfl
theorem KindsApart.collectiveContribution : KindsApart.Statement (.collectiveContribution) := .inl rfl
theorem KindsApart.collectiveDone : KindsApart.Statement (.collectiveDone) := .inl rfl
theorem KindsApart.collectiveTokenCombine : KindsApart.Statement (.collectiveTokenCombine) := .inl rfl
theorem KindsApart.mapWriteFail : KindsApart.Statement (.mapWriteFail) := .inl rfl
theorem KindsApart.consistLoad : KindsApart.Statement (.consistLoad) := .inl rfl
theorem KindsApart.consistFreeComplete : KindsApart.Statement (.consistFreeComplete) := .inl rfl
theorem KindsApart.freezeComplete : KindsApart.Statement (.freezeComplete) := .inl rfl
theorem KindsApart.watchdogExpiry : KindsApart.Statement (.watchdogExpiry) := .inl rfl
theorem KindsApart.tokenArrival : KindsApart.Statement (.tokenArrival) := .inl rfl
theorem KindsApart.graphLoadReply : KindsApart.Statement (.graphLoadReply) := .inl rfl
theorem KindsApart.graphStoreAck : KindsApart.Statement (.graphStoreAck) := .inl rfl
theorem KindsApart.returnTokenArrival : KindsApart.Statement (.returnTokenArrival) := .inl rfl
theorem KindsApart.graphFaultRetry : KindsApart.Statement (.graphFaultRetry) := .inl rfl
theorem KindsApart.callWaitResume : KindsApart.Statement (.callWaitResume) := .inl rfl
theorem KindsApart.converterToken : KindsApart.Statement (.converterToken) := .inl rfl
theorem KindsApart.converterAck : KindsApart.Statement (.converterAck) := .inl rfl
theorem KindsApart.sealComplete : KindsApart.Statement (.sealComplete) := .inl rfl
theorem KindsApart.unsealComplete : KindsApart.Statement (.unsealComplete) := .inl rfl
theorem KindsApart.drainTokenArrival : KindsApart.Statement (.drainTokenArrival) := .inl rfl
theorem KindsApart.evictionScheduleEntry : KindsApart.Statement (.evictionScheduleEntry) := .inl rfl
theorem KindsApart.heartbeat : KindsApart.Statement (.heartbeat) := .inl rfl
theorem KindsApart.agentSuspect : KindsApart.Statement (.agentSuspect) := .inl rfl
theorem KindsApart.probeExpiry : KindsApart.Statement (.probeExpiry) := .inl rfl
theorem KindsApart.selftestComplete : KindsApart.Statement (.selftestComplete) := .inl rfl
theorem KindsApart.sliceExpiry : KindsApart.Statement (.sliceExpiry) := .inl rfl
theorem KindsApart.swapComplete : KindsApart.Statement (.swapComplete) := .inl rfl
theorem KindsApart.commit : KindsApart.Statement (.commit) := .inl rfl
theorem KindsApart.stop : KindsApart.Statement (.stop) := .inl rfl
theorem KindsApart.destroy : KindsApart.Statement (.destroy) := .inl rfl
theorem KindsApart.configOpComplete : KindsApart.Statement (.configOpComplete) := .inl rfl
theorem KindsApart.domainTableWrite : KindsApart.Statement (.domainTableWrite) := .inl rfl
theorem KindsApart.registerWrite : KindsApart.Statement (.registerWrite) := .inl rfl
theorem KindsApart.write : KindsApart.Statement (.write) := .inl rfl
theorem KindsApart.read : KindsApart.Statement (.read) := .inl rfl
theorem KindsApart.readresp : KindsApart.Statement (.readresp) := .inl rfl
theorem KindsApart.acq : KindsApart.Statement (.acq) := .inl rfl
theorem KindsApart.release : KindsApart.Statement (.release) := .inl rfl
theorem KindsApart.msg : KindsApart.Statement (.msg) := .inl rfl
theorem KindsApart.attest : KindsApart.Statement (.attest) := .inl rfl
theorem KindsApart.leaseOpen : KindsApart.Statement (.leaseOpen) := .inl rfl
theorem KindsApart.leaseRenew : KindsApart.Statement (.leaseRenew) := .inl rfl
theorem KindsApart.leaseClose : KindsApart.Statement (.leaseClose) := .inl rfl
theorem KindsApart.acknowledgement : KindsApart.Statement (.acknowledgement) := .inl rfl
theorem KindsApart.frameResend : KindsApart.Statement (.frameResend) := .inl rfl
theorem KindsApart.leaseLapse : KindsApart.Statement (.leaseLapse) := .inl rfl
theorem KindsApart.lockstepInputForward : KindsApart.Statement (.lockstepInputForward) := .inl rfl
theorem KindsApart.lockstepInputInject : KindsApart.Statement (.lockstepInputInject) := .inl rfl
theorem KindsApart.digestWindowEnd : KindsApart.Statement (.digestWindowEnd) := .inl rfl
theorem KindsApart.digestArrival : KindsApart.Statement (.digestArrival) := .inl rfl
theorem KindsApart.pwrgood : KindsApart.Statement (.pwrgood) := .inl rfl
theorem KindsApart.resetRelease : KindsApart.Statement (.resetRelease) := .inl rfl
theorem KindsApart.resetAssert : KindsApart.Statement (.resetAssert) := .inl rfl
theorem KindsApart.firmwareVerified : KindsApart.Statement (.firmwareVerified) := .inl rfl
theorem KindsApart.stationSelftestDone : KindsApart.Statement (.stationSelftestDone) := .inl rfl
theorem KindsApart.lmTrainingDone : KindsApart.Statement (.lmTrainingDone) := .inl rfl
theorem KindsApart.linkTrained : KindsApart.Statement (.linkTrained) := .inl rfl
theorem KindsApart.linkLoss : KindsApart.Statement (.linkLoss) := .inl rfl
theorem KindsApart.powerSample : KindsApart.Statement (.powerSample) := .inl rfl
theorem KindsApart.dutyStep : KindsApart.Statement (.dutyStep) := .inl rfl
theorem KindsApart.thermalTrip : KindsApart.Statement (.thermalTrip) := .inl rfl
theorem KindsApart.activationInterval : KindsApart.Statement (.activationInterval) := .inl rfl
theorem KindsApart.graphPresenceWaitLimit : KindsApart.Statement (.graphPresenceWaitLimit) := .inl rfl
theorem KindsApart.graphPresenceReply : KindsApart.Statement (.graphPresenceReply) := .inl rfl
theorem KindsApart.lockstepAlignment : KindsApart.Statement (.lockstepAlignment) := .inl rfl
theorem KindsApart.inboundLegClaim : KindsApart.Statement (.inboundLegClaim) := .inl rfl
theorem KindsApart.holderRecall : KindsApart.Statement (.holderRecall) := .inl rfl
theorem KindsApart.probeAnswer : KindsApart.Statement (.probeAnswer) := .inl rfl
theorem KindsApart.pwrgoodDeassert : KindsApart.Statement (.pwrgoodDeassert) := .inl rfl

end Sys2Proof.Laws
end

