-- ==== Sys2Proof/Laws/Slice.lean ====
section
/-! SUPPORT. Bytes and sectors of a slice's line, and reads after writes at a home (R325, R350). -/

namespace Sys2Proof.Machine

/-! ### Lines -/

@[simp] theorem setSec_line (l : SLine) (i x : Nat) : (l.setSec i x).line = l.line := rfl
@[simp] theorem setSec_byte (l : SLine) (i x a : Nat) : (l.setSec i x).byte a = l.byte a := rfl
@[simp] theorem setByte_line (l : SLine) (a : Nat) (b : Byte) : (l.setByte a b).line = l.line := rfl
@[simp] theorem setByte_sec (l : SLine) (a : Nat) (b : Byte) (i : Nat) : (l.setByte a b).sec i = l.sec i := rfl

/-- The eight ones of a byte's mask. -/
theorem ones_getLsbD (i : Nat) : (0xFF : BitVec 2048).getLsbD i = decide (i < 8) := by
  rw [show (0xFF : BitVec 2048) = BitVec.ofNat 2048 255 from (BitVec.ofNat_eq_ofNat ..).symm, BitVec.getLsbD_ofNat, show (255 : Nat) = 2 ^ 8 - 1 from rfl, Nat.testBit_two_pow_sub_one]
  by_cases h : i < 8 <;> simp [h]
  omega

/-- A byte written into a line reads back, and the others are as before. -/
theorem byte_setByte (l : SLine) (a x : Nat) (b : Byte) :
    (l.setByte a b).byte x = if x % 256 = a % 256 then b else l.byte x := by
  have ha : a % 256 < 256 := Nat.mod_lt _ (by decide)
  have hx : x % 256 < 256 := Nat.mod_lt _ (by decide)
  unfold SLine.byte SLine.setByte
  ext i hi
  simp only [BitVec.getElem_extractLsb', BitVec.getLsbD_or, BitVec.getLsbD_and, BitVec.getLsbD_not, BitVec.getLsbD_shiftLeft,
    ones_getLsbD, BitVec.getLsbD_setWidth]
  have h1 : 8 * (x % 256) + i < 2048 := by omega
  by_cases h : x % 256 = a % 256
  · rw [if_pos h, h]
    have : ¬ 8 * (a % 256) + i < 8 * (a % 256) := by omega
    simp [this, hi, h ▸ h1]
    omega
  · rw [if_neg h]
    by_cases h2 : 8 * (x % 256) + i < 8 * (a % 256)
    · simp [h1, h2]
    · have h3 : ¬ 8 * (x % 256) + i - 8 * (a % 256) < 8 := by omega
      simp [h1, h2, h3, BitVec.getLsbD_of_ge b _ (by omega : 8 ≤ 8 * (x % 256) + i - 8 * (a % 256))]

/-- The state of one sector set, and the others as before. -/
theorem sec_setSec (l : SLine) {i j x : Nat} (hj : j < 4) (hx : x < 4) :
    (l.setSec i x).sec j = if i = j then x else l.sec j := by
  have key : (l.setSec i x).st.extractLsb' (2 * j) 2 = if i = j then BitVec.ofNat 2 x else l.st.extractLsb' (2 * j) 2 := by
    ext k hk
    have h3 (n : Nat) : (3 : BitVec 8).getLsbD n = decide (n < 2) := by
      show (BitVec.ofNat 8 (2 ^ 2 - 1)).getLsbD n = _
      rw [BitVec.getLsbD_ofNat, Nat.testBit_two_pow_sub_one]
      by_cases h : n < 2 <;> simp [h]
      omega
    have hb : 2 * j + k < 8 := by omega
    simp only [SLine.setSec, BitVec.getElem_extractLsb', BitVec.getLsbD_or, BitVec.getLsbD_and, BitVec.getLsbD_not,
      BitVec.getLsbD_shiftLeft, h3, BitVec.getLsbD_ofNat]
    by_cases h : i = j
    · subst h
      rw [if_pos rfl, ← BitVec.getLsbD_eq_getElem, BitVec.getLsbD_ofNat]
      simp [hb, hk, show k < 8 by omega]
    · rw [if_neg h]
      by_cases h2 : 2 * j + k < 2 * i
      · simp [hb, h2]
      · have h4 : ¬ 2 * j + k - 2 * i < 2 := by omega
        have h5 : x.testBit (2 * j + k - 2 * i) = false :=
          Nat.testBit_lt_two_pow (Nat.lt_of_lt_of_le hx (Nat.pow_le_pow_right (n := 2) (by decide) (by omega : 2 ≤ _)))
        simp [hb, h2, h4, h5]
  unfold SLine.sec
  rw [key]
  split
  · simp [Nat.mod_eq_of_lt hx]
  · rfl

/-! ### Reads after writes at a home -/

/-- The line of a place after a line of the same slice is changed, its number kept. -/
theorem lineAt_modLine (s : State) {bank : Nat} (key a : Nat) (f : SLine → SLine) (hb : bank < 256) (hf : ∀ l, (f l).line = l.line) :
    lineAt (modLine s bank key f) bank a = (lineAt s bank a).map fun l => if l.line = key / 256 then f l else l := by
  simp only [lineAt, hb, if_true, modLine, stn_modStn]
  induction (stn s bank).slice with
  | nil => rfl
  | cons l ls ih =>
    have hl : (if l.line = key / 256 then f l else l).line = l.line := by split <;> simp [hf]
    simp only [List.map_cons, List.find?_cons, hl]
    split <;> simp_all

@[simp] theorem lineAt_wrB (s : State) (bank a key : Nat) (b : Byte) : lineAt (wrB s key b) bank a = lineAt s bank a := rfl

/-- The line found for a place is that place's. -/
theorem lineAt_line {s : State} {bank a : Nat} {l : SLine} (h : lineAt s bank a = some l) : l.line = a / 256 := by
  unfold lineAt at h
  split at h
  · simpa using List.find?_some h
  · cases h

theorem lineAt_bank {s : State} {bank a : Nat} {l : SLine} (h : lineAt s bank a = some l) : bank < 256 := by
  unfold lineAt at h
  split at h
  · assumption
  · cases h

/-- A byte written at a home reads back there, and every other byte of this device reads as before. -/
theorem hRdB_hWrB (s : State) (bank key a : Nat) (b : Byte) (hk : isPeer key = false) (ha : isPeer a = false) :
    hRdB (hWrB s bank key b) bank a = if a = key then b else hRdB s bank a := by
  have hback (t : State) : backB t a = rdB t a := by simp [backB, ha]
  unfold hWrB
  split
  · next hs =>
    obtain ⟨m, hm, hne⟩ : ∃ m, lineAt s bank key = some m ∧ m.sec (key / 64 % 4) ≠ 0 := by
      unfold sectorHit at hs
      cases h : lineAt s bank key with
      | none => simp [h] at hs
      | some m => exact ⟨m, rfl, by simpa [h] using hs⟩
    have hb := lineAt_bank hm
    have hml := lineAt_line hm
    have hL := lineAt_modLine s key a (fun l => (l.setByte key b).setSec (key / 64 % 4) 3) hb fun l => rfl
    unfold hRdB
    rw [hL]
    simp only [hback]
    have hrd : rdB (modLine s bank key fun l => (l.setByte key b).setSec (key / 64 % 4) 3) a = rdB s a := rfl
    cases hl : lineAt s bank a with
    | none =>
      have : a ≠ key := fun e => by rw [e, hm] at hl; cases hl
      simp [this, hrd]
    | some l =>
      have hll := lineAt_line hl
      have h5 : a / 64 % 4 < 4 := Nat.mod_lt _ (by decide)
      by_cases hline : a / 256 = key / 256
      · have hlm : l = m := by
          have : lineAt s bank a = lineAt s bank key := by simp only [lineAt, hline]
          rw [hl, hm] at this; exact Option.some.inj this
        subst hlm
        simp only [Option.map_some, hll, hline, if_true, sec_setSec _ h5 (by decide : 3 < 4), setSec_byte, byte_setByte, setByte_sec, hrd]
        by_cases hk : a = key
        · subst hk; simp
        · have : ¬ a % 256 = key % 256 := fun e => hk (by omega)
          simp only [hk, this, if_false]
          by_cases h6 : key / 64 % 4 = a / 64 % 4
          · simp [h6, h6 ▸ hne]
          · simp [h6]
      · have hak : a ≠ key := fun e => hline (by rw [e])
        have : ¬ l.line = key / 256 := by omega
        simp [this, hak, hrd]
  · next hs =>
    rw [if_neg (by simp [hk])]
    simp only [hRdB, lineAt_wrB, hback, rdB_wrB]
    cases hl : lineAt s bank a with
    | none => simp only [eq_comm]
    | some l =>
      by_cases h : a = key
      · subst h
        have : l.sec (a / 64 % 4) = 0 := by
          by_contra hc; exact hs (by simp [sectorHit, hl, hc])
        simp [this]
      · simp [h, Ne.symm h]

/-- Bytes written at a home one after another read back there, and every other byte of this device reads as before. -/
theorem hRdB_hWrL (s : State) (bank key a : Nat) (l : List Byte) (hk : ∀ i < l.length, isPeer (key + i) = false)
    (ha : isPeer a = false) :
    hRdB (hWrL s bank key l) bank a = if key ≤ a ∧ a < key + l.length then l.getD (a - key) 0 else hRdB s bank a := by
  have go : ∀ n ≤ l.length, hRdB ((List.range n).foldl (fun s i => hWrB s bank (key + i) (l.getD i 0)) s) bank a =
      if key ≤ a ∧ a < key + n then l.getD (a - key) 0 else hRdB s bank a := by
    intro n hn
    induction n with
    | zero => simp
    | succ n ih =>
      rw [List.range_succ, List.foldl_append, List.foldl_cons, List.foldl_nil, hRdB_hWrB _ _ _ _ _ (hk n (by omega)) ha,
        ih (by omega)]
      by_cases h : a = key + n
      · subst h; simp
      · have : (key ≤ a ∧ a < key + (n + 1)) ↔ (key ≤ a ∧ a < key + n) := by omega
        simp only [h, if_false, this]
  exact go _ (Nat.le_refl _)

/-- A number written at a home leaves every byte of this device outside it as before. -/
theorem hRdB_hWrN_other (s : State) (bank key n x a : Nat) (hk : ∀ i < n, isPeer (key + i) = false) (ha : isPeer a = false)
    (h : a < key ∨ key + n ≤ a) : hRdB (hWrN s bank key n x) bank a = hRdB s bank a := by
  have hl : (natLe n x).length = n := by
    clear h hk
    induction n generalizing x with
    | zero => rfl
    | succ n ih => simp [natLe, ih]
  unfold hWrN
  rw [hRdB_hWrL _ _ _ _ _ (by rwa [hl]) ha, hl, if_neg (by omega)]

end Sys2Proof.Machine
end

