-- ==== Sys2Proof/Laws/Token.lean ====
section
/-! SUPPORT. Laws of tokens: a lane of a packed payload, an element of a lane, a mask from its bits. -/

namespace Sys2Proof.Laws

open Sys2Proof Machine

/-! ### Digits of a number built from its places -/

/-- The sum of n digits of w bits each. -/
def digits (w n : Nat) (f : Nat → Nat) : Nat := (List.range n).foldl (fun x i => x + f i % 2 ^ w * 2 ^ (w * i)) 0

theorem digits_succ (w n : Nat) (f : Nat → Nat) : digits w (n + 1) f = digits w n f + f n % 2 ^ w * 2 ^ (w * n) := by
  simp [digits, List.range_succ]

theorem digits_lt (w n : Nat) (f : Nat → Nat) : digits w n f < 2 ^ (w * n) := by
  induction n with
  | zero => simp [digits]
  | succ n ih =>
    rw [digits_succ, Nat.mul_succ, Nat.pow_add]
    have h : f n % 2 ^ w < 2 ^ w := Nat.mod_lt _ (Nat.two_pow_pos w)
    have h2 : f n % 2 ^ w * 2 ^ (w * n) ≤ (2 ^ w - 1) * 2 ^ (w * n) := Nat.mul_le_mul_right _ (by omega)
    have h3 : (2 ^ w - 1) * 2 ^ (w * n) + 2 ^ (w * n) = 2 ^ (w * n) * 2 ^ w := by
      rw [← Nat.succ_mul, Nat.succ_eq_add_one, Nat.sub_add_cancel (Nat.two_pow_pos w), Nat.mul_comm]
    omega

/-- Digit k of the sum. -/
theorem digit_get (w n : Nat) (f : Nat → Nat) (k : Nat) (hk : k < n) : digits w n f / 2 ^ (w * k) % 2 ^ w = f k % 2 ^ w := by
  induction n with
  | zero => omega
  | succ n ih =>
    rw [digits_succ]
    by_cases h : k = n
    · subst h
      rw [Nat.add_mul_div_right _ _ (Nat.two_pow_pos _), Nat.div_eq_of_lt (digits_lt w k f), Nat.zero_add, Nat.mod_mod]
    · have hlt : k < n := by omega
      obtain ⟨c, hc⟩ : ∃ c, n = k + 1 + c := ⟨n - k - 1, by omega⟩
      have e : f n % 2 ^ w * 2 ^ (w * n) = 2 ^ w * (f n % 2 ^ w * 2 ^ (w * c)) * 2 ^ (w * k) := by
        rw [hc, Nat.mul_add, Nat.mul_add, Nat.mul_one, Nat.pow_add, Nat.pow_add]
        ac_rfl
      rw [e, Nat.add_mul_div_right _ _ (Nat.two_pow_pos _), Nat.add_mul_mod_self_left]
      exact ih hlt

/-! ### Lanes and elements -/

theorem packLanes_digits (l : List Word) : packLanes l = BitVec.ofNat 256 (digits 32 8 fun j => (l.getD j 0).toNat) := by
  unfold packLanes digits
  congr 2
  funext x i
  rw [Nat.mod_eq_of_lt (l.getD i 0).isLt]

/-- Lane j of packed lanes. -/
theorem lane_packLanes (l : List Word) (j : Nat) (hj : j < 8) : (packLanes l).extractLsb' (32 * j) 32 = l.getD j 0 := by
  apply BitVec.eq_of_toNat_eq
  rw [packLanes_digits, BitVec.extractLsb'_toNat, BitVec.toNat_ofNat, Nat.mod_eq_of_lt (digits_lt 32 8 _), Nat.shiftRight_eq_div_pow,
    digit_get 32 8 _ j hj, Nat.mod_eq_of_lt (l.getD j 0).isLt]

/-- Lane j of a payload made from a mask and a function. -/
theorem lane_lanesFrom (v : BitVec 8) (f : Nat → Nat) (j : Nat) (hj : j < 8) :
    ((lanesFrom v f).extractLsb' (32 * j) 32).toNat = if v.getLsbD j then f j % 2 ^ 32 else 0 := by
  unfold lanesFrom
  rw [lane_packLanes _ _ hj]
  simp only [List.getD_eq_getElem?_getD, List.getElem?_map, List.getElem?_range hj, Option.map_some, Option.getD_some]
  split <;> simp

theorem laneFrom_digits (w : Nat) (f : Nat → Nat) : laneFrom w f = digits w (perLane w) f := rfl

/-- Element i of a lane made from its elements, for the widths of the spec. -/
theorem elemOf_laneFrom (w : Nat) (f : Nat → Nat) (i : Nat) (hi : i < perLane w) : elemOf w i (laneFrom w f) = f i % 2 ^ w := by
  rw [laneFrom_digits]; exact digit_get w _ f i hi

theorem laneFrom_lt (w : Nat) (f : Nat → Nat) : laneFrom w f < 2 ^ 32 := by
  rw [laneFrom_digits]
  exact Nat.lt_of_lt_of_le (digits_lt w _ f) (Nat.pow_le_pow_right (by decide) (by unfold perLane; exact Nat.mul_div_le 32 w))

/-- Element i of lane j of an element-wise result. -/
theorem elem_elementwise (w : Nat) (a : Token) (y : Nat → Nat) (v : BitVec 8) (g : Nat → Nat → Nat → Nat → Nat) (j i : Nat) (hj : j < 8)
    (hi : i < perLane w) :
    elemOf w i ((elementwise w a y v g).laneN j) =
      if v.getLsbD j then g j i (elemOf w i (a.laneN j)) (elemOf w i (y j)) % 2 ^ w else 0 := by
  have h : (elementwise w a y v g).laneN j =
      if v.getLsbD j then laneFrom w (fun i => g j i (elemOf w i (a.laneN j)) (elemOf w i (y j))) % 2 ^ 32 else 0 :=
    lane_lanesFrom v _ j hj
  rw [h]
  split
  · rw [Nat.mod_eq_of_lt (laneFrom_lt w _), elemOf_laneFrom w _ i hi]
  · simp [elemOf]

/-- Every element of a lane that repeats one. -/
theorem elemOf_everywhere (w x i : Nat) (hi : i < perLane w) : elemOf w i (everywhere w x) = x % 2 ^ w := elemOf_laneFrom w _ i hi

/-- Lane j of a result token. -/
theorem laneN_resultTok (a : Token) (v : BitVec 8) (f : Nat → Nat) (j : Nat) (hj : j < 8) :
    (resultTok a v f).laneN j = if v.getLsbD j then f j % 2 ^ 32 else 0 := lane_lanesFrom v f j hj

/-- Bit j of a mask built bit by bit. -/
theorem mask_bit (p : Nat → Bool) (n j : Nat) (hj : j < 8) :
    ((List.range n).foldl (fun m i => if p i then m ||| ((1 : BitVec 8) <<< i) else m) 0).getLsbD j = (decide (j < n) && p j) := by
  induction n with
  | zero => simp
  | succ n ih =>
    rw [List.range_succ, List.foldl_append, List.foldl_cons, List.foldl_nil]
    by_cases h : j = n
    · subst h
      have hz : ((List.range j).foldl (fun m i => if p i then m ||| ((1 : BitVec 8) <<< i) else m) 0).getLsbD j = false := by
        rw [ih]; simp
      split
      · next hp => rw [BitVec.getLsbD_or, hz, BitVec.getLsbD_shiftLeft]; simp [hj, hp]
      · next hp => rw [hz]; simp [hp]
    · have : (decide (j < n + 1)) = decide (j < n) := by simp; omega
      split
      · rw [BitVec.getLsbD_or, ih, this, BitVec.getLsbD_shiftLeft]
        have hz : ((decide (j < 8) && !decide (j < n)) && (1 : BitVec 8).getLsbD (j - n)) = false := by
          by_cases hn : j < n
          · simp [hn]
          · have : j - n ≠ 0 := by omega
            simp [BitVec.getLsbD_one, this]
        rw [hz, Bool.or_false]
      · rw [ih, this]

end Sys2Proof.Laws
end

