-- ==== Sys2Proof/Tests/Slice0.lean ====
section
/-! SUPPORT. Tests: ill-formed terms, words written out from the spec's encodings, single steps with the spec's own numbers, and a
state that meets the hypotheses of each statement. -/

namespace Sys2Proof.Tests

open Machine

set_option maxRecDepth 100000
-- The tests are checked one after another, so that the package compiles within its memory.
set_option Elab.async false

/-! ### Ill-formed terms, one for each check -/

/-- RMF 6 of R169, a fence kind above 5 of R338, unsigned wrapping of R186, VCMP into k0 and condition 6 of R187, VFCMP condition 5
of R189. -/
theorem test_wf_modes : (Instr.fadd false 1 2 3 0 6).wf = false ∧ (Instr.fencex false 6 0).wf = false ∧
    (Instr.vadd false 1 2 3 0 false false true).wf = false ∧ (Instr.vcmp false 0 0 1 2 0 false).wf = false ∧
    (Instr.vcmp false 1 0 1 2 6 false).wf = false ∧ (Instr.vfcmp false 1 0 1 2 5).wf = false := by decide

/-- F without 16-bit lanes (R188), a high lane of 32-bit lanes (R192), code 11 and f16 in 32-bit lanes of R193, type 7 and WRAP into
f32 of R194, function 5 of R196. -/
theorem test_wf_vectors : (Instr.vfadd false 1 2 3 0 false true 0).wf = false ∧
    (Instr.vextr false 1 2 0 false false true false).wf = false ∧ (Instr.vins false 1 2 0 false false true).wf = false ∧
    (Instr.vred false 1 2 0 false 11).wf = false ∧ (Instr.vred false 1 2 0 false 10).wf = false ∧
    (Instr.vcvt false 1 2 7 0 0 0).wf = false ∧ (Instr.vcvt false 1 2 0 0 1 1).wf = false ∧
    (Instr.vsfu false 1 2 0 5).wf = false := by decide

/-- MONCLR of all with a number, SEND from g0 and RECV past g31 (R417, R419, R420), command registers (R231, R377, R389), TSTAT's clear
outside word 3 (R236), an unlisted control register (R78), CFGREAD word 3 (R315). -/
theorem test_wf_registers : (Instr.monclr false true 1).wf = false ∧ (Instr.send false 1 2 0 0).wf = false ∧
    (Instr.sendHost false 1 2 29 0).wf = false ∧ (Instr.recv false 28 false).wf = false ∧ (Instr.mxcfg false 6 0).wf = false ∧
    (Instr.tstat false 1 2 true 2).wf = false ∧ (Instr.cpy false 1 12 0).wf = false ∧ (Instr.cpyx false 1 0 0).wf = false ∧
    (Instr.collred false 2).wf = false ∧ (Instr.crr false 1 0x009).wf = false ∧ (Instr.crw false 1 0x023).wf = false ∧
    (Instr.cfgread false 1 2 3).wf = false := by decide

/-- Graph slots: an unused mod, equal destinations, a destination word without V, saturation of IMIN, ICMP condition 6, float type 3,
level 0, WRAP into f32, EMIT kind 11, and a Porlek instruction in a slot (R110, R278 to R310). -/
theorem test_wf_graph : ({ op := .pass, mod := 1, d0 := 0, d1 := 0, imm := 0 } : RoszonWord).wf = false ∧
    ({ op := .pass, mod := 0, d0 := 0x8400, d1 := 0x8400, imm := 0 } : RoszonWord).wf = false ∧
    ({ op := .pass, mod := 0, d0 := 0x0400, d1 := 0, imm := 0 } : RoszonWord).wf = false ∧
    ({ op := .imin, mod := 4, d0 := 0, d1 := 0, imm := 0 } : RoszonWord).wf = false ∧
    ({ op := .icmp, mod := 0x60, d0 := 0, d1 := 0, imm := 0 } : RoszonWord).wf = false ∧
    ({ op := .graphFadd, mod := 3, d0 := 0, d1 := 0, imm := 0 } : RoszonWord).wf = false ∧
    ({ op := .rowstat, mod := 0, d0 := 0, d1 := 0, imm := 0 } : RoszonWord).wf = false ∧
    ({ op := .cvt, mod := 0, d0 := 0, d1 := 0, imm := 0x100 } : RoszonWord).wf = false ∧
    ({ op := .emit, mod := 11, d0 := 0, d1 := 0, imm := 0 } : RoszonWord).wf = false ∧
    ({ op := .add false 1 2 3, mod := 0, d0 := 0, d1 := 0, imm := 0 } : RoszonWord).wf = false := by decide

/-! ### Words, from the tables of the entries -/

/-- Majors 0x06, 0x0C, 0x16, 0x22 and 0x25 (R167, R177, R183, R362, R363): srai g1, g2, #3; fnms.f64 g1, g2, g3, g4; mkfp.r g1,
seg3:[g2]; ldg g1, seg2:[g3−8]; vld.w v1 k1, seg2:[g6+128]. -/
theorem test_words_fields :
    decodePorlek (0#1 ++ 0x06#6 ++ 1#5 ++ 2#5 ++ 2#2 ++ 0#7 ++ 3#6) = .ok (.srai false 1 2 3) ∧
    decodePorlek (1#1 ++ 0x0C#6 ++ 1#5 ++ 2#5 ++ 3#5 ++ 4#5 ++ 1#2 ++ 3#2 ++ 0#1) = .ok (.fnms true 1 2 3 4 1) ∧
    decodePorlek (0#1 ++ 0x16#6 ++ 1#5 ++ 2#5 ++ 0#2 ++ 3#3 ++ 0#8 ++ 1#2) = .ok (.mkfpR false 1 2 3) ∧
    decodePorlek (0#1 ++ 0x22#6 ++ 1#5 ++ 3#5 ++ 2#3 ++ 0xFF8#12) = .ok (.ldg false 1 3 2 0xFF8) ∧
    decodePorlek (0#1 ++ 0x25#6 ++ 1#4 ++ 0#4 ++ 2#4 ++ 1#2 ++ 0#1 ++ 6#5 ++ 2#3 ++ 0#2) = .ok (.vld false 1 2 1 false 6 2) :=
  ⟨rfl, rfl, rfl, rfl, rfl⟩

/-- Majors 0x2B, 0x2D, 0x35 and 0x38 (R188, R199, R389, R395): vffma.bf16.rtz v5 k2, v6, v7; kpopc g3, k2; collstat g3, g4; inval
seg2:[g4], g5. -/
theorem test_words_units :
    decodePorlek (0#1 ++ 0x2B#6 ++ 5#4 ++ 6#4 ++ 7#4 ++ 2#2 ++ 1#1 ++ 3#5 ++ 1#1 ++ 1#3 ++ 0#1) = .ok (.vffma false 5 6 7 2 true true 1) ∧
    decodePorlek (0#1 ++ 0x2D#6 ++ 3#5 ++ 2#5 ++ 0#5 ++ 7#10) = .ok (.kpopc false 3 2) ∧
    decodePorlek (0#1 ++ 0x35#6 ++ 3#5 ++ 4#5 ++ 0#5 ++ 2#2 ++ 0#8) = .ok (.collstat false 3 4) ∧
    decodePorlek (0#1 ++ 0x38#6 ++ 0#5 ++ 4#5 ++ 5#5 ++ 0#4 ++ 2#3 ++ 3#3) = .ok (.inval false 4 5 2) := ⟨rfl, rfl, rfl, rfl⟩

/-- More words that the spec writes out: file 06's lane sum, files 14, 15 and 16, and the graph of file 09's worked softmax. -/
theorem test_words_spec : decodePorlek 0x12509700 = .ok (.lui false 5 0x09700) ∧
    decodePorlek 0x586200A9 = .ok (.vred false 3 1 0 false 9) ∧ decodePorlek 0xEE9880D0 = .ok (.ctxld true 9 17 0 5) ∧
    decodePorlek 0x6E320180 = .ok (.rqpop false 3 4) ∧ decodePorlek 0x8272D80B = .ok (.xor true 7 5 22) ∧
    decodePorlek 0x1D7C7FE6 = .ok (.bne false 23 24 0x7fe6) ∧ decodePorlek 0x68900100 = .ok (.sbcommit false 9 0 0) ∧
    decodeRoszon 0x2B00841000000001 = .ok { op := .rowstat, mod := 0, d0 := 0x8410, d1 := 0, imm := 1 } ∧
    decodeRoszon 0x2C00880088100039 = .ok { op := .delay, mod := 0, d0 := 0x8800, d1 := 0x8810, imm := 0x39 } ∧
    decodeRoszon 0x10808C0000000000 = .ok { op := .graphFadd, mod := 0x80, d0 := 0x8c00, d1 := 0, imm := 0 } :=
  ⟨rfl, rfl, rfl, rfl, rfl, rfl, rfl, rfl, rfl, rfl⟩

/-- Words that are none (R83, R183, R109): the all-zero word, major 0x3A, a reserved field of ADD, a pointer tag, an empty slot. -/
theorem test_words_illegal : (decodePorlek 0).toOption = none ∧ (decodePorlek 0x74000000).toOption = none ∧
    (decodePorlek 0x02000040).toOption = none ∧ decodePorlek (0#1 ++ 0x16#6 ++ 1#5 ++ 2#5 ++ 0#13 ++ 2#2) = .error .pointerTag ∧
    (decodeRoszon 0).toOption = none := ⟨rfl, rfl, rfl, rfl, rfl⟩

/-! ### A small state: partition 1 on stations 0 to 3, one thread in slot 0 of station 0 -/

def tThr : Thread := { tid := 0x10000001, sup := true, st := .running 0, tvec := 0x2000, prio := 1, bprio := 1 }

def tPart : Partition := { st := .running, stations := [0, 1, 2, 3] }

/-- The thread with registers set. -/
def withG (th : Thread) (l : List (Nat × DWord)) : Thread := { th with g := l.foldl (fun v x => vset v x.1 x.2) th.g }

/-- A segment: base, limit, its bits [119:112] and its type. -/
def tSeg (base limit rights type : Nat) : Seg := { desc := BitVec.ofNat 128 (base + limit * 2 ^ 64 + rights * 2 ^ 112 + type * 2 ^ 124) }

/-- The thread with a segment register. -/
def withS (th : Thread) (n : Nat) (g : Seg) : Thread := { th with seg := vset th.seg n g }

/-- The thread's turn at station x of partition p. -/
def tSt (th : Thread) (x : Station := {}) (p : Partition := tPart) : State :=
  { live := true, cursor := 0, threads := [(th.tid.toNat, th)], stations := [(0, { x with slots := vset x.slots 0 (some th.tid) })], parts := [(1, p)] }

/-- The thread has its turn and nothing outstanding. -/
theorem test_ready : Ready (tSt tThr) true tThr ∧ Ready (tSt tThr) false tThr := ⟨⟨rfl, rfl, fun _ => rfl⟩, ⟨rfl, rfl, fun _ => rfl⟩⟩

/-! ### Encoding and the step: the hypotheses are met -/

theorem test_encodes : encodePorlek (.addi false 6 6 8) = some 0x04630008 ∧ (Instr.addi false 6 6 8).wf = true ∧
    encodeRoszon { op := .pass, mod := 0, d0 := 0x8c20, d1 := 0xc800, imm := 0 } = some 0x01008C20C8000000 ∧
    ({ op := .pass, mod := 0, d0 := 0x8c20, d1 := 0xc800, imm := 0 } : RoszonWord).wf = true := ⟨rfl, rfl, rfl, rfl⟩

/-- The thread at pc 0 of an executable segment 0, with the word w in its instruction cache. -/
def tFetch (w : BitVec 32) : State :=
  tSt (withS tThr 0 (tSeg 0 64 4 0)) { icache := [{ part := 1, line := 0, data := w.setWidth 512 }] }

/-- A legal word, an illegal one and an illegal pointer tag are fetched (R83, R183). -/
theorem test_fetches : ∀ w ∈ [0x04630008, 0, 0x2C110002], Fetches (tFetch w) (withS tThr 0 (tSeg 0 64 4 0)) 0 0 w := by
  intro w hw
  simp only [List.mem_cons, List.not_mem_nil, or_false] at hw
  rcases hw with rfl | rfl | rfl <;>
    exact ⟨rfl, rfl, rfl, ⟨rfl, by decide⟩, ⟨rfl, rfl⟩, ⟨rfl, rfl⟩, ⟨rfl, rfl, rfl⟩, rfl, rfl, rfl, ⟨rfl, by decide⟩, rfl⟩

theorem test_fetched_words : decodePorlek 0x04630008 = .ok (.addi false 6 6 8) ∧ (decodePorlek 0).toOption = none ∧
    decodePorlek 0x2C110002 = .error .pointerTag := ⟨rfl, rfl, rfl⟩

/-- The fetched ADDI runs (R166), and the illegal word enters the handler with ILLEGAL_OP (R83). -/
theorem test_step_addi : ∃ t u, step (tFetch 0x04630008) = .next t ∧ getThr t 0x10000001 = some u ∧ rg u 6 = 8 ∧ u.pc = 4 :=
  ⟨_, _, rfl, rfl, by decide +kernel, by decide +kernel⟩
theorem test_step_illegal : ∃ t u, step (tFetch 0) = .next t ∧ getThr t 0x10000001 = some u ∧ u.cause = 1 ∧ u.pc = 0x2000 :=
  ⟨_, _, rfl, rfl, by decide +kernel, by decide +kernel⟩

/-- The instruction that withFetchWord places is the one that the first step after reset performs. -/
theorem test_step_reset : ∃ t u, step (State.reset.withFetchWord 32 0x04630008) = .next t ∧ t.threads = [u] ∧ rg u.2 6 = 8 :=
  ⟨_, _, rfl, rfl, by decide +kernel⟩

/-- An event that is due and not held back. -/
theorem test_event_due : ({ live := true, agenda := [(5, .linkLoss), (0, .pwrgood)] } : State).agenda = [(5, .linkLoss)] ++ (0, .pwrgood) :: [] ∧
    heldBack { live := true } .pwrgood = false ∧ (∀ x ∈ [((5 : Nat), Event.linkLoss)], (0 : Nat) < x.1) := ⟨rfl, rfl, by decide⟩

/-- A data token. -/
def tTok (lanes : List Nat) (kind : BitVec 4 := 0) : Token :=
  { pay := BitVec.ofNat 256 ((lanes.mapIdx fun i x => x * 2 ^ (32 * i)).sum), fmt := 0, sc := false, kind := kind, seq := 0, iter := 0,
    act := 5, valid := BitVec.ofNat 8 (2 ^ lanes.length - 1) }

/-- A consist of one tile at station 0, its element 0 in use. -/
def tCons : Consist := { cid := 7, tiles := [{ st := 0, elems := 1, readout := 0 }], acts := [] }

/-- Its element holds w in slot 0, and the tokens l wait in its matching store. -/
def tGraph (w : DWord) (l : List Ent) (c : Consist := tCons) : State :=
  { tSt tThr { owner := some (1, 7) } { tPart with consists := [c] } with
    elems := [(0, { slots := vset (Vector.replicate 32 0) 0 w, store := l })], cursor := 512 }

/-- PASS fires on the token at its port a (R277). -/
theorem test_element_fires : ∃ s1, elementTurn (tGraph 0x0100000000000000 [{ tok := tTok [3, 4], slot := 0, port := false }]) 0 0 =
    (s1, some .pass) ∧ tileOwner s1 0 ≠ none := ⟨_, rfl, by decide +kernel⟩

/-! ### Scalars: clauses and single steps -/

/-- The state after a meaning answered, read at the thread. -/
def after (i : Instr) (s : State) : Option Thread := match exec i s with | .next t => getThr t 0x10000001 | _ => none

/-- Both ends of R168's range, and its example: 31 and −15,808 build 1,000,000. -/
theorem test_constants : (-(2 ^ 34) - 16384 : Int) ≤ -(2 ^ 34) - 16384 ∧ (2 ^ 34 - 16385 : Int) ≤ 2 ^ 34 - 16385 ∧
    ((31 : BitVec 20).signExtend 64 <<< 15) + (BitVec.ofInt 15 (-15808)).signExtend 64 = 1000000#64 := by decide

/-- lui g4, #0x7F00 gives 0x3F80_0000 (R168). -/
theorem test_lui : (after (.lui false 4 0x07f00) (tSt tThr)).map (rg · 4) = some 0x3F800000 := by decide +kernel

/-- DIV by zero and the overflow of −2^63 by −1 (R127): the results on their way. -/
theorem test_div : ((after (.div false 1 2 3) (tSt (withG tThr [(2, 7), (3, 0)]))).bind (·.ops.head?)).map (·.res) = some [(0, -1)] ∧
    ((after (.div false 1 2 3) (tSt (withG tThr [(2, 0x8000000000000000), (3, -1)]))).bind (·.ops.head?)).map (·.res) =
      some [(0, 0x8000000000000000)] := by decide +kernel

/-- 2^24 + 1 in f32 is a tie that goes to 2^24, and raises NX (R132, file 06's lane sum). -/
theorem test_fadd_tie : (after (.fadd false 3 4 5 0 7) (tSt (withG tThr [(4, 0x4B800000), (5, 0x3F800000)]))).map
    (fun u => (rg u 3, u.fpcsr)) = some (0x4B800000, 0x20) := by decide +kernel

/-- Each case of R172: NaNs, one NaN, order, and −0 below +0. -/
theorem test_minmax_cases : (f32.num 0x7FC00000).isNan = true ∧ (f32.num 0x3F800000).isNan = false ∧
    cmpNum (f32.num 0x3F800000) (f32.num 0x40000000) = -1 ∧ cmpNum (f32.num 0x40000000) (f32.num 0x3F800000) = 1 ∧
    cmpNum (f32.num 0x80000000) (f32.num 0) = 0 ∧ (f32.num 0x80000000).sgn = true ∧ (f32.num 0).sgn = false := by decide +kernel
theorem test_fmin_zero : (after (.fmin false 3 4 5 0) (tSt (withG tThr [(4, 0), (5, 0x80000000)]))).map (rg · 3) = some 0x80000000 := by
  decide +kernel

/-- A rounding that does not overflow, in every mode. -/
theorem test_rounding_cases : ∀ mode ≤ 5, (roundNum f16 mode 0 (.fin true 2049 0 false)).2 &&& fOF = 0 := by decide +kernel

/-- Codes of fd2, and conversions into fd2 and fd4, from the worked tables of file 05. -/
theorem test_fd_codes : (fdTy 0x0005079C).num 0x45 = .fin false 13 (-2) false ∧ (fdTy 0x0005079C).num 0x7E = .fin false 14 5 false ∧
    (fdTy 0x0005079C).num 0xB0 = .fin true 8 (-4) false ∧ (fdTy 0x0005079C).num 0x7F = .nan false := by decide +kernel
theorem test_fd_conversions : convert (fdTy 0x0005079C) 0 0 0 (.fin true 1 (-1) false) = (0xB0, 0) ∧
    convert (fdTy 0x0005079C) 0 0 0 (.fin false 464 0 false) = (0x7E, fNX) ∧
    convert (fdTy 0x0005079C) 0 0 0 (.fin false 480 0 false) = (0x7E, fOF ||| fNX) ∧
    convert (fdTy 0x0005079C) 0 2 0 (.fin false 480 0 false) = (0x7F, fOF ||| fNX) ∧
    convert (fdTy 0x0004018A) 0 0 0 (.fin false 5 0 false) = (0x6, fNX) ∧
    convert (fdTy 0x0004018A) 0 0 0 (.fin false 7 0 false) = (0x7, fOF ||| fNX) ∧
    convert (fdTy 0x0004018A) 0 0 0 (.fin false 1 (-2) false) = (0, fUF ||| fNX) := by decide +kernel

/-- The products of file 05's worked k-step: their sum, and the accumulator after it. -/
def tProducts : List Machine.Num := [.fin false 1536 0 false, .fin true 3 (-2) false, .fin false 3 (-47) false, .fin true 1 (-48) false]

theorem test_kstep : w96Add (toW96 (.fin false 1 (-2) false)) (toW96 (groupSum tProducts)) = (0x40097FE00000000001000000, 0) := by
  decide +kernel

/-- Each kind of group and of integer step. -/
theorem test_kstep_cases : (∀ p ∈ tProducts, Finite p) ∧ (tProducts.filterMap leadExp).max? = some 10 ∧
    (([] : List Machine.Num).filterMap leadExp) = [] ∧ List.any [Machine.Num.nan true] Machine.Num.isNan = true ∧
    List.any [Machine.Num.inf true] Machine.Num.isNan = false ∧
    (∀ p ∈ [Machine.Num.fin false 3 (-46) false, .fin false 1 10 false], ∃ k : Nat, p = .fin false k (-46) false ∨ p = .fin false k 10 false) ∧
    (2 ^ 23 ≤ (2 ^ 23 - 1 : Int) + 1 ∧ -(2 ^ 23) ≤ (2 ^ 23 - 1 : Int) ∧ (4 % 4 = 0 ∧ 3 % 4 ≠ 0)) := by
  refine ⟨?_, by decide, rfl, rfl, rfl, ?_, by decide⟩
  · intro p hp
    simp only [tProducts, List.mem_cons, List.not_mem_nil, or_false] at hp
    rcases hp with rfl | rfl | rfl | rfl <;> exact ⟨rfl, nofun, nofun⟩
  · intro p hp
    simp only [List.mem_cons, List.not_mem_nil, or_false] at hp
    rcases hp with rfl | rfl
    · exact ⟨3, .inl rfl⟩
    · exact ⟨1, .inr rfl⟩

/-- JALR's targets, CALLT's entries at the limits of segment 0 and its tags, MKFP's offsets (R180, R182, R183). -/
theorem test_jump_cases : (4 : Nat) % 4 = 0 ∧ (2 : Nat) % 4 ≠ 0 ∧ 2 ^ 63 ≤ (0x8000000000000000#64).toNat ∧
    2 ^ 56 ≤ (0x0100000000000000#64).toNat % 2 ^ 62 ∧ (60#64).toNat < 2 ^ 56 ∧ (tSeg 0 64 4 0).exec = true ∧
    (tSeg 0 64 4 0).base ≤ 60 ∧ 60 < (tSeg 0 64 4 0).base + (tSeg 0 64 4 0).limit ∧
    (tSeg 0 64 4 0).base + (tSeg 0 64 4 0).limit ≤ 64 ∧ (tSeg 0 64 1 0).exec = false ∧ (tSeg 0 64 1 0).read = true ∧
    (tSeg 0 64 4 0).read = false ∧ 0 + 64 ≤ (tSeg 0 64 1 0).limit ∧ (tSeg 0 64 1 0).limit < 64 + 64 := by decide +kernel
theorem test_callt : (after (.callt false 16) (tSt (withG (withS tThr 0 (tSeg 0 64 4 0)) [(16, 60)]))).map (fun u => (u.pc, rg u 31)) =
    some (60, 4) := by decide +kernel

/-! ### Vectors -/

/-- No register is bound to a stream. -/
theorem test_vec_reads : VecReads (tSt tThr) tThr [1, 2] (some 3) (tSt tThr) (rv tThr) ∧ VecReads (tSt tThr) tThr [1, 2] none (tSt tThr) (rv tThr) ∧
    VecReads (tSt tThr) tThr [1] (some 3) (tSt tThr) (rv tThr) ∧ VecReads (tSt tThr) tThr [1] none (tSt tThr) (rv tThr) ∧
    VecReads (tSt tThr) tThr [] (some 3) (tSt tThr) (rv tThr) ∧ VecReads (tSt tThr) tThr [1, 2, 3] (some 3) (tSt tThr) (rv tThr) := by
  refine ⟨?_, ?_, ?_, ?_, ?_, ?_⟩ <;> refine ⟨_, rfl, rfl, ?_⟩ <;> funext r <;> revert r <;> decide +kernel

/-- The lane sum of file 06: v1 has 2^24 in lane 0 and 1.0 elsewhere. -/
def tLanes : Thread := { tThr with v := vset tThr.v 1 (BitVec.ofNat 512 ((0x4B800000 : Nat) +
  ((List.range 15).map fun j => 0x3F800000 * 2 ^ (32 * (j + 1))).sum)) }
theorem test_vred_f32 : (after (.vred false 2 1 0 false 5) (tSt tLanes)).map (fun u => (rv u 2, u.fpcsr)) = some (0x4B800000, 0x20) := by
  decide +kernel
theorem test_vred_w96f : (after (.vred false 3 1 0 false 9) (tSt tLanes)).map (fun u => (rv u 3, u.fpcsr)) =
    some (0x401700000F00000000000000, 0) := by decide +kernel

/-- Enabled lanes and none, legal and illegal types of VCVT, lanes within the vector, and registers bound to no stream. -/
theorem test_vector_cases : (enabled false 0xFFFF).head? = some 0 ∧ enabled false 0 = [] ∧ vcvtTrap (tSt tThr) 0 0 3 0 = none ∧
    vcvtTrap (tSt tThr { fd := vset (Vector.replicate 8 0x00100000) 0 0x00300000 }) 0 0 8 0 = some 0x24 ∧ 15 < laneN false ∧ 31 < laneN true ∧
    NoStreams (tSt tThr) tThr ∧ (3 : Nat) ∉ tThr.unbOut :=
  ⟨by decide, by decide, by decide +kernel, by decide +kernel, by decide, by decide,
    ⟨rfl, rfl, fun c _ => by cases c <;> rfl⟩, by decide⟩

/-- A destination bound to a port (R76): its group is pushed. -/
def tPort : Port := { prod := some { kind := 0, idx := 13, tid := 0x10000001 }, cons := some { kind := 0, idx := 12, tid := 0x10000001 } }
def tBound : State := tSt tThr { ports := vset (Vector.replicate 8 {}) 2 tPort }
theorem test_bound_destination : portOf tBound 0 false 0 13 tThr.tid = some 2 ∧ (pushGroup tBound 0 2 0xFFFF 5).isSome = true := by
  decide +kernel

/-! ### Memory instructions -/

/-- A readable and writable segment of 64 bytes at 0x100, translated; the checks of R85 in their order, and the last legal offset. -/
def tData : Seg := tSeg 0x100 64 3 0
theorem test_segment_checks : segCheck (tSt tThr) 1 tData 60 4 true = none ∧ segCheck (tSt tThr) 1 tData 64 4 true = some 0x03 ∧
    segCheck (tSt tThr) 1 tData 61 4 true = some 0x05 ∧ segCheck (tSt tThr) 1 (tSeg 0x100 64 1 0) 60 4 true = some 0x04 ∧
    (2 ^ 40 - 4) + 4 ≤ 2 ^ 40 ∧ segCheck (tSt tThr) 1 (tSeg 0 (2 ^ 40 - 1) 3 0) (2 ^ 40) 4 false = some 0x03 := by decide +kernel

/-- Word accesses (R366, R369): a presence segment, and the wrong kind of one. -/
theorem test_word_checks : wordCheck (tSt tThr) 1 (tSeg 0x100 64 0x43 0) 56 8 true true false = none ∧
    wordCheck (tSt tThr) 1 tData 56 8 true true (!tData.presence) = some 0x04 ∧ tThr.sup = true ∧ tData.isLocal = false ∧
    tData.type < 2 ∧ 2 ≤ (tSeg 0 64 3 2).type := by decide +kernel

/-- ST.W at offset 60 of segment 2 goes out with its bytes; at offset 64 it traps with SEG_LIMIT and the address (R85, R319). -/
theorem test_store_issue : ((after (.stw false 5 6 2 0) (tSt (withG (withS tThr 2 tData) [(5, 0x11223344), (6, 60)]))).map
    fun u => (u.pc, u.ops.map (·.left))) = some (4, [1]) := by decide +kernel
theorem test_store_limit : ((after (.stw false 5 6 2 0) (tSt (withG (withS tThr 2 tData) [(6, 64)]))).map
    fun u => (u.cause, u.faddr)) = some (3, 0x140) := by decide +kernel

/-- A vector access whose lanes all pass, and one whose lane 15 is the first that fails (R364). -/
theorem test_vector_access : (∀ n ∈ enabled false 0xFFFF, segCheck (tSt tThr) 1 tData (n * 4) 4 false = none) ∧
    (∀ n ∈ (enabled false 0xFFFF).take 15, segCheck (tSt tThr) 1 (tSeg 0x100 63 3 0) (n * 4) 4 false = none) ∧
    segCheck (tSt tThr) 1 (tSeg 0x100 63 3 0) (15 * 4) 4 false = some 0x03 := by decide +kernel

/-- No translation is cached, and no operation number is taken. -/
theorem test_issue_hyps : (∀ o ∈ tThr.ops, o.id < tThr.nextOp) ∧ ∀ c, ∀ t ∈ (clus (tSt tThr) c).tlb, t.entry ≠ 0 := ⟨by decide, by
  intro c t ht; cases ht⟩

/-- A request of operation 1 that stands at its home, station 0. -/
def tReq (kind : AccKind) (who : Who) (mask : BitVec 64) : Req :=
  { id := 9, who := who, part := 1, st := 0, path := 0, kind := kind, va := 0x140, z := 8, val := 0x1122334455667788, mask := mask,
    pa := some 0x2140, bank := 0 }
def tOp : LongOp := { id := 1, pc := 0, dest := .g 7, left := 1 }
def tHome (r : Req) : State := { tSt { tThr with ops := [tOp], nextOp := 2 } with reqs := [(9, r)], mem := [(0x2140, 5)] }

/-- Each kind of request arrives: nothing keeps it from being performed. -/
theorem test_arrives : ∀ r ∈ [tReq .write (.thread 0x10000001 1 0) 0, tReq .sector (.sector []) 0xFF, tReq .read (.thread 0x10000001 1 0) 0,
    tReq (.amo 11) (.thread 0x10000001 1 0) 0], Arrives (tHome r) r 0x2140 := by
  intro r hr
  simp only [List.mem_cons, List.not_mem_nil, or_false] at hr
  rcases hr with rfl | rfl | rfl | rfl <;>
    exact ⟨⟨rfl, rfl⟩, by decide +kernel, by decide, fun _ => ⟨rfl, by decide +kernel, by decide +kernel, by decide⟩, by decide,
      by decide +kernel⟩

theorem test_performed_hyps : (tReq .sector (.sector []) 0xFF).mask ≠ 0 ∧ getThr (tHome (tReq .read (.thread 0x10000001 1 0) 0)) 0x10000001 =
    some { tThr with ops := [tOp], nextOp := 2 } ∧ [tOp].find? (fun x => x.id == 1 && !x.done && x.left != 0) = some tOp ∧
    rdN (tHome (tReq .read (.thread 0x10000001 1 0) 0)) 0x2140 8 = 5 ∧ 5 = (tReq (.amo 11) (.thread 0x10000001 1 0) 0).cmp.toNat + 5 :=
  ⟨by decide, rfl, by decide, by decide +kernel, rfl⟩

/-- The store's bytes stand at its place, lowest first (R325). -/
theorem test_store_performed : (match exec .accessPerformed { tHome (tReq .write (.thread 0x10000001 1 0) 0) with
    hand := .event (.accessPerformed 9) } with | .next t => (hRdB t 0 0x2140, hRdB t 0 0x2147, hRdB t 0 0x2148) | _ => (0, 0, 0)) =
    (0x88, 0x11, 0) := by decide +kernel

/-- An operation that is about to complete: its thread parked at a marker, or running (R35). -/
def tDone (st : TState) : State := { tSt { tThr with st := st, ops := [{ tOp with left := 0, res := [(0, 42)] }], nextOp := 2 } with
  hand := .event (.longOpComplete 0x10000001 1) }
theorem test_long_op_hyps : ∀ st ∈ [TState.parked .marker, .running 0], (getThr (tDone st) 0x10000001).any (fun th => th.wait.isNone &&
    th.ending.isNone && th.tid == 0x10000001 && th.st == st && (th.ops.find? (fun x => x.id == 1 && !x.done && x.left == 0)).any fun o =>
      o.replay.isNone && o.fault.isNone && o.saveAt.isNone && !o.hold && o.dest == .g 7) = true := by decide +kernel
theorem test_long_op : (match exec .longOpComplete (tDone (.parked .marker)) with | .next t => getThr t 0x10000001 | _ => none).map
    (fun u => (rg u 7, u.ops, u.st)) = some (42, [], .ready) := by decide +kernel

/-! ### Fences, seals and threads -/

/-- A fence scope that R333 refuses, one of the thread alone, one of the device. -/
theorem test_scopes : scopeBad (tSt tThr) 1 0 = false ∧ (∃ x : DWord, scopeBad (tSt tThr) 1 x = true) ∧
    (∃ x : DWord, scopeBad (tSt tThr) 1 x = false ∧ scopeKind x = 1) ∧
    (∃ x : DWord, scopeBad (tSt tThr) 1 x = false ∧ scopeKind x ≠ 1) ∧ sectorsFlying (tSt tThr) 0 = false ∧ tThr.relDone = false := by
  refine ⟨by decide +kernel, ⟨0xF, by decide +kernel⟩, ⟨0x1000000000000000, by decide +kernel⟩, ⟨0, by decide +kernel, by decide +kernel⟩,
    by decide +kernel, rfl⟩

/-- A sealable buffer's register; its table entry absent, SEALED, and on its way. -/
def tBuf : Seg := { tSeg 0x10000 0x10000 0x13 1 with idx := 5, bySet := true }
def tSealed (x : List (Nat × Seal)) : State := tSt (withS tThr 3 tBuf) {} { tPart with seals := x }
theorem test_seal_cases : sealBad (tSealed []) 1 tBuf true = false ∧ sealBad (tSealed []) 1 tBuf false = false ∧
    sealBad (tSealed []) 1 tData true = true ∧ sealBad (tSealed []) 1 tData false = true ∧ kget (part (tSealed []) 1).seals 5 = none ∧
    kget (part (tSealed [(5, { st := .isSealed })]) 1).seals 5 = some { st := .isSealed } := by decide +kernel

/-- Threads that JOIN meets: itself, none, a live child, an exited and a lost one (R408). -/
def tChild (st : TState) : State := { tSt (withG tThr [(2, 0x10000002)]) with
  threads := [(0x10000001, withG tThr [(2, 0x10000002)]), (0x10000002, { tid := 0x10000002, st := st, exitCode := 9 })] }
theorem test_join_cases : ∀ st ∈ [TState.ready, .exited, .faulted, .killed, .lost], (getThr (tChild st) 0x10000002).any (fun c => c.st == st &&
    (stn (tChild st) (tidHome 0x10000002)).dead == false && tidPart 0x10000002 == tidPart tThr.tid) = true := by decide +kernel
theorem test_join_unknown : (0x10000001#32 = tThr.tid ∧ (0#32) ≠ tThr.tid ∧ tidPart 0x20000001 ≠ tidPart tThr.tid ∧
    getThr (tSt tThr) 0x10000003 = none) ∧ TState.ready.live = true := ⟨⟨rfl, by decide, by decide, rfl⟩, rfl⟩
theorem test_join_exited : ((after (.join false 1 2) (tChild .exited)).bind (·.ops.head?)).map (·.res) = some [(0, 0x1000000000000009)] := by
  decide +kernel

/-- Priorities below and above BPRIO, in both modes (R409); EXIT's own state. -/
theorem test_prio_cases : (1 : BitVec 2) ≤ tThr.bprio ∧ tThr.bprio < 2 ∧ ({ tThr with sup := false } : Thread).sup = false ∧ tThr.ops = [] :=
  ⟨by decide, by decide, rfl, rfl⟩
theorem test_setprio_user : (after (.setprio false 2) (tSt (withG { tThr with sup := false } [(2, 2)]))).map (·.cause) = some 2 := by
  decide +kernel
theorem test_yield : ((match exec (.yield false) (tSt tThr) with | .next t => some t | _ => none).map fun t => (stn t 0).runq) =
    some [0x10000001] := by decide +kernel

/-- The pointers that SPAWN refuses and one that it takes, with a block whose descriptor is legal or not (R400 to R403). -/
theorem test_spawn_pointers : badTag 0x8000000000000000 = true ∧ badTag 0x4000000000000000 = false ∧
    bits (0x4000000000000000#64).toNat 63 62 = 1 ∧ badTag 60 = false ∧ porlekEntry (tSeg 0 64 4 0) 64 = .error 0x03 ∧
    porlekEntry (tSeg 0 64 4 0) 60 = .ok 60 := ⟨by decide +kernel, by decide +kernel, by decide, by decide +kernel, rfl, rfl⟩

/-- A block in the station's store, in a local segment of 192 bytes. -/
def tSpawn (l : List (Nat × Byte)) : State :=
  { tSt (withG (withS (withS tThr 0 (tSeg 0 64 4 0)) 2 (tSeg 0 192 0xB 0)) [(4, 60), (5, 0)]) with mem := l.map fun e => (localKey 1 0 e.1, e.2) }
theorem test_spawn_blocks : let th := withG (withS (withS tThr 0 (tSeg 0 64 4 0)) 2 (tSeg 0 192 0xB 0)) [(4, 60), (5, 0)]
    (segRead (tSpawn []) th (tSeg 0 192 0xB 0) 0 192).2.toOption.map (blockTrap (tSpawn []) th) = some none ∧
    (segRead (tSpawn [(99, 0xFF)]) th (tSeg 0 192 0xB 0) 0 192).2.toOption.map (fun b => (blockTrap (tSpawn [(99, 0xFF)]) th b).isSome) =
      some true ∧ (tSeg 0 192 0xB 0).read = true ∧ (tSeg 0 192 0xB 0).type ≠ 3 ∧ 0 + 192 ≤ (tSeg 0 192 0xB 0).limit := by decide +kernel

/-- MIGR through a translated readable segment, at its last byte, past it, and in a handler (R405). -/
theorem test_migr_cases : tData.translated = true ∧ tData.read = true ∧ (63#64).toNat < tData.limit ∧ tData.limit ≤ (64#64).toNat ∧
    (tSeg 0 64 0xB 0).translated = false ∧ ({ tThr with inh := true } : Thread).inh = true ∧ tThr.inh = false := by decide +kernel
theorem test_migr : (after (.migr false 5 2) (tSt (withG (withS tThr 2 tData) [(5, 63)]))).map (·.st) = some .migrating := by decide +kernel

/-- A rake with the thread in it, and one without (R53); a fault of an id that is none (R410). -/
def tRakes (members : List Word) : State := tSt { tThr with rakes := [1] } {} { tPart with rakes := [(1, { live := true, members := members })] }
theorem test_rake_cases : (rakeFind (tRakes [0x10000001]) 1 1).isSome = true ∧ (rakeFind (tRakes []) 1 1).isSome = true ∧
    rakeFind (tRakes []) 1 2 = none ∧ deadTable (tRakes []) tThr = false ∧ (rakeNew (tRakes []) 1).isSome = true ∧
    (8 : Nat) ≤ (List.replicate 8 (1 : Half)).length ∧ ([] : List Word).contains tThr.tid = false ∧
    ((rakeFind (tRakes [0x10000001]) 1 1).any fun r => r.members.contains tThr.tid) = true := by decide +kernel

/-- A monitor that has been triggered, a message that waits, and neither (R418, R420). -/
theorem test_monitor_cases : (!({ tThr with mbox := [{ sender := 1, data := [] }] } : Thread).mbox.isEmpty) = true ∧
    (tThr.mon.any fun m => m.line.isSome && m.trig) = false ∧ tThr.mbox = [] ∧
    (takeMsg (tSt { tThr with mbox := [{ sender := 1, data := [] }] }) { tThr with mbox := [{ sender := 1, data := [] }] } 1).isSome = true :=
  ⟨rfl, by decide +kernel, rfl, by decide +kernel⟩

/-- A host that may be sent to, and hosts that may not (R419). -/
theorem test_host_cases : agentKnown (tSt tThr) tPart 0 = false ∧ (16 : Nat) ≤ 16 ∧
    agentKnown { tSt tThr with sessions := [{ id := 1, agent := 0, admin := false, recallMax := 0, key := [] }] } tPart 0 = true := by
  decide +kernel

/-! ### Units of a station -/

/-- A legal template (all fields zero but VALID), a window of B to hold it, and one without a window; legal and illegal descriptors of
formats (R138, R204 to R213). -/
def tTemplate : BitVec 256 := 1
theorem test_template_cases : templateFault (templateFields tTemplate) (fun _ => 0x00100000) 0 = some 0x14 ∧
    templateFault (templateFields tTemplate) (fun _ => 0x00100000) 1 = none ∧ tTemplate.getLsbD 0 = true ∧
    (0 : BitVec 256).getLsbD 0 = false ∧ fdIllegal 0x0005079C = false ∧ fdIllegal 0x00500000 = true ∧
    templateSpoilt { valid := true, bits := tTemplate } (fun _ => 0x00300000) = true ∧
    templateSpoilt { valid := false, bits := tTemplate } (fun _ => 0x00300000) = false := by decide +kernel

/-- A tile slot in each state that TFULL and TEMPTY tell apart (R214). -/
theorem test_tile_cases : ∀ t ∈ [TTag.empty, .filling, .full, .draining], (tileAt (tSt tThr { tiles := vset (Vector.replicate 16 {}) 3 { tag := t } }) 0 3).tag = t := by
  decide +kernel
theorem test_tfull : (after (.tfull false 7 0 3) (tSt tThr)).map (rg · 7) = some 0 ∧
    (after (.tempty false 7 3) (tSt tThr { tiles := vset (Vector.replicate 16 {}) 3 { tag := .full } })).map (rg · 7) = some 2 := by
  decide +kernel

/-- Selectors of one's own station: legal, out of its range, and of a station outside the partition (R236, R266). -/
theorem test_selectors : selector (tSt tThr) tThr 3 16 = .ok (0, 3) ∧ selector (tSt tThr) tThr 16 16 = .error 0x14 ∧
    selector (tSt tThr) tThr 0x01090000 16 = .error 0x04 := ⟨rfl, rfl, rfl⟩

/-- Ends of a port: a vector register as both, an illegal one, one that is taken (R386). -/
theorem test_port_ends : (bindEnd tThr 0x0D false).isSome = true ∧ bindEnd tThr 0x0B false = none ∧
    endTaken (tSt tThr) tThr false { kind := 0, idx := 13, tid := tThr.tid } = false ∧
    endTaken tBound tThr false { kind := 0, idx := 13, tid := tThr.tid } = true ∧ (portAt tBound 0 2).prod.isSome = true := by decide +kernel

/-- A copy command of one byte without rights, and with engine segments of the station (R382). -/
def tCopy : CopyCmd := { serial := 1, indexed := false, words := List.replicate 8 0, issuer := tThr.tid, part := 1 }
theorem test_copy_cases : copyFault (tSt tThr) 0 tCopy = some 0x04 ∧
    copyFault (tSt tThr { eng := Vector.replicate 8 (tSeg 0 64 0x23 0) }) 0 tCopy = none := by decide +kernel

/-- IGLOAD's segment and offsets, and IGSTART's windows (R264, R265). -/
theorem test_generator_cases : (tSeg 0 128 0x21 0).read = true ∧ (tSeg 0 128 0x21 0).engine = true ∧ (tSeg 0 128 1 0).engine = false ∧
    0 + 128 ≤ (tSeg 0 128 0x21 0).limit ∧ (tSeg 0 128 0x21 0).limit < 64 + 128 ∧ winW 0 = 0 ∧ winW 0x0010000100000000 = 1 ∧
    winH 0x0010000100000000 = 16 := by decide +kernel

/-- A collective command of one word of f32 through engine segments, and one without rights (R390). -/
theorem test_collective_cases : collFault (tSt tThr) 1 0 false [0, 0, 1, 0] = some 0x04 ∧
    collFault (tSt tThr { eng := Vector.replicate 8 (tSeg 0 64 0x23 0) }) 1 0 false [0, 0, 1, 0] = none := by decide +kernel

/-- Clusters of the partition and outside it; a ticket held and none; a commit that is legal and one that is not (R430 to R434). -/
def tTicket : Partition := { tPart with stations := [0, 1, 16, 17] }
theorem test_ticket_cases : tTicket.hasCluster 0 = true ∧ tTicket.hasCluster 9 = false ∧ ticketEnd (tSt tThr {} tTicket) 1 tThr.tid 0 0 true = none ∧
    (sbCommit (tSt tThr {} tTicket) 0 1 0 tThr.tid).isSome = true ∧ (tget (tSt tThr {} tTicket) 0 1 0 0 tThr.tid).2.length = 8 := by
  decide +kernel

/-! ### Special registers, traps, contexts, caches -/

/-- Control registers of each right, in both modes (R78). -/
theorem test_cr_rights : crRights 0x000 = some (.read, .read) ∧ crRights 0x010 = some (.no, .write) ∧ crRights 0x020 = some (.write, .write) ∧
    crRights 0x009 = none := ⟨rfl, rfl, rfl, rfl⟩

/-- SEGSET's entries: past SEGCOUNT, a legal descriptor, a supervisor's, an illegal one, a poisoned one (R507). -/
def tBytes (d : BitVec 128) : KMap Byte := (List.range 16).filterMap fun i =>
  if d.extractLsb' (8 * i) 8 = 0 then none else some (i, d.extractLsb' (8 * i) 8)
def tTable (d : BitVec 128) (poison : List Nat) : State := { tSt tThr with mem := tBytes d, poison := poison }
theorem test_segset_cases : (part (tTable 0 []) 1).segCount = 8 ∧ ({ tableSeg (tTable (tSeg 0 64 3 0).desc []) 1 0 with bySet := true } : Seg).ok 0 = true ∧
    (tableSeg (tTable (tSeg 0 64 3 8).desc []) 1 0).sup = true ∧ ({ tableSeg (tTable (tSeg 0 64 3 5).desc []) 1 0 with bySet := true } : Seg).ok 0 = false ∧
    poisoned (tTable 0 []) (memKey (tTable 0 []) 0) 16 = false ∧ poisoned (tTable 0 [0]) (memKey (tTable 0 [0]) 0) 16 = true ∧
    (stn (tTable 0 []) (homeOf (tTable 0 []) 1 0 false)).dead = false ∧
    (stn (modStn (tTable 0 []) (homeOf (tTable 0 []) 1 0 false) fun x => { x with dead := true }) (homeOf (tTable 0 []) 1 0 false)).dead = true := by
  decide +kernel

/-- TRAP #5 with a handler and without one (R485, R506). -/
theorem test_trap : (after (.trap false 5) (tSt tThr)).map (fun u => (u.pc, u.cause, u.faddr, u.mpc)) = some (0x2000, 0x1C, 5, 4) ∧
    (after (.trap false 5) (tSt { tThr with tvec := 0 })).map (·.st) = some .faulted := by decide +kernel
/-- ERET in a handler (R484). -/
theorem test_eret : (after (.eret false) (tSt { tThr with inh := true, ps := false, mpc := 0x40 })).map (fun u => (u.pc, u.sup, u.inh)) =
    some (0x40, false, false) ∧ tThr.kept = [] ∧ tThr.faultFrame = none := by decide +kernel

/-- TLBINV's ranges at the ends of the space (R460). -/
theorem test_tlbinv_cases : (0x1000 : Nat) % 2 ^ 12 = 0 ∧ (0x1001 : Nat) % 2 ^ 12 ≠ 0 ∧ (2 ^ 56 - 2 ^ 12 + (0 + 1) * 2 ^ 12 : Nat) ≤ 2 ^ 56 ∧
    2 ^ 56 < (2 ^ 56 - 2 ^ 12 + (1 + 1) * 2 ^ 12 : Nat) := by decide

/-- Another thread of the core: held, READY or gone; save areas that pass and that do not (R490 to R497). -/
def tOther (st : TState) : State := { tSt tThr { runq := [0x10000002] } with
  threads := [(0x10000001, tThr), (0x10000002, { tid := 0x10000002, st := st, prio := 2 })] }
theorem test_ctx_cases : (heldHere (tOther (.parked .held)) tThr 0x10000002).isSome = true ∧ heldHere (tOther .ready) tThr 0x10000002 = none ∧
    (readyAt (tOther .ready) tThr 2).length = 1 ∧ readyAt (tOther .ready) tThr 1 = [] ∧ (popTarget (tOther .ready) tThr 0x10000002).isSome = true ∧
    (popTarget (tOther .ready) tThr 0x10000001).isSome = true ∧ popTarget (tOther .ready) tThr 0x10000003 = none ∧
    areaTrap (tSt tThr) tThr (tSeg 0 264 0x83 0) 0 true = none ∧ (areaTrap (tSt tThr) tThr (tSeg 0 264 0x83 0) 8 false).isSome = true := by decide +kernel
/-- CTXSV of a held thread reads and writes its area in the local store (R491, R493). -/
theorem test_ctx_area : (segRead (tOther (.parked .held)) tThr (tSeg 0 264 0x8B 0) 0 264).2.toOption.isSome = true ∧
    (segWrite (tOther (.parked .held)) tThr (tSeg 0 264 0x8B 0) 0 (saveImage tThr)).2 = none := by decide +kernel
/-- REPLAY with a fault kept, replayed or not, and without one (R487). -/
theorem test_replay_cases : tThr.cur = none ∧ bits (0 : Nat) 7 0 = 0 ∧
    (after (.replay false 9) (tSt tThr)).map (rg · 9) = some 0xFF := by decide +kernel

/-- Ranges at and past the limit, cached and local segments (R395); CFGLOAD's offsets; a consist that is there, frozen or not. -/
theorem test_range_cases : rangeTrap tThr tData 0 64 true = none ∧ (rangeTrap tThr tData 1 64 true).isSome = true ∧ tData.cached = true ∧
    (tSeg 0 64 0xB 0).cached = false ∧ 0 + 64 ≤ tData.limit ∧ tData.limit < 64 + 64 ∧
    (consistOf (tGraph 0 []) 1 7).any (fun c => !c.frozen) = true ∧ consistOf (tGraph 0 []) 1 8 = none ∧
    (consistOf (tGraph 0 [] { tCons with frozen := true }) 1 7).any (·.frozen) = true ∧ (tSeg 0 64 0x23 0).engine = true := by decide +kernel

/-! ### Graph ops -/

/-- A firing of op on tokens a and b, its mod and imm16. -/
def tFire (op : Instr) (a b : Option Token) (mod : BitVec 8 := 0) (imm : BitVec 16 := 0) : Firing :=
  { st := 0, elem := 0, slot := 0, word := { op := op, mod := mod, d0 := 0, d1 := 0, imm := imm }, a := a, b := b }
def tHand (f : Firing) (x : Station := {}) (l : List Pair := []) : State :=
  { tSt tThr { x with owner := some (1, 7) } { tPart with consists := [tCons] } with
    elems := [(0, { pairs := l })], hand := .firing f }

/-- Data on both ports, one operand for both, a marker and data, and a firing without a token on port a. -/
theorem test_fires_on : (∀ f ∈ [tFire .iadd (some (tTok [3])) (some (tTok [4])), tFire .iadd (some (tTok [3])) none,
    tFire .iadd (some (tTok [] 1)) (some (tTok [3])), tFire .merge none (some (tTok [3]))], FiresOn (tHand f) f 1 tCons) ∧
    Operands (tFire .iadd (some (tTok [3])) (some (tTok [4]))) (tTok [3]) (tTok [4]) ∧ Operands (tFire .iadd (some (tTok [3])) none) (tTok [3]) (tTok [3]) ∧
    (tTok [3]).kind = 0 ∧ (tTok [] 1).kind ≠ (tTok [3]).kind ∧ (tTok [] 8).kind = 8 := by
  refine ⟨?_, ⟨rfl, rfl⟩, ⟨rfl, rfl⟩, rfl, by decide, rfl⟩
  intro f hf
  simp only [List.mem_cons, List.not_mem_nil, or_false] at hf
  rcases hf with rfl | rfl | rfl | rfl <;> exact ⟨rfl, rfl⟩

/-- IADD.i32 with saturation at the top of the type (R278). -/
theorem test_iadd_sat : (match exec .iadd (tHand (tFire .iadd (some (tTok [0x7FFFFFFF, 5])) (some (tTok [1, 6])) 4)) with
    | .next t => (elemAt t 0 0).firings | _ => 0) = 1 ∧ clampOf 32 false (0x7FFFFFFF + 1) = 0x7FFFFFFF := by decide +kernel

/-- ROWSTAT's statistics of file 09's worked row: m = 3, s = 4, and −m − Log2(s) = −5 (R297). -/
theorem test_rowstat : let r := rowStats ([3, 3, 2, 2, 1, 1, 1, 1].map fun x => if x = 3 then 0x40400000 else if x = 2 then 0x40000000 else 0x3F800000)
    r.1 % 2 ^ 32 = 0xC0A00000 ∧ r.2.1 % 2 ^ 32 = 0x40800000 ∧ r.2.2 % 2 ^ 32 = 0x40400000 := by decide +kernel

/-- The lanes and tags of the clauses: SC alike and not, an immediate operand, lanes that are not valid, types of CVT and SCALE. -/
theorem test_graph_cases : sameSc (tFire .iadd (some (tTok [3])) (some (tTok [4]))) (tTok [3]) (tTok [4]) = true ∧
    sameSc (tFire .iadd (some (tTok [3])) (some { tTok [4] with sc := true })) (tTok [3]) { tTok [4] with sc := true } = false ∧
    (8 : BitVec 8).getLsbD 3 = true ∧ (0x40 : BitVec 8).toNat / 64 = 1 ∧ (1 : BitVec 8).getLsbD 0 = true ∧
    (tTok [3]).valid.getLsbD 0 = true ∧ (tTok []).valid.getLsbD 0 = false ∧ (tTok [3, 4]).valid.getLsbD 1 = true ∧
    bits (8 : Nat) 3 0 = 8 ∧ (elemTy (tHand (tFire .cvt none none)) 0 0).ty.isFp = true ∧ (elemTy (tHand (tFire .cvt none none)) 0 1).ty.isFp = false := by
  decide +kernel

/-- Pairs without tokens, with one, and with a full token to come (R293 to R298); levels that close and that do not (R271). -/
def tPair (l : List Token) : Pair := { slot := 0, act := 5, iter := 0, toks := l }
theorem test_pair_cases : (pairFor {} (tFire .coalesce none none).word 0 (tTok [3])).toks = [] ∧
    (pairFor { pairs := [tPair [tTok [1, 2]]] } (tFire .coalesce none none).word 0 (tTok [3])).toks = [tTok [1, 2]] ∧
    (tTok [1, 2, 3, 4, 5, 6, 7, 8]).lanes.length = 8 ∧ (tTok [1, 2]).lanes.length < 8 ∧
    levelOf (tFire .reduce none none 0 1) ≤ (tTok [] 1).closes ∧ ¬ levelOf (tFire .reduce none none 0 7) ≤ (tTok [] 1).closes ∧
    ((tPair [{ tTok [1] with sc := true }]).toks.any fun t => t.sc != (tTok [3]).sc) = true := by decide +kernel

/-- A port with graph ends, and one without; a slot that is emitting (R303). -/
theorem test_stream_cases : graphEnd (some { kind := 2, idx := 0 }) = true ∧ graphEnd (portAt tBound 0 2).prod = false ∧
    (portPush (tHand (tFire .stream none none) { ports := vset (Vector.replicate 8 {}) 0 { prod := some { kind := 2, idx := 0 } } }) 0 0 [(5, 0xFF)]).isSome = true ∧
    emitting { pairs := [{ tPair [tTok [1]] with left := 3 }] } 0 = some { tPair [tTok [1]] with left := 3 } := by decide +kernel

/-- A node's lanes that pass its checks, and one past its limit (R299); an activation and none (R309). -/
theorem test_node_cases : (nodeEls (tSt tThr) 1 (tSeg 0 64 0x23 0) 4 true false false [(0, 60, 0)]).toOption.isSome = true ∧
    (nodeEls (tSt tThr) 1 (tSeg 0 64 0x23 0) 4 true false false [(0, 64, 0)]).toOption = none ∧
    (nodeEls (tSt tThr) 1 (tSeg 0 64 0x63 0) 8 true true true [(0, 56, 0)]).toOption.isSome = true ∧
    (actOf { tCons with acts := [{ id := 5, frame := default, caller := .thread 0x10000001 }] } 5).isSome = true ∧ (actOf tCons 5).isNone = true := by
  decide +kernel

/-! ### Events -/

/-- A READY thread at the head of its queue and a free slot; a thread to age; a running thread; a pending trap (R38 to R40, R483). -/
def tQueue : State :=
  { live := true, time := 2 ^ 20, threads := [(0x10000001, { tThr with st := .ready })], stations := [(0, { runq := [0x10000001] })],
    parts := [(1, tPart)] }
theorem test_slot_events : vget (stn tQueue 0).slots 3 = none ∧ ((refillHead tQueue 0 3).bind (getThr tQueue)).isSome = true ∧
    (slotThr (tSt tThr) 0 0).isSome = true ∧ (getThr tQueue 0x10000001).any (fun th => th.st == .ready && (tQueue.time - th.readySince) % 2 ^ 20 == 0 &&
      tQueue.time != th.readySince) = true ∧ (slotThr (tSt { tThr with pend := some { cause := 1, epc := 0, mpc := 0 } }) 0 0).any (·.pend.isSome) = true := by
  decide +kernel

/-- Sixteen running threads, and one of higher priority that waits (R398). -/
def tCrowd (n : Nat) : Thread :=
  { tid := BitVec.ofNat 32 (0x10000001 + n), st := if n < 16 then .running n else .ready, prio := if n < 16 then 1 else 2 }
def tFull : State :=
  { live := true, threads := (List.range 17).map fun n => (0x10000001 + n, tCrowd n), parts := [(1, tPart)],
    stations := [(0, { slots := Vector.ofFn fun n => some (tCrowd n.val).tid, runq := [0x10000011] })] }
theorem test_preempt : (preemptVictim tFull 0).isSome = true := by decide +kernel

/-- Waits: a limited one, a monitor's, and none (R37, R418); a packet and a message on their way (R405, R419). -/
def tWait (on : WaitOn) : State := tSt { tThr with st := .parked .recv, wait := some { on := on, pc := 0, id := 4, since := 0, retry := false } }
theorem test_wait_events : (getThr (tWait (.recv 10)) 0x10000001).any (fun th => th.wait.any (fun x => x.on.limited && x.id == 4) &&
      callLoading (tWait (.recv 10)) th == false) = true ∧ (getThr (tWait (.mon 9)) 0x10000001).any (fun th => th.wait.any (fun x => x.on == .mon 9)) = true ∧
    kget ({ pkts := [(3, { tid := 0x10000001 })] } : State).pkts 3 = some { tid := 0x10000001 } ∧ tThr.ending = none ∧
    tidPart 0x10000001 = tidPart 0x10000002 := by decide +kernel

/-- Requests before and after translation, a reservation held and one whose time has come, seals on their way (R348, R370, R457). -/
theorem test_memory_events : (tReq .read (.thread 0x10000001 1 0) 0).pa.isSome = true ∧ ({ tReq .read (.thread 0x10000001 1 0) 0 with pa := none }).pa = none ∧
    kget ([(0x428, { holder := some 0x10000001, op := 1 })] : KMap Rsv) 0x428 = some { holder := some 0x10000001, op := 1 } ∧
    rsvWanted (tSt { tThr with rsv := some 1 }) 0x10000001 1 = true ∧ (0 : Nat) < 0 + 4096 ∧
    (kget ([(5, { st := .sealing })] : KMap Seal) 5).any (fun x => x.st == .sealing) = true ∧
    ({ tThr with ops := [{ tOp with left := 0 }] } : Thread).ops.all (fun o => o.id != 1 || o.done || o.left == 0) = true := by decide +kernel

/-- A queued copy command, with and without a tile slot to fill (R383); loads, frees and freezes of a consist (R311 to R314). -/
def tChan (w0 : DWord) : State :=
  tSt tThr { eng := (Vector.replicate 8 (tSeg 0 64 0x23 0)).set 1 (tSeg 0 0x80000 0x23 2),
             ch := vset (Vector.replicate 8 {}) 0 { queue := [{ tCopy with words := w0 :: List.replicate 7 0 }] } }
theorem test_copy_events : (headCmd (tChan 0) 0 0).any (fun x => x.state == 0 && (x.tileSlot (tChan 0) 0 true).isNone && (x.tileSlot (tChan 0) 0 false).isNone) = true ∧
    (headCmd (tChan 0x0020800000000000) 0 0).any (fun x => (x.tileSlot (tChan 0x0020800000000000) 0 true) == some 0) = true ∧
    (tileAt (tChan 0) 0 0).tag = .empty ∧ (tileAt (tSt tThr { tiles := Vector.replicate 16 { tag := .full } }) 0 0).tag ≠ .empty := by decide +kernel

theorem test_consist_events : ((part (tGraph 0 []) 1).loads.find? (·.n == 3)) = none ∧
    (consistOf (tGraph 0 [] { tCons with freePending := true, freezing := [{ ring := true }] }) 1 7).any (fun c => c.freePending && c.acts.isEmpty &&
      c.freezing == [{ ring := true }]) = true ∧
    ((part (tSt tThr {} { tPart with loads := [{ n := 3, part := 1, va := 0, seg := {}, issuer := 0, station := 0 }] }) 1).loads.find? (·.n == 3)).isSome = true ∧
    ((part (tSt tThr {} { tPart with calls := [{ n := 3, part := 1, ptr := 0, caller := .thread 1, station := 0, args := [] }] }) 1).calls.find? (·.n == 3)).any
      (·.load.isNone) = true := by decide +kernel

/-- A leg with a window, dead or not; a token for an owned tile and for none (R19, R116). -/
def tLegOf (dead : Bool) : Leg :=
  { src := 0, rt := 0, side := 0, kind := 0, dev := 1, far := 0, elem := 0, slot := 0, port := false, collop := 0, track := 0,
    fartrack := 0, num := 0, id := 6, dead := dead, unacked := 65 }
def tLeg (dead : Bool) : Consist := { tCons with legs := [tLegOf dead], acts := [{ id := 5, frame := default, caller := .thread 1 }] }
theorem test_graph_events : (legOf (tGraph 0 [] (tLeg false)) 6).any (fun g => !g.2.2.dead && g.2.2.window.isEmpty && decide (64 < g.2.2.unacked)) = true ∧
    (legOf (tGraph 0 [] (tLeg true)) 6).any (fun g => g.2.2.dead) = true ∧ (tileOwner (tSt tThr) 0).isNone = true ∧
    (tileOwner (tGraph 0 [] (tLeg false)) 0).any (fun o => o.1 == 1 && (actOf o.2 5).isSome && !tileStopped (tGraph 0 [] (tLeg false)) 1 o.2 0 0) = true ∧
    destK 0x8400 = false := by decide +kernel

/-- Accesses of nodes: performed, late, faulted, acknowledged (R300 to R307). -/
def tAcc (op : Instr) (kind : AccKind) (left : List Nat) : GAcc :=
  { f := tFire op (some (tTok [3])) none 0 1, part := 1, cid := 7, left := left, kind := kind, seg := {}, firedAt := 0 }
theorem test_access_events : (tAcc .graphLoad .read []).left = [] ∧ (tAcc .graphLoad .read [2]).left ≠ [] ∧ (tAcc .graphLoad .read [2]).late = false ∧
    (tAcc .sink .write []).f.word.op = .sink ∧ (tAcc .graphPut .put []).f.a = some (tTok [3]) ∧
    ({ tAcc .graphLoad .read [] with faulted := [{ lane := 0, va := 0, val := 0 }] } : GAcc).faulted ≠ [] ∧
    (0 : Nat) < 0 + 256 * (tAcc .graphTake .take [0]).f.word.imm.toNat := ⟨rfl, by decide, rfl, rfl, rfl, by decide, by decide⟩

/-- Partitions running and stopped; a lockstep partition in step, and one to be aligned (R464 to R466). -/
def tLock (b : Option Nat) : Partition := { tPart with record := [(1, 2)], lockBase := b }
theorem test_partition_events : (part (tSt tThr) 1).st = .running ∧ (part (tSt tThr {} { tPart with st := .stopped }) 1).st = .stopped ∧
    inStep (tSt tThr {} (tLock (some 0))) 1 = true ∧ inStep (tSt tThr {} (tLock none)) 1 = false ∧ (tLock none).lockstep = true ∧
    partCycle (tSt tThr {} (tLock (some 0))) 1 ≤ 5 ∧ ({ suspects := [3] } : State).suspects.contains 3 = true := by decide +kernel

/-- A session, a message of it that may act (R452, R470), frames of other kinds, a lease that opens. -/
def tMsg (type : Byte) : Frame := [1, type, 0, 0] ++ List.replicate 28 0 ++ [1, 0, 0, 0, 0, 0, 0, 0]
def tSession : Session := { id := 1, agent := 0, admin := false, recallMax := 0, key := [], waitq := [(0, tMsg 2)] }
theorem test_session_events : (({ tSt tThr with sessions := [tSession] } : State).sessions.find? fun x => x.up && x.waitq.contains (0, tMsg 2)).isSome = true ∧
    frameEvent (tMsg 2) = some (.read (tMsg 2)) ∧ mayAct { tSt tThr with sessions := [tSession] } tSession (tMsg 2) = true ∧
    ((tSt tThr).sessions.find? fun x => x.up && x.waitq.contains (0, tMsg 2)) = none ∧ field (tMsg 12) 1 1 = 12 ∧ field (tMsg 12) 32 1 = 1 ∧
    headerLegal (tMsg 12) = true ∧ portUp { live := true, linkUp := true } = true := by decide +kernel

/-- Bring-up: an image that is not signed, in both slots; stations and stacks that are tested; the link (R535 to R538). The other
branch's test, imageGood f = true, is of the vendor's keys, which Config leaves open (log 7). -/
theorem test_bringup_events : imageGood [] = false ∧ State.reset.boot = .fwload ∧ State.reset.live = false ∧ State.reset.halted = false ∧
    State.reset.bootSlot = 0 ∧ ({ boot := .selftest } : State).tested.contains 255 = false ∧ ({ boot := .selftest } : State).trained.contains 7 = false := by
  decide +kernel

/-! ### Markers -/

/-- A thread with an operation outstanding, at a word with W = 1: it parks (R35). -/
def tBusy : Thread := { tThr with ops := [tOp], nextOp := 2 }
theorem test_marker_hyps : focus (tSt tBusy) = some tBusy ∧ outstanding tBusy = true ∧
    encodePorlek (.addi true 5 5 0x7fff) = some 0x8452FFFF ∧ (0x8452FFFF#32).getLsbD 31 = true := ⟨rfl, rfl, rfl, rfl⟩
theorem test_marker : (after (.addi true 5 5 0x7fff) (tSt tBusy)).map (fun u => (u.st, u.pc, rg u 5)) = some (.parked .marker, 0, 0) ∧
    (after (.addi false 5 5 0x7fff) (tSt tBusy)).map (fun u => (u.pc, rg u 5)) = some (4, -1) := by decide +kernel

/-! ### Hypotheses of the statements on events: boundary cases -/

/-- The slices of the witnesses of performed requests are clean, empty or with a line in S (R350); a command of the same cluster went by
in this cycle, or none (R71). -/
theorem test_clean_slices : (∀ r ∈ [tReq .write (.thread 0x10000001 1 0) 0, tReq .sector (.sector []) 0xFF], CleanSlice (tHome r) 0) ∧
    CleanSlice (tSt tThr { slice := [{ line := 0x21, st := 1 }] }) 0 ∧
    combined (tSt tThr) tThr [1, 2] = none ∧
    combined { tSt tThr with clusters := [(0, { cmds := [(0, 1, [1, 2], 7)] })] } tThr [1, 2] = some 7 := by
  refine ⟨?_, ⟨by decide +kernel, ?_⟩, by decide +kernel, by decide +kernel⟩
  · intro r hr
    simp only [List.mem_cons, List.not_mem_nil, or_false] at hr
    rcases hr with rfl | rfl <;> exact ⟨by decide +kernel, fun l hl => by cases hl⟩
  · intro l hl a ha hp hs
    have hm : l = { line := 0x21, st := 1 } := by simpa [tSt, stn, kget] using hl
    subst hm
    have h0 : rdB (tSt tThr { slice := [{ line := 0x21, st := 1 }] }) a = 0 := rfl
    rw [h0]; simp [SLine.byte]

/-- A session with a WRITE of partition 1 not yet acknowledged, which a fence of kind 6 waits for (R335), and none. -/
def tWrite : Frame := [1, 1, 0, 0] ++ List.replicate 22 0 ++ [1, 0, 0, 0, 0, 0] ++ List.replicate 8 0
theorem test_host_scope : scopeKind 0x6000000000000000 = 6 ∧
    hostWritesOut { tSt tThr with sessions := [{ id := 1, agent := 0, admin := false, recallMax := 0, key := [], unacked := [(0, 0, tWrite)] }] } 1 = true ∧
    hostWritesOut (tSt tThr) 1 = false := by decide +kernel

/-- A thread whose trap handler has no further trap to take, and one with another (R483); packets and messages that come behind an
earlier one of the same pair, and one that does not (R12). -/
theorem test_order_hyps : tThr.pend = none ∧ tThr.pends = [] ∧
    packetAhead { pkts := [(3, { tid := 0x10000001, way := 1 })] } 3 { tid := 0x10000001, way := 1 } = false ∧
    packetAhead { pkts := [(2, {}), (3, {})] } 3 {} = true ∧
    msgAhead { msgs := [(3, none, 0x10000001, { sender := 1, data := [] })] } 3 0x10000001 { sender := 1, data := [] } = false ∧
    TState.migrating.live = true := by decide +kernel

/-- A miss that no other joined, its page in the TLB and nowhere (R54, R457). -/
def tMiss : Req := { tReq .read (.thread 0x10000001 1 0) 0 with pa := none, walk := 3 }
def tWalk (l : List Tlb) : State := { tSt tThr with reqs := [(9, tMiss)], clusters := [(0, { tlb := l })] }
theorem test_walk_hyps : ((tWalk []).reqs.map (·.2)).filter (fun x => x.pa.isNone && (x.id == tMiss.id || (x.walk == 2 && missPage x tMiss))) = [tMiss] ∧
    (translateKeep (tWalk []) 0 1 0x140 false false false []).2.toOption = none ∧
    (translateKeep (tWalk [{ part := 1, vpn := 0, size := 12, leaf := 0x4F, entry := 8 }]) 0 1 0x140 false false false []).2.toOption.isSome = true := by
  decide +kernel

/-- An array with template 0 valid, on a FULL slot filled a cycle ago, and its set EMPTY. -/
def tArray (f : Station → Station) (t : BitVec 256 := 0) (w : Template → Template := id) (tile : Tile := { tag := .full }) : State :=
  { tSt tThr (f { tms := vset (Vector.replicate 16 {}) 0 (w { valid := true, bits := t, owner := 0x10000001, part := 1 }),
                  tiles := vset (Vector.replicate 16 {}) 0 tile }) with time := 1 }

/-- A step that is ready, one with a SCALE_MISMATCH beside a stream under way, and one scanned in the cycle before, whose indices are
below M and all different, or not (R218, R226, R261). -/
def tStream (bits : BitVec 256) (last : Bool) : Stream :=
  { tm := 0, bits := bits, owner := 0x10000001, part := 1, fda := 0x00100000, fdb := 0x00100000, fdas := 0, fdbs := 0, fdo := 0,
    sA := 0, sB := 0, iter := 0, seq := 0, last := last, start := 1, len := 2 }
theorem test_step_looks : stepLook (tArray id) 0 0 = .ready ∧ stepLook (tArray id) 0 1 = .nothing ∧ arrayBusy (tArray id) 0 = false ∧
    scannedNow (tArray id) 0 = none ∧ (templateFields 0).groups = [0] ∧ (templateFields 0).pat = 0 ∧ (templateFields (3 <<< 99)).pat = 3 ∧
    stepLook (tArray id 0 id { tag := .full, sc := true }) 0 0 = .fault 0x0D ∧
    ((stn (tArray fun x => { x with streams := [tStream 0 true] }) 0).streams.any fun y => decide (1 + 1 ≤ y.start + y.len - 1)) = true := by
  decide +kernel
theorem test_scans : stepLook (tArray id (3 <<< 99 + 1 <<< 160 + 1 <<< 164) fun t => { t with scan := some (2, 0, []) }) 0 0 = .ready ∧
    ((List.range 4).map fun c => nmIndex (tArray id) 0 (tStream (3 <<< 99 + 1 <<< 160 + 1 <<< 164) false) 0 c 0 0) = [0, 0, 0, 0] := by decide +kernel

/-- Streams that release their slot and that do not, LAST and not; a step that waits for its write-back, with its output slot EMPTY and
not (R215, R223). -/
theorem test_stream_ends : ((tArray fun x => { x with streams := [tStream 0 true] }) |> fun s => (stn s 0).streams.find? fun z => !z.ended) =
      some (tStream 0 true) ∧ (templateFields (1 <<< 98)).arel = true ∧ (templateFields 0).arel = false ∧
    (vget (stn (tArray id) 0).groups 0).bad = false ∧
    (vget (stn (tArray fun x => { x with groups := Vector.replicate 8 { bad := true } }) 0).groups 0).bad = true ∧
    (stn (tArray fun x => { x with pipe := [tStream 0 true] }) 0).pipe = [tStream 0 true] ∧
    (vget (stn (tArray id) 0).tiles (templateFields 0).oslot).tag ≠ .empty ∧
    (vget (stn (tArray id) 0).tiles (templateFields (1 <<< 192)).oslot).tag = .empty := by decide +kernel

/-- A generator with a queued IGLOAD or IGSTART, one that loads, and one that builds with an image of one dense leaf or of none (R250,
R251); its port has it as its producer, or has no room (R252). -/
def tIg (x : Igen) (p : Port := {}) : State :=
  tSt tThr { ig := Vector.replicate 2 x, ports := Vector.replicate 8 p }
def tImage : BitVec 1024 := 0x10000000 + 0x00080008 <<< 512 + 0x100 <<< 544
def tBuild (image : BitVec 1024) (dest : Bool) : Igen :=
  { st := .building, image := image, dest := dest, part := 1, window := 0x0002000200000000 }
theorem test_generator_states : (igAt (tIg { queue := [.load 0x10000001 1 0 {}] }) 0 1).queue = .load 0x10000001 1 0 {} :: [] ∧
    igStreams (tIg {}) 0 0 = false ∧ (engRead (tIg {}) 0 1 (tSeg 0 128 0x21 0) 0 128).2.toOption = none ∧
    (engRead (tIg {}) 0 1 (tSeg 0 128 0x21 2) 0 128).2.toOption.isSome = true ∧
    (patCheck (tIg (tBuild tImage false)) (tBuild tImage false) false true).toOption.isSome = true ∧
    (patCheck (tIg (tBuild 0 false)) (tBuild 0 false) false true).toOption = none ∧
    (enumerate (tBuild tImage false) .dense 256).2 = none ∧ (enumerate (tBuild tImage false) .dense 1).2.isSome = true ∧
    ((portAt (tIg {} { prod := some { kind := 3, idx := 0, tid := 0 } }) 0 2).prod.any fun e => e.kind == 3 && e.idx.toNat == 0) = true ∧
    (portPush (tIg {} { prod := some { kind := 3, idx := 0, tid := 0 } }) 0 2 [recEntry [{ kind := 0, rank := 0, col := 0, row := 0 }], recEntry []]).isSome = true ∧
    (portPush (tIg {} { prod := some { kind := 3, idx := 0, tid := 0 }, queue := List.replicate 31 (0, 0) }) 0 2 [recEntry [], recEntry []]).isNone = true := by
  decide +kernel

/-- Commands under way that are done, with a tile slot to fill, to drain, or none (R383, R394). -/
def tMove (w0 : DWord) : State :=
  tSt tThr { eng := (Vector.replicate 8 (tSeg 0 64 0x23 0)).set 1 (tSeg 0 0x80000 0x23 2),
             ch := vset (Vector.replicate 8 {}) 0 { queue := [{ tCopy with state := 1, wp := 1, words := w0 :: List.replicate 7 0 }] } }
theorem test_copy_ends : (headCmd (tMove 0) 0 0).any (fun x => x.state == 1 && decide (x.count ≤ x.wp) && (x.tileSlot (tMove 0) 0 true).isNone &&
      (x.tileSlot (tMove 0) 0 false).isNone) = true ∧
    (headCmd (tMove 0x0020800000000000) 0 0).any (fun x => x.state == 1 && (x.tileSlot (tMove 0x0020800000000000) 0 true) == some 0 &&
      (x.tileSlot (tMove 0x0020800000000000) 0 false).isNone) = true ∧
    (headCmd (tMove 0x0020100000000000) 0 0).any (fun x => (x.tileSlot (tMove 0x0020100000000000) 0 false) == some 0 &&
      (x.tileSlot (tMove 0x0020100000000000) 0 true).isNone) = true := by decide +kernel

/-- A contribution on its way, of two that an operation waits for; an operation of one member, its source read or not (R391, R392). -/
def tIn : CollIn := { st := 0, tid := 0x10000001, bc := false, words := [0, 0, 0x0001000500000001, 0], n := 1 }
def tGather (k : Nat) : Coll :=
  { cid := 5, state := k, waiting := if k = 1 then [] else [tIn], contribs := if k = 1 then [(0, 0x10000001, [0, 0, 0x0000000500000001, 0])] else [] }
def tColl (seg : Seg) (k : Nat) : State := tSt tThr { eng := Vector.replicate 8 seg } { tPart with colls := [tGather k] }
theorem test_collectives : ((part (tColl {} 2) 1).colls.find? fun c => c.cid.toNat == 5).any (fun c => c.waiting == [tIn] && tIn.place == 0) = true ∧
    1 < (collCmd tIn.words).npart ∧ ((part (tColl {} 1) 1).colls.find? (fun c => c.cid == 5 && c.state == 1)).isSome = true ∧
    (collSources (tColl (tSeg 0 64 0x23 2) 1) 1 [(0, collCmd [0, 0, 0x0000000500000001, 0])]).2.toOption.isSome = true ∧
    (collSources (tColl (tSeg 0 64 0x23 0) 1) 1 [(0, collCmd [0, 0, 0x0000000500000001, 0])]).2.toOption = none ∧
    (collWrites 1 [0] [(0, collCmd [0, 0, 0x0000000500000001, 0])] (tColl (tSeg 0 64 0x23 2) 1)).2 = none ∧
    (collWrites 1 [0] [(0, collCmd [0, 0, 0x0000000500000001, 0])] (tColl (tSeg 0 64 0x23 0) 1)).2.isSome = true := by decide +kernel

/-- Tokens of one tag from a chain of two devices: the first, and both (R157). -/
theorem test_token_sets : combineAll 0 [(0, tTok [1])] 2 = none ∧ (combineAll 0 [(0, tTok [1]), (1, tTok [2])] 2).isSome = true ∧
    (legOf (tGraph 0 [] (tLeg false)) 6).any (fun g => !g.2.2.dead) = true := by decide +kernel

/-- A free without activations, and with one; a freeze that writes to an area, and one to the ring; a watchdog alone and beside a freeze
(R313, R314). -/
def tFreeze (l : List Readout) (acts : List Act) : Consist := { tCons with freePending := true, freezing := l, acts := acts }
def tActs : List Act := [{ id := 5, frame := default, caller := .thread 0x10000001 }]
theorem test_freeze_cases : (tFreeze [] []).acts = [] ∧ (tFreeze [] tActs).acts ≠ [] ∧
    ({} : Readout).wdog = false ∧ ({} : Readout).ring = false ∧ ({ ring := true } : Readout).ring = true ∧
    (consistOf (tGraph 0 [] (tFreeze [{}] [])) 1 7).any (fun c => c.freezing == [{}]) = true ∧
    (areaWrite (tGraph 0 []) 1 0 (tSeg 0 64 0x23 2) 0 [1]).2 = none ∧ (areaWrite (tGraph 0 []) 1 0 (tSeg 0 64 0x23 2) 64 [1]).2 = some 3 ∧
    (ringWrite (tGraph 0 []) 1 tCons).2 = 0 := by decide +kernel

/-- A load whose header reads as none, and one that cannot be read; calls without a frame, and with one, of a consist with an ARG slot
and without (R309, R311, R313). -/
def tLoad (seg : Seg) : Load := { n := 3, part := 1, va := 0, seg := seg, issuer := 0, station := 0 }
def tCall : CallWait := { n := 3, part := 1, ptr := 0, caller := .thread 0x10000001, station := 0, args := [], frame := some default, cid := some 7 }
def tArgs (w : DWord) : State :=
  let s := tGraph w []
  { s with parts := [(1, { tPart with consists := [tCons], calls := [tCall] })] }
theorem test_call_cases : (imgRead (tSt tThr) 1 (tLoad (tSeg 0 0x8000 1 2)) 0 64).2.toOption = some (List.replicate 64 0) ∧
    headerOk (List.replicate 64 0) 0 = false ∧ (imgRead (tSt tThr) 1 (tLoad {}) 0 64).2.toOption = none ∧
    slotsWith (tArgs 0) tCons (fun x => x.op == .arg) = [] ∧ slotsWith (tArgs 0x3C008C2000000000) tCons (fun x => x.op == .arg) = [(0, 0, 0)] ∧
    ((part (tArgs 0) 1).consists.find? fun c => c.image == 0 || tCall.cid == some c.cid) = some tCons ∧ tCons.freePending = false ∧
    (startAct (tArgs 0x3C008C2000000000) 1 tCons tCall.caller default 0 none).isSome = true ∧ tCall.load = none ∧
    ((part (tArgs 0) 1).calls.find? fun w => w.frame.isSome && w.load.isNone && (BitVec.ofNat 64 (bits w.ptr.toNat 55 0) == tCons.image ||
      w.cid == some 7)) = some tCall ∧ frameTake (tSt tThr { frames := BitVec.allOnes 256 }) 1 0 = none := by decide +kernel

/-- Tokens of every kind at a slot: data where the same waits and where none does, a fault, an acknowledgement, an unknown kind; the
slot of a CVT; a full store, and one whose link holds a token; a tile that is stopped and one that is not (R105 to R107, R151, R308). -/
def tStore (w : DWord) (l : List Ent) : State := tGraph w l { tCons with acts := tActs }
theorem test_token_cases : slotWord (tStore 0x0100000000000000 []) 0 0 0 ≠ none ∧ (slotWord (tStore 0x17008C2000000000 []) 0 0 0).any (·.op == .cvt) = true ∧
    (slotWord (tStore 0x2C00880088100039 []) 0 0 0).any (·.op == .delay) = true ∧
    (tileOwner (tStore 0 []) 0).any (fun o => o.1 == 1 && (actOf o.2 5).isSome) = true ∧ (tTok [1] 11).kind = 11 ∧ (tTok [1] 12).kind.toNat = 12 ∧
    (tTok [1] 10).kind = 10 ∧ (tTok [1] 9).kind.toNat < 10 ∧ (tTok []).valid.getLsbD 0 = false ∧
    (64 : Nat) ≤ (elemAt (tStore 0 (List.replicate 64 { tok := tTok [3], slot := 0, port := false })) 0 0).store.length ∧
    destK 0x4400 = true ∧ destK 0x8400 = false ∧ tileStopped (tGraph 0 []) 1 { tCons with holds := [{ st := 0, elem := 0, since := 0 }] } 0 0 = true ∧
    tileStopped (tGraph 0 []) 1 tCons 0 0 = false := by
  decide +kernel

/-- The sequence numbers of a leg: expected, in the window, and past it; room in it, and 64 not acknowledged (R19). -/
theorem test_leg_cases : (3 - (tLegOf false).expect : Half).toNat < 64 ∧ (64 : Nat) ≤ (64 - (tLegOf false).expect : Half).toNat ∧
    ({ tLegOf false with window := [(3, tTok [])] } : Leg).window.any (fun x => x.1 == 3) = true ∧
    ({ tLegOf false with unacked := 63, claimed := true } : Leg).held = [] ∧ (64 : Nat) ≤ (tLegOf false).unacked := by decide +kernel

/-- A node's faults: a page's, and another's; one that is news, and none (R301). -/
theorem test_node_faults : pageCause { cause := 6, addr := 0 } = true ∧ pageCause { cause := 3, addr := 0 } = false ∧
    ({ tAcc .graphLoad .read [] with news := [{ cause := 6, addr := 0 }] } : GAcc).news ≠ [] ∧ (tAcc .graphLoad .read []).news = [] ∧
    (tAcc .graphLoad .read []).fault = none ∧ (tAcc .graphStore .write []).f.word.op = .graphStore ∧ (tAcc .arg .read []).f.word.op = .arg ∧
    (actOf { tCons with acts := tActs } (tTok [3]).act).isSome = true := by decide +kernel

/-- Records that pass every check and that do not; time groups of two, whose slice ends while a readout runs and not; a launch that is
accepted and one that is rejected; entries of an eviction schedule of both kinds (R355, R444, R448, R451). -/
def tRecord : KMap Byte := [(0, 1), (2, 255), (35, 20), (40, 1), (48, 1), (104, 16)]
def tPair2 (c : List Consist) : State :=
  { tSt tThr with parts := [(1, { tPart with record := [(2, 3)], consists := c, resident := true }), (2, { tPart with record := [(2, 3)], resident := false })] }
theorem test_partition_cases : firstBad { domain := vset (Vector.replicate 64 0) 0 3 } { st := .running, record := tRecord } 1 = none ∧
    firstBad {} { st := .running } 1 = some 0 ∧ (groupMembers (tPair2 []) 3).length = 2 ∧ ((groupMembers (tPair2 []) 3).find? (·.2.resident)).map (·.1) = some 1 ∧
    nextMember (groupMembers (tPair2 []) 3) 1 = some 2 ∧ nextMember (groupMembers (tPair2 []) 3) 2 = some 1 ∧
    (tPair2 []).parts.any (fun e => e.2.consists.any fun c => !c.freezing.isEmpty) = false ∧
    (tPair2 [tFreeze [{}] []]).parts.any (fun e => e.2.consists.any fun c => !c.freezing.isEmpty) = true ∧
    rejectReason (tSt tThr) tPart { n := 4, queue := 0, station := 0 } = none ∧ rejectReason (tSt tThr) tPart { n := 4, queue := 0, station := 0, timed := true } = some 1 ∧
    launchFinished (tSt tThr) 1 4 = true ∧
    launchFinished (tSt { tThr with launch := some 4 }) 1 4 = false := by decide +kernel

/-- Digests kept and not, a partner device in the domain table, an input whose cycle has come (R464 to R466); suspects, transient faults,
self-tests of every kind (R500, R504). -/
def tIn2 : Partition := { tLock (some 0) with inputs := [(0, tMsg 2)], digests := [(1, 5)], partner := [(2, 5)] }
theorem test_lockstep_cases : kget tIn2.digests 1 = some 5 ∧ kget tIn2.digests 0 = none ∧ kget tIn2.partner 2 = some 5 ∧ kget tIn2.partner 1 = none ∧
    (lockPartner { tSt tThr {} tIn2 with domain := vset (Vector.replicate 64 0) 3 1 } 1).isSome = true ∧
    (frameEvent (tMsg 2)).isSome = true ∧ (0 : Nat) ≤ partCycle (tSt tThr {} tIn2) 1 ∧ partCycle (tSt tThr {} tIn2) 1 < 1 ∧
    ({ suspects := [3] } : State).deadAgents.contains 3 = false ∧ ({ deadAgents := [3] } : State).deadAgents.contains 3 = true ∧
    ((dieStations 0).all fun st => (stn (tSt tThr) st).dead) = false ∧
    [(1, 2, 3), (1, 2, 4)].countP (fun (t : BitVec 8 × Nat × Nat) => t.1 == 1 && t.2.1 == 2 && decide (5 < t.2.2 + 2 ^ 30)) = 2 := by decide +kernel

/-- Messages: in a window and not, in the register page and not, of an ordinary session and an administrator's; a partition whose queue
takes launches (R452, R470, R471); a lockstep partition takes its messages as inputs (R464). -/
def tHost : State := { tSt tThr {} { tPart with record := [(258, 1), (257 + 8, 1)] } with sessions := [tSession] }
theorem test_host_frames : windowOffset 0x3F0000002000 = some 0x2000 ∧ windowOffset 0 = none ∧ lockstepInput tHost (tMsg 2) = false ∧
    lockstepInput (tSt tThr {} (tLock (some 0))) [1, 2, 0, 0] = false ∧ inWindow tHost 1 0 0 0 8 = false ∧ inWindow tHost 1 0 1 0 0 = false ∧
    agentRight (part tHost 1) 0 3 = false ∧ (part tHost 1).ready.contains (tMsg 2) = false ∧ frameSession tHost (tMsg 0) = none ∧
    adminOpen tHost = false := by decide +kernel

/-! ### Hypotheses in the spec's own terms: witnesses and boundary cases -/

/-- Accesses that R85 and R319 admit, at the last offset of 64 bytes, and not: past the limit, misaligned, without the right, in a SEALED
buffer; lanes of a node; checks of a word in the same places (R299, R369). -/
theorem test_admits : Admits (tSt tThr) 1 tData 60 4 true true ∧ ¬ Admits (tSt tThr) 1 tData 64 4 true true ∧
    ¬ Admits (tSt tThr) 1 tData 58 4 true true ∧ ¬ Admits (tSt tThr) 1 (tSeg 0x100 64 1 0) 60 4 false true ∧
    ¬ Admits (tSealed [(5, { st := .unsealing })]) 1 tBuf 0 4 false true ∧ Admits (tSealed []) 1 tBuf 0 4 false true ∧
    wordCheck (tSt tThr) 1 tData 58 4 true true true = some 0x05 ∧ wordCheck (tSealed [(5, { st := .unsealing })]) 1 tBuf 0 8 false true false = some 0x04 ∧
    wordCheck (tSt tThr) 1 tData 64 8 true true false = some 0x03 ∧ (tData.type ≠ 3 ∧ (tSeg 0x100 64 0x43 0).presence = true ∧
    tData.isLocal = false ∧ (tSeg 0 64 0xB 0).isLocal = true) :=
  ⟨⟨by decide, by decide, fun _ _ => rfl, by decide⟩, fun h => absurd h.limit (by decide), fun h => absurd h.aligned (by decide),
    fun h => absurd (h.rights.2 rfl) (by decide), fun h => absurd (h.buffer rfl rfl) (by decide), ⟨by decide, by decide, fun _ _ => rfl, by decide⟩,
    rfl, rfl, rfl, by decide⟩
theorem test_lanes_admitted : LanesAdmitted (tSt tThr) 1 (tSeg 0 64 0x63 0) 4 true true [(0, 60, 0), (7, 0, 0)] ∧
    LanesAdmitted (tSt tThr) 1 (tSeg 0 64 0x63 0) 8 true true [(0, 56, 0)] ∧ (tSeg 0 64 0x63 0).presence = true := by
  refine ⟨⟨by decide, by decide, ?_⟩, ⟨by decide, by decide, ?_⟩, by decide⟩ <;> intro x hx <;>
    simp only [List.mem_cons, List.not_mem_nil, or_false] at hx
  · rcases hx with rfl | rfl <;> exact ⟨by decide, ⟨by decide, by decide, fun _ _ => rfl, by decide⟩⟩
  · subst hx; exact ⟨by decide, ⟨by decide, by decide, fun _ _ => rfl, by decide⟩⟩

/-- Nothing flies from the small state (R335); no agent performs rows at reset; the memory's form holds at reset. -/
theorem test_still : NothingFlies (tSt tThr) 1 ∧ Unattended (.add false 1 2 3) State.reset ∧ Unattended .pass State.reset ∧
    Unattended .linkLoss State.reset ∧ MemInv State.reset :=
  ⟨⟨rfl, rfl, fun st => by cases st <;> rfl, rfl, rfl⟩,
    ⟨fun _ => rfl, nofun, fun _ _ _ h => nomatch h⟩, ⟨nofun, fun _ _ h => (nomatch h), fun _ _ _ h => nomatch h⟩,
    ⟨nofun, nofun, fun _ _ _ h => nomatch h⟩, ⟨rfl, rfl, rfl⟩⟩

/-- Descriptors of formats that R139 calls legal, among them one of 2 bits and one of 8, and illegal ones. -/
theorem test_formats_legal : (∀ d ∈ [(0x00100000 : Word), 0x0005079C, 0x0004018A, 0x00400000, 0x00080088], FormatLegal d) ∧
    ∀ d ∈ [(0x00500000 : Word), 0x00100001, 0x01100000, 0x00030000], ¬ FormatLegal d := by
  constructor <;> intro d hd <;> simp only [List.mem_cons, List.not_mem_nil, or_false] at hd
  · rcases hd with rfl | rfl | rfl | rfl | rfl <;> (unfold FormatLegal; decide +kernel)
  · rcases hd with rfl | rfl | rfl | rfl <;> (unfold FormatLegal; decide +kernel)

/-- A template of zeros but VALID in a window of one half-row, and an output template beside its A slot (R212). -/
theorem test_template_admitted : TemplateAdmitted (templateFields tTemplate) (fun _ => 0x00100000) 1 ∧
    FormatsAdmitted (templateFields tTemplate) (fun _ => 0x00100000) ∧ ¬ FormatsAdmitted (templateFields tTemplate) (fun _ => 0x00300000) := by
  refine ⟨⟨?_, ?_, ?_, ?_, ?_, ?_, ?_, ?_, ?_, ?_⟩, ?_, ?_⟩ <;> first | decide +kernel | (unfold FormatsAdmitted; decide +kernel)

/-- A copy of one byte between engine segments, and a collective of one word (R381, R382, R390). -/
def tEngines : State := tSt tThr { eng := Vector.replicate 8 (tSeg 0 64 0x23 0) }
theorem test_copy_admitted : CopyAdmitted tEngines 0 tCopy := by constructor <;> decide +kernel
theorem test_coll_admitted : CollAdmitted tEngines 1 0 false [0, 0, 1, 0] := by constructor <;> decide +kernel

/-- A spawn block of zeros in the store is admitted, for station 0 (R402). -/
theorem test_spawn_admitted : let th := withG (withS (withS tThr 0 (tSeg 0 64 4 0)) 2 (tSeg 0 192 0xB 0)) [(4, 60), (5, 0)]
    let blk := rdL (tSpawn []) (localKey 1 0 0) 192
    focus (tSpawn []) = some th ∧ rg th 4 = 60 ∧ (rseg th 0).exec = true ∧ (rseg th 2).isLocal = true ∧ (rseg th 2).read = true ∧ (rseg th 2).type = 0 ∧
    field blk 98 1 < 4 ∧ field blk 99 29 = 0 ∧ (∀ i, i < 4 → field blk (133 + 16 * i) 1 < 8 ∧ field blk (134 + 16 * i) 2 = 0 ∧
      field blk (140 + 16 * i) 4 = 0 ∧ field blk (136 + 16 * i) 4 = 0) ∧ (part (tSpawn []) 1).hasStation (field blk 96 2) = true := by
  decide +kernel

/-- Areas of a context in the store and in a cached segment; a held thread of the core (R490 to R497). -/
theorem test_ctx_hyps : (tSeg 0 264 0x8B 0).pinned = true ∧ (tSeg 0 264 0x8B 0).write = true ∧ (tSeg 0 264 0x8B 0).read = true ∧
    (tSeg 0 264 0x8B 0).isLocal = true ∧ (tSeg 0 264 0x8B 0).type = 0 ∧ 0 + 264 ≤ (tSeg 0 264 0x8B 0).limit ∧
    (getThr (tOther (.parked .held)) 0x10000002).any (fun x => x.st == .parked .held && x.station == 0 && x.ending.isNone && x.ops.isEmpty) = true ∧
    tidPart 0x10000002 = tidPart tThr.tid ∧ (tOther .ready).threads.countP (fun e => e.2.st == .parked .held) = 0 := by decide +kernel

/-- STRBIND of v13 as producer and v12 as consumer of a free port; a group of lanes that enters a bound port's queue (R76, R386). -/
theorem test_strbind : (match exec (.strbind false 5 2) (tSt (withG tThr [(5, 0x0C0D)])) with
      | .next t => (portAt t 0 2).prod.isSome && (portAt t 0 2).cons.isSome | _ => false) = true ∧
    (portAt (vecOut tBound tThr 13 0x0001 5) 0 2).queue.map (·.2) = [1, 0] := by decide +kernel

/-- Firings that R289, R303 and R306 start without a token on port a: MERGE and CARRY from port b, a STREAM and a TILEGET that emit, in the
middle and at the end. -/
def tEmit (op : Instr) (l : List Pair) : State := tHand (tFire op none none 0 0x10)
  { ports := vset (Vector.replicate 8 {}) 0 { cons := some { kind := 2, idx := 0 }, queue := [(7, 0xFF)] } } l
def tEmitting (n : Nat) (k : Half) : Pair := { slot := 0, act := 5, iter := 0, toks := [tTok [1]], left := n, next := k }
theorem test_fires_without_a : (tFire .merge none (some (tTok [3]))).a = none ∧ (tFire .carry none (some (tTok [3]))).b = some (tTok [3]) ∧
    (∀ op ∈ [Instr.stream, .tileget], ∀ n ∈ [1, 2], FiresOn (tEmit op [tEmitting n 0]) (tFire op none none 0 0x10) 1 tCons ∧
      emitting (elemAt (fired (tEmit op [tEmitting n 0]) (tFire op none none 0 0x10) 1 tCons) 0 0) 0 = some (tEmitting n 0)) ∧
    (tEmitting 2 2).next.toNat = (0x10#16).toNat / 2 ^ 3 % 256 ∧
    graphEnd (portAt (fired (tEmit .stream [tEmitting 2 0]) (tFire .stream none none 0 0x10) 1 tCons) 0 0).cons = true ∧
    ((portPop (fired (tEmit .stream [tEmitting 2 0]) (tFire .stream none none 0 0x10) 1 tCons) 0 0 1).map (·.1)) = some [(7, 0xFF)] := by
  refine ⟨rfl, rfl, ?_, by decide, by decide +kernel, by decide +kernel⟩
  intro op ho n hn
  simp only [List.mem_cons, List.not_mem_nil, or_false] at ho hn
  rcases ho with rfl | rfl <;> rcases hn with rfl | rfl <;> exact ⟨⟨rfl, rfl⟩, by decide +kernel⟩

/-- Requests of the other kinds arrive at their home (R366, R369, R370). -/
theorem test_arrives_others : ∀ k ∈ [AccKind.rsv, .rls, .pset, .pclr, .take, .put, .readf, .amo 2],
    Arrives (tHome (tReq k (.thread 0x10000001 1 0) 0)) (tReq k (.thread 0x10000001 1 0) 0) 0x2140 := by
  intro k hk
  simp only [List.mem_cons, List.not_mem_nil, or_false] at hk
  rcases hk with rfl | rfl | rfl | rfl | rfl | rfl | rfl | rfl <;>
    exact ⟨⟨rfl, rfl⟩, by decide +kernel, by decide, fun _ => ⟨rfl, by decide +kernel, by decide +kernel, by decide⟩, by decide,
      by decide +kernel⟩

/-- A fill that has come, good, killed and failed; a packet at its core; a spawn that finds room and one at a full partition; a footprint;
a report to a thread; a drain and its end; a thread at a stream (R47, R88, R355, R388, R404, R460). -/
def tFill (f : Fill) : State := tSt tThr { fills := [{ f with part := 1, line := 4, here := true }] }
def tSpawned (p : Partition) : State :=
  { tSt tThr {} p with pkts := [(3, { tid := 0, parent := 0x10000001, answer := 1, target := 0, way := 0 })] }
theorem test_arrivals : (∀ f ∈ [({ part := 1, line := 4, seg := {} } : Fill), { part := 1, line := 4, seg := {}, killed := true },
      { part := 1, line := 4, seg := {}, fault := some { cause := 6, addr := 0 } }], ((stn (tFill f) 0).fills.find? fun y =>
      y.here && !y.l1 && !y.prefetch && !y.done && y.part == 1 && y.line == 4).isSome = true) ∧
    ((stn (tSt tThr { arrq := [{ tid := 0x10000002 }] }) 0).arrq.find? fun k => !(part (tSt tThr) (tidPart k.tid)).swapped).isSome = true ∧
    contexts (tSt tThr) 0 < 256 ∧ pfield (part (tSpawned { tPart with record := [(48, 2)] }) 1) 48 4 = 2 ∧ liveThreads (tSpawned tPart) 1 = 1 ∧
    nextSerial (tSpawned tPart) 1 0 = 1 ∧ getThr (tSpawned tPart) (tidOf 1 0 7) = none ∧
    pfield (part (tSpawned tPart) 1) 48 4 ≤ liveThreads (tSpawned tPart) 1 ∧
    ({ drains := [{ n := 3, left := 1, tid := 0x10000001 }] } : Partition).drains.find? (·.n == 3) = some { n := 3, left := 1, tid := 0x10000001 } ∧
    ((tWait (.inval 3)).threads.head?.bind (·.2.wait)).any (fun w => w.on == .inval 3) = true ∧
    ((tWait (.stream 2)).threads.all fun e => e.2.ops.isEmpty) = true ∧ headCmd (tWait (.stream 2)) 0 7 = none ∧
    (tPort.cons.any fun x => x.kind == 0 && x.tid == tThr.tid) = true := by decide +kernel
theorem test_footprint : (vread (tSt tThr { slice := [] }) 0 1 0x140 0 false false).2.toOption = some [] ∧ ringShut (tSt tThr) 0 0 = false := by
  decide +kernel

/-- A SELFTEST's third transient of one row; suspects and late transactions (R500, R503); a partition of one member after a STOP. -/
theorem test_agent_hyps : ([(1, 2, 3, 4, 5), (1, 2, 3, 4, 6)] : List (Byte × Byte × Nat × DWord × Nat)).countP (fun t => t.1 == 1 && t.2.1 == 2 &&
      t.2.2.1 == 3 && t.2.2.2.1 == 4 && decide (7 < t.2.2.2.2 + 2 ^ 30)) + 1 = 3 ∧ ({} : State).suspects.contains 5 = false ∧
    ({ tReq .read (.thread 0x10000001 1 0) 0 with recalls := [3] } : Req).recalls.contains 3 = true ∧
    (tReq .read (.thread 0x10000001 1 0) 0).bank + 256 = 256 := by decide +kernel

end Sys2Proof.Tests
end

namespace Sys2Proof.PorlekEncoding

open Sys2Proof Machine

/-! ### Fields of a word

A word is laid out as fields side by side (R80). Two laws tie a layout to the fields read from it: a field read from a layout is the
field written there, and fields read from a word, put side by side, are the word. -/

/-- A field read from two parts lies in the higher part or in the lower one. -/
theorem field_of_append {v w i n : Nat} (x : BitVec v) (y : BitVec w) :
    (w ≤ i → (x ++ y).extractLsb' i n = x.extractLsb' (i - w) n) ∧
    (i + n ≤ w → (x ++ y).extractLsb' i n = y.extractLsb' i n) :=
  ⟨BitVec.extractLsb'_append_eq_of_le, BitVec.extractLsb'_append_eq_of_add_le⟩

/-- A single bit read from two parts lies in the higher part or in the lower one. -/
theorem bit_of_append {v w i : Nat} (x : BitVec v) (y : BitVec w) :
    (w ≤ i → (x ++ y).getLsbD i = x.getLsbD (i - w)) ∧ (i < w → (x ++ y).getLsbD i = y.getLsbD i) := by
  refine ⟨fun h => ?_, fun h => ?_⟩
  · rw [BitVec.getLsbD_append, if_neg (Nat.not_lt.mpr h)]
  · rw [BitVec.getLsbD_append, if_pos h]

theorem getLsbD_zero_ofBool (b : Bool) : (BitVec.ofBool b).getLsbD 0 = b := by simp

theorem ofBool_getLsbD {n : Nat} (x : BitVec n) (i : Nat) : BitVec.ofBool (x.getLsbD i) = x.extractLsb' i 1 := by
  ext j hj
  simp only [Nat.lt_one_iff] at hj
  simp [hj]

/-- Two fields that lie side by side in a word are one field of it. -/
theorem append_eq_extractLsb' {n v w s : Nat} {x : BitVec n} {a : BitVec v} {b : BitVec w} (ha : a = x.extractLsb' (s + w) v)
    (hb : b = x.extractLsb' s w) : a ++ b = x.extractLsb' s (v + w) := by
  rw [ha, hb, BitVec.extractLsb'_append_extractLsb'_eq_extractLsb' rfl]

/-- The source type of VCVT stands in two fields, its top bit apart (R194): put together they are the type. -/
theorem extractLsb'_append_eq_four (s : BitVec 4) : (s.extractLsb' 3 1 ++ s.extractLsb' 0 3 : BitVec 4) = s := by
  decide +revert

/-- Each of those two fields, read from the type. -/
theorem extractLsb'_append_one_three (a : BitVec 1) (b : BitVec 3) :
    BitVec.extractLsb' (n := 4) 3 1 (a ++ b) = a ∧ BitVec.extractLsb' (n := 4) 0 3 (a ++ b) = b := by
  decide +revert

/-! ### From an instruction to its word and back (R80, R82, R83) -/

/-- Settles O1: for each constructor, the fields read from its word are its own, so that the conditionals of its major's table come to
that constructor, and its fields are legal. -/
theorem porlekDecodesItsEncoding : Obligations.PorlekDecodesItsEncoding := by
  intro i x henc hwf
  cases i <;> cases henc <;>
    simp (disch := decide) only [decodePorlek,
      decodeMajor01, decodeMajor02, decodeMajor03, decodeMajor04, decodeMajor05, decodeMajor06, decodeMajor07, decodeMajor08,
      decodeMajor09, decodeMajor0A, decodeMajor0B, decodeMajor0C, decodeMajor0D, decodeMajor0E, decodeMajor0F, decodeMajor10,
      decodeMajor11, decodeMajor12, decodeMajor13, decodeMajor14, decodeMajor15, decodeMajor16, decodeMajor17, decodeMajor18,
      decodeMajor19, decodeMajor1A, decodeMajor1B, decodeMajor1C, decodeMajor1D, decodeMajor1E, decodeMajor1F, decodeMajor20,
      decodeMajor21, decodeMajor22, decodeMajor23, decodeMajor24, decodeMajor25, decodeMajor26, decodeMajor27, decodeMajor28,
      decodeMajor29, decodeMajor2A, decodeMajor2B, decodeMajor2C, decodeMajor2D, decodeMajor2E, decodeMajor2F, decodeMajor30,
      decodeMajor31, decodeMajor32, decodeMajor33, decodeMajor34, decodeMajor35, decodeMajor36, decodeMajor37, decodeMajor38,
      decodeMajor39,
      field_of_append, bit_of_append, getLsbD_zero_ofBool, BitVec.extractLsb'_eq_self, extractLsb'_append_eq_four, BitVec.reduceEq,
      BitVec.reduceExtractLsb', BitVec.reduceGetLsb, Nat.reduceSub, ↓reduceIte, and_true, and_false, Bool.false_eq_true, checked, hwf]

/-! ### From a word to an instruction and back (R83, R109)

The decoders are trees of conditionals whose leaves are errors and checked instructions. `Sound` holds of a tree when it holds of its
leaves, and at a leaf the conditions on the way give the fields that the instruction does not carry. -/

/-- What a decoder answers for the word x is well formed and encodes to x. -/
def Sound (x : BitVec 32) (r : Except DecodeError Instr) : Prop :=
  ∀ i, r = .ok i → i.wf = true ∧ encodePorlek i = some x

theorem sound_error (x : BitVec 32) (e : DecodeError) : Sound x (.error e) := fun _ h => nomatch h

theorem sound_checked {x y : BitVec 32} {i : Instr} (hi : encodePorlek i = some y) (hx : y = x.extractLsb' 0 32) :
    Sound x (checked i) := by
  rw [BitVec.extractLsb'_eq_self] at hx
  intro j hj
  unfold checked at hj
  split at hj
  · next hwf =>
    cases hj
    exact ⟨hwf, hx ▸ hi⟩
  · cases hj

theorem sound_ite {x : BitVec 32} {c : Prop} [Decidable c] {t e : Except DecodeError Instr} (ht : c → Sound x t)
    (he : Sound x e) : Sound x (if c then t else e) := by
  split
  · next hc => exact ht hc
  · exact he

theorem sound_decodePorlek (x : BitVec 32) : Sound x (decodePorlek x) := by
  unfold decodePorlek decodeMajor01 decodeMajor02 decodeMajor03 decodeMajor04 decodeMajor05 decodeMajor06 decodeMajor07
    decodeMajor08 decodeMajor09 decodeMajor0A decodeMajor0B decodeMajor0C decodeMajor0D decodeMajor0E decodeMajor0F decodeMajor10
    decodeMajor11 decodeMajor12 decodeMajor13 decodeMajor14 decodeMajor15 decodeMajor16 decodeMajor17 decodeMajor18 decodeMajor19
    decodeMajor1A decodeMajor1B decodeMajor1C decodeMajor1D decodeMajor1E decodeMajor1F decodeMajor20 decodeMajor21 decodeMajor22
    decodeMajor23 decodeMajor24 decodeMajor25 decodeMajor26 decodeMajor27 decodeMajor28 decodeMajor29 decodeMajor2A decodeMajor2B
    decodeMajor2C decodeMajor2D decodeMajor2E decodeMajor2F decodeMajor30 decodeMajor31 decodeMajor32 decodeMajor33 decodeMajor34
    decodeMajor35 decodeMajor36 decodeMajor37 decodeMajor38 decodeMajor39
  with_reducible repeat' first | exact sound_error _ _ | refine sound_ite (fun _ => ?_) ?_ | refine sound_checked rfl ?_
  all_goals
    repeat' apply append_eq_extractLsb'
    all_goals simp only [ofBool_getLsbD, extractLsb'_append_one_three, Nat.reduceAdd, *]

/-- What decodes as a graph instruction is well formed and has the op that was read. -/
def SoundOp (o mod : BitVec 8) (d0 d1 imm : BitVec 16) (r : Except DecodeError RoszonWord) : Prop :=
  ∀ i, r = .ok i → i.wf = true ∧ roszonOp i.op = some o ∧ i = ⟨i.op, mod, d0, d1, imm⟩

theorem soundOp_checked {o mod : BitVec 8} {d0 d1 imm : BitVec 16} {i : Instr} (hi : roszonOp i = some o) :
    SoundOp o mod d0 d1 imm (checkedOp ⟨i, mod, d0, d1, imm⟩) := by
  intro j hj
  unfold checkedOp at hj
  split at hj
  · next hwf =>
    cases hj
    exact ⟨hwf, hi, rfl⟩
  · cases hj

theorem soundOp_ite {o p mod : BitVec 8} {d0 d1 imm : BitVec 16} {i : Instr} {e : Except DecodeError RoszonWord}
    (hi : roszonOp i = some p) (he : SoundOp o mod d0 d1 imm e) :
    SoundOp o mod d0 d1 imm (if o = p then checkedOp ⟨i, mod, d0, d1, imm⟩ else e) := by
  split
  · next h => exact soundOp_checked (h ▸ hi)
  · exact he

theorem soundOp_decodeOp (o mod : BitVec 8) (d0 d1 imm : BitVec 16) : SoundOp o mod d0 d1 imm (decodeOp o mod d0 d1 imm) := by
  unfold decodeOp
  iterate 45 refine soundOp_ite rfl ?_
  exact fun _ h => nomatch h

/-- Settles O3: the trees of both decoders are sound. -/
theorem decodedWordsEncodeBack : Obligations.DecodedWordsEncodeBack := by
  refine ⟨sound_decodePorlek, fun x r hr => ?_⟩
  obtain ⟨hwf, hop, hfields⟩ := soundOp_decodeOp _ _ _ _ _ r hr
  have hword : x.extractLsb' 56 8 ++ x.extractLsb' 48 8 ++ x.extractLsb' 32 16 ++ x.extractLsb' 16 16 ++ x.extractLsb' 0 16 = x := by
    refine Eq.trans (b := x.extractLsb' 0 64) ?_ BitVec.extractLsb'_eq_self
    repeat' apply append_eq_extractLsb'
    all_goals rfl
  rw [hfields] at hwf ⊢
  exact ⟨hwf, by rw [encodeRoszon, hop]; exact congrArg some hword⟩

/-- Settles O4: each Porlek word is the encoding of its instruction, which O1 reads back; the graph word decodes as it stands. -/
theorem specWordsDecode : Obligations.SpecWordsDecode := by
  have porlek {w : BitVec 32} {i : Instr} (h : encodePorlek i = some w) (hwf : i.wf = true) : decodePorlek w = .ok i :=
    porlekDecodesItsEncoding i w h hwf
  unfold Obligations.SpecWordsDecode
  iterate 48 refine ⟨porlek rfl rfl, ?_⟩
  rfl

end Sys2Proof.PorlekEncoding

namespace Sys2Proof.MasksAndBranches

open Sys2Proof Machine Laws

/-! ### Mask registers (R75) -/

theorem mask_cases (d : BitVec 2) : d = 0 ∨ d = 1 ∨ d = 2 ∨ d = 3 := by
  decide +revert

theorem rk_wk_same (th : Thread) {d : BitVec 2} (x : BitVec 16) (h : d ≠ 0) : rk (wk th d x) d = x := by
  obtain rfl | rfl | rfl | rfl := mask_cases d
  · exact absurd rfl h
  all_goals rfl

theorem rk_wk_other (th : Thread) {d q : BitVec 2} (x : BitVec 16) (h : q ≠ d) : rk (wk th d x) q = rk th q := by
  obtain rfl | rfl | rfl | rfl := mask_cases d <;> obtain rfl | rfl | rfl | rfl := mask_cases q <;> simp_all [rk, wk]

/-- Writing a mask register changes nothing else of the thread. -/
theorem wk_frame (th : Thread) (d : BitVec 2) (x : BitVec 16) :
    wk th d x = { th with k1 := (wk th d x).k1, k2 := (wk th d x).k2, k3 := (wk th d x).k3 } := by
  unfold wk; split_ifs <;> rfl

/-! ### Instructions that only change their thread -/

theorem gives_issueThr {s : State} {w : Bool} {th : Thread} {i : Instr} (f : Thread → Thread) (h : Ready s w th)
    (hi : exec i s = issueThr w s f) : Gives i s (setThr s (nextPc (f th))) := hi.trans (issueThr_ok h)

/-- A function of MASK that writes the mask register d (R199). -/
theorem sets_mask {s : State} {w : Bool} {th : Thread} {i : Instr} {f : Thread → Thread} {d : BitVec 2} {x : BitVec 16}
    (h : Ready s w th) (hi : exec i s = issueThr w s f) (hf : f th = wk th d x) :
    ∃ u, Gives i s (setThr s u) ∧ u.pc = th.pc + 4 ∧ u.g = th.g ∧ u.v = th.v ∧ rk u 0 = 0xFFFF ∧ (d ≠ 0 → rk u d = x) ∧
      ∀ q, q ≠ d → rk u q = rk th q := by
  have frame := wk_frame th d x
  refine ⟨nextPc (wk th d x), hf ▸ gives_issueThr f h hi, ?_, ?_, ?_, rk_zero _, rk_wk_same th x, fun q => rk_wk_other th x⟩
  · rw [frame]; rfl
  · rw [frame]; rfl
  · rw [frame]; rfl

theorem maskResults : MaskResults := by
  intro s w th d a b gd ga h
  refine ⟨sets_mask h rfl rfl, sets_mask h rfl rfl, sets_mask h rfl rfl, sets_mask h rfl rfl, sets_mask h rfl rfl, sets_mask h rfl ?_,
    gives_issueThr (fun th => wg th gd ((rk th a).setWidth 64)) h rfl, ?_, gives_issueThr (fun th => wg th gd (pwOf th)) h rfl,
    gives_issueThr (fun th => setPw th (rg th ga)) h rfl⟩
  · rw [← BitVec.setWidth_eq_extractLsb' (by decide)]
  · rw [← List.countP_eq_length_filter]
    exact gives_issueThr (fun th => wg th gd (BitVec.ofNat 64 ((List.range 16).countP fun i => (rk th a).getLsbD i))) h rfl

/-! ### Branches (R178) -/

theorem off15_eq (o : BitVec 15) : off15 o = o.signExtend 64 * 4 := by
  rw [off15, BitVec.shiftLeft_eq_mul_twoPow]; rfl

theorem gives_branch {s : State} {w : Bool} {th : Thread} {a b : BitVec 5} {o : BitVec 15} {i : Instr} {f : DWord → DWord → Bool}
    {c : Prop} [Decidable c] (h : Ready s w th) (hi : exec i s = branchOp w a b o f s) (hc : f (rg th a) (rg th b) = decide c) :
    Gives i s (setThr s { th with pc := if c then th.pc + o.signExtend 64 * 4 else th.pc + 4 }) := by
  refine gives_ok h hi ?_
  simp only [hc, decide_eq_true_eq, off15_eq, nextPc]
  split <;> rfl

theorem branches : Branches := by
  intro s w th a b o h
  refine ⟨gives_branch (f := (· == ·)) h rfl ?_, gives_branch (f := (· != ·)) h rfl ?_, gives_branch (f := BitVec.slt) h rfl ?_,
    gives_branch (f := (!BitVec.slt · ·)) h rfl ?_, gives_branch (f := BitVec.ult) h rfl ?_,
    gives_branch (f := (!BitVec.ult · ·)) h rfl ?_⟩
  · rfl
  · exact decide_not.symm
  · rfl
  · simp only [BitVec.slt, ← decide_not, not_lt]
  · rfl
  · simp only [BitVec.ult, ← decide_not, not_lt]

/-- Settles O23. -/
theorem masksAndBranches : Obligations.MasksAndBranches := ⟨maskResults, branches⟩

end Sys2Proof.MasksAndBranches

namespace Sys2Proof.SegmentChecks

open Sys2Proof Machine

/-- The check of a word refuses its rights where one of those asked for is missing, or the kind of the segment is wrong (R366, R369). -/
theorem wordRights_iff (g : Seg) (rd wr wrong : Bool) : ((rd && !g.read) || (wr && !g.write) || wrong) = true ↔
    ¬ ((rd = true → g.read = true) ∧ (wr = true → g.write = true) ∧ wrong = false) := by
  simp only [Bool.or_eq_true, Bool.and_eq_true, Bool.not_eq_true', not_and_or, Classical.not_imp, Bool.not_eq_true,
    Bool.not_eq_false, or_assoc]

theorem segRights_iff (g : Seg) (wr : Bool) : (if wr then !g.write else !g.read) = true ↔ (if wr then g.write else g.read) = false := by
  cases wr <;> simp

/-- A write of a buffer that is closed to it (R319, R347, R348). -/
theorem closed_eq (s : State) (pn : Nat) (g : Seg) (wr : Bool) :
    (wr && sealedSeg s pn g) = (wr && g.type == 1 && (kget (part s pn).seals g.idx).isSome) := by
  rw [sealedSeg, Bool.and_assoc]

/-- Settles O30: each check decides where those before it in the order of R85 pass. -/
theorem segmentChecksInOrder : Obligations.SegmentChecksInOrder := by
  refine ⟨fun s pn g off z rd wr wrong _ => ?_, fun s pn g off z wr _ => ?_⟩
  · simp only [wordCheck, wordRights_iff, closed_eq]
    refine ⟨fun unaligned => if_pos unaligned, fun aligned refused => ?_, fun aligned right opened beyond => ?_,
      fun aligned right opened _ _ => ?_⟩
    · rw [if_neg (not_not_intro aligned)]
      rcases refused with wrong | closed
      · rw [if_pos wrong]
      · rw [if_pos closed, ite_self]
    · rw [if_neg (not_not_intro aligned), if_neg (not_not_intro right), if_neg (by simp [opened]), if_pos beyond]
    · rw [if_neg (not_not_intro aligned), if_neg (not_not_intro right), if_neg (by simp [opened]), if_neg (by omega)]
  · simp only [segCheck, segRights_iff, closed_eq]
    refine ⟨fun unaligned => if_pos unaligned, fun aligned refused => ?_, fun aligned right kind opened beyond => ?_,
      fun aligned right kind opened _ _ => ?_⟩
    · rw [if_neg (not_not_intro aligned)]
      rcases refused with wrong | kind | closed
      · rw [if_pos wrong]
      · rw [if_pos kind, ite_self]
      · rw [if_pos closed, ite_self, ite_self]
    · rw [if_neg (not_not_intro aligned), if_neg (by simp [right]), if_neg kind, if_neg (by simp [opened]), if_pos beyond]
    · rw [if_neg (not_not_intro aligned), if_neg (by simp [right]), if_neg kind, if_neg (by simp [opened]), if_neg (by omega)]

end Sys2Proof.SegmentChecks

namespace Sys2Proof.UserMode

open Sys2Proof Machine Laws

/-- An instruction that asks for supervisor mode before all else takes PRIV in user mode (R86). -/
theorem issue_supOnly_user {s : State} {w : Bool} {th : Thread} {k : State → Thread → Res} (h : Ready s true th)
    (hu : th.sup = false) : issue w s (fun s th => supOnly th (k s th)) = .next (settle s (trapState s th 0x02 0 2)) := by
  have refused : supOnly th (k s th) = .error (trapOp th 0x02) := by rw [supOnly, hu]; rfl
  exact issue_err (ready_weaken h w) refused

/-- Settles O46: each of them asks for supervisor mode before all else. -/
theorem userModeIsRefused : Obligations.UserModeIsRefused := by
  intro s w th d a b n u c h hu
  have user {w : Bool} {k : State → Thread → Res} := issue_supOnly_user (w := w) (k := k) h hu
  simp only [List.forall_mem_cons]
  refine ⟨?_, ?_, ?_, ?_, ?_, ?_, ?_, ?_, ?_, ?_, ?_, ?_, ?_, ?_, ?_, fun _ hi => nomatch hi⟩
  · exact Eq.trans (b := execPset w a n s) rfl user
  · exact Eq.trans (b := execPclr w a n s) rfl user
  · exact Eq.trans (b := execEret w s) rfl user
  · exact Eq.trans (b := execTlbinv w a u c s) rfl user
  · exact Eq.trans (b := execTlbinvAll w s) rfl user
  · exact Eq.trans (b := execReplay w d s) rfl user
  · exact Eq.trans (b := execCtxsv w d a b n s) rfl user
  · exact Eq.trans (b := execCtxld w d a b n s) rfl user
  · exact Eq.trans (b := execRqpush w d a b s) rfl user
  · exact Eq.trans (b := execRqpop w d a s) rfl user
  · exact Eq.trans (b := execRqpopId w d a s) rfl user
  · exact Eq.trans (b := execRqpopKill w d a s) rfl user
  · exact Eq.trans (b := execRqpeek w d a s) rfl user
  · exact Eq.trans (b := execCfgfreeze w a b n s) rfl user
  · exact Eq.trans (b := execCfgfreezeThaw w a s) rfl user

end Sys2Proof.UserMode

namespace Sys2Proof.RowsAnswer

open Sys2Proof Machine Laws

/-! ### What performs a row (R32, R58, log 3)

Three agents perform the rows of the table: the thread whose turn it is, the tile that fires, and the event in hand. Each of the
definitions below is what one of them answers, none where it is not there. -/

/-- The thread whose turn it is answers. -/
def byThread (s : State) (g : Thread → State) : Option State :=
  match focus s with
  | none => none
  | some th => some (g th)

/-- The tile of the firing in hand answers, where it belongs to a consist. -/
def byTile (s : State) (g : Firing → Nat → Consist → State) : Option State :=
  match firingOf s with
  | none => none
  | some (f, pn, c) => some (g f pn c)

/-- The event in hand answers. -/
def byEvent (s : State) (k : Event → Option State) : Option State :=
  match s.hand with
  | .event e => k e
  | _ => none

/-- A row that has a word is the issuing thread's. -/
theorem exec_byThread {i : Instr} (h : (encodePorlek i).isSome = true) (s : State) : ∃ g, exec i s = perform s (byThread s g) := by
  cases i <;> cases h <;> exact ⟨_, rfl⟩

/-- A row that is an op of a graph slot is the firing tile's. -/
theorem exec_byTile {i : Instr} (h : (roszonOp i).isSome = true) (s : State) : ∃ g, exec i s = perform s (byTile s g) := by
  cases i <;> cases h <;> exact ⟨_, rfl⟩

theorem exec_answers_focus {i : Instr} {s : State} {th : Thread} (hi : (encodePorlek i).isSome = true) (h : focus s = some th) :
    ∃ t, exec i s = .next t := by
  obtain ⟨g, hg⟩ := exec_byThread hi s
  exact ⟨_, by rw [hg, byThread, h]; rfl⟩

theorem exec_answers_firing {i : Instr} {s : State} {f : Firing} {o : Nat × Consist} (hi : (roszonOp i).isSome = true)
    (hf : s.hand = .firing f) (ho : tileOwner s f.st = some o) : ∃ t, exec i s = .next t := by
  obtain ⟨g, hg⟩ := exec_byTile hi s
  have : firingOf s = some (f, o.1, o.2) := by simp [firingOf, hf, ho]
  exact ⟨_, by rw [hg, byTile, this]; rfl⟩

theorem answers_byEvent {i : Instr} {s : State} {e : Event} {k : Event → Option State} (hi : exec i s = perform s (byEvent s k))
    (h : s.hand = .event e) (hk : ∃ u, k e = some u) : ∃ t, exec i s = .next t := by
  obtain ⟨u, hu⟩ := hk
  exact ⟨settle s u, by simp [hi, byEvent, h, hu, perform]⟩

theorem frameRow_answers (s : State) (type : Nat) (e : Event) (f : Frame) (act : State → Session → Frame → State) :
    ∃ t, frameRow s type e f act = some t := by
  unfold frameRow
  split
  · exact ⟨_, rfl⟩
  · dsimp only
    split_ifs <;> exact ⟨_, rfl⟩

/-- The row that an event is answers where the event is in hand. -/
theorem exec_answers_event {e : Event} {s : State} (h : s.hand = .event e) : ∃ t, exec e.instr s = .next t := by
  cases e
  case write | read | acq | release | readresp | msg | attest | leaseRenew | leaseClose | launchFrame | registerWrite |
      domainTableWrite =>
    exact answers_byEvent rfl h (frameRow_answers _ _ _ _ _)
  all_goals exact answers_byEvent rfl h ⟨_, rfl⟩

/-- Settles O10: a row answers where its agent is, and a row is one agent's. -/
theorem noInstructionIsRefused : Obligations.NoInstructionIsRefused := by
  intro i s
  obtain ⟨r, hr⟩ := exec_performs i s
  cases r with
  | some u => exact .inl ⟨_, hr⟩
  | none =>
    have refuted (h : ∃ t, exec i s = .next t) : False := by
      obtain ⟨t, ht⟩ := h
      cases hr.symm.trans ht
    refine .inr ⟨hr, fun hi => ?_, fun hi f hf => ?_, fun _ _ e he hei => refuted (hei ▸ exec_answers_event he)⟩
    · cases hfoc : focus s with
      | none => rfl
      | some th => exact (refuted (exec_answers_focus hi hfoc)).elim
    · cases ho : tileOwner s f.st with
      | none => rfl
      | some o => exact (refuted (exec_answers_firing hi hf ho)).elim

end Sys2Proof.RowsAnswer

namespace Sys2Proof.IllegalWords

open Sys2Proof Machine Laws

variable {s : State} {th : Thread} {st sl : Nat} {w : BitVec 32}

/-- The cause of a word that does not decode (R83, R183). -/
def wordCause (e : DecodeError) : Byte := if e = .pointerTag then 0x1D else 0x01

/-! ### The turn -/

/-- The thread with its trap pending. -/
def pended (th : Thread) (p : PendTrap) : Thread := { th with pend := some p }

/-- The state in which the trap of an illegal word is taken: pending, with the trap entry in hand. -/
def pendState (s : State) (th : Thread) (st sl : Nat) (p : PendTrap) : State :=
  { setThr (fetchState s th) (pended th p) with hand := .event (.trapEntry st sl) }

/-- Nothing is due before the turn of the core's slot. -/
theorem turn_of_fetches (h : Fetches s th st sl w) : turn s = (slotTurn s st sl, true) := by
  obtain ⟨hc, hlt⟩ := h.cursor
  rw [turn, if_pos h.live, h.due]
  simp only [unitTurn, hc, if_pos hlt, h.slot.1]

/-- The slot's turn is the fetch of its thread. -/
theorem slotTurn_of_fetches (h : Fetches s th st sl w) : slotTurn s st sl = fetchTurn s th sl := by
  obtain ⟨hdead, hout, hduty⟩ := h.service
  obtain ⟨hth, hst⟩ := h.thread
  simp only [slotTurn, hdead, hout, hduty, h.slot.2, hth, hst, TState.inSlot, h.timer, h.stays, h.pend, Bool.or_self, Bool.not_true,
    Option.isSome_none, Bool.false_eq_true, if_false]

/-- The fetch finds the word. -/
theorem fetchTurn_of_fetches (h : Fetches s th st sl w) : fetchTurn s th sl = issueTurn (fetchState s th) th sl w := by
  obtain ⟨hx, hl⟩ := h.exec
  simp only [fetchTurn, hx, h.word, if_neg (Nat.not_le.mpr hl)]
  rfl

/-- A thread without operations takes a precise trap at once. -/
theorem trapTurn_of_no_ops (hops : th.ops = []) (b : Bool) (p : PendTrap) :
    trapTurn s th b sl p = ({ setThr s (pended th p) with hand := .event (.trapEntry th.station sl) }, some .trapEntry) := by
  have none : atMarker s th = none := by
    simp only [atMarker, outstanding, hops, List.any_nil, Bool.false_eq_true, if_false, List.isEmpty_nil, if_true]
  cases b <;> simp only [trapTurn, none, Bool.false_eq_true, if_false, if_true] <;> rfl

/-- A word that does not decode comes to a trap with its cause. -/
theorem issueTurn_of_error {e : DecodeError} (he : decodePorlek w = .error e) :
    issueTurn s th sl w = trapTurn s th w.msb sl (trapOp th (wordCause e)) := by
  cases e <;> simp [issueTurn, he, wordCause]

/-- The turn of a word that does not decode is the entry of its trap. -/
theorem turn_of_illegal {e : DecodeError} (h : Fetches s th st sl w) (hst : th.station = st) (he : decodePorlek w = .error e)
    (hops : th.ops = []) : turn s = ((pendState s th st sl (trapOp th (wordCause e)), some .trapEntry), true) := by
  subst hst
  rw [turn_of_fetches h, slotTurn_of_fetches h, fetchTurn_of_fetches h, issueTurn_of_error he, trapTurn_of_no_ops hops]
  rfl

/-! ### The entry of the trap -/

/-- The use of a line of the instruction cache moves no thread in the slots. -/
theorem slots_icTouch (s : State) (i pn line j : Nat) : (stn (icTouch s i pn line) j).slots = (stn s j).slots := by
  by_cases h : i = j
  · rw [icTouch, h, stn_modStn]
  · rw [icTouch, stn_modStn_other _ _ h]

/-- The slot's thread is the one whose trap is pending. -/
theorem slotThr_pendState (h : Fetches s th st sl w) (p : PendTrap) :
    slotThr (pendState s th st sl p) st sl = some (pended th p) := by
  have slots : (stn (pendState s th st sl p) st).slots = (stn s st).slots := slots_icTouch ..
  have slot : vget (stn (pendState s th st sl p) st).slots sl = some th.tid := (congrArg (vget · sl) slots).trans h.slot.2
  rw [slotThr, slot]
  exact getThr_setThr (fetchState s th) (pended th p)

/-- What the entry of the pending trap comes to. -/
theorem exec_trapEntry_pendState (h : Fetches s th st sl w) {p : PendTrap} (hp : p.acc = none) :
    exec .trapEntry (pendState s th st sl p) =
      .next (settle (pendState s th st sl p) (takeTrap (pendState s th st sl p) (pended th p) p)) := by
  have taken : trapPending (pendState s th st sl p) st sl = takeTrap (pendState s th st sl p) (pended th p) p := by
    rw [trapPending, slotThr_pendState h]
    simp only [pended, hp, Option.isSome_none, Bool.false_eq_true, if_false]
  rw [← taken]
  exact Eq.trans (b := execTrapEntry (pendState s th st sl p)) rfl (onEvent_some rfl rfl)

/-- A thread in its handler, with the fault registers of the trap (R483). -/
def inHandler (th : Thread) (p : PendTrap) : Thread :=
  { th with cause := BitVec.ofNat 64 (p.cause.toNat + b2n p.deferred * 256), epc := pcBits p.epc, mpc := pcBits p.mpc,
            faddr := p.faddr, finfo := p.finfo, pend := none, relDone := false,
            cur := p.acc.map fun a => { pc := p.epc, acc := a, kind := bits p.finfo.toNat 7 0,
                                        fault := { cause := p.cause, addr := p.faddr } },
            ps := th.sup, sup := true, inh := true, pc := th.tvec }

/-- Trap entry writes the thread and nothing else, where it has a handler and is not inside it (R483). -/
theorem takeTrap_inHandler {p : PendTrap} (hi : th.inh = false) (hv : th.tvec ≠ 0) : takeTrap s th p = setThr s (inHandler th p) := by
  simp only [takeTrap, hi, Bool.false_or, beq_iff_eq, hv, if_false]
  rfl

/-- The cause register holds the cause of the word. -/
theorem inHandler_cause (e : DecodeError) (q : PendTrap) :
    (inHandler (pended th q) (trapOp th (wordCause e))).cause = if e = .pointerTag then 0x1D else 0x01 := by
  cases e <;> simp [inHandler, trapOp, wordCause, b2n]

/-- The step of a row that waits for nothing, with the turn of its unit. -/
theorem step_of_turn {t u : State} {i : Instr} (ht : turn s = ((t, some i), true)) (hm : t.mem = s.mem) (hx : exec i t = .next u)
    (hw : u.waitsFor = false) : step s = .next (advance s u (i == .slotRefill)) := by
  have hx : exec i { t with mem := s.mem } = .next u := by rw [← hm]; exact hx
  simp only [step, ht, hx, afterExec, hw, Bool.false_eq_true, if_false, if_true]

/-- Settles O6: the step is the entry of the trap of the word, and trap entry writes the thread and nothing else. -/
theorem illegalWordsTrap : Obligations.IllegalWordsTrap := by
  intro s th st sl w e h hst he hops hinh htvec
  let p := trapOp th (wordCause e)
  let x := pendState s th st sl p
  let u := inHandler (pended th p) p
  have entered : exec .trapEntry x = .next (settle x (setThr x u)) :=
    (exec_trapEntry_pendState h rfl).trans (congrArg (fun t => Host.Outcome.next (settle x t)) (takeTrap_inHandler hinh htvec))
  have calm : (settle x (setThr x u)).waitsFor = false := h.calm
  have got : getThr (setThr x u) th.tid = some u := getThr_setThr x u
  exact ⟨_, u, step_of_turn (turn_of_illegal h hst he hops) rfl entered calm, got, inHandler_cause e p, rfl, rfl, rfl, rfl, rfl, rfl,
    rfl, rfl, rfl, rfl, rfl, rfl, rfl⟩

end Sys2Proof.IllegalWords

namespace Sys2Proof.CacheFrames

open Sys2Proof Machine Laws

/-! ### What stays -/

/-- Every L1 holds the same lines in t as in s, and the same clusters have theirs fused. -/
structure SameL1 (s t : State) : Prop where
  lines : ∀ x, (stn t x).l1 = (stn s x).l1
  fused : ∀ c, (clus t c).fused = (clus s c).fused

/-- Nothing of memory is written between s and t, nor of the lines of the L1s. -/
structure SameStore (s t : State) : Prop extends SameL1 s t where
  mem : t.mem = s.mem
  wbuf : t.wbuf = s.wbuf

theorem SameL1.refl (s : State) : SameL1 s s := ⟨fun _ => rfl, fun _ => rfl⟩
theorem SameStore.refl (s : State) : SameStore s s := ⟨.refl s, rfl, rfl⟩

theorem SameL1.trans {s t u : State} (h : SameL1 s t) (k : SameL1 t u) : SameL1 s u :=
  ⟨fun x => (k.lines x).trans (h.lines x), fun c => (k.fused c).trans (h.fused c)⟩

theorem SameStore.trans {s t u : State} (h : SameStore s t) (k : SameStore t u) : SameStore s u :=
  ⟨h.toSameL1.trans k.toSameL1, k.mem.trans h.mem, k.wbuf.trans h.wbuf⟩

/-- A fold of steps that keep the L1s keeps them. -/
theorem sameL1_foldl {α : Type} {f : State → α → State} (h : ∀ s a, SameL1 s (f s a)) (l : List α) (s : State) :
    SameL1 s (l.foldl f s) := by
  induction l generalizing s with
  | nil => exact .refl s
  | cons a l ih => exact (h s a).trans (ih _)

theorem sameStore_foldl {α : Type} {f : State → α → State} (h : ∀ s a, SameStore s (f s a)) (l : List α) (s : State) :
    SameStore s (l.foldl f s) := by
  induction l generalizing s with
  | nil => exact .refl s
  | cons a l ih => exact (h s a).trans (ih _)

theorem SameL1.ite {s t u : State} {c : Prop} [Decidable c] (h : SameL1 s t) (k : SameL1 s u) : SameL1 s (if c then t else u) := by
  split
  · exact h
  · exact k

theorem SameStore.ite {s t u : State} {c : Prop} [Decidable c] (h : SameStore s t) (k : SameStore s u) :
    SameStore s (if c then t else u) := by
  split
  · exact h
  · exact k

/-- The L1s stand in the stations and clusters alone. -/
theorem SameL1.of_eq {s t : State} (hs : t.stations = s.stations) (hc : t.clusters = s.clusters) : SameL1 s t :=
  ⟨fun x => by rw [stn, stn, hs], fun c => by rw [clus, clus, hc]⟩

theorem SameStore.of_eq {s t : State} (hs : t.stations = s.stations) (hc : t.clusters = s.clusters) (hm : t.mem = s.mem)
    (hw : t.wbuf = s.wbuf) : SameStore s t := ⟨.of_eq hs hc, hm, hw⟩

/-! ### Stations, clusters and slices -/

variable (s : State)

theorem sameStore_modStn (i : Nat) (f : Station → Station) (h : ∀ x, (f x).l1 = x.l1) : SameStore s (modStn s i f) := by
  refine ⟨⟨fun x => ?_, fun _ => rfl⟩, rfl, rfl⟩
  by_cases hx : i = x
  · rw [← hx, stn_modStn, h]
  · rw [stn_modStn_other s f hx]

theorem sameStore_modClus (i : Nat) (f : Cluster → Cluster) (h : ∀ x, (f x).fused = x.fused) : SameStore s (modClus s i f) := by
  refine ⟨⟨fun _ => rfl, fun c => ?_⟩, rfl, rfl⟩
  by_cases hc : i = c
  · rw [← hc, clus_modClus, h]
  · simp only [clus, modClus_clusters, kget_kput_other _ _ hc]

/-- The entry of a key in a map whose entries are all changed. -/
theorem kget_map_snd {α : Type} (f : α → α) (m : KMap α) (i : Nat) : kget (m.map fun e => (e.1, f e.2)) i = (kget m i).map f := by
  induction m with
  | nil => rfl
  | cons e m ih => simp only [List.map_cons, kget, ih]; split <;> rfl

theorem sameL1_mapSlices (f : List SLine → List SLine) : SameL1 s (mapSlices s f) := by
  refine ⟨fun x => ?_, fun _ => rfl⟩
  have entry : kget (mapSlices s f).stations x = (kget s.stations x).map fun y => { y with slice := f y.slice } :=
    kget_map_snd (fun y : Station => { y with slice := f y.slice }) s.stations x
  rw [stn, stn, entry]
  cases kget s.stations x <;> rfl

theorem sameL1_wrL (a : Nat) (l : List Byte) : SameL1 s (wrL s a l) := sameL1_foldl (fun _ _ => .of_eq (by rfl) (by rfl)) _ _

theorem sameL1_modLine (bank key : Nat) (f : SLine → SLine) : SameL1 s (modLine s bank key f) :=
  (sameStore_modStn s bank _ fun _ => by rfl).toSameL1

theorem sameL1_writeBack (l : SLine) : SameL1 s (writeBack s l) := by
  rw [writeBack]
  split
  · exact .refl s
  · exact sameL1_foldl (fun s _ => sameL1_wrL s _ _) _ _

theorem sameL1_proxyFetch (bank key n : Nat) (wr : Bool) : SameL1 s (proxyFetch s bank key n wr) := by
  rw [proxyFetch]
  split
  · refine SameL1.trans (t := { s with freeCtr := s.freeCtr + 1 }) (.of_eq rfl rfl) (sameL1_foldl (fun s k => ?_) _ _)
    split
    · exact .refl s
    · exact sameL1_modLine s _ _ _
  · exact .refl s

theorem sameL1_touchSlice (bank pn key n : Nat) (wr : Bool) : SameL1 s (touchSlice s bank pn key n wr) := by
  rw [touchSlice]
  split
  · exact .refl s
  · have fresh : SameL1 s { s with fresh := s.fresh + 1 } := .of_eq rfl rfl
    refine SameL1.trans ?_ (sameL1_proxyFetch _ bank key n wr)
    split
    · exact fresh.trans (sameL1_modLine _ _ _ _)
    · split
      · exact fresh
      · refine SameL1.trans ?_ (sameStore_modStn _ bank _ fun _ => by rfl).toSameL1
        split
        · exact fresh.trans (sameL1_writeBack _ _)
        · exact fresh

/-! ### Translation -/

theorem sameL1_trigger (key : Nat) : SameL1 s (trigger s key) := by
  refine sameL1_foldl (fun s a => ?_) _ _
  split
  · exact .refl s
  · split <;> exact .of_eq rfl rfl

theorem sameL1_physWrB (key : Nat) (b : Byte) : SameL1 s (physWrB s key b) := by
  have slices := sameL1_mapSlices s fun ls => ls.map fun l => if l.line = key / 256 then l.setByte key b else l
  rw [physWrB]
  split
  · exact slices
  · exact slices.trans (.of_eq rfl rfl)

theorem sameL1_walkRead (pn ea : Nat) : SameL1 s (walkRead s pn ea) :=
  SameL1.trans (t := noteHeld s (homeOf s pn ea false) pn ea 8 false) (.of_eq rfl rfl) (sameL1_touchSlice _ _ _ _ _ _)

theorem sameL1_walkOr (pn ea : Nat) (b : Byte) : SameL1 s (walkOr s pn ea b) := by
  refine SameL1.trans ?_ (sameL1_trigger _ ea)
  refine SameL1.trans ?_ (sameL1_physWrB _ ea _)
  exact SameL1.trans (t := noteHeld s (homeOf s pn ea false) pn ea 8 true) (.of_eq rfl rfl) (sameL1_touchSlice _ _ _ _ _ _)

theorem sameStore_tlbTouch (st : Nat) (t : Tlb) : SameStore s (tlbTouch s st t) := sameStore_modClus s _ _ fun _ => rfl

theorem sameL1_translateKeep (st pn va : Nat) (wr fe pin : Bool) (lost : List (Nat × Nat)) :
    SameL1 s (translateKeep s st pn va wr fe pin lost).1 := by
  have walked (l : List Nat) : SameL1 s (l.foldl (fun s ea => walkRead s pn ea) s) :=
    sameL1_foldl (fun s ea => sameL1_walkRead s pn ea) l s
  have toldOf (l : List Nat) (s : State) : SameL1 s (l.foldl (fun s ea => told s ea 8) s) :=
    sameL1_foldl (fun _ _ => .of_eq (by rfl) (by rfl)) l s
  simp only [translateKeep]
  split
  · exact (walked _).trans (toldOf _ _)
  · split
    · exact walked _
    · refine SameL1.ite (SameL1.trans ?_ (sameStore_tlbTouch _ st _).toSameL1) ?_
      all_goals exact .ite (walked _) ((walked _).trans (sameL1_walkOr _ _ _ _))

theorem sameL1_translate (st pn va : Nat) (wr fe pin : Bool) : SameL1 s (Machine.translate s st pn va wr fe pin).1 :=
  sameL1_translateKeep s st pn va wr fe pin []

/-- A translation that is cached, of an access that writes nothing, writes nothing. -/
theorem sameStore_translate_hit {st pn va : Nat} {t : Tlb} (h : tlbFind s st pn va = some t) (fe pin : Bool) :
    SameStore s (translate s st pn va false fe pin).1 := by
  simp only [Machine.translate, translateKeep, h, Option.isSome_some, Bool.true_or, Bool.or_true, Bool.false_and, Bool.false_eq_true,
    if_true, if_false, Nat.add_zero]
  split
  · exact .refl s
  · exact sameStore_tlbTouch s _ _

/-! ### Requests on their way -/

theorem sameStore_foldEvent (pn st b kind addr : Nat) (data : List Byte) : SameStore s (foldEvent s pn st b kind addr data) :=
  .ite (.of_eq rfl rfl rfl rfl) (.refl s)

theorem sameStore_routerPass (st : Nat) (r : Req) (key : Nat) : SameStore s (routerPass s st r key) := by
  simp only [routerPass]
  exact sameStore_modStn s st _ fun _ => by rfl

theorem sameStore_travel (r : Req) (key w : Nat) : SameStore s (travel s r key w) := by
  rw [travel]
  split <;> exact .of_eq rfl rfl rfl rfl

theorem sameStore_toBank (r : Req) (key : Nat) : SameStore s (toBank s r key) := by
  unfold toBank
  extract_lets r₁ folded paced passed w r₂ sent
  have hfolded : SameStore s folded := .ite (sameStore_foldEvent s _ _ _ _ _ _) (.refl s)
  have hpassed : SameStore s passed := hfolded.trans (.ite (sameStore_foldl (fun s st => sameStore_routerPass s st r₁ key) _ _) (.refl _))
  have hsent : SameStore s sent := hpassed.trans (.of_eq rfl rfl rfl rfl)
  exact .ite (hsent.trans (sameStore_travel sent r₂ key w)) (hsent.trans (.of_eq rfl rfl rfl rfl))

theorem sameStore_portServe (c : Nat) : SameStore s (portServe s c) := by
  refine sameStore_foldl (fun s e => ?_) _ _
  simp only
  exact .ite (.ite (.of_eq rfl rfl rfl rfl) (.of_eq rfl rfl rfl rfl)) (.of_eq rfl rfl rfl rfl)

/-- A miss goes to its cluster's memory port. -/
theorem sameStore_portServe_reqs (l : KMap Req) (c : Nat) : SameStore s (portServe { s with reqs := l } c) :=
  SameStore.trans (t := { s with reqs := l }) (.of_eq rfl rfl rfl rfl) (sameStore_portServe _ c)

/-- A request sent leaves the L1s as they are. -/
theorem sameL1_sendReq (r : Req) : SameL1 s (sendReq s r) := by
  unfold sendReq
  extract_lets id fresh r' miss
  have hfresh : SameL1 s fresh := .of_eq rfl rfl
  split
  · exact hfresh.trans (sameStore_toBank _ _ _).toSameL1
  · split
    · have served := sameL1_translate fresh r'.st r'.part r'.va.toNat r'.kind.writes r'.code r'.pinned
      split
      · next e => exact hfresh.trans ((e ▸ served).trans (sameStore_toBank _ _ _).toSameL1)
      · next e => exact hfresh.trans ((e ▸ served).trans (sameStore_portServe_reqs _ _ _).toSameL1)
    · exact hfresh.trans (sameStore_portServe_reqs _ _ _).toSameL1

/-- A request sent that writes nothing writes nothing on its way. -/
theorem sameStore_sendReq {r : Req} (h : r.kind.writes = false) : SameStore s (sendReq s r) := by
  unfold sendReq
  extract_lets id fresh r' miss
  have hfresh : SameStore s fresh := .of_eq rfl rfl rfl rfl
  split
  · exact hfresh.trans (sameStore_toBank _ _ _)
  · split
    · next hit =>
      have served := sameStore_translate_hit fresh hit r'.code r'.pinned
      have writes : r'.kind.writes = false := h
      rw [writes]
      split
      · next e => exact hfresh.trans ((e ▸ served).trans (sameStore_toBank _ _ _))
      · next e => exact hfresh.trans ((e ▸ served).trans (sameStore_portServe_reqs _ _ _))
    · exact hfresh.trans (sameStore_portServe_reqs _ _ _)

/-! ### Prefetches (R92, R93, R395) -/

theorem sameStore_icKill (st : Nat) (f : Nat → Nat → Bool) : SameStore s (icKill s st f) := sameStore_modStn s st _ fun _ => by rfl

/-- A fill reads its line: what it asks for is a read, or the fill of a line of the L1. -/
theorem sameStore_sendFill (st : Nat) (f : Fill) : SameStore s (sendFill s st f) := by
  unfold sendFill
  extract_lets f' noted
  have hnoted : SameStore s noted :=
    SameStore.trans (t := { s with fresh := s.fresh + 1 }) (.of_eq rfl rfl rfl rfl) (sameStore_modStn _ st _ fun _ => by rfl)
  refine hnoted.trans (sameStore_sendReq noted ?_)
  cases f'.l1 <;> rfl

theorem sameStore_pfiLine (st pn : Nat) (g : Seg) (n : Nat) : SameStore s (pfiLine s st pn g n) :=
  .ite (.refl s) (sameStore_sendFill s st _)

/-! ### The lines of a range (R395) -/

theorem sameL1_drainSector (st : Nat) (c : Comb) : SameL1 s (drainSector s st c) := by
  unfold drainSector
  extract_lets left
  have hleft : SameL1 s left := (sameStore_modStn s st _ fun _ => by rfl).toSameL1
  exact hleft.trans (sameL1_sendReq left _)

theorem sameL1_cleanLines (st pn lo hi : Nat) : SameL1 s (cleanLines s st pn lo hi) :=
  sameL1_foldl (fun s x => sameL1_foldl (fun s c => sameL1_drainSector s x c) _ s) _ s

/-- A sector reset, its poison and its error forgotten (R353). -/
theorem sameL1_resetSector (p e : List Nat) (k : Nat) : SameL1 s (resetSector { s with poison := p, eccNew := e } k) :=
  SameL1.trans (t := { s with poison := p, eccNew := e }) (.of_eq rfl rfl) (sameL1_mapSlices _ _)

theorem sameL1_unpoison (st pn lo hi : Nat) (g : Seg) : SameL1 s (unpoison s st pn lo hi g) := by
  refine sameL1_foldl (fun s n => ?_) _ s
  have walked := sameL1_translate s st pn (64 * n) false false g.pinned
  split
  · exact .refl s
  · next t key e =>
    rw [e] at walked
    exact .ite (walked.trans (sameL1_resetSector t _ _ _)) walked

/-- The L1s that a station uses are the same while the fusing of its cluster is. -/
theorem l1Stations_of_same {s t : State} (h : SameL1 s t) (st : Nat) : l1Stations t st = l1Stations s st := by
  simp only [l1Stations, l1Station, h.fused]

/-- No line of a station's L1 satisfies a test, but for those that the eviction schedule keeps. -/
def Cleared (s : State) (x : Nat) (f : L1Line → Bool) : Prop := ∀ l ∈ (stn s x).l1, f l = true → l.sched = true

theorem Cleared.of_same {s t : State} {x : Nat} {f : L1Line → Bool} (hc : Cleared s x f) (h : SameL1 s t) : Cleared t x f := by
  rw [Cleared, h.lines]
  exact hc

/-- The seal counts of lines that have gone are not lines (R346). -/
theorem sameL1_sealCounts (l : List L1Line) :
    SameL1 s (l.foldl (fun s l => match l.sealedIdx with | some i => sealCount s l.part i false | none => s) s) := by
  refine sameL1_foldl (fun s l => ?_) l s
  split
  · exact .of_eq rfl rfl
  · exact .refl s

/-- The lines left of those that satisfy a test are those that the eviction schedule keeps (R355). -/
theorem cleared_dropLines (st : Nat) (f : L1Line → Bool) : Cleared (dropLines s st f) st f := by
  unfold dropLines
  extract_lets gone dropped
  refine Cleared.of_same (s := dropped) ?_ (sameL1_sealCounts dropped gone)
  intro l hl hf
  rw [stn_modStn, List.mem_map] at hl
  obtain ⟨o, ho, rfl⟩ := hl
  have kept : f o = false ∨ o.sched = true := by simpa using (List.mem_filter.mp ho).2
  cases hfo : f o with
  | false => simp [hfo] at hf
  | true => simpa [hfo, reload] using kept

/-- What is cleared of a station stays so when another's lines are dropped, or its own. -/
theorem Cleared.dropLines {s : State} {x : Nat} {f : L1Line → Bool} (h : Cleared s x f) (st : Nat) :
    Cleared (Machine.dropLines s st f) x f := by
  by_cases hx : st = x
  · exact hx ▸ cleared_dropLines s st f
  · unfold Machine.dropLines
    extract_lets gone dropped
    refine Cleared.of_same (s := dropped) ?_ (sameL1_sealCounts dropped gone)
    rw [Cleared, stn_modStn_other _ _ hx]
    exact h

theorem Cleared.dropLines_foldl {s : State} {x : Nat} {f : L1Line → Bool} (h : Cleared s x f) (l : List Nat) :
    Cleared (l.foldl (fun s st => Machine.dropLines s st f) s) x f := by
  induction l generalizing s with
  | nil => exact h
  | cons st l ih => exact ih (h.dropLines st)

/-- After the lines are dropped at each of some stations, each of them is clear. -/
theorem cleared_dropLines_foldl (f : L1Line → Bool) {l : List Nat} {x : Nat} (hx : x ∈ l) :
    Cleared (l.foldl (fun s st => dropLines s st f) s) x f := by
  induction l generalizing s with
  | nil => cases hx
  | cons st l ih =>
    rcases List.mem_cons.mp hx with rfl | hx
    · exact (cleared_dropLines s x f).dropLines_foldl l
    · exact ih (dropLines s st f) hx

end Sys2Proof.CacheFrames

namespace Sys2Proof.CachesAndConsists

open Sys2Proof Machine Laws CacheFrames

variable {s : State} {w : Bool} {th : Thread} {d a b : BitVec 5} {n : BitVec 3} {k : BitVec 2}

/-! ### Prefetches -/

theorem mem_wbuf_of_same {s t : State} (h : SameStore s t) : t.mem = s.mem ∧ t.wbuf = s.wbuf := ⟨h.mem, h.wbuf⟩

theorem gives_pfiOp {i : Instr} {rf : Bool} (h : Ready s w th) (hi : exec i s = pfiOp w rf a b s) :
    ∃ t, Gives i s (setThr t (nextPc th)) ∧ t.mem = s.mem ∧ t.wbuf = s.wbuf := by
  refine ⟨_, hi.trans (issue_ok h rfl), mem_wbuf_of_same ?_⟩
  refine SameStore.trans ?_ (sameStore_foldl (fun s n => sameStore_pfiLine s _ _ _ n) _ _)
  exact .ite (sameStore_icKill s _ _) (.refl s)

theorem gives_pfd (h : Ready s w th) : ∃ t, Gives (.pfd w a b n) s (setThr t (nextPc th)) ∧ t.mem = s.mem ∧ t.wbuf = s.wbuf := by
  refine ⟨_, Eq.trans (b := execPfd w a b n s) rfl (issue_ok h rfl), mem_wbuf_of_same (sameStore_foldl (fun s line => ?_) _ s)⟩
  exact .ite (.refl s) (sameStore_sendFill s th.station _)

/-! ### CLEAN and INVAL -/

/-- A range that CLEAN and INVAL accept takes no trap. -/
theorem rangeTrap_none {g : Seg} {o len : Nat} {rd : Bool} (ht : g.type ≠ 3) (hr : rd = true → g.read = true) (hl : o + len ≤ g.limit)
    (hn : len ≤ 16384) : rangeTrap th g o len rd = none := by
  have rights : ¬ (g.type = 3 ∨ (rd && !g.read) = true) := by
    cases rd <;> simp_all
  rw [rangeTrap, if_neg rights, if_neg (by omega)]

theorem gives_clean_trap {p : PendTrap} (h : Ready s w th)
    (hp : rangeTrap th (rseg th n) (rg th a).toNat (rangeLen (rg th b)) false = some p) : Gives (.clean w a b n) s (takeTrap s th p) :=
  Eq.trans (b := execClean w a b n s) rfl (issue_err h (by simp only [hp]))

theorem gives_inval_trap {p : PendTrap} (h : Ready s w th)
    (hp : rangeTrap th (rseg th n) (rg th a).toNat (rangeLen (rg th b)) true = some p) : Gives (.inval w a b n) s (takeTrap s th p) :=
  Eq.trans (b := execInval w a b n s) rfl (issue_err h (by simp only [hp]))

theorem gives_clean (h : Ready s w th) (hp : rangeTrap th (rseg th n) (rg th a).toNat (rangeLen (rg th b)) false = none) :
    Gives (.clean w a b n) s (setThr (if (rseg th n).cached then cleanLines s th.station (tidPart th.tid)
      ((rseg th n).base + (rg th a).toNat) ((rseg th n).base + (rg th a).toNat + rangeLen (rg th b)) else s) (nextPc th)) :=
  Eq.trans (b := execClean w a b n s) rfl (issue_ok h (by simp only [hp]))

theorem gives_inval_uncached (h : Ready s w th) (hp : rangeTrap th (rseg th n) (rg th a).toNat (rangeLen (rg th b)) true = none)
    (hc : (rseg th n).cached = false) : Gives (.inval w a b n) s (setThr s (nextPc th)) :=
  Eq.trans (b := execInval w a b n s) rfl (issue_ok h (by simp only [hp, hc, Bool.false_eq_true, if_false]))

/-- A line of a partition that a range from lo on, of len bytes, touches. -/
def touches (pn lo len : Nat) (l : L1Line) : Bool :=
  l.part == pn && decide (lo / 256 ≤ l.line) && decide (l.line ≤ (lo + len - 1) / 256)

theorem touches_iff {pn lo len : Nat} {l : L1Line} :
    touches pn lo len l = true ↔ l.part = pn ∧ lo / 256 ≤ l.line ∧ l.line ≤ (lo + len - 1) / 256 := by
  simp only [touches, Bool.and_eq_true, beq_iff_eq, decide_eq_true_eq, and_assoc]

/-- INVAL through a cached segment leaves no line of its range in the L1s of the station. -/
theorem gives_inval_cached (h : Ready s w th) (hp : rangeTrap th (rseg th n) (rg th a).toNat (rangeLen (rg th b)) true = none)
    (hc : (rseg th n).cached = true) : ∃ t, Gives (.inval w a b n) s (setThr t (nextPc th)) ∧ ∀ x ∈ l1Stations s th.station,
      Cleared t x (touches (tidPart th.tid) ((rseg th n).base + (rg th a).toNat) (rangeLen (rg th b))) := by
  refine ⟨_, Eq.trans (b := execInval w a b n s) rfl (issue_ok h (by simp only [hp, hc, if_true]; rfl)), fun x hx => ?_⟩
  have clean := sameL1_cleanLines s th.station (tidPart th.tid) ((rseg th n).base + (rg th a).toNat)
    ((rseg th n).base + (rg th a).toNat + rangeLen (rg th b))
  refine Cleared.of_same (cleared_dropLines_foldl _ _ (l := l1Stations _ th.station) ?_) (.ite (sameL1_unpoison _ _ _ _ _ _) (.refl _))
  exact l1Stations_of_same clean th.station ▸ hx

/-! ### CFGLOAD and CFGFREE -/

section CfgLoad

variable (h : Ready s w th)
include h

theorem gives_cfgload_unread (hr : (rseg th n).read = false) :
    Gives (.cfgload w a n) s (trapState s th 0x04 (vaOf (rseg th n) (rg th a)) 2) :=
  Eq.trans (b := execCfgload w a n s) rfl (issue_err (t := trapAt th 0x04 _) h (by simp only [hr, Bool.not_false, if_true]))

theorem gives_cfgload_unaligned (hr : (rseg th n).read = true) (ho : (rg th a).toNat % 64 ≠ 0) :
    Gives (.cfgload w a n) s (trapState s th 0x05 (vaOf (rseg th n) (rg th a)) 2) :=
  Eq.trans (b := execCfgload w a n s) rfl
    (issue_err (t := trapAt th 0x05 _) h (by simp only [hr, Bool.not_true, Bool.false_eq_true, if_false, if_pos ho]))

theorem gives_cfgload_beyond (hr : (rseg th n).read = true) (ho : (rg th a).toNat % 64 = 0)
    (hl : (rseg th n).limit < (rg th a).toNat + 64) : Gives (.cfgload w a n) s (trapState s th 0x03 (vaOf (rseg th n) (rg th a)) 2) :=
  Eq.trans (b := execCfgload w a n s) rfl (issue_err (t := trapAt th 0x03 _) h (by
    simp only [hr, ho, Bool.not_true, Bool.false_eq_true, if_false, ne_eq, not_true_eq_false, if_pos hl]))

theorem gives_cfgload (hr : (rseg th n).read = true) (ho : (rg th a).toNat % 64 = 0) (hl : (rg th a).toNat + 64 ≤ (rseg th n).limit) :
    Gives (.cfgload w a n) s
      (startLoad (setThr s (nextPc th)) (tidPart th.tid) (vaOf (rseg th n) (rg th a)) (rseg th n) th.tid th.station none).1 :=
  Eq.trans (b := execCfgload w a n s) rfl (issue_ok h (by
    simp only [hr, ho, Bool.not_true, Bool.false_eq_true, if_false, ne_eq, not_true_eq_false, if_neg (Nat.not_lt.mpr hl)]))

theorem gives_cfgfree : Gives (.cfgfree w a) s (cfgFree (setThr s (nextPc th)) th ((rg th a).setWidth 16)) :=
  Eq.trans (b := execCfgfree w a s) rfl (issue_ok h rfl)

end CfgLoad

/-! ### CFGFREEZE -/

section CfgFreeze

variable (h : Ready s w th) (hs : th.sup = true)
include h hs

theorem gives_cfgfreeze_rights (hr : (rseg th n).write = false ∨ (rseg th n).engine = false) :
    Gives (.cfgfreeze w a b n) s (trapState s th 0x04 (vaOf (rseg th n) (rg th b)) 2) := by
  have wrong : (!(rseg th n).write || !(rseg th n).engine) = true := by rcases hr with hr | hr <;> simp [hr]
  exact Eq.trans (b := execCfgfreeze w a b n s) rfl
    (issue_err (t := trapAt th 0x04 _) h (by simp only [supOnly, hs, wrong, if_true]))

theorem gives_cfgfreeze_absent (hw : (rseg th n).write = true) (he : (rseg th n).engine = true)
    (hc : consistOf (setThr s (nextPc th)) (tidPart th.tid) ((rg th a).setWidth 16) = none) :
    Gives (.cfgfreeze w a b n) s (cfgRefuse (setThr s (nextPc th)) th ((rg th a).setWidth 16) 0xFFFF) :=
  Eq.trans (b := execCfgfreeze w a b n s) rfl
    (issue_ok h (by simp [supOnly, hs, hw, he, hc]))

theorem gives_cfgfreeze {c : Consist} (hw : (rseg th n).write = true) (he : (rseg th n).engine = true)
    (hc : consistOf (setThr s (nextPc th)) (tidPart th.tid) ((rg th a).setWidth 16) = some c) :
    Gives (.cfgfreeze w a b n) s (freezeConsist (setThr s (nextPc th)) (tidPart th.tid) ((rg th a).setWidth 16)
      { issuer := th.tid, st := th.station, off := rg th b, seg := rseg th n }) :=
  Eq.trans (b := execCfgfreeze w a b n s) rfl
    (issue_ok h (by simp [supOnly, hs, hw, he, hc]))

theorem gives_thaw_absent (hc : consistOf (setThr s (nextPc th)) (tidPart th.tid) ((rg th a).setWidth 16) = none) :
    Gives (.cfgfreezeThaw w a) s (cfgRefuse (setThr s (nextPc th)) th ((rg th a).setWidth 16) 0xFFFF) :=
  Eq.trans (b := execCfgfreezeThaw w a s) rfl (issue_ok h (by simp [supOnly, hs, hc]))

theorem gives_thaw_refused {c : Consist} (hc : consistOf (setThr s (nextPc th)) (tidPart th.tid) ((rg th a).setWidth 16) = some c)
    (hf : c.frozen = false ∨ c.wdog = true) :
    Gives (.cfgfreezeThaw w a) s (cfgRefuse (setThr s (nextPc th)) th ((rg th a).setWidth 16) c.anchor) :=
  Eq.trans (b := execCfgfreezeThaw w a s) rfl (issue_ok h (by simp [supOnly, hs, hc, hf]))

theorem gives_thaw {c : Consist} (hc : consistOf (setThr s (nextPc th)) (tidPart th.tid) ((rg th a).setWidth 16) = some c)
    (hf : c.frozen = true) (hd : c.wdog = false) :
    Gives (.cfgfreezeThaw w a) s (checkActs (cfgReport (releaseHold
      (modConsist (setThr s (nextPc th)) (tidPart th.tid) ((rg th a).setWidth 16) fun c => { c with frozen := false }) (tidPart th.tid)
        ((rg th a).setWidth 16) 0 fun h => h.kind == 5)
      (tidPart th.tid) th.tid th.station { result := 5, cid := ((rg th a).setWidth 16 : Half).toNat, anchor := c.anchor, addr := c.image })
      (tidPart th.tid) ((rg th a).setWidth 16)) :=
  Eq.trans (b := execCfgfreezeThaw w a s) rfl (issue_ok h (by simp [supOnly, hs, hc, hf, hd]))

end CfgFreeze

/-! ### The readout of a freeze -/

/-- The way of a stop to the last tile of a consist, in hops from its anchor (R59). -/
def farthest (c : Consist) : Nat := c.tiles.foldl (fun n t => max n (hops c.anchor t.st)) 0

/-- The greatest of a start and of the values of a list bounds each of them, and is below what bounds them all. -/
theorem foldl_max_bounds {α : Type} (f : α → Nat) (l : List α) (m : Nat) :
    m ≤ l.foldl (fun n x => max n (f x)) m ∧ (∀ x ∈ l, f x ≤ l.foldl (fun n x => max n (f x)) m) ∧
      ∀ k, m < k → (∀ x ∈ l, f x < k) → l.foldl (fun n x => max n (f x)) m < k := by
  induction l generalizing m with
  | nil => simp
  | cons y l ih =>
    obtain ⟨hstart, hmem, hlt⟩ := ih (max m (f y))
    refine ⟨(le_max_left _ _).trans hstart, ?_, fun k hm hk => ?_⟩
    · rintro x hx
      rcases List.mem_cons.mp hx with rfl | hx
      · exact (le_max_right _ _).trans hstart
      · exact hmem x hx
    · have first := hk y List.mem_cons_self
      exact hlt k (max_lt hm first) fun x hx => hk x (List.mem_cons_of_mem _ hx)

/-- The cycles after which a consist that stops is read out: behind the last tile's stop, and by a free time of the rest (R59, R314). -/
def readoutDelay (s : State) (c : Consist) : Nat := farthest c + 1 + (draw s (2047 - farthest c)).1

theorem hops_lt_readoutDelay (s : State) {c : Consist} : ∀ x ∈ c.tiles, hops c.anchor x.st < readoutDelay s c := by
  intro x hx
  have far : hops c.anchor x.st ≤ farthest c := (foldl_max_bounds (fun t : CTile => hops c.anchor t.st) c.tiles 0).2.1 x hx
  rw [readoutDelay]
  omega

/-- A stop that reaches every tile in fewer than 2,048 cycles is read out within 2,048 (R314). -/
theorem readoutDelay_le (s : State) {c : Consist} (h : ∀ x ∈ c.tiles, hops c.anchor x.st < 2048) : readoutDelay s c ≤ 2048 := by
  have far : farthest c < 2048 := (foldl_max_bounds (fun t : CTile => hops c.anchor t.st) c.tiles 0).2.2 2048 (by omega) h
  have drawn : (draw s (2047 - farthest c)).1 < max (2047 - farthest c) 1 := Nat.mod_lt _ (by omega)
  rw [readoutDelay]
  omega

theorem planReadout_eq (s : State) (pn : Nat) (c : Consist) :
    planReadout s pn c = later { s with freeCtr := s.freeCtr + 1 } (readoutDelay s c) (.freezeComplete pn c.cid) := rfl

theorem freezeConsist_stops {pn : Nat} {cid : Half} {c : Consist} {r : Readout} (hc : consistOf s pn cid = some c)
    (hr : ∀ x ∈ c.freezing, x.ring = false) :
    freezeConsist s pn cid r = planReadout (abortFrozen (applyHold (modConsist s pn cid fun c =>
      { c with frozen := true, freezing := c.freezing ++ [r] }) pn cid c.anchor 16 5 0) pn cid) pn c := by
  have none : c.freezing.any (·.ring) = false := by simpa using hr
  simp only [freezeConsist, hc, none, Bool.false_eq_true, if_false]

theorem freezeConsist_joins {pn : Nat} {cid : Half} {c : Consist} {r : Readout} (hc : consistOf s pn cid = some c)
    (hr : ∃ x ∈ c.freezing, x.ring = true) :
    freezeConsist s pn cid r = modConsist s pn cid fun c =>
      { c with freezing := c.freezing.map fun x => if x.ring then { r with wdog := true } else x } := by
  have some : c.freezing.any (·.ring) = true := List.any_eq_true.mpr hr
  simp only [freezeConsist, hc, some, if_true]

theorem cid_of_consistOf {pn : Nat} {cid : Half} {c : Consist} (hc : consistOf s pn cid = some c) : c.cid = cid := by
  simpa using List.find?_some hc

/-! ### CFGREAD -/

theorem longResult_eq_longG (x : DWord) (m : Nat) :
    longResult s th { id := 0, pc := th.pc, dest := .g d, res := [(0, x)] } m = longG s th d x m := rfl

theorem answers_cfgread (h : Ready s w th) :
    let r := cfgWord s th (rg th a).toNat k.toNat
    Answers s th [4, (rg th a).toNat, k.toNat] (s, BitVec.ofNat 64 r.1) fun t v =>
      Gives (.cfgread w d a k) s (longG t th d v (if r.2 = th.station then 40 else distClass th.station r.2)) :=
  answers_combine s th _ (fun s => (s, BitVec.ofNat 64 (cfgWord s th (rg th a).toNat k.toNat).1)) _
    (Eq.trans (b := execCfgread w d a k s) rfl (issue_ok h rfl))

/-- Settles O48: prefetches write nothing on their way, dropped lines leave their L1s, and the readout of a freeze is due behind the
stop of its last tile. -/
theorem cachesAndConsists : Obligations.CachesAndConsists := by
  intro s w th d a b n k h pn g off o len cid next goes
  refine ⟨gives_pfiOp h rfl, gives_pfiOp h rfl, gives_pfd h, fun p hp => gives_clean_trap h hp, fun p hp => gives_inval_trap h hp, ?_⟩
  refine ⟨?_, ?_, gives_cfgload_unread h, gives_cfgload_unaligned h, gives_cfgload_beyond h, gives_cfgload h, gives_cfgfree h, ?_,
    answers_cfgread h⟩
  · rintro ⟨ht, hl, hn⟩
    exact gives_clean h (rangeTrap_none ht (fun h => nomatch h) hl hn)
  · rintro ⟨ht, hl, hn⟩ hr
    have accepted : rangeTrap th g o len true = none := rangeTrap_none ht (fun _ => hr) hl hn
    refine ⟨gives_inval_uncached h accepted, fun hc => ?_⟩
    obtain ⟨t, ht, cleared⟩ := gives_inval_cached h accepted hc
    refine ⟨t, ht, fun x hx l hl hp hs hlo hhi => ?_⟩
    have kept := cleared x hx l hl (touches_iff.mpr ⟨hp, hlo, hhi⟩)
    exact absurd (hs.symm.trans kept) Bool.false_ne_true
  · intro v hs
    refine ⟨gives_cfgfreeze_rights h hs, fun hw he =>
      ⟨gives_cfgfreeze_absent h hs hw he, fun c hc => ⟨fun hr => ?_, fun hr => ?_⟩⟩,
      gives_thaw_absent h hs, fun c hc => ⟨gives_thaw_refused h hs hc, gives_thaw h hs hc⟩⟩
    · have stops := gives_cfgfreeze (b := b) h hs hw he hc
      rw [freezeConsist_stops hc hr, planReadout_eq, cid_of_consistOf hc] at stops
      exact ⟨_, stops, hops_lt_readoutDelay _, readoutDelay_le _⟩
    · exact freezeConsist_joins hc hr ▸ gives_cfgfreeze h hs hw he hc

end Sys2Proof.CachesAndConsists

namespace Sys2Proof.RoszonEncoding

open Sys2Proof PorlekEncoding

/-! ### From a graph instruction to its 64 bits and back (R109, R113) -/

/-- The op field of an instruction leads the decoder to that instruction and no other (R113). -/
theorem decodeOp_of_roszonOp {i : Instr} {o : BitVec 8} (h : roszonOp i = some o) (mod : BitVec 8) (d0 d1 imm : BitVec 16) :
    decodeOp o mod d0 d1 imm = checkedOp ⟨i, mod, d0, d1, imm⟩ := by
  cases i <;> cases h <;> rfl

/-- The decoder reads each of the five fields where the layout has it (R109). -/
theorem decodeRoszon_append (o mod : BitVec 8) (d0 d1 imm : BitVec 16) :
    decodeRoszon (o ++ mod ++ d0 ++ d1 ++ imm) = decodeOp o mod d0 d1 imm := by
  simp (disch := decide) only [decodeRoszon, field_of_append, BitVec.extractLsb'_eq_self, Nat.reduceSub]

theorem checkedOp_of_wf {r : RoszonWord} (h : r.wf = true) : checkedOp r = .ok r := if_pos h

/-- Settles O2: the five fields are read where they were written, the op leads back to its instruction, and its fields are legal. -/
theorem roszonDecodesItsEncoding : Obligations.RoszonDecodesItsEncoding := by
  intro r x henc hwf
  obtain ⟨o, hop, rfl⟩ := Option.map_eq_some_iff.mp henc
  rw [decodeRoszon_append, decodeOp_of_roszonOp hop, checkedOp_of_wf hwf]

end Sys2Proof.RoszonEncoding

namespace Sys2Proof.GraphMarkers

open Sys2Proof Machine Laws

/-! ### Tokens that are not data (R108) -/

/-- The graph ops that compute their tokens from data operands, and so leave every other token to R108. -/
def computingOps : List Instr :=
  [.iadd, .isub, .imul, .imin, .imax, .graphAnd, .graphOr, .graphXor, .shl, .shr, .icmp, .graphFadd, .graphFmul, .graphFfma,
    .graphFmin, .graphFmax, .fcmp, .sfu, .scale, .steer, .settag, .gettag, .const, .filter, .emit]

theorem map_exec_computingOps (s : State) : computingOps.map (exec · s) =
    [execIadd s, execIsub s, execImul s, execImin s, execImax s, execGraphAnd s, execGraphOr s, execGraphXor s, execShl s, execShr s,
      execIcmp s, execGraphFadd s, execGraphFmul s, execGraphFfma s, execGraphFmin s, execGraphFmax s, execFcmp s, execSfu s,
      execScale s, execSteer s, execSettag s, execGettag s, execConst s, execFilter s, execEmit s] := rfl

/-- What an op comes to is an instance of the one operation that reads the kinds of its operands before it computes. -/
def IsFireOp (s : State) (o : Out) : Prop := ∃ k, o = fireOp s k

theorem isFireOp_fireOp (s : State) (k : Elem → Firing → Token → Token → Except Byte Sent) : IsFireOp s (fireOp s k) := ⟨k, rfl⟩

theorem isFireOp_intOp (s : State) (g : Nat → Bool → Bool → Nat → Nat → Nat → Nat) : IsFireOp s (intOp g s) := isFireOp_fireOp s _

theorem isFireOp_floatOp (s : State) (g : Fmt → Nat → Word → Nat → Nat → Nat → Nat) : IsFireOp s (floatOp g s) := isFireOp_fireOp s _

/-- The integer ops, the float ops, and the others of the list, in its order. -/
theorem isFireOp_of_mem_map_exec (s : State) : ∀ o ∈ computingOps.map (exec · s), IsFireOp s o := by
  rw [map_exec_computingOps]
  simp only [List.forall_mem_cons]
  iterate 11 refine ⟨isFireOp_intOp s _, ?_⟩
  iterate 6 refine ⟨isFireOp_floatOp s _, ?_⟩
  iterate 8 refine ⟨isFireOp_fireOp s _, ?_⟩
  exact List.forall_mem_nil _

theorem isFireOp_exec {i : Instr} (s : State) (hi : i ∈ computingOps) : IsFireOp s (exec i s) :=
  isFireOp_of_mem_map_exec s _ (List.mem_map_of_mem hi)

section
variable {s : State} {f : Firing} {pn : Nat} {c : Consist} {a b : Token} {i : Instr}

theorem firesTo_fault_of_mixed (h : FiresOn s f pn c) (ho : Operands f a b) (hi : i ∈ computingOps) (hk : a.kind ≠ b.kind) :
    FiresTo i s f pn c (fireFault (fired s f pn c) pn c f 0x1D 0) := by
  obtain ⟨_, hexec⟩ := isFireOp_exec s hi
  exact hexec.trans (fireOp_mixed h ho hk)

theorem firesTo_kindTok_of_mark (h : FiresOn s f pn c) (ho : Operands f a b) (hi : i ∈ computingOps) (hk : a.kind = b.kind)
    (h0 : a.kind ≠ 0) :
    FiresTo i s f pn c (sendAll (fired s f pn c) f (both (kindTok a.kind a) (latOf f.word)) false) := by
  obtain ⟨_, hexec⟩ := isFireOp_exec s hi
  exact hexec.trans (fireOp_mark h ho hk h0)

/-- PASS sends on whatever token comes, and only data counts as a firing (R105, R277). -/
theorem firesTo_pass (h : FiresOn s f pn c) (ha : f.a = some a) :
    FiresTo .pass s f pn c (sendAll (fired s f pn c) f (both a 1) (a.kind == 0)) := by
  refine Eq.trans (b := execPass s) rfl ((withFiring_ok h).trans ?_)
  rw [ha]
  rfl

end

/-- Settles O49: a computing op reads the kinds of its operands before anything else, and PASS reads none. -/
theorem graphMarkersGoOn : Obligations.GraphMarkersGoOn := by
  intro s f pn c a b h ho t each
  exact ⟨fun hk i hi => firesTo_fault_of_mixed h ho hi hk, fun hk h0 i hi => firesTo_kindTok_of_mark h ho hi hk h0,
    firesTo_pass h ho.1⟩

end Sys2Proof.GraphMarkers

namespace Sys2Proof.ScalarArithmetic

open Sys2Proof Machine Laws

variable {s : State} {w : Bool} {th : Thread} {d a b c : BitVec 5} {p : BitVec 2} {r : BitVec 3} {i : Instr}

/-! ### Division (R127) -/

/-- An instruction of the long form answers with its result on the way (R34, R200). -/
theorem gives_aluLong {f : DWord → DWord → DWord} {q : DWord} (h : Ready s w th) (hi : exec i s = aluLong w d a b f s)
    (hq : f (rg th a) (rg th b) = q) :
    Gives i s (longResult s th { id := 0, pc := 0, dest := .g d, res := [(0, q)] } 80) :=
  gives_ok h hi (hq ▸ rfl)

theorem quotU_eq (x y : DWord) : quotU x y = if y = 0 then BitVec.ofInt 64 (-1) else BitVec.ofNat 64 (x.toNat / y.toNat) := by
  rw [← BitVec.toNat_udiv, BitVec.ofNat_toNat, BitVec.setWidth_eq]
  rfl

theorem remU_eq (x y : DWord) : remU x y = if y = 0 then x else BitVec.ofNat 64 (x.toNat % y.toNat) := by
  rw [← BitVec.toNat_umod, BitVec.ofNat_toNat, BitVec.setWidth_eq]
  rfl

/-- Settles O16. -/
theorem divisionResults : Obligations.DivisionResults := by
  intro s w th d a b h
  exact ⟨gives_aluLong h rfl rfl, gives_aluLong h rfl (quotU_eq _ _), gives_aluLong h rfl rfl, gives_aluLong h rfl (remU_eq _ _)⟩

/-! ### Floating-point arithmetic (R158, R171, R177) -/

/-- A short operation rounds its exact result once, and raises the flags of both (R131, R134). -/
theorem gives_fpRound {op m : Nat} {v : Machine.Num × Flags} (h : Ready s w th) (hi : exec i s = fpRound w op d a b c p r s)
    (hm : modeOf th r = m)
    (hv : let f := fmtOfP p.toNat
      fpExact op m (f.num (fpIn f (rg th a))) (f.num (fpIn f (rg th b))) (f.num (fpIn f (rg th c))) = v) :
    let q := roundNum (fmtOfP p.toNat) m (genAt th 0) v.1
    Gives i s (setThr s (nextPc (raise (wg (stepGen m 0 th) d (BitVec.ofNat 64 q.1)) (v.2 ||| q.2)))) := by
  subst hm hv
  exact hi.trans (issueThr_ok h)

/-- A long operation takes the state of generator 0 at its issue, and its flags come with its result (R131, R200). -/
theorem gives_fpLong {op : Nat} {v : Machine.Num × Flags} (h : Ready s w th) (hi : exec i s = fpLong w op d a b p r s)
    (hv : let f := fmtOfP p.toNat
      fpExact op (modeOf th r) (f.num (fpIn f (rg th a))) (f.num (fpIn f (rg th b))) (f.num 0) = v) :
    let q := roundNum (fmtOfP p.toNat) (modeOf th r) (genAt th 0) v.1
    Gives i s (longResult s (stepGen (modeOf th r) 0 th)
      { id := 0, pc := 0, dest := .g d, res := [(0, BitVec.ofNat 64 q.1)], flags := v.2 ||| q.2 } (if p = 1 then 96 else 48)) := by
  subst hv
  exact gives_ok h hi rfl

theorem floatResultsRoundOnce : FloatResultsRoundOnce := by
  intro s w th d a b c p r h
  exact ⟨gives_fpRound h rfl rfl rfl, gives_fpRound h rfl rfl rfl, gives_fpRound h rfl rfl rfl, gives_fpRound h rfl rfl rfl,
    gives_fpRound h rfl rfl rfl, gives_fpRound h rfl rfl rfl, gives_fpRound h rfl rfl rfl⟩

theorem floatDivisionAndRoot : FloatDivisionAndRoot := by
  intro s w th d a b p r h
  exact ⟨gives_fpLong h rfl rfl, gives_fpLong h rfl rfl⟩

/-- Settles O17. -/
theorem floatArithmetic : Obligations.FloatArithmetic := ⟨floatResultsRoundOnce, floatDivisionAndRoot⟩

end Sys2Proof.ScalarArithmetic

namespace Sys2Proof.InstructionFrames

open Sys2Proof Machine Laws

/-- What j leaves alone: its thread is then one of the form f, with every general register but d as before. -/
def Framed (s : State) (th : Thread) (j : Instr) (d : BitVec 5) (f : Thread → Thread) : Prop :=
  ∃ t u, exec j s = .next t ∧ getThr t th.tid = some u ∧ u = f u ∧ (∀ q, q ≠ d → rg u q = rg th q) ∧ (d = 0 → u.g = th.g) ∧
    OthersSame s t th

variable {s : State} {w : Bool} {th u : Thread} {d : BitVec 5} {j : Instr} {f : Thread → Thread}

/-! ### The rest of the device -/

theorem othersSame_setThr (hu : u.tid = th.tid) : OthersSame s (settle s (setThr s u)) th :=
  ⟨fun _ hx => getThr_setThr_other s u fun same => hx (same.symm.trans hu), rfl, rfl, rfl, rfl, rdB_settle s (setThr s u)⟩

/-- An event planned for later changes no more of the rest than the thread's own change does. -/
theorem othersSame_within (n : Nat) (e : Event) (hu : u.tid = th.tid) : OthersSame s (settle s (within (setThr s u) n e)) th :=
  ⟨fun _ hx => getThr_setThr_other s u fun same => hx (same.symm.trans hu), rfl, rfl, rfl, rfl, rdB_settle s (setThr s u)⟩

theorem framed_of_gives (hj : Gives j s (setThr s u)) (tid : u.tid = th.tid) (form : u = f u) (regs : ∀ q, q ≠ d → rg u q = rg th q)
    (zero : d = 0 → u.g = th.g) : Framed s th j d f :=
  ⟨_, u, hj, tid ▸ getThr_setThr s u, form, regs, zero, othersSame_setThr tid⟩

/-! ### Instructions with a general register for their destination -/

theorem wg_g_zero (th : Thread) (x : DWord) (hd : d = 0) : (wg th d x).g = th.g := by rw [hd, wg_zero]

/-- A register and the pc are written. -/
theorem framed_wg_pc {x y : DWord} (hj : Gives j s (setThr s { wg th d x with pc := y })) :
    Framed s th j d fun u => { th with g := u.g, pc := u.pc } := by
  refine framed_of_gives hj (wg_tid th d x) ?_ (fun q hq => rg_wg_other th x hq.symm) (wg_g_zero th x)
  rw [wg_frame th d x]

/-- The integer instructions (R165 to R168, R199). -/
theorem framed_wg {x : Thread → DWord} (h : Ready s w th) (hj : exec j s = issueThr w s fun th => wg th d (x th)) :
    Framed s th j d fun u => { th with g := u.g, pc := u.pc } :=
  framed_wg_pc (x := x th) (hj.trans (issueThr_ok h))

theorem gives_jal {o : BitVec 20} (h : Ready s w th) :
    Gives (.jal w d o) s (setThr s { wg th d (th.pc + 4) with pc := th.pc + off20 o }) :=
  Eq.trans (b := execJal w d o s) rfl (issue_ok h rfl)

theorem stepGen_frame (mode k : Nat) (th : Thread) : stepGen mode k th = { th with gens := (stepGen mode k th).gens } := by
  unfold stepGen; split <;> rfl

/-- Scalar floating point (R169 to R177): v steps a generator or nothing. -/
theorem framed_raise {v : Thread → Thread} {x : Thread → DWord} {fl : Thread → Flags} (h : Ready s w th)
    (hj : exec j s = issueThr w s fun th => raise (wg (v th) d (x th)) (fl th)) (hv : v th = { th with gens := (v th).gens }) :
    Framed s th j d fun u => { th with g := u.g, pc := u.pc, fpcsr := u.fpcsr, gens := u.gens } := by
  have same : ∀ q, rg (v th) q = rg th q := by rw [hv]; exact fun _ => rfl
  refine framed_of_gives (hj.trans (issueThr_ok h)) ?_ ?_ (fun q hq => (rg_wg_other (v th) (x th) hq.symm).trans (same q)) fun hd => ?_
  · exact (wg_tid (v th) d (x th)).trans (by rw [hv])
  · rw [wg_frame (v th) d (x th), hv]
    rfl
  · exact (wg_g_zero (v th) (x th) hd).trans (by rw [hv])

/-! ### Instructions without one -/

/-- What leaves the general registers leaves them whatever d is. -/
theorem framed_of_g (hj : Gives j s (setThr s u)) (tid : u.tid = th.tid) (form : u = f u) (hg : u.g = th.g) : Framed s th j d f :=
  framed_of_gives hj tid form (fun q _ => by simp only [rg, hg]) fun _ => hg

theorem framed_pc {y : DWord} (hj : Gives j s (setThr s { th with pc := y })) : Framed s th j d fun u => { th with pc := u.pc } :=
  framed_of_g hj rfl rfl rfl

/-- The functions of MASK that write mask registers (R75, R199). -/
theorem framed_masks {m : Thread → Thread} (h : Ready s w th) (hj : exec j s = issueThr w s m)
    (hm : m th = { th with k1 := (m th).k1, k2 := (m th).k2, k3 := (m th).k3 }) :
    Framed s th j d fun u => { th with pc := u.pc, k1 := u.k1, k2 := u.k2, k3 := u.k3 } := by
  refine framed_of_g (hj.trans (issueThr_ok h)) ?_ ?_ ?_ <;> rw [hm] <;> rfl

/-- A long operation, until its result arrives (R34). -/
theorem framed_long {o : LongOp} {n : Nat} (hj : Gives j s (longResult s th o n)) :
    Framed s th j d fun u => { th with pc := u.pc, ops := u.ops, nextOp := u.nextOp } :=
  ⟨_, _, hj, getThr_setThr s (addOp (nextPc th) { o with pc := th.pc }).2, rfl, fun _ _ => rfl, fun _ => rfl, othersSame_within n _ rfl⟩

/-- Settles O60. -/
theorem instructionFrames : Obligations.InstructionFrames := by
  intro s w th d a b c i o h p y r x k l m ready frame
  simp only [List.forall_mem_cons]
  refine ⟨?_, ?_, ?_, ?_, ?_⟩
  · iterate 40 refine ⟨framed_wg ready rfl, ?_⟩
    refine ⟨framed_wg_pc (gives_jal ready), ?_⟩
    iterate 3 refine ⟨framed_wg ready rfl, ?_⟩
    exact List.forall_mem_nil _
  · obtain ⟨beq, bne, blt, bge, bltu, bgeu⟩ := MasksAndBranches.branches s w th a b i ready
    exact ⟨framed_pc beq, framed_pc bne, framed_pc blt, framed_pc bge, framed_pc bltu, framed_pc bgeu, List.forall_mem_nil _⟩
  · iterate 7 refine ⟨framed_raise ready rfl (stepGen_frame _ 0 th), ?_⟩
    iterate 6 refine ⟨framed_raise (v := id) ready rfl rfl, ?_⟩
    iterate 2 refine ⟨framed_raise ready rfl (stepGen_frame _ 0 th), ?_⟩
    exact ⟨framed_raise (v := id) ready rfl rfl, List.forall_mem_nil _⟩
  · iterate 6 refine ⟨framed_masks ready rfl (MasksAndBranches.wk_frame th _ _), ?_⟩
    exact ⟨framed_masks ready rfl rfl, List.forall_mem_nil _⟩
  · obtain ⟨div, divu, rem, remu⟩ := ScalarArithmetic.divisionResults s w th d a b ready
    exact ⟨framed_long div, framed_long divu, framed_long rem, framed_long remu, List.forall_mem_nil _⟩

end Sys2Proof.InstructionFrames

namespace Sys2Proof.GraphLanes

open Sys2Proof Machine Laws

/-! ### The fields of mod (R278) -/

theorem bits_low_two (n : Nat) : bits n 1 0 = n % 4 := by simp [bits]

theorem intW_low_two (n : Nat) : intW (bits n 1 0) = if n % 4 < 2 then 32 else 16 := by rw [bits_low_two]; rfl

theorem intU_low_two (n : Nat) : intU (bits n 1 0) = (n % 2 == 1) := by
  rw [bits_low_two, intU, Nat.mod_mod_of_dvd n (by decide)]

/-! ### The ops on two operands (R279, R282) -/

theorem exec_intOps (s : State) :
    exec .iadd s = execIadd s ∧ exec .isub s = execIsub s ∧ exec .imul s = execImul s ∧ exec .imin s = execImin s ∧
    exec .imax s = execImax s ∧ exec .graphAnd s = execGraphAnd s ∧ exec .graphOr s = execGraphOr s ∧
    exec .graphXor s = execGraphXor s ∧ exec .shl s = execShl s ∧ exec .shr s = execShr s ∧ exec .icmp s = execIcmp s :=
  ⟨rfl, rfl, rfl, rfl, rfl, rfl, rfl, rfl, rfl, rfl, rfl⟩

theorem exec_floatOps (s : State) :
    exec .graphFadd s = execGraphFadd s ∧ exec .graphFmul s = execGraphFmul s ∧ exec .graphFfma s = execGraphFfma s ∧
    exec .graphFmin s = execGraphFmin s ∧ exec .graphFmax s = execGraphFmax s ∧ exec .fcmp s = execFcmp s :=
  ⟨rfl, rfl, rfl, rfl, rfl, rfl⟩

/-- The firing of i sends on a token with port a's tags, whose elements of width w are those of h in the lanes of v (R274). -/
def Computes (s : State) (f : Firing) (pn : Nat) (c : Consist) (a : Token) (i : Instr) (w : Nat) (v : BitVec 8) (h : Nat → Nat → Nat) :
    Prop :=
  ∃ r : Token, FiresTo i s f pn c (sendAll (fired s f pn c) f (both r (latOf f.word)) true) ∧
    r = { a with pay := r.pay, valid := v, kind := 0 } ∧
    ∀ j k, j < 8 → k < 32 / w → elemOf w k (r.laneN j) = if v.getLsbD j then h j k % 2 ^ w else 0

section
variable {s : State} {f : Firing} {pn : Nat} {c : Consist} {a b : Token} {i : Instr}
  (hf : FiresOn s f pn c) (ho : Operands f a b) (ha : a.kind = 0) (hb : b.kind = 0)
include hf ho ha hb

/-! ### Element-wise results (R274) -/

theorem firesTo_fault {k : Elem → Firing → Token → Token → Except Byte Sent} {e : Byte} (hi : exec i s = fireOp s k)
    (hk : k (elemAt (fired s f pn c) f.st f.elem) f a b = .error e) : FiresTo i s f pn c (fireFault (fired s f pn c) pn c f e 0) :=
  hi.trans (fireOp_err hf ho ha hb hk)

theorem computes_elementwise {k : Elem → Firing → Token → Token → Except Byte Sent} {w : Nat} {y : Nat → Nat} {v : BitVec 8}
    {g : Nat → Nat → Nat → Nat → Nat} {h : Nat → Nat → Nat} (hi : exec i s = fireOp s k)
    (hk : k (elemAt (fired s f pn c) f.st f.elem) f a b = .ok (both (elementwise w a y v g) (latOf f.word)))
    (hg : ∀ j k, k < perLane w → g j k (elemOf w k (a.laneN j)) (elemOf w k (y j)) = h j k) : Computes s f pn c a i w v h :=
  ⟨_, hi.trans (fireOp_ok hf ho ha hb hk), rfl, fun j k hj hk => by rw [elem_elementwise w a y v g j k hj hk, hg j k hk]⟩

/-! ### Integer ops (R278, R279) -/

theorem firesTo_fault_intOp {g : Nat → Bool → Bool → Nat → Nat → Nat → Nat} (hi : exec i s = intOp g s)
    (imm : f.word.mod.getLsbD 3 = false) (differ : sameSc f a b = false) :
    FiresTo i s f pn c (fireFault (fired s f pn c) pn c f 0x0D 0) :=
  firesTo_fault hf ho ha hb hi (by simp only [imm, differ, Bool.false_eq_true, if_false])

/-- The second operand is the immediate in every place, or the element of port b in the same place. -/
theorem computes_intOp {g : Nat → Bool → Bool → Nat → Nat → Nat → Nat} {w : Nat} {u : Bool} {e : Nat} {h : Nat → Nat → Nat}
    (agree : f.word.mod.getLsbD 3 = true ∨ sameSc f a b = true) (hi : exec i s = intOp g s)
    (hw : intW (bits f.word.mod.toNat 1 0) = w) (hu : intU (bits f.word.mod.toNat 1 0) = u)
    (he : (f.word.imm.signExtend 32).toNat % 2 ^ w = e)
    (hg : ∀ j k, g w u (f.word.mod.getLsbD 2) (bits f.word.mod.toNat 6 4) (elemOf w k (a.laneN j))
      (if f.word.mod.getLsbD 3 then e else elemOf w k (b.laneN j)) = h j k) :
    Computes s f pn c a i w (if f.word.mod.getLsbD 3 then a.valid else a.valid &&& b.valid) h := by
  subst hw hu he
  by_cases imm : f.word.mod.getLsbD 3 = true
  · simp only [imm, if_true] at hg ⊢
    refine computes_elementwise hf ho ha hb hi (by simp only [imm, if_true]; rfl) fun j k hk => ?_
    rw [elemOf_everywhere _ _ _ hk, Nat.mod_mod]
    exact hg j k
  · have same := agree.resolve_left imm
    simp only [imm, Bool.false_eq_true, if_false] at hg ⊢
    exact computes_elementwise hf ho ha hb hi (by simp only [imm, same, Bool.false_eq_true, if_false, if_true]) fun j k _ => hg j k

/-! ### Float ops (R280 to R282) -/

theorem firesTo_fault_floatOp {g : Fmt → Nat → Word → Nat → Nat → Nat → Nat} (hi : exec i s = floatOp g s)
    (port : f.word.mod.toNat / 64 ≠ 1) (differ : sameSc f a b = false) :
    FiresTo i s f pn c (fireFault (fired s f pn c) pn c f 0x0D 0) :=
  firesTo_fault hf ho ha hb hi (if_neg (by simp [port, differ]))

/-- The second operand is what BSEL takes, and each element has a random state and an addend of its own (R137). -/
theorem computes_floatOp {g : Fmt → Nat → Word → Nat → Nat → Nat → Nat} {q : Fmt} {h : Nat → Nat → Nat}
    (agree : f.word.mod.toNat / 64 = 1 ∨ sameSc f a b = true) (hi : exec i s = floatOp g s)
    (hq : floatFmt (bits f.word.mod.toNat 1 0) = q)
    (hg : let x := elemAt (fired s f pn c) f.st f.elem
      ∀ j k, g q (bits f.word.mod.toNat 4 2) (laneState a.iter a.seq j k) (elemOf q.width k (a.laneN j))
        (elemOf q.width k ((floatB x q.width f.word.mod f.word.imm a b).1 j))
        (elemOf q.width k (((vget x.consts (bits f.word.imm.toNat 1 0)).extractLsb' (32 * j) 32).toNat)) = h j k) :
    Computes s f pn c a i q.width (floatB (elemAt (fired s f pn c) f.st f.elem) q.width f.word.mod f.word.imm a b).2 h := by
  subst hq
  exact computes_elementwise hf ho ha hb hi (if_pos agree) fun j k _ => hg j k

/-! ### Special functions (R283) -/

theorem computes_sfu (hs : a.sc = false) :
    Computes s f pn c a .sfu 32 a.valid fun j _ => (sfuOp (bits f.word.mod.toNat 2 0) (a.lane j)).1 := by
  refine ⟨_, (Eq.trans (b := execSfu s) rfl (fireOp_ok hf ho ha hb (by simp only [hs, Bool.false_eq_true, if_false]; rfl))), rfl,
    fun j k hj hk => ?_⟩
  obtain rfl : k = 0 := Nat.lt_one_iff.mp hk
  rw [laneN_resultTok _ _ _ _ hj]
  simp only [elemOf, Nat.mul_zero, pow_zero, Nat.div_one]
  split
  · exact Nat.mod_mod _ _
  · rfl

end

/-- Settles O50: the integer ops are one operation on elements, and so are the float ops; each function is its own. -/
theorem graphLaneResults : Obligations.GraphLaneResults := by
  intro s f pn c a b hf ho ha hb t m n out bad
  refine ⟨?_, ?_, fun hs => ?_, computes_sfu hf ho ha hb⟩
  · intro w u imm e v x y X Y fit each
    obtain ⟨iadd, isub, imul, imin, imax, graphAnd, graphOr, graphXor, shl, shr, icmp⟩ := exec_intOps s
    refine ⟨fun himm differ => ?_, fun agree => ?_⟩
    · have fault {i : Instr} {g : Nat → Bool → Bool → Nat → Nat → Nat → Nat} (hi : exec i s = intOp g s) : bad i :=
        firesTo_fault_intOp hf ho ha hb hi himm differ
      simp only [each, List.forall_mem_cons]
      exact ⟨fault iadd, fault isub, fault imul, fault imin, fault imax, fault graphAnd, fault graphOr, fault graphXor, fault shl,
        fault shr, fault icmp, List.forall_mem_nil _⟩
    · have result {i : Instr} {g : Nat → Bool → Bool → Nat → Nat → Nat → Nat} {h : Nat → Nat → Nat} (hi : exec i s = intOp g s)
          (hg : ∀ j k, g w u (m.getLsbD 2) (bits n 6 4) (x j k) (y j k) = h j k) : out i w v h :=
        computes_intOp hf ho ha hb agree hi (intW_low_two n) (intU_low_two n) rfl hg
      exact ⟨result iadd fun _ _ => rfl, result isub fun _ _ => rfl, result imul fun _ _ => rfl, result imin fun _ _ => rfl,
        result imax fun _ _ => rfl, result graphAnd fun _ _ => rfl, result graphOr fun _ _ => rfl, result graphXor fun _ _ => rfl,
        result shl fun _ _ => rfl, result shr fun _ _ => rfl, result icmp fun _ _ => rfl⟩
  · intro q w rm x y g each
    obtain ⟨graphFadd, graphFmul, graphFfma, graphFmin, graphFmax, fcmp⟩ := exec_floatOps s
    refine ⟨fun port differ => ?_, fun agree => ?_⟩
    · have fault {i : Instr} {o : Fmt → Nat → Word → Nat → Nat → Nat → Nat} (hi : exec i s = floatOp o s) : bad i :=
        firesTo_fault_floatOp hf ho ha hb hi port differ
      simp only [each, List.forall_mem_cons]
      exact ⟨fault graphFadd, fault graphFmul, fault graphFfma, fault graphFmin, fault graphFmax, fault fcmp, List.forall_mem_nil _⟩
    · have format : floatFmt (bits n 1 0) = q := congrArg floatFmt (bits_low_two n)
      have result {i : Instr} {o : Fmt → Nat → Word → Nat → Nat → Nat → Nat} (hi : exec i s = floatOp o s) :
          out i w y.2 (g (o q rm)) :=
        computes_floatOp hf ho ha hb agree hi format fun _ _ => rfl
      exact ⟨result graphFadd, result graphFmul, result graphFfma, result graphFmin, result graphFmax, result fcmp⟩
  · exact firesTo_fault hf ho ha hb (Eq.trans (b := execSfu s) rfl rfl) (if_pos hs)

end Sys2Proof.GraphLanes

namespace Sys2Proof.ArrayRegisters

open Sys2Proof Machine Laws

/-! ### Fields of numbers -/

theorem bit_iff (x i : Nat) : bit x i = true ↔ x / 2 ^ i % 2 = 1 := by simp [bit]

theorem b2n_bit (x i : Nat) : b2n (bit x i) = x / 2 ^ i % 2 := by
  unfold b2n bit
  rcases Nat.mod_two_eq_zero_or_one (x / 2 ^ i) with h | h <;> simp [h]

theorem bit_toNat (x : Word) (i : Nat) : bit x.toNat i = x.getLsbD i := by
  rw [BitVec.getLsbD, Nat.testBit_eq_decide_div_mod_eq, bit, beq_eq_decide]

/-! ### The checks of a format descriptor (R139) -/

theorem fdIllegal_iff (d : Word) : fdIllegal d.toNat = true ↔ ¬ FormatLegal d := by
  simp only [fdIllegal, Bool.or_eq_true, Bool.and_eq_true, Bool.not_eq_true', ← Bool.not_eq_true, bne_iff_ne, beq_iff_eq,
    decide_eq_true_eq, b2n_bit, bit_iff]
  simp only [FormatLegal, bits, Nat.pow_zero, Nat.div_one, Nat.reduceAdd, Nat.reduceSub, Nat.reducePow]
  omega

/-! ### The checks of a template (R212, R213) -/

section

variable {f : Fields} {fd : Nat → Word} {window : Nat}

theorem fdNarrowFloat_iff (d : Word) : fdNarrowFloat d.toNat = true ↔ d.toNat / 2 ^ 20 % 16 = 0 ∧ d.getLsbD 19 = false := by
  rw [fdNarrowFloat, Bool.and_eq_true, beq_iff_eq, Bool.not_eq_true', bit_toNat]
  rfl

theorem formatIllegal_of_admitted (h : FormatsAdmitted f fd) : formatIllegal f fd = false := by
  obtain ⟨ha, hb, -, has, hbs, -⟩ := h
  simp only [formatIllegal, Bool.or_eq_false_iff, Bool.and_eq_false_imp, decide_eq_false_iff_not, Nat.not_le, beq_iff_eq,
    Bool.not_eq_false', fdNarrowFloat_iff]
  exact ⟨⟨⟨ha, hb⟩, has⟩, hbs⟩

theorem pairOk_of_admitted (h : FormatsAdmitted f fd) : pairOk (fd f.fda) (fd f.fdb) = true := by
  obtain ⟨ha, hb, hpair, -⟩ := h
  simp only [pairOk, Bool.or_eq_true, Bool.and_eq_true, beq_iff_eq, decide_eq_true_eq]
  simp only [bits, Nat.reduceAdd, Nat.reduceSub, Nat.reducePow] at *
  omega

theorem fdoIllegal_of_admitted (h : FormatsAdmitted f fd) : fdoIllegal f (fd f.fdo) = false := by
  obtain ⟨-, -, -, -, -, hout⟩ := h
  simp only [fdoIllegal, Bool.and_eq_false_imp, Bool.or_eq_true, Bool.or_eq_false_iff, beq_iff_eq, Bool.not_eq_false', fdNarrowFloat_iff]
  exact hout

/-- Word 3 is zero where the step writes nothing back, else its own fields are legal. -/
theorem outWord_of_admitted (h : TemplateAdmitted f fd window) :
    (if (f.lastBit || f.tagsrc) = true then f.b 255 211 != 0 || f.wsat == 3 || decide (6 ≤ f.wrm) || f.nmm == 0 && f.nmn != 0 ||
      f.nmm != 0 && (f.nmn == 0 || decide (f.nmm ≤ f.nmn)) else f.b 255 192 != 0) = false := by
  obtain ⟨kept, back⟩ := h.word3
  cases hb : (f.lastBit || f.tagsrc)
  · obtain ⟨last, src⟩ := Bool.or_eq_false_iff.mp hb
    exact bne_eq_false_iff_eq.mpr (kept last src)
  · obtain ⟨high, wsat, wrm, nmn, nmm, -⟩ := back (Bool.or_eq_true_iff.mp hb)
    simp only [if_true, Bool.or_eq_false_iff, Bool.and_eq_false_imp, bne_iff_ne, beq_iff_eq, bne_eq_false_iff_eq,
      beq_eq_false_iff_ne, decide_eq_false_iff_not]
    exact ⟨⟨⟨⟨high, by omega⟩, by omega⟩, nmn⟩, fun h => ⟨by have := nmm h; omega, by have := nmm h; omega⟩⟩

theorem templateIllegal_of_admitted (h : TemplateAdmitted f fd window) : templateIllegal f fd window = false := by
  have out := fdoIllegal_of_admitted h.formats
  have outWord := outWord_of_admitted h
  obtain ⟨⟨z0, z1, z2, z3, z4, z5, z6⟩, ⟨bsf, asf, pat, tags, bspos⟩, ⟨pat0, pat12, pat3⟩, ⟨-, back⟩, ⟨accs, bytes, ascales⟩,
    ⟨half, inside, bscales⟩, path, scales, transposed, -⟩ := h
  simp only [templateIllegal, outWord, out]
  simp only [Bool.or_false, Bool.or_eq_false_iff, Bool.and_eq_false_imp, Bool.or_eq_true, Bool.and_eq_true, Bool.not_eq_true',
    bne_iff_ne, beq_iff_eq, bne_eq_false_iff_eq, beq_eq_false_iff_ne, decide_eq_false_iff_not, Nat.not_le, Nat.not_lt, and_assoc]
  refine ⟨z0, z1, z2, z3, z4, z5, z6, by omega, by omega, pat, tags, bspos, pat0, pat12, fun h => ?_, accs, fun h => ?_, bytes, ascales,
    fun h => ?_, inside, bscales, path, fun h => ?_, transposed, fun h => ?_⟩
  · obtain ⟨high, low, pos, fewer, whole, fits⟩ := pat3 h
    exact ⟨high, low, by omega, by omega, fewer, whole, fits⟩
  · obtain ⟨-, -, -, -, -, apart, -⟩ := back h
    exact apart
  · have := half h
    omega
  · obtain ⟨float, ahalf, bhalf, both⟩ := scales h
    exact ⟨float, ahalf, bhalf, fun _ => decide_eq_decide.mpr both⟩
  · obtain ⟨-, -, -, -, -, -, size⟩ := back h
    exact size

/-- What R212 accepts meets none of its checks. -/
theorem templateFault_of_admitted (h : TemplateAdmitted f fd window) : templateFault f fd window = none := by
  rw [templateFault, templateIllegal_of_admitted h, formatIllegal_of_admitted h.formats, pairOk_of_admitted h.formats]
  rfl

theorem templateSpoilt_of_admitted {x : Template} (h : x.valid = true → FormatsAdmitted (templateFields x.bits) fd) :
    templateSpoilt x fd = false := by
  cases hv : x.valid
  · simp only [templateSpoilt, hv, Bool.false_and]
  · have admitted := h hv
    simp only [templateSpoilt, formatIllegal_of_admitted admitted, pairOk_of_admitted admitted, fdoIllegal_of_admitted admitted,
      Bool.not_true, Bool.or_false, Bool.and_false]

end

variable {s : State} {w : Bool} {th : Thread} {d a b c : BitVec 5} {n : BitVec 4} {m : BitVec 3} {k : BitVec 2} {o : Bool}

/-! ### MXCFG (R212, R232) -/

/-- The four words of a template in registers from g[a] on. -/
def wordsAt (th : Thread) (a : BitVec 5) : BitVec 256 :=
  rgN th (a.toNat + 3) ++ rgN th (a.toNat + 2) ++ rgN th (a.toNat + 1) ++ rg th a

/-- Template q of the thread's station becomes x. -/
def putTemplate (s : State) (th : Thread) (q : Nat) (x : Template) : State :=
  setThr (modStn s th.station fun y => { y with tms := vset y.tms q x }) (nextPc th)

/-- What MXCFG comes to with template number q and the template's words. -/
def mxcfgRes (s : State) (th : Thread) (q : Nat) (x : BitVec 256) : Res :=
  if 15 < q then .error (trapOp th 0x14)
  else if x.getLsbD 0 then
    match templateFault (templateFields x) (fdOf s th.station) (bWindow s th) with
    | some e => .error (trapOp th e)
    | none => .ok (putTemplate s th q { valid := true, bits := x, owner := th.tid, part := tidPart th.tid,
                                        reporting := (vget (stn s th.station).tms q).reporting })
  else .ok (putTemplate s th q { vget (stn s th.station).tms q with valid := false, scan := none })

theorem exec_mxcfg : exec (.mxcfg w a b) s = issue w s fun s th => mxcfgRes s th (rg th b).toNat (wordsAt th a) := by
  refine Eq.trans (b := execMxcfg w a b s) rfl (congrArg (issue w s) ?_)
  funext s th
  unfold mxcfgRes
  cases hv : (wordsAt th a).getLsbD 0 <;> simp only [wordsAt] at hv ⊢ <;> simp only [hv] <;> rfl

section

variable {q : Nat} {x : BitVec 256}

theorem mxcfgRes_index (hq : 15 < q) : mxcfgRes s th q x = .error (trapOp th 0x14) := if_pos hq

theorem mxcfgRes_invalid (hq : q ≤ 15) (hv : x.getLsbD 0 = false) :
    mxcfgRes s th q x = .ok (putTemplate s th q { vget (stn s th.station).tms q with valid := false, scan := none }) := by
  rw [mxcfgRes, if_neg (Nat.not_lt.mpr hq), hv]
  rfl

theorem mxcfgRes_fault {e : Byte} (hq : q ≤ 15) (hv : x.getLsbD 0 = true)
    (hf : templateFault (templateFields x) (fdOf s th.station) (bWindow s th) = some e) :
    mxcfgRes s th q x = .error (trapOp th e) := by
  rw [mxcfgRes, if_neg (Nat.not_lt.mpr hq), hv, hf]
  rfl

theorem mxcfgRes_admitted (hq : q ≤ 15) (hv : x.getLsbD 0 = true)
    (ha : TemplateAdmitted (templateFields x) (fdOf s th.station) (bWindow s th)) :
    mxcfgRes s th q x = .ok (putTemplate s th q { valid := true, bits := x, owner := th.tid, part := tidPart th.tid,
                                                  reporting := (vget (stn s th.station).tms q).reporting }) := by
  rw [mxcfgRes, if_neg (Nat.not_lt.mpr hq), hv, templateFault_of_admitted ha]
  rfl

end

/-! ### MXCFG.FD (R139, R213, R233) -/

/-- The station's format registers with v in register m. -/
def fdWith (s : State) (th : Thread) (m : BitVec 3) (v : Word) (i : Nat) : Word := if i = m.toNat then v else fdOf s th.station i

/-- What MXCFG.FD comes to with the descriptor v. -/
def mxcfgFdRes (s : State) (th : Thread) (m : BitVec 3) (v : Word) : Res :=
  if fdIllegal v.toNat then .error (trapOp th 0x24)
  else if (stn s th.station).tms.any fun x => templateSpoilt x (fdWith s th m v) then .error (trapOp th 0x0C)
  else .ok (setThr (modStn s th.station fun x => { x with fd := vset x.fd m.toNat v }) (nextPc th))

theorem exec_mxcfgFd : exec (.mxcfgFd w b m) s = issue w s fun s th => mxcfgFdRes s th m ((rg th b).setWidth 32 &&& 0x00FFFFFF) :=
  Eq.trans (b := execMxcfgFd w b m s) rfl rfl

section

variable {v : Word}

theorem mxcfgFdRes_illegal (hl : ¬ FormatLegal v) : mxcfgFdRes s th m v = .error (trapOp th 0x24) :=
  if_pos ((fdIllegal_iff v).mpr hl)

theorem mxcfgFdRes_of_legal (hl : FormatLegal v) : mxcfgFdRes s th m v =
    if (stn s th.station).tms.any fun x => templateSpoilt x (fdWith s th m v) then .error (trapOp th 0x0C)
    else .ok (setThr (modStn s th.station fun x => { x with fd := vset x.fd m.toNat v }) (nextPc th)) :=
  if_neg fun illegal => (fdIllegal_iff v).mp illegal hl

theorem mxcfgFdRes_spoils (hl : FormatLegal v)
    (hs : ((stn s th.station).tms.any fun x => templateSpoilt x (fdWith s th m v)) = true) :
    mxcfgFdRes s th m v = .error (trapOp th 0x0C) := (mxcfgFdRes_of_legal hl).trans (if_pos hs)

theorem mxcfgFdRes_admitted (hl : FormatLegal v) (ha : ∀ x ∈ (stn s th.station).tms.toList, x.valid = true →
      FormatsAdmitted (templateFields x.bits) (fdWith s th m v)) :
    mxcfgFdRes s th m v = .ok (setThr (modStn s th.station fun x => { x with fd := vset x.fd m.toNat v }) (nextPc th)) := by
  refine (mxcfgFdRes_of_legal hl).trans (if_neg ?_)
  rw [← Vector.any_toList, List.any_eq_true]
  rintro ⟨x, hx, spoilt⟩
  exact Bool.false_ne_true ((templateSpoilt_of_admitted (ha x hx)).symm.trans spoilt)

end

/-! ### MXSCL (R234) -/

theorem traps_mxscl (h : Ready s w th) (hz : 15 < (rg th a).toNat ∨ (vget (stn s th.station).tms (rg th a).toNat).valid = false) :
    Gives (.mxscl w a b c) s (trapState s th 0x14 0 2) :=
  Eq.trans (b := execMxscl w a b c s) rfl (issue_err (t := trapOp th 0x14) h (if_pos (hz.imp_right (congrArg not))))

theorem gives_mxscl (h : Ready s w th) (hz : (rg th a).toNat ≤ 15) (hv : (vget (stn s th.station).tms (rg th a).toNat).valid = true) :
    Gives (.mxscl w a b c) s (putTemplate s th (rg th a).toNat
      { vget (stn s th.station).tms (rg th a).toNat with sA := (rg th b).setWidth 32, sB := (rg th c).setWidth 32 }) :=
  Eq.trans (b := execMxscl w a b c s) rfl (issue_ok h (if_neg (not_or.mpr ⟨Nat.not_lt.mpr hz, by rw [hv]; decide⟩)))

/-! ### TFULL and TEMPTY (R214, R235) -/

/-- A thread may close a fill of its own, no engine's (R214). -/
theorem threadFills_iff (t : Tile) : threadFills t = true ↔ t.tag = .filling ∧ t.eng = false := by
  rw [threadFills, Bool.and_eq_true, beq_iff_eq, Bool.not_eq_true']

theorem threadFills_of_tag_ne {t : Tile} (h : t.tag ≠ .filling) : threadFills t = false := by
  rw [threadFills, beq_eq_false_iff_ne.mpr h, Bool.false_and]

theorem threadFills_of_eng {t : Tile} (h : t.eng = true) : threadFills t = false := by
  rw [threadFills, h, Bool.not_true, Bool.and_false]

section

variable (h : Ready s w th)
include h

theorem gives_tfull (ht : let t := tileAt s th.station n.toNat; t.tag = .empty ∨ (t.tag = .filling ∧ t.eng = false)) :
    Gives (.tfull w d a n) s (setThr (fillSlot (modTile s th.station n.toNat fun t => { t with eng := false }) th.station n.toNat
      ((rg th a).extractLsb' 0 16) ((rg th a).extractLsb' 16 16) ((rg th a).getLsbD 32) ((rg th a).getLsbD 33))
      (nextPc (wg th d (if (tileAt s th.station n.toNat).tag = .empty then 0 else 1)))) := by
  have ok : ((tileAt s th.station n.toNat).tag == .empty || threadFills (tileAt s th.station n.toNat)) = true := by
    rw [Bool.or_eq_true, beq_iff_eq, threadFills_iff]
    exact ht
  have status : tagStatus (tileAt s th.station n.toNat) true = if (tileAt s th.station n.toNat).tag = .empty then 0 else 1 := by
    rcases ht with tag | ⟨tag, -⟩ <;> rw [tagStatus, tag] <;> rfl
  exact Eq.trans (b := execTfull w d a n s) rfl (issue_ok h (by simp only [ok, if_true, status]))

theorem gives_tfull_refused
    (ht : let t := tileAt s th.station n.toNat; t.tag = .full ∨ t.tag = .draining ∨ (t.tag = .filling ∧ t.eng = true)) :
    let t := tileAt s th.station n.toNat
    Gives (.tfull w d a n) s (setG s th d (if t.tag = .full then 6 else if t.tag = .draining then 7 else 5)) := by
  have ok : ((tileAt s th.station n.toNat).tag == .empty || threadFills (tileAt s th.station n.toNat)) = false := by
    rcases ht with tag | tag | ⟨tag, eng⟩
    · rw [threadFills_of_tag_ne (by rw [tag]; decide), tag]; rfl
    · rw [threadFills_of_tag_ne (by rw [tag]; decide), tag]; rfl
    · rw [threadFills_of_eng eng, tag]; rfl
  have status : tagStatus (tileAt s th.station n.toNat) false = if (tileAt s th.station n.toNat).tag = .full then 6
      else if (tileAt s th.station n.toNat).tag = .draining then 7 else 5 := by
    rcases ht with tag | tag | ⟨tag, -⟩ <;> rw [tagStatus, tag] <;> rfl
  exact Eq.trans (b := execTfull w d a n s) rfl
    (issue_ok h (by simp only [ok, Bool.false_eq_true, if_false, status]; rfl))

theorem gives_tempty_full (ht : (tileAt s th.station n.toNat).tag = .full) :
    Gives (.tempty w d n) s (setThr (settleSlot (modTile s th.station n.toNat fun t => { t with tag := .draining }) th.station n.toNat)
      (nextPc (wg th d 2))) := by
  have status : tagStatus (tileAt s th.station n.toNat) true = 2 := by rw [tagStatus, ht]; rfl
  exact Eq.trans (b := execTempty w d n s) rfl
    (issue_ok h (by simp only [ht, if_true, beq_self_eq_true, Bool.true_or, status]))

theorem gives_tempty_filling (ht : (tileAt s th.station n.toNat).tag = .filling) (he : (tileAt s th.station n.toNat).eng = false) :
    Gives (.tempty w d n) s (setThr (tileChanged (modTile s th.station n.toNat fun t => { t with tag := .empty }) th.station n.toNat)
      (nextPc (wg th d 1))) := by
  have own : threadFills (tileAt s th.station n.toNat) = true := (threadFills_iff _).mpr ⟨ht, he⟩
  have status : tagStatus (tileAt s th.station n.toNat) true = 1 := by rw [tagStatus, ht]; rfl
  exact Eq.trans (b := execTempty w d n s) rfl
    (issue_ok h (by simp only [ht, reduceCtorEq, if_false, own, if_true, Bool.or_true, status]))

theorem gives_tempty_refused
    (ht : let t := tileAt s th.station n.toNat; t.tag = .empty ∨ t.tag = .draining ∨ (t.tag = .filling ∧ t.eng = true)) :
    let t := tileAt s th.station n.toNat
    Gives (.tempty w d n) s (setG s th d (if t.tag = .empty then 4 else if t.tag = .draining then 7 else 5)) := by
  have full : (tileAt s th.station n.toNat).tag ≠ .full := by
    rcases ht with tag | tag | ⟨tag, -⟩ <;> rw [tag] <;> decide
  have own : threadFills (tileAt s th.station n.toNat) = false := by
    rcases ht with tag | tag | ⟨-, eng⟩
    · exact threadFills_of_tag_ne (by rw [tag]; decide)
    · exact threadFills_of_tag_ne (by rw [tag]; decide)
    · exact threadFills_of_eng eng
  have status : tagStatus (tileAt s th.station n.toNat) false = if (tileAt s th.station n.toNat).tag = .empty then 4
      else if (tileAt s th.station n.toNat).tag = .draining then 7 else 5 := by
    rcases ht with tag | tag | ⟨tag, -⟩ <;> rw [tagStatus, tag] <;> rfl
  exact Eq.trans (b := execTempty w d n s) rfl (issue_ok h (by
    simp only [full, if_false, own, Bool.false_eq_true, beq_eq_false_iff_ne.mpr full, Bool.or_false, status]; rfl))

end

/-! ### TSTAT (R236) -/

/-- The station of a selector. -/
def selected (th : Thread) (x : DWord) : Nat := if x.getLsbD 24 then x.toNat / 2 ^ 16 % 256 else th.station

/-- How many items of a kind a station has (R236). -/
def countOf (k : BitVec 2) : Nat := if k = 0 then 16 else if k = 1 then 8 else if k = 2 then 16 else 4

theorem countOf_eq (k : BitVec 2) : (match k.toNat with | 0 => 16 | 1 => 8 | 2 => 16 | _ => 4) = countOf k := by
  decide +revert

theorem selector_eq (s : State) (th : Thread) (x : DWord) (count : Nat) : selector s th x count =
    if (part s (tidPart th.tid)).hasStation (selected th x) = false then .error 0x04
    else if count ≤ x.toNat % 2 ^ 16 then .error 0x14 else .ok (selected th x, x.toNat % 2 ^ 16) := by
  simp only [selector, bits, Nat.pow_zero, Nat.div_one, Bool.not_eq_true']
  rfl

theorem tstat_eq (s : State) (st y : Nat) (k : BitVec 2) (o : Bool) : tstat s st y k.toNat o =
    (if o && k == 3 then modStn s st fun q => { q with ovf := q.ovf &&& ~~~(((BitVec.ofNat 64 (tstatWord s st 3 y)).setWidth 256
      : BitVec 256) <<< (64 * y)) } else s, BitVec.ofNat 64 (tstatWord s st k.toNat y)) := by
  by_cases hk : k = 3
  · rw [hk]
    rfl
  · have code : (k.toNat == 3) = false := beq_eq_false_iff_ne.mpr fun e => hk (BitVec.eq_of_toNat_eq e)
    simp only [tstat, code, beq_eq_false_iff_ne.mpr hk, Bool.and_false, Bool.false_eq_true, if_false]

/-- What TSTAT comes to with the selector x. -/
def tstatRes (s : State) (th : Thread) (d : BitVec 5) (o : Bool) (k : BitVec 2) (x : DWord) : Res :=
  match selector s th x (countOf k) with
  | .error e => .error (trapOp th e)
  | .ok (st, y) =>
    let r := combine s th [2, st, y, k.toNat, b2n o] fun s => tstat s st y k.toNat o
    .ok (longG r.1 th d r.2 (statClass th.station st))

theorem exec_tstat : exec (.tstat w d a o k) s = issue w s fun s th => tstatRes s th d o k (rg th a) := by
  refine Eq.trans (b := execTstat w d a o k s) rfl (congrArg (issue w s) ?_)
  funext s th
  rw [tstatRes, ← countOf_eq]
  rfl

section

variable {x : DWord}

theorem tstatRes_foreign (hi : (part s (tidPart th.tid)).hasStation (selected th x) = false) :
    tstatRes s th d o k x = .error (trapOp th 0x04) := by
  rw [tstatRes, selector_eq, if_pos hi]

theorem tstatRes_beyond (hi : (part s (tidPart th.tid)).hasStation (selected th x) = true) (hc : countOf k ≤ x.toNat % 2 ^ 16) :
    tstatRes s th d o k x = .error (trapOp th 0x14) := by
  rw [tstatRes, selector_eq, if_neg (by simp only [hi, Bool.true_eq_false, not_false_eq_true]), if_pos hc]

theorem tstatRes_ok (hi : (part s (tidPart th.tid)).hasStation (selected th x) = true) (hc : x.toNat % 2 ^ 16 < countOf k) :
    let r := combine s th [2, selected th x, x.toNat % 2 ^ 16, k.toNat, b2n o] fun s =>
      tstat s (selected th x) (x.toNat % 2 ^ 16) k.toNat o
    tstatRes s th d o k x = .ok (longG r.1 th d r.2 (statClass th.station (selected th x))) := by
  rw [tstatRes, selector_eq, if_neg (by simp only [hi, Bool.true_eq_false, not_false_eq_true]), if_neg (Nat.not_le.mpr hc)]

end

theorem answers_tstat (h : Ready s w th) (hi : (part s (tidPart th.tid)).hasStation (selected th (rg th a)) = true)
    (hc : (rg th a).toNat % 2 ^ 16 < countOf k) :
    let x := selected th (rg th a)
    let y := (rg th a).toNat % 2 ^ 16
    Answers s th [2, x, y, k.toNat, b2n o] (tstat s x y k.toNat o) fun t v =>
      Gives (.tstat w d a o k) s (longG t th d v (statClass th.station x)) :=
  answers_combine s th _ (fun s => tstat s _ _ k.toNat o) _ (exec_tstat.trans (issue_ok h (tstatRes_ok hi hc)))

/-- Settles O41: what R212 and R213 accept meets none of their checks, and each register is then written. -/
theorem arrayRegisters : Obligations.ArrayRegisters := by
  intro s w th d a b c n m k o h st traps p bits4 put f v spoils z tm t
  have mxcfg := exec_mxcfg (s := s) (w := w) (a := a) (b := b)
  have mxcfgFd := exec_mxcfgFd (s := s) (w := w) (b := b) (m := m)
  refine ⟨fun hp => mxcfg.trans (issue_err h (mxcfgRes_index hp)), fun hp hv => mxcfg.trans (issue_ok h (mxcfgRes_invalid hp hv)),
    fun hp hv => ⟨fun e hf => mxcfg.trans (issue_err h (mxcfgRes_fault hp hv hf)),
      fun ha => mxcfg.trans (issue_ok h (mxcfgRes_admitted hp hv ha))⟩,
    fun hl => mxcfgFd.trans (issue_err h (mxcfgFdRes_illegal hl)),
    fun hl => ⟨fun hs => mxcfgFd.trans (issue_err h (mxcfgFdRes_spoils hl hs)),
      fun ha => mxcfgFd.trans (issue_ok h (mxcfgFdRes_admitted hl ha))⟩,
    traps_mxscl h, gives_mxscl h, gives_tfull h, gives_tfull_refused h, gives_tempty_full h, gives_tempty_filling h,
    gives_tempty_refused h, ?_⟩
  intro x y count inside
  refine ⟨fun hi => exec_tstat.trans (issue_err h (tstatRes_foreign hi)),
    fun hi hc => exec_tstat.trans (issue_err h (tstatRes_beyond hi hc)), fun hi hc => ?_⟩
  exact tstat_eq s x y k o ▸ answers_tstat h hi hc

end Sys2Proof.ArrayRegisters

namespace Sys2Proof.KStepSums

open Sys2Proof Machine

/-! ### A group's sum as a sum of truncated products (R152) -/

/-- What a product adds, in units of 2^q: its magnitude is cut to whole units. -/
def truncated (q : Int) : Machine.Num → Int
  | .fin neg m e _ =>
    let k : Int := (if q ≤ e then m * 2 ^ (e - q).toNat else m / 2 ^ (q - e).toNat : Nat)
    if neg then -k else k
  | _ => 0

/-- The number of s units of 2^q, zero as +0. -/
def ofUnits (q s : Int) : Machine.Num := if s = 0 then .fin false 0 0 false else .fin (decide (s < 0)) s.natAbs q false

/-- The sum of a group without NaN and infinities. -/
def finiteSum (ps : List Machine.Num) : Machine.Num :=
  (ps.filterMap leadExp).max?.elim (.fin false 0 0 false) fun t => ofUnits (t - 56) (ps.map (truncated (t - 56))).sum

theorem any_beq_inf (ps : List Machine.Num) (neg : Bool) : ps.any (· == .inf neg) = true ↔ .inf neg ∈ ps := by
  simp [List.any_eq_true]

theorem groupSum_eq (ps : List Machine.Num) : groupSum ps =
    if ps.any Machine.Num.isNan = true ∨ (.inf false ∈ ps ∧ .inf true ∈ ps) then .nan false
    else if .inf false ∈ ps then .inf false else if .inf true ∈ ps then .inf true else finiteSum ps := by
  simp only [groupSum, Bool.or_eq_true, Bool.and_eq_true, any_beq_inf]
  refine ite_congr rfl (fun _ => rfl) fun _ => ite_congr rfl (fun _ => rfl) fun _ => ite_congr rfl (fun _ => rfl) fun _ => ?_
  unfold finiteSum
  cases (ps.filterMap leadExp).max? with
  | none => rfl
  | some t =>
    rw [Option.elim_some, List.sum_eq_foldl, List.foldl_map]
    refine congrArg (ofUnits (t - 56)) (List.foldl_ext _ _ 0 fun z p _ => ?_)
    cases p with
    | fin => rfl
    | nan | inf => exact (add_zero z).symm

/-! ### The order of a group's products -/

theorem max?_perm {l m : List Int} (h : l.Perm m) : l.max? = m.max? :=
  Option.ext fun t => by simp only [List.max?_eq_some_iff, h.mem_iff]

theorem finiteSum_perm {ps qs : List Machine.Num} (h : ps.Perm qs) : finiteSum ps = finiteSum qs := by
  simp only [finiteSum, max?_perm (h.filterMap leadExp), (h.map _).sum_eq]

theorem groupSum_perm {ps qs : List Machine.Num} (h : ps.Perm qs) : groupSum ps = groupSum qs := by
  simp only [groupSum_eq, h.any_eq, h.mem_iff, finiteSum_perm h]

/-! ### NaN and infinities -/

theorem groupSum_nan {ps : List Machine.Num}
    (h : ps.any Machine.Num.isNan = true ∨ (.inf false ∈ ps ∧ .inf true ∈ ps)) : groupSum ps = .nan false := by
  rw [groupSum_eq, if_pos h]

theorem groupSum_inf {ps : List Machine.Num} {neg : Bool} (hn : ps.any Machine.Num.isNan = false) (hi : .inf neg ∈ ps)
    (ho : .inf (!neg) ∉ ps) : groupSum ps = .inf neg := by
  rw [groupSum_eq, if_neg (by cases neg <;> simp_all)]
  cases neg
  · rw [if_pos hi]
  · exact (if_neg ho).trans (if_pos hi)

theorem groupSum_finite {ps : List Machine.Num} (h : ∀ p ∈ ps, Finite p) : groupSum ps = finiteSum ps := by
  have noNan : ps.any Machine.Num.isNan = false := List.any_eq_false.mpr fun p hp => by simp [(h p hp).1]
  have noInf (neg : Bool) : .inf neg ∉ ps := fun hp => by
    obtain ⟨-, pos, min⟩ := h _ hp
    cases neg <;> contradiction
  rw [groupSum_eq, if_neg (by simp [noNan, noInf]), if_neg (noInf false), if_neg (noInf true)]

/-! ### What the truncation loses -/

theorem valQ_ofUnits (q s : Int) : valQ (ofUnits q s) = s * (2 : Rat) ^ q := by
  unfold ofUnits
  split
  · next h => simp [h, valQ]
  · have abs : ((s.natAbs : Int) : Rat) = |(s : Rat)| := by rw [Int.natCast_natAbs, Int.cast_abs]
    by_cases h : s < 0
    · have neg : (s : Rat) < 0 := by exact_mod_cast h
      simp only [valQ, h, decide_true, if_true]
      rw [← Int.cast_natCast, abs, abs_of_neg neg]
      ring
    · have pos : (0 : Rat) ≤ s := by exact_mod_cast not_lt.mp h
      simp only [valQ, h, decide_false, Bool.false_eq_true, if_false]
      rw [← Int.cast_natCast, abs, abs_of_nonneg pos]
      ring

theorem finite_ofUnits (q s : Int) : Finite (ofUnits q s) := by
  unfold ofUnits
  split <;> exact ⟨rfl, nofun, nofun⟩

/-- Whole units below a magnitude leave less than one. -/
theorem truncated_magnitude (q : Int) (m : Nat) (e : Int) :
    let k : Nat := if q ≤ e then m * 2 ^ (e - q).toNat else m / 2 ^ (q - e).toNat
    (k : Rat) * 2 ^ q ≤ m * 2 ^ e ∧ m * 2 ^ e < (k + 1 : Rat) * 2 ^ q := by
  intro k
  have unit : (0 : Rat) < 2 ^ q := zpow_pos (by norm_num) q
  have quantum : (0 : Rat) < 2 ^ e := zpow_pos (by norm_num) e
  by_cases h : q ≤ e
  · have exact : (k : Rat) * 2 ^ q = m * 2 ^ e := by
      simp only [k, if_pos h, Nat.cast_mul, Nat.cast_pow, Nat.cast_ofNat]
      rw [mul_assoc, ← zpow_natCast, ← zpow_add₀ (by norm_num), Int.toNat_of_nonneg (by omega), sub_add_cancel]
    exact ⟨exact.le, by rw [← exact]; nlinarith⟩
  · have split : (2 : Rat) ^ q = ((2 ^ (q - e).toNat : Nat) : Rat) * 2 ^ e := by
      rw [Nat.cast_pow, Nat.cast_ofNat, ← zpow_natCast, ← zpow_add₀ (by norm_num), Int.toNat_of_nonneg (by omega), sub_add_cancel]
    have below : k * 2 ^ (q - e).toNat ≤ m := by
      simp only [k, if_neg h]
      exact Nat.div_mul_le_self m _
    have above : m < (k + 1) * 2 ^ (q - e).toNat := by
      simp only [k, if_neg h]
      exact Nat.lt_mul_of_div_lt (Nat.lt_succ_self _) (Nat.two_pow_pos _)
    rw [split, ← mul_assoc, ← mul_assoc]
    exact ⟨mul_le_mul_of_nonneg_right (by exact_mod_cast below) quantum.le, mul_lt_mul_of_pos_right (by exact_mod_cast above) quantum⟩

theorem abs_truncated_lt (q : Int) {p : Machine.Num} (h : Finite p) :
    |(truncated q p : Rat) * 2 ^ q - valQ p| < 2 ^ q := by
  obtain ⟨hn, pos, min⟩ := h
  cases p with
  | nan => cases hn
  | inf neg => cases neg <;> contradiction
  | fin neg m e st =>
    obtain ⟨below, above⟩ := truncated_magnitude q m e
    rw [abs_lt]
    cases neg <;> simp only [truncated, valQ, if_true, Bool.false_eq_true, if_false, Int.cast_neg, Int.cast_natCast] <;>
      constructor <;> linarith

/-- A multiple of the unit loses nothing. -/
theorem truncated_eq {q k : Int} {p : Machine.Num} (h : Finite p) (hk : valQ p = k * (2 : Rat) ^ q) : truncated q p = k := by
  have unit : (0 : Rat) < 2 ^ q := zpow_pos (by norm_num) q
  have close := abs_truncated_lt q h
  rw [hk, ← sub_mul, abs_mul, abs_of_pos unit, mul_lt_iff_lt_one_left unit] at close
  have : |truncated q p - k| < 1 := by exact_mod_cast close
  rw [Int.abs_lt_one_iff] at this
  omega

theorem abs_sum_truncated_le (q : Int) {ps : List Machine.Num} (h : ∀ p ∈ ps, Finite p) :
    |((ps.map (truncated q)).sum : Rat) * 2 ^ q - (ps.map valQ).sum| ≤ ps.length * (2 : Rat) ^ q := by
  induction ps with
  | nil => simp
  | cons p ps ih =>
    have head := (abs_truncated_lt q (h p List.mem_cons_self)).le
    have tail := ih fun x hx => h x (List.mem_cons_of_mem p hx)
    simp only [List.map_cons, List.sum_cons, List.length_cons, Int.cast_add, Nat.cast_add, Nat.cast_one]
    rw [abs_le] at *
    constructor <;> linarith

theorem sum_truncated_eq {q : Int} {ps : List Machine.Num} (h : ∀ p ∈ ps, Finite p)
    (hk : ∀ p ∈ ps, ∃ k : Int, valQ p = k * (2 : Rat) ^ q) :
    ((ps.map (truncated q)).sum : Rat) * 2 ^ q = (ps.map valQ).sum := by
  induction ps with
  | nil => simp
  | cons p ps ih =>
    obtain ⟨k, value⟩ := hk p List.mem_cons_self
    have tail := ih (fun x hx => h x (List.mem_cons_of_mem p hx)) fun x hx => hk x (List.mem_cons_of_mem p hx)
    rw [List.map_cons, List.map_cons, List.sum_cons, List.sum_cons, Int.cast_add, add_mul, tail,
      truncated_eq (h p List.mem_cons_self) value, value]

/-! ### The integer path (R153) -/

/-- A step within the bounds adds its sum into the inner accumulator, which goes on into the other one at every p-th step. -/
theorem step_inside {p n : Nat} {a : IntAcc} {sum : Int} (h : a.held = false) (lo : -(2 ^ 23) ≤ a.inner + sum)
    (hi : a.inner + sum < 2 ^ 23) :
    IntAcc.step p n a sum = if n % p = 0 then IntAcc.promote { a with inner := a.inner + sum } else { a with inner := a.inner + sum } := by
  simp only [IntAcc.step, h, Bool.false_eq_true, if_false, not_lt.mpr lo, if_neg (show ¬ 2 ^ 23 - 1 < a.inner + sum by omega)]

/-- A step that meets a bound is held there. -/
theorem step_outside {p n : Nat} {a : IntAcc} {sum : Int} (h : a.held = false)
    (out : a.inner + sum < -(2 ^ 23) ∨ 2 ^ 23 ≤ a.inner + sum) :
    let b : IntAcc := { a with inner := if a.inner + sum < 0 then -(2 ^ 23) else 2 ^ 23 - 1, held := true, saturated := true }
    IntAcc.step p n a sum = if n % p = 0 then b.promote else b := by
  rcases out with out | out
  · simp only [IntAcc.step, h, Bool.false_eq_true, if_false, if_pos out, if_pos (show a.inner + sum < 0 by omega)]
  · simp only [IntAcc.step, h, Bool.false_eq_true, if_false, if_neg (show ¬ a.inner + sum < -(2 ^ 23) by omega),
      if_pos (show 2 ^ 23 - 1 < a.inner + sum by omega), if_neg (show ¬ a.inner + sum < 0 by omega)]

/-- A promotion keeps the whole modulo the accumulator's width. -/
theorem promote_sum (a : IntAcc) : (a.promote.acc.toInt + a.promote.inner - (a.acc.toInt + a.inner)) % 2 ^ 96 = 0 := by
  have wrapped : (a.acc.toInt + a.inner).bmod (2 ^ 96) % 2 ^ 96 = (a.acc.toInt + a.inner) % 2 ^ 96 := Int.bmod_emod
  simp only [IntAcc.promote, BitVec.toInt_ofInt]
  omega

/-- Settles O19: the sum of a group is the sum of its truncated products, whatever their order. -/
theorem kStepArithmetic : Obligations.KStepArithmetic := by
  refine ⟨fun ps qs => groupSum_perm, fun ps => groupSum_nan, fun ps neg => groupSum_inf, fun ps finite => ?_, ?_⟩
  · rw [groupSum_finite finite]
    refine ⟨fun none => by rw [finiteSum, none]; rfl, fun t ht => ?_⟩
    rw [finiteSum, ht, Option.elim_some, valQ_ofUnits]
    exact ⟨finite_ofUnits _ _, abs_sum_truncated_le _ finite, sum_truncated_eq finite⟩
  · intro a p n sum h b
    refine ⟨fun lo hi => ?_, fun out => ?_⟩
    · have step : b = _ := step_inside h lo hi
      by_cases hn : n % p = 0
      · rw [if_pos hn] at step
        rw [step]
        exact ⟨rfl, rfl, by rw [add_assoc a.acc.toInt]; exact promote_sum _, fun _ => rfl, fun ne => absurd hn ne⟩
      · rw [if_neg hn] at step
        rw [step]
        exact ⟨h, rfl, by dsimp only; omega, fun eq => absurd eq hn, fun _ => ⟨rfl, rfl⟩⟩
    · have step : b = _ := step_outside h out
      by_cases hn : n % p = 0
      · rw [if_pos hn] at step
        rw [step]
        exact ⟨rfl, fun ne => absurd hn ne⟩
      · rw [if_neg hn] at step
        rw [step]
        exact ⟨rfl, fun _ => ⟨rfl, rfl, rfl⟩⟩

end Sys2Proof.KStepSums

namespace Sys2Proof.FaithfulRounding

open Sys2Proof Machine

/-! ### Rounding to whole units (R130, R132) -/

/-- The modes that round the value toward zero (R133). -/
def Inward (mode : Nat) (neg : Bool) : Prop := mode = 1 ∨ (mode = 2 ∧ neg = false) ∨ (mode = 3 ∧ neg = true)
/-- The modes that round the value away from zero (R130). -/
def Outward (mode : Nat) (neg : Bool) : Prop := (mode = 2 ∧ neg = true) ∨ (mode = 3 ∧ neg = false)

/-- A mode takes the magnitude t, counted in units, to n of them. -/
structure RoundsTo (mode : Nat) (neg : Bool) (t : Rat) (n : Nat) : Prop where
  above : (n : Rat) < t + 1
  below : t < n + 1
  inward : Inward mode neg → n ≤ t
  outward : Outward mode neg → t ≤ n
  nearest : mode = 0 ∨ mode = 4 → |(n : Rat) - t| ≤ 1 / 2
  even : mode = 0 → |(n : Rat) - t| = 1 / 2 → n % 2 = 0
  away : mode = 4 → |(n : Rat) - t| = 1 / 2 → t ≤ n

theorem RoundsTo.exact (mode : Nat) (neg : Bool) (n : Nat) : RoundsTo mode neg n n := by
  constructor <;> simp

/-- The step up that each mode asks for, i whole units and a part ρ of one being there. -/
structure StepsUp (mode : Nat) (neg : Bool) (i : Nat) (ρ : Rat) (up : Bool) : Prop where
  inexact : up = true → 0 < ρ
  inward : Inward mode neg → up = false
  outward : Outward mode neg → 0 < ρ → up = true
  even : mode = 0 → (up = true ↔ 1 / 2 < ρ ∨ (ρ = 1 / 2 ∧ i % 2 = 1))
  away : mode = 4 → (up = true ↔ 1 / 2 ≤ ρ)

theorem StepsUp.roundsTo {mode : Nat} {neg : Bool} {i : Nat} {ρ : Rat} {up : Bool} (h : StepsUp mode neg i ρ up) (h0 : 0 ≤ ρ)
    (h1 : ρ < 1) : RoundsTo mode neg (i + ρ) (i + b2n up) ∧ (((i + b2n up : Nat) : Rat) = i + ρ ↔ ρ = 0) := by
  cases up
  · have down (x : Rat) : ((i + b2n false : Nat) : Rat) - (i + x) = -x := by simp [b2n]
    have keep : ((i + b2n false : Nat) : Rat) = i := by simp [b2n]
    refine ⟨⟨?_, ?_, fun _ => ?_, fun ho => ?_, fun hn => ?_, fun he heq => ?_, fun ha heq => ?_⟩, ?_⟩
    · linarith
    · linarith
    · linarith
    · have : ¬ 0 < ρ := fun hρ => Bool.false_ne_true (h.outward ho hρ)
      linarith
    · rw [down, abs_neg, abs_of_nonneg h0]
      rcases hn with rfl | rfl
      · have := (h.even rfl).not.mp Bool.false_ne_true
        push Not at this
        exact this.1
      · have := (h.away rfl).not.mp Bool.false_ne_true
        linarith
    · rw [down, abs_neg, abs_of_nonneg h0] at heq
      have := (h.even he).not.mp Bool.false_ne_true
      push Not at this
      have := this.2 heq
      simp only [b2n, Bool.false_eq_true, if_false]
      omega
    · rw [down, abs_neg, abs_of_nonneg h0] at heq
      exact absurd ((h.away ha).mpr heq.ge) Bool.false_ne_true
    · rw [keep]
      constructor <;> intro <;> linarith
  · have pos := h.inexact rfl
    have keep : ((i + b2n true : Nat) : Rat) = i + 1 := by simp [b2n]
    have gap : |((i + b2n true : Nat) : Rat) - (i + ρ)| = 1 - ρ := by
      rw [keep, abs_of_nonneg] <;> linarith
    refine ⟨⟨?_, ?_, fun hi => ?_, fun _ => ?_, fun hn => ?_, fun he heq => ?_, fun _ _ => ?_⟩, ?_⟩
    · linarith
    · linarith
    · exact absurd (h.inward hi) (by decide)
    · linarith
    · rw [gap]
      rcases hn with rfl | rfl
      · rcases (h.even rfl).mp rfl with half | ⟨half, -⟩ <;> linarith
      · have := (h.away rfl).mp rfl
        linarith
    · rw [gap] at heq
      rcases (h.even he).mp rfl with half | ⟨-, odd⟩
      · linarith
      · simp only [b2n, if_true]
        omega
    · linarith
    · rw [keep]
      constructor <;> intro <;> linarith

/-- A part r of D = 2·half, against zero and a half. -/
theorem part_cmp {r half : Nat} (hpos : 0 < half) : (0 < (r : Rat) / (2 * half : Nat) ↔ r ≠ 0) ∧
    (1 / 2 < (r : Rat) / (2 * half : Nat) ↔ half < r) ∧ ((r : Rat) / (2 * half : Nat) = 1 / 2 ↔ r = half) ∧
    (1 / 2 ≤ (r : Rat) / (2 * half : Nat) ↔ half ≤ r) := by
  have pos : (0 : Rat) < (2 * half : Nat) := by exact_mod_cast Nat.mul_pos two_pos hpos
  have scaled : (1 / 2 : Rat) * (2 * half : Nat) = half := by push_cast; ring
  refine ⟨?_, ?_, ?_, ?_⟩
  · rw [div_pos_iff_of_pos_right pos, Nat.cast_pos, Nat.pos_iff_ne_zero]
  · rw [lt_div_iff₀ pos, scaled, Nat.cast_lt]
  · rw [div_eq_iff pos.ne', scaled, Nat.cast_inj]
  · rw [le_div_iff₀ pos, scaled, Nat.cast_le]

/-- Where bits are discarded, each mode looks at them as R130 says. -/
theorem roundMag_stepsUp (mode : Nat) (x : Word) (neg : Bool) (m : Nat) {e q : Int} (h : e < q) :
    ∃ up, roundMag mode x neg m e false q = (m / 2 ^ (q - e).toNat + b2n up, m % 2 ^ (q - e).toNat != 0) ∧
      StepsUp mode neg (m / 2 ^ (q - e).toNat) ((m % 2 ^ (q - e).toNat : Nat) / (2 ^ (q - e).toNat : Nat)) up := by
  obtain ⟨s, hs⟩ : ∃ s, (q - e).toNat = s + 1 := ⟨(q - e).toNat - 1, by omega⟩
  simp only [roundMag, if_neg (not_le.mpr h), Bool.or_false, hs, Nat.add_sub_cancel]
  refine ⟨_, rfl, ?_⟩
  obtain ⟨zero, more, tie, least⟩ := part_cmp (r := m % 2 ^ (s + 1)) (Nat.two_pow_pos s)
  rw [← Nat.pow_succ'] at zero more tie least
  generalize ((m % 2 ^ (s + 1) : Nat) : Rat) / (2 ^ (s + 1) : Nat) = ρ at *
  generalize m % 2 ^ (s + 1) = r at *
  have half : 0 < 2 ^ s := Nat.two_pow_pos s
  have part : r ≠ 0 → 0 < ρ := zero.mpr
  match mode with
  | 0 =>
    have up : (decide (2 ^ s < r) || r == 2 ^ s && (false || m / 2 ^ (s + 1) % 2 == 1)) = true ↔
        1 / 2 < ρ ∨ ρ = 1 / 2 ∧ m / 2 ^ (s + 1) % 2 = 1 := by
      simp only [Bool.or_eq_true, Bool.and_eq_true, decide_eq_true_eq, beq_iff_eq, Bool.false_or, more, tie]
    refine ⟨fun h => ?_, by simp [Inward], by simp [Outward], fun _ => up, nofun⟩
    rcases up.mp h with h | ⟨h, -⟩ <;> linarith
  | 1 => exact ⟨nofun, fun _ => rfl, by simp [Outward], nofun, nofun⟩
  | 2 =>
    have up : (neg && r != 0) = true ↔ neg = true ∧ 0 < ρ := by rw [Bool.and_eq_true, bne_iff_ne, zero]
    exact ⟨fun h => (up.mp h).2, by simp +contextual [Inward], by simp +contextual [Outward, zero], nofun, nofun⟩
  | 3 =>
    have up : (!neg && r != 0) = true ↔ neg = false ∧ 0 < ρ := by rw [Bool.and_eq_true, bne_iff_ne, zero, Bool.not_eq_true']
    exact ⟨fun h => (up.mp h).2, by simp +contextual [Inward], by simp +contextual [Outward, zero], nofun, nofun⟩
  | 4 =>
    have up : decide (2 ^ s ≤ r) = true ↔ 1 / 2 ≤ ρ := by rw [decide_eq_true_eq, least]
    refine ⟨fun h => ?_, by simp [Inward], by simp [Outward], nofun, fun _ => up⟩
    linarith [up.mp h]
  | n + 5 =>
    refine ⟨fun h => part fun none => ?_, by simp [Inward], by simp [Outward], nofun, fun h => by omega⟩
    have := x.isLt
    subst none
    simp only [Nat.zero_div, Nat.zero_mul, ite_self, Nat.zero_add, decide_eq_true_eq] at h
    omega

theorem roundMag_roundsTo (mode : Nat) (x : Word) (neg : Bool) (m : Nat) (e q : Int) :
    let r := roundMag mode x neg m e false q
    RoundsTo mode neg (m * (2 : Rat) ^ (e - q)) r.1 ∧ (r.2 = false ↔ (r.1 : Rat) = m * (2 : Rat) ^ (e - q)) := by
  by_cases h : q ≤ e
  · have value : (m : Rat) * 2 ^ (e - q) = (m * 2 ^ (e - q).toNat : Nat) := by
      rw [Nat.cast_mul, Nat.cast_pow, Nat.cast_ofNat, ← zpow_natCast, Int.toNat_of_nonneg (by omega)]
    simp only [roundMag, if_pos h, value]
    exact ⟨RoundsTo.exact mode neg _, by simp⟩
  · obtain ⟨up, result, steps⟩ := roundMag_stepsUp mode x neg m (not_le.mp h)
    have unit : (0 : Rat) < (2 ^ (q - e).toNat : Nat) := by exact_mod_cast Nat.two_pow_pos _
    have value : (m : Rat) * 2 ^ (e - q) =
        (m / 2 ^ (q - e).toNat : Nat) + ((m % 2 ^ (q - e).toNat : Nat) : Rat) / (2 ^ (q - e).toNat : Nat) := by
      have inverse : (2 : Rat) ^ (e - q) = ((2 ^ (q - e).toNat : Nat) : Rat)⁻¹ := by
        rw [Nat.cast_pow, Nat.cast_ofNat, ← zpow_natCast, ← zpow_neg, Int.toNat_of_nonneg (by omega), neg_sub]
      rw [inverse, ← div_eq_mul_inv, div_eq_iff unit.ne', add_mul, div_mul_cancel₀ _ unit.ne']
      exact_mod_cast (Nat.div_add_mod' m _).symm
    obtain ⟨rounds, exact⟩ := steps.roundsTo (by positivity)
      ((div_lt_one unit).mpr (by exact_mod_cast Nat.mod_lt m (Nat.two_pow_pos _)))
    simp only [result, value, exact]
    exact ⟨rounds, by simp⟩

/-! ### The magnitudes of a format (R128) -/

/-- A format of R128 in what its codes' values rest on: a sign, subnormals, infinities and NaNs, and more than one exponent. -/
structure Ieee (f : Fmt) : Prop where
  sgn : f.sgn = true
  sub : f.sub = true
  spec : f.spec = 2
  fraction : 1 ≤ f.m
  exponent : 2 ≤ f.e

theorem ieee_of_mem : ∀ f ∈ [f64, f32, bf16, f16], Ieee f := by
  simp only [List.forall_mem_cons]
  exact ⟨⟨rfl, rfl, rfl, by decide, by decide⟩, ⟨rfl, rfl, rfl, by decide, by decide⟩, ⟨rfl, rfl, rfl, by decide, by decide⟩,
    ⟨rfl, rfl, rfl, by decide, by decide⟩, List.forall_mem_nil _⟩

/-- The magnitude of code n in subnormal quanta, the exponents going on without end. -/
def quanta (M n : Nat) : Nat := if n < 2 ^ M then n else (2 ^ M + n % 2 ^ M) * 2 ^ (n / 2 ^ M - 1)

/-- A count of units of 2^j quanta, as rounding at that quantum gives it, is the code of that many of them. -/
theorem quanta_add {M j i : Nat} (hi : i ≤ 2 ^ (M + 1)) (hj : j = 0 ∨ 2 ^ M ≤ i) : quanta M (j * 2 ^ M + i) = i * 2 ^ j := by
  have pos : 0 < 2 ^ M := Nat.two_pow_pos M
  rcases lt_or_ge i (2 ^ M) with small | large
  · obtain rfl := hj.resolve_right (not_le.mpr small)
    simp [quanta, small]
  · rw [quanta, if_neg (by nlinarith)]
    obtain ⟨r, rfl⟩ := Nat.exists_eq_add_of_le large
    rw [← add_assoc, ← Nat.succ_mul]
    rcases lt_or_ge r (2 ^ M) with inside | top
    · rw [Nat.mul_add_mod', Nat.mod_eq_of_lt inside, mul_comm j.succ, Nat.mul_add_div pos, Nat.div_eq_of_lt inside]
      rfl
    · obtain rfl : r = 2 ^ M := by rw [pow_succ] at hi; omega
      rw [← Nat.succ_mul, Nat.mul_mod_left, Nat.mul_div_cancel _ pos]
      simp only [Nat.succ_eq_add_one, Nat.add_sub_cancel, pow_succ]
      ring

/-- Every code is a count of units of its exponent. -/
theorem exists_units (M n : Nat) : ∃ j i, n = j * 2 ^ M + i ∧ i < 2 ^ (M + 1) ∧ (j = 0 ∨ 2 ^ M ≤ i) := by
  have low : n % 2 ^ M < 2 ^ M := Nat.mod_lt n (Nat.two_pow_pos M)
  have whole := Nat.div_add_mod' n (2 ^ M)
  rcases Nat.eq_zero_or_pos (n / 2 ^ M) with zero | pos
  · rw [zero] at whole
    exact ⟨0, n, by omega, by rw [pow_succ]; omega, .inl rfl⟩
  · obtain ⟨j, hj⟩ := Nat.exists_eq_add_of_le' pos
    rw [hj, Nat.succ_mul] at whole
    exact ⟨j, 2 ^ M + n % 2 ^ M, by omega, by rw [pow_succ]; omega, .inr (by omega)⟩

theorem quanta_strictMono (M : Nat) : StrictMono (quanta M) := by
  refine strictMono_nat_of_lt_succ fun n => ?_
  obtain ⟨j, i, rfl, hi, hj⟩ := exists_units M n
  rw [add_assoc, quanta_add hi.le hj, quanta_add hi (hj.imp_right Nat.le_succ_of_le)]
  exact Nat.mul_lt_mul_of_pos_right (Nat.lt_succ_self i) (Nat.two_pow_pos j)

/-- The magnitude of code n. -/
def magQ (f : Fmt) (n : Nat) : Rat := quanta f.m n * (2 : Rat) ^ f.qmin

theorem magQ_strictMono (f : Fmt) : StrictMono (magQ f) := fun _ _ h =>
  mul_lt_mul_of_pos_right (by exact_mod_cast quanta_strictMono f.m h) (zpow_pos (by norm_num) _)

theorem magQ_zero (f : Fmt) : magQ f 0 = 0 := by simp [magQ, quanta]

theorem magQ_nonneg (f : Fmt) (n : Nat) : 0 ≤ magQ f n := magQ_zero f ▸ (magQ_strictMono f).monotone (Nat.zero_le n)

/-- The code of i units of 2^j quanta. -/
theorem magQ_add (f : Fmt) {j i : Nat} (hi : i ≤ 2 ^ (f.m + 1)) (hj : j = 0 ∨ 2 ^ f.m ≤ i) :
    magQ f (j * 2 ^ f.m + i) = i * (2 : Rat) ^ (f.qmin + j) := by
  rw [magQ, quanta_add hi hj, zpow_add₀ (by norm_num), zpow_natCast]
  push_cast
  ring

/-! ### The code that a mode delivers (R132) -/

/-- Of codes with the rising magnitudes v, the mode delivers N for the magnitude a. -/
structure Delivers (v : Nat → Rat) (mode : Nat) (neg : Bool) (a : Rat) (N : Nat) : Prop where
  lower : ∀ n, n < N → v n < a
  upper : ∀ n, N < n → a < v n
  inward : Inward mode neg → v N ≤ a
  outward : Outward mode neg → a ≤ v N
  nearest : mode = 0 ∨ mode = 4 → ∀ n, |v N - a| ≤ |v n - a|
  even : mode = 0 → ∀ n, n ≠ N → |v n - a| = |v N - a| → N % 2 = 0
  away : mode = 4 → ∀ n, n ≠ N → |v n - a| = |v N - a| → a ≤ v N

/-- The unit of the magnitudes does not matter. -/
theorem Delivers.scale {v : Nat → Rat} {mode N : Nat} {neg : Bool} {a U : Rat} (h : Delivers v mode neg a N) (hU : 0 < U) :
    Delivers (fun n => v n * U) mode neg (a * U) N := by
  have dist (n : Nat) : |v n * U - a * U| = |v n - a| * U := by rw [← sub_mul, abs_mul, abs_of_pos hU]
  refine ⟨fun n hn => mul_lt_mul_of_pos_right (h.lower n hn) hU, fun n hn => mul_lt_mul_of_pos_right (h.upper n hn) hU,
    fun hi => mul_le_mul_of_nonneg_right (h.inward hi) hU.le, fun ho => mul_le_mul_of_nonneg_right (h.outward ho) hU.le,
    fun hn n => ?_, fun he n hn heq => ?_, fun ha n hn heq => ?_⟩
  · rw [dist, dist]
    exact mul_le_mul_of_nonneg_right (h.nearest hn n) hU.le
  · rw [dist, dist] at heq
    exact h.even he n hn (mul_right_cancel₀ hU.ne' heq)
  · rw [dist, dist] at heq
    exact mul_le_mul_of_nonneg_right (h.away ha n hn (mul_right_cancel₀ hU.ne' heq)) hU.le

/-- A code that stands i units high is delivered for t where t is rounded to i units and its neighbour behind t is a unit away. -/
theorem delivers_of_units {v : Nat → Rat} {mode N i : Nat} {neg : Bool} {t : Rat} (hv : StrictMono v) (h : RoundsTo mode neg t i)
    (hN : v N = i) (below : t < i → ∀ n, n < N → v n ≤ i - 1) (above : i ≤ t → ∀ n, N < n → i + 1 ≤ v n)
    (parity : N % 2 = i % 2) : Delivers v mode neg t N := by
  have close1 := h.above
  have close2 := h.below
  have lower (n : Nat) (hn : n < N) : v n < t := by
    rcases lt_or_ge t i with up | down
    · linarith [below up n hn]
    · exact (hv hn).trans_le (hN ▸ down)
  have upper (n : Nat) (hn : N < n) : t < v n := by
    rcases lt_or_ge t i with up | down
    · exact up.trans (hN ▸ hv hn)
    · linarith [above down n hn]
  have far (n : Nat) (hn : n ≠ N) : |(i : Rat) - t| < |v n - t| ∨ 1 - |(i : Rat) - t| ≤ |v n - t| := by
    rcases lt_or_ge t i with up | down
    · rw [abs_of_pos (sub_pos.mpr up)]
      rcases hn.lt_or_gt with hn | hn
      · exact .inr (by rw [abs_of_neg (sub_neg.mpr (lower n hn))]; linarith [below up n hn])
      · exact .inl (by rw [abs_of_pos (sub_pos.mpr (upper n hn))]; linarith [hv hn])
    · rw [abs_of_nonpos (sub_nonpos.mpr down)]
      rcases hn.lt_or_gt with hn | hn
      · exact .inl (by rw [abs_of_neg (sub_neg.mpr (lower n hn))]; linarith [hv hn])
      · exact .inr (by rw [abs_of_pos (sub_pos.mpr (upper n hn))]; linarith [above down n hn])
  have tie (hm : mode = 0 ∨ mode = 4) (n : Nat) (hn : n ≠ N) (heq : |v n - t| = |(i : Rat) - t|) : |(i : Rat) - t| = 1 / 2 := by
    have near := h.nearest hm
    rcases far n hn with more | apart <;> linarith
  refine ⟨lower, upper, ?_, ?_, fun hm n => ?_, fun he n hn heq => ?_, fun ha n hn heq => ?_⟩
  · exact hN ▸ h.inward
  · exact hN ▸ h.outward
  · rcases eq_or_ne n N with rfl | hn
    · exact le_rfl
    · have near := h.nearest hm
      rw [hN]
      rcases far n hn with more | apart <;> linarith
  · exact parity ▸ h.even he (tie (.inl he) n hn (hN ▸ heq))
  · exact hN ▸ h.away ha (tie (.inr ha) n hn (hN ▸ heq))

section
variable {f : Fmt} {mode : Nat} {neg : Bool}

/-- A count of units stays within the powers of two that bound what is counted. -/
theorem RoundsTo.le_pow {t : Rat} {i k : Nat} (h : RoundsTo mode neg t i) (ht : t < 2 ^ k) : i ≤ 2 ^ k := by
  have : (i : Rat) < (2 ^ k + 1 : Nat) := by push_cast; linarith [h.above]
  exact Nat.lt_succ_iff.mp (by exact_mod_cast this)

theorem RoundsTo.pow_le {t : Rat} {i k : Nat} (h : RoundsTo mode neg t i) (ht : 2 ^ k ≤ t) : 2 ^ k ≤ i := by
  have : ((2 ^ k : Nat) : Rat) < (i + 1 : Nat) := by push_cast; linarith [h.below]
  exact Nat.lt_succ_iff.mp (by exact_mod_cast this)

theorem magQ_of_roundsTo {j i : Nat} {t : Rat} (h : RoundsTo mode neg t i) (ht : t < 2 ^ (f.m + 1)) (hj : j = 0 ∨ 2 ^ f.m ≤ t) :
    magQ f (j * 2 ^ f.m + i) = i * (2 : Rat) ^ (f.qmin + j) := magQ_add f (h.le_pow ht) (hj.imp_right h.pow_le)

/-- Rounding at 2^j quanta delivers a code: its neighbour behind the exact magnitude is a unit away. -/
theorem delivers_of_roundsTo (hf : Ieee f) {j i : Nat} {t : Rat} (h : RoundsTo mode neg t i) (ht : t < 2 ^ (f.m + 1))
    (hj : j = 0 ∨ 2 ^ f.m ≤ t) : Delivers (magQ f) mode neg (t * 2 ^ (f.qmin + j)) (j * 2 ^ f.m + i) := by
  have unit : (0 : Rat) < 2 ^ (f.qmin + j) := zpow_pos (by norm_num) _
  have strict : StrictMono fun n => magQ f n / 2 ^ (f.qmin + j) := fun _ _ hn =>
    div_lt_div_of_pos_right (magQ_strictMono f hn) unit
  have units {k : Nat} (hk : k ≤ 2 ^ (f.m + 1)) (hl : j = 0 ∨ 2 ^ f.m ≤ k) : magQ f (j * 2 ^ f.m + k) / 2 ^ (f.qmin + j) = k := by
    rw [magQ_add f hk hl, mul_div_cancel_right₀ _ unit.ne']
  have high := h.le_pow ht
  have low := hj.imp_right h.pow_le
  have even : 2 ^ f.m % 2 = 0 := Nat.mod_eq_zero_of_dvd (dvd_pow_self 2 (by have := hf.fraction; omega))
  have scaled := (delivers_of_units strict h (units high low) (fun up n hn => ?_) (fun down n hn => ?_) ?_).scale unit
  · simpa only [div_mul_cancel₀ _ unit.ne'] using scaled
  · have some : 1 ≤ i := by
      by_contra none
      obtain rfl : j = 0 := low.resolve_right (by have := Nat.two_pow_pos f.m; omega)
      omega
    have one : j = 0 ∨ 2 ^ f.m ≤ i - 1 := hj.imp_right fun hj => by
      have : ((2 ^ f.m : Nat) : Rat) < i := by push_cast; linarith
      exact Nat.le_sub_one_of_lt (by exact_mod_cast this)
    rw [← Nat.cast_pred some, ← units (by omega) one]
    exact strict.monotone (by omega)
  · have one : i + 1 ≤ 2 ^ (f.m + 1) := by
      have : (i : Rat) < (2 ^ (f.m + 1) : Nat) := by push_cast; linarith
      exact_mod_cast this
    have next := units one (low.imp_right Nat.le_succ_of_le)
    rw [Nat.cast_add, Nat.cast_one] at next
    rw [← next]
    exact strict.monotone hn
  · rw [Nat.add_mod, Nat.mul_mod, even, Nat.mul_zero, Nat.zero_mod, Nat.zero_add, Nat.mod_mod]

/-! ### Rounding into a format (R132, R133) -/

theorem mul_zpow_lt (m : Nat) {x y : Int} (h : Nat.log2 m + 1 + x ≤ y) : (m : Rat) * 2 ^ x < 2 ^ y := by
  have most : (m : Rat) < 2 ^ (Nat.log2 m + 1 : Int) := by
    rw [← Nat.cast_succ, zpow_natCast]; exact_mod_cast Nat.lt_log2_self
  calc (m : Rat) * 2 ^ x < 2 ^ (Nat.log2 m + 1 : Int) * 2 ^ x := mul_lt_mul_of_pos_right most (zpow_pos (by norm_num) x)
    _ = 2 ^ (Nat.log2 m + 1 + x) := (zpow_add₀ (by norm_num) _ _).symm
    _ ≤ 2 ^ y := zpow_le_zpow_right₀ (by norm_num) h

theorem zpow_le_mul {m : Nat} (hm : m ≠ 0) {x y : Int} (h : y ≤ Nat.log2 m + x) : (2 : Rat) ^ y ≤ m * 2 ^ x := by
  have least : (2 : Rat) ^ (Nat.log2 m : Int) ≤ m := by rw [zpow_natCast]; exact_mod_cast Nat.log2_self_le hm
  calc (2 : Rat) ^ y ≤ 2 ^ (Nat.log2 m + x) := zpow_le_zpow_right₀ (by norm_num) h
    _ = 2 ^ (Nat.log2 m : Int) * 2 ^ x := zpow_add₀ (by norm_num) _ _
    _ ≤ m * 2 ^ x := mul_le_mul_of_nonneg_right least (zpow_pos (by norm_num) x).le

/-- A nonzero magnitude is rounded at the coarser of its own quantum and the subnormal one, which it fills up to its leading bit. -/
theorem exists_quantum (f : Fmt) {m : Nat} (hm : m ≠ 0) (e : Int) :
    ∃ j : Nat, max (e + Nat.log2 m - f.m) f.qmin = f.qmin + j ∧ (m : Rat) * 2 ^ (e - (f.qmin + j)) < 2 ^ (f.m + 1) ∧
      (j = 0 ∨ 2 ^ f.m ≤ (m : Rat) * 2 ^ (e - (f.qmin + j))) := by
  refine ⟨(e + Nat.log2 m - f.m - f.qmin).toNat, by omega, ?_, ?_⟩
  · rw [← zpow_natCast]
    exact mul_zpow_lt m (by omega)
  · rcases Nat.eq_zero_or_pos (e + Nat.log2 m - f.m - f.qmin).toNat with zero | pos
    · exact .inl zero
    · rw [← zpow_natCast (2 : Rat) f.m]
      exact .inr (zpow_le_mul hm (by omega))

theorem flags_of_inexact (tiny ix : Bool) : let fl : Flags := (if tiny && ix then fUF else 0) ||| (if ix then fNX else 0)
    fl &&& fOF = 0 ∧ (fl &&& fNX = 0 ↔ ix = false) := by
  cases tiny <;> cases ix <;> decide

/-- Rounding delivers the code of the rounded magnitude, and says whether it is exact and whether it is beyond the format. -/
theorem roundFin_delivers (hf : Ieee f) (mode : Nat) (x : Word) (neg : Bool) (m : Nat) (e : Int) :
    ∃ N, Delivers (magQ f) mode neg (m * 2 ^ e) N ∧ let r := roundFin f mode x neg m e false
      r.code = f.sign neg + N ∧ r.ovf = decide (f.maxCode < N) ∧ r.fl &&& fOF = 0 ∧ (r.fl &&& fNX = 0 ↔ magQ f N = m * 2 ^ e) := by
  by_cases hm : m = 0
  · have exact := delivers_of_roundsTo hf (j := 0) (RoundsTo.exact mode neg 0) (by norm_num) (.inl rfl)
    refine ⟨0, by simpa [hm] using exact, ?_⟩
    simp [roundFin, hm, magQ_zero]
  · obtain ⟨j, quantum, high, low⟩ := exists_quantum f hm e
    obtain ⟨rounds, exact⟩ := roundMag_roundsTo mode x neg m e (f.qmin + j)
    have value : (m : Rat) * 2 ^ (e - (f.qmin + j)) * 2 ^ (f.qmin + j) = m * 2 ^ e := by
      rw [mul_assoc, ← zpow_add₀ (by norm_num), sub_add_cancel]
    refine ⟨_, value ▸ delivers_of_roundsTo hf rounds high low, ?_⟩
    have count : ((f.qmin + j - f.qmin).toNat : Nat) = j := by omega
    simp only [roundFin, if_neg hm, quantum, hf.sub, count, Bool.not_true, Bool.false_and, Bool.false_eq_true, if_false, true_and]
    obtain ⟨noOverflow, inexact⟩ := flags_of_inexact _ (roundMag mode x neg m e false (f.qmin + j)).2
    refine ⟨noOverflow, inexact.trans (exact.trans ?_)⟩
    rw [magQ_of_roundsTo rounds high low, ← value, mul_left_inj' (zpow_pos (by norm_num) _).ne']

/-- Where the delivered code is one of the format it is the result, else the result is an overflow's (R133). -/
theorem roundNum_delivers (hf : Ieee f) (mode : Nat) (x : Word) (neg : Bool) (m : Nat) (e : Int) :
    ∃ N, Delivers (magQ f) mode neg (m * 2 ^ e) N ∧ let r := roundNum f mode x (.fin neg m e false)
      (N ≤ f.maxCode → r.1 = f.sign neg + N ∧ r.2 &&& fOF = 0 ∧ (r.2 &&& fNX = 0 ↔ magQ f N = m * 2 ^ e)) ∧
      (f.maxCode < N → r = (f.sign neg + (if toMax mode neg then f.maxCode else f.infCode), fOF ||| fNX)) := by
  obtain ⟨N, delivers, code, ovf, noOverflow, inexact⟩ := roundFin_delivers hf mode x neg m e
  refine ⟨N, delivers, fun inside => ?_, fun beyond => ?_⟩
  · simp only [roundNum, ovf, not_lt.mpr inside, decide_false, Bool.false_eq_true, if_false]
    exact ⟨code, noOverflow, inexact⟩
  · simp only [roundNum, ovf, beyond, decide_true, if_true]

/-! ### Where a delivered code is beyond a given one (R133) -/

theorem Delivers.lt_iff_of_inward {v : Nat → Rat} {a : Rat} {N K : Nat} (h : Delivers v mode neg a N) (hv : StrictMono v)
    (hm : Inward mode neg) : K < N ↔ v (K + 1) ≤ a := by
  refine ⟨fun beyond => (hv.monotone beyond).trans (h.inward hm), fun reached => ?_⟩
  by_contra inside
  exact not_lt.mpr reached (h.upper (K + 1) (by omega))

theorem Delivers.lt_iff_of_outward {v : Nat → Rat} {a : Rat} {N K : Nat} (h : Delivers v mode neg a N) (hv : StrictMono v)
    (hm : Outward mode neg) : K < N ↔ v K < a := by
  refine ⟨h.lower K, fun passed => ?_⟩
  by_contra inside
  exact not_lt.mpr ((h.outward hm).trans (hv.monotone (not_lt.mp inside))) passed

/-- To the nearest, the code beyond an odd one is delivered from the middle on. -/
theorem Delivers.lt_iff_of_nearest {v : Nat → Rat} {a : Rat} {N K : Nat} (h : Delivers v mode neg a N) (hv : StrictMono v)
    (hm : mode = 0 ∨ mode = 4) (odd : K % 2 = 1) : K < N ↔ v K + (v (K + 1) - v K) / 2 ≤ a := by
  have next := hv (Nat.lt_succ_self K)
  constructor
  · intro beyond
    have below := h.lower K beyond
    have higher := hv.monotone (Nat.succ_le_of_lt beyond)
    have near := h.nearest hm K
    rw [abs_of_neg (sub_neg.mpr below), abs_le] at near
    linarith [near.2]
  · intro middle
    by_contra inside
    have above := h.upper (K + 1) (by omega)
    have lower := hv.monotone (not_lt.mp inside)
    have near := h.nearest hm (K + 1)
    rw [abs_of_pos (sub_pos.mpr above), abs_le] at near
    have tie : v N = v K := by linarith [near.1]
    obtain rfl := hv.injective tie
    have equal : |v (N + 1) - a| = |v N - a| := by
      rw [abs_of_pos (sub_pos.mpr above), abs_of_neg] <;> linarith [near.1]
    rcases hm with hm | hm
    · have := h.even hm (N + 1) (by omega) equal
      omega
    · have := h.away hm (N + 1) (by omega) equal
      linarith

/-! ### The value of a code (R128) -/

/-- A magnitude with a sign. -/
def signed (neg : Bool) (x : Rat) : Rat := if neg then -x else x

theorem valQ_fin (neg : Bool) (m : Nat) (e : Int) (st : Bool) : valQ (.fin neg m e st) = signed neg (m * 2 ^ e) := by
  cases neg <;> simp [valQ, signed]

/-- The magnitude's code in a code. -/
def magOf (f : Fmt) (c : Nat) : Nat := c % 2 ^ (f.e + f.m)

theorem infCode_eq (f : Fmt) : f.infCode = (2 ^ f.e - 1) * 2 ^ f.m := by
  simp only [Fmt.infCode, Nat.sub_mul, ← pow_add, one_mul]

/-- The infinity's code follows the largest finite one. -/
theorem maxCode_succ (hf : Ieee f) : f.maxCode + 1 = (2 ^ f.e - 1) * 2 ^ f.m := by
  have low : 2 ^ f.m < 2 ^ (f.e + f.m) := Nat.pow_lt_pow_right (by decide) (by have := hf.exponent; omega)
  simp only [Fmt.maxCode, hf.spec, Nat.sub_mul, ← pow_add, one_mul]
  omega

theorem num_eq (hf : Ieee f) (c : Nat) : f.num c =
    if magOf f c / 2 ^ f.m = 2 ^ f.e - 1 then
      if magOf f c % 2 ^ f.m = 0 then .inf (bit c (f.e + f.m)) else .nan (f.sig && !bit (magOf f c % 2 ^ f.m) (f.m - 1))
    else if magOf f c / 2 ^ f.m = 0 then .fin (bit c (f.e + f.m)) (magOf f c % 2 ^ f.m) f.qmin false
    else .fin (bit c (f.e + f.m)) (2 ^ f.m + magOf f c % 2 ^ f.m) ((magOf f c / 2 ^ f.m : Nat) - f.bias - f.m) false := by
  have high : magOf f c / 2 ^ f.m = c / 2 ^ f.m % 2 ^ f.e := by
    rw [magOf, add_comm, pow_add, Nat.mod_mul_right_div_self]
  have low : magOf f c % 2 ^ f.m = c % 2 ^ f.m := Nat.mod_mod_of_dvd c (pow_dvd_pow 2 (Nat.le_add_left _ _))
  simp only [Fmt.num, hf.spec, hf.sgn, hf.sub, high, low, true_and, Bool.true_and, if_true, OfNat.ofNat_ne_one, false_and, if_false]

theorem magOf_lt (f : Fmt) (c : Nat) : magOf f c < 2 ^ f.e * 2 ^ f.m := pow_add 2 f.e f.m ▸ Nat.mod_lt c (Nat.two_pow_pos _)

theorem div_eq_top (hf : Ieee f) (c : Nat) : magOf f c / 2 ^ f.m = 2 ^ f.e - 1 ↔ f.maxCode < magOf f c := by
  have pos := Nat.two_pow_pos f.m
  have below : magOf f c / 2 ^ f.m < 2 ^ f.e := (Nat.div_lt_iff_lt_mul pos).mpr (magOf_lt f c)
  rw [← Nat.succ_le_iff, Nat.succ_eq_add_one, maxCode_succ hf, ← Nat.le_div_iff_mul_le pos]
  omega

/-- A code up to the largest finite one has its magnitude, with the sign of its sign bit. -/
theorem num_of_le (hf : Ieee f) {c : Nat} (hc : magOf f c ≤ f.maxCode) :
    Finite (f.num c) ∧ valQ (f.num c) = signed (bit c (f.e + f.m)) (magQ f (magOf f c)) := by
  rw [num_eq hf, if_neg ((div_eq_top hf c).not.mpr (not_lt.mpr hc)), magQ, quanta]
  rcases lt_or_ge (magOf f c) (2 ^ f.m) with small | large
  · rw [if_pos (Nat.div_eq_of_lt small), if_pos small, Nat.mod_eq_of_lt small, valQ_fin]
    exact ⟨⟨rfl, nofun, nofun⟩, rfl⟩
  · have exponent : 0 < magOf f c / 2 ^ f.m := Nat.div_pos large (Nat.two_pow_pos f.m)
    rw [if_neg exponent.ne', if_neg (not_lt.mpr large), valQ_fin]
    refine ⟨⟨rfl, nofun, nofun⟩, congrArg (signed _) ?_⟩
    have split : ((magOf f c / 2 ^ f.m : Nat) : Int) - f.bias - f.m = (magOf f c / 2 ^ f.m - 1 : Nat) + f.qmin := by
      rw [Fmt.qmin]; omega
    rw [split, zpow_add₀ (by norm_num), zpow_natCast]
    push_cast
    ring

theorem le_of_finite (hf : Ieee f) {c : Nat} (hc : Finite (f.num c)) : magOf f c ≤ f.maxCode := by
  by_contra beyond
  obtain ⟨number, positive, negative⟩ := hc
  rw [num_eq hf, if_pos ((div_eq_top hf c).mpr (not_le.mp beyond))] at number positive negative
  split at number
  · next h =>
    rw [if_pos h] at positive negative
    cases hb : bit c (f.e + f.m) <;> rw [hb] at positive negative <;> contradiction
  · cases number

/-- A code with a sign. -/
theorem sign_add (hf : Ieee f) (neg : Bool) {N : Nat} (hN : N < 2 ^ (f.e + f.m)) :
    magOf f (f.sign neg + N) = N ∧ bit (f.sign neg + N) (f.e + f.m) = neg := by
  cases neg
  · simp [magOf, Fmt.sign, bit, Nat.mod_eq_of_lt hN, Nat.div_eq_of_lt hN]
  · simp [magOf, Fmt.sign, hf.sgn, bit, Nat.mod_eq_of_lt hN, Nat.div_eq_of_lt hN]

theorem sign_add_mod_two (hf : Ieee f) (neg : Bool) (N : Nat) : (f.sign neg + N) % 2 = N % 2 := by
  have even : 2 ^ (f.e + f.m) % 2 = 0 := Nat.mod_eq_zero_of_dvd (dvd_pow_self 2 (by have := hf.exponent; omega))
  unfold Fmt.sign
  split <;> omega

theorem num_sign_add (hf : Ieee f) (neg : Bool) {N : Nat} (hN : N ≤ f.maxCode) :
    Finite (f.num (f.sign neg + N)) ∧ valQ (f.num (f.sign neg + N)) = signed neg (magQ f N) := by
  have below : N < 2 ^ (f.e + f.m) := by
    rw [pow_add]
    have := maxCode_succ hf
    have : (2 ^ f.e - 1) * 2 ^ f.m ≤ 2 ^ f.e * 2 ^ f.m := Nat.mul_le_mul_right _ (Nat.sub_le _ _)
    omega
  obtain ⟨mag, sgn⟩ := sign_add hf neg below
  have value := num_of_le hf (c := f.sign neg + N) (mag.le.trans hN)
  rwa [mag, sgn] at value

theorem num_sign_infCode (hf : Ieee f) (neg : Bool) : f.num (f.sign neg + f.infCode) = .inf neg := by
  have pos := Nat.two_pow_pos f.m
  have inf := infCode_eq f
  obtain ⟨mag, sgn⟩ := sign_add hf neg (N := f.infCode) (by
    rw [inf, pow_add]
    exact Nat.mul_lt_mul_of_pos_right (Nat.sub_lt (Nat.two_pow_pos _) one_pos) pos)
  rw [num_eq hf, mag, sgn, inf, Nat.mul_div_cancel _ pos, if_pos rfl, Nat.mul_mod_left, if_pos rfl]

/-- The largest finite code is odd, and its unit takes its magnitude to the next code's. -/
theorem maxCode_odd (hf : Ieee f) : f.maxCode % 2 = 1 := by
  have top := maxCode_succ hf
  have even : (2 ^ f.e - 1) * 2 ^ f.m % 2 = 0 :=
    Nat.mod_eq_zero_of_dvd ((dvd_pow_self 2 (by have := hf.fraction; omega)).mul_left _)
  omega

theorem magQ_maxCode_succ (hf : Ieee f) :
    magQ f (f.maxCode + 1) = magQ f f.maxCode + magQ f f.maxCode / (2 ^ (f.m + 1) - 1 : Nat) := by
  have pos := Nat.two_pow_pos f.m
  have four : 2 ^ 2 ≤ 2 ^ f.e := Nat.pow_le_pow_right (by decide) hf.exponent
  obtain ⟨k, hk⟩ : ∃ k, 2 ^ f.e = k + 3 := ⟨2 ^ f.e - 3, by omega⟩
  have top : f.maxCode + 1 = k * 2 ^ f.m + 2 ^ (f.m + 1) := by
    rw [maxCode_succ hf, hk, pow_succ, show k + 3 - 1 = k + 2 from rfl]
    ring
  have last : f.maxCode = k * 2 ^ f.m + (2 ^ (f.m + 1) - 1) := by omega
  have two : 2 ≤ 2 ^ (f.m + 1) := by rw [pow_succ]; omega
  rw [top, last, magQ_add f le_rfl (.inr (by rw [pow_succ]; omega)), magQ_add f (Nat.sub_le _ _) (.inr (by rw [pow_succ]; omega)),
    mul_div_cancel_left₀ _ (by exact_mod_cast (by omega : 2 ^ (f.m + 1) - 1 ≠ 0)), Nat.cast_sub (by omega)]
  push_cast
  ring

/-! ### Signs -/

theorem signed_inj (neg : Bool) {x y : Rat} : signed neg x = signed neg y ↔ x = y := by
  cases neg <;> simp [signed]

theorem abs_signed (neg : Bool) {x : Rat} (h : 0 ≤ x) : |signed neg x| = x := by
  cases neg <;> simp [signed, abs_of_nonneg h]

theorem abs_signed_sub (neg : Bool) (x y : Rat) : |signed neg x - signed neg y| = |x - y| := by
  cases neg
  · rfl
  · simp only [signed, if_true, neg_sub_neg, abs_sub_comm]

/-- Of opposite signs, the distance is the sum. -/
theorem abs_signed_sub_not (neg : Bool) {x y : Rat} (hx : 0 ≤ x) (hy : 0 ≤ y) : |signed (!neg) x - signed neg y| = x + y := by
  cases neg
  · simp only [signed, Bool.not_false, if_true, Bool.false_eq_true, if_false]
    rw [abs_of_nonpos] <;> linarith
  · simp only [signed, Bool.not_true, if_true, Bool.false_eq_true, if_false]
    rw [abs_of_nonneg] <;> linarith

section
variable {a : Rat} {N : Nat} (h : Delivers (magQ f) mode neg a N) (ha : 0 ≤ a)
include h ha

theorem Delivers.not_between (s : Bool) (n : Nat) :
    ¬ (signed neg (magQ f N) < signed s (magQ f n) ∧ signed s (magQ f n) < signed neg a) ∧
    ¬ (signed neg a < signed s (magQ f n) ∧ signed s (magQ f n) < signed neg (magQ f N)) := by
  have above (beyond : magQ f N < magQ f n) : a < magQ f n := h.upper n ((magQ_strictMono f).lt_iff_lt.mp beyond)
  have below (inside : magQ f n < magQ f N) : magQ f n < a := h.lower n ((magQ_strictMono f).lt_iff_lt.mp inside)
  have hN := magQ_nonneg f N
  have hn := magQ_nonneg f n
  cases neg <;> cases s <;> simp only [signed, if_true, Bool.false_eq_true, if_false, neg_lt_neg_iff]
  · exact ⟨fun ⟨h1, h2⟩ => (above h1).not_gt h2, fun ⟨h1, h2⟩ => (below h2).not_gt h1⟩
  · exact ⟨fun ⟨h1, _⟩ => by linarith, fun ⟨h1, _⟩ => by linarith⟩
  · exact ⟨fun ⟨_, h2⟩ => by linarith, fun ⟨_, h2⟩ => by linarith⟩
  · exact ⟨fun ⟨h1, h2⟩ => (below h1).not_gt h2, fun ⟨h1, h2⟩ => (above h2).not_gt h1⟩

theorem Delivers.signed_nearest (hm : mode = 0 ∨ mode = 4) (s : Bool) (n : Nat) :
    |signed neg (magQ f N) - signed neg a| ≤ |signed s (magQ f n) - signed neg a| := by
  rw [abs_signed_sub]
  rcases Bool.eq_or_eq_not s neg with rfl | rfl
  · rw [abs_signed_sub]
    exact h.nearest hm n
  · have hn := magQ_nonneg f n
    have zero := h.nearest hm 0
    rw [magQ_zero, zero_sub, abs_neg, abs_of_nonneg ha] at zero
    rw [abs_signed_sub_not neg hn ha]
    linarith

/-- Another value as near is the value of another code of the same sign. -/
theorem Delivers.signed_tie (hm : mode = 0 ∨ mode = 4) {s : Bool} {n : Nat} (hne : signed s (magQ f n) ≠ signed neg (magQ f N))
    (heq : |signed s (magQ f n) - signed neg a| = |signed neg (magQ f N) - signed neg a|) :
    n ≠ N ∧ |magQ f n - a| = |magQ f N - a| := by
  rw [abs_signed_sub] at heq
  rcases Bool.eq_or_eq_not s neg with rfl | rfl
  · rw [abs_signed_sub] at heq
    exact ⟨fun same => hne (same ▸ rfl), heq⟩
  · have hn := magQ_nonneg f n
    have zero := h.nearest hm 0
    rw [magQ_zero, zero_sub, abs_neg, abs_of_nonneg ha] at zero
    rw [abs_signed_sub_not neg hn ha] at heq
    have none : magQ f n = 0 := by linarith
    refine ⟨?_, by rw [← heq, none, zero_sub, abs_neg, abs_of_nonneg ha, zero_add]⟩
    rintro rfl
    rw [none] at hne
    cases neg <;> simp [signed] at hne

/-- A tie of RNA goes to the larger magnitude. -/
theorem Delivers.signed_away (hm : mode = 4) {s : Bool} {n : Nat} (hne : signed s (magQ f n) ≠ signed neg (magQ f N))
    (heq : |signed s (magQ f n) - signed neg a| = |signed neg (magQ f N) - signed neg a|) : magQ f n ≤ magQ f N := by
  obtain ⟨other, tie⟩ := h.signed_tie ha (.inr hm) hne heq
  have away := h.away hm n other tie
  rw [abs_of_nonneg (sub_nonneg.mpr away), abs_eq (sub_nonneg.mpr away)] at tie
  rcases tie with tie | tie <;> linarith

omit ha

/-- RUP and RDN deliver no value on the other side (R130). -/
theorem Delivers.signed_le (hm : mode = 2) : signed neg (magQ f N) ≤ signed neg a := by
  cases neg
  · exact h.inward (.inr (.inl ⟨hm, rfl⟩))
  · exact neg_le_neg (h.outward (.inl ⟨hm, rfl⟩))

theorem Delivers.le_signed (hm : mode = 3) : signed neg a ≤ signed neg (magQ f N) := by
  cases neg
  · exact h.outward (.inr ⟨hm, rfl⟩)
  · exact neg_le_neg (h.inward (.inr (.inr ⟨hm, rfl⟩)))

end

theorem toMax_iff (mode : Nat) (neg : Bool) : toMax mode neg = true ↔ Inward mode neg := by
  simp [toMax, Inward, or_assoc]

theorem finite_code (hf : Ieee f) {c : Nat} (hc : Finite (f.num c)) : ∃ s n, n ≤ f.maxCode ∧ valQ (f.num c) = signed s (magQ f n) :=
  ⟨_, _, le_of_finite hf hc, (num_of_le hf (le_of_finite hf hc)).2⟩

theorem valQ_maxCode (hf : Ieee f) : valQ (f.num f.maxCode) = magQ f f.maxCode := by
  have value := (num_sign_add hf false le_rfl).2
  rwa [show f.sign false + f.maxCode = f.maxCode by simp [Fmt.sign]] at value

end

/-- Settles O18: the result is the magnitude code that the mode delivers, under the sign; beyond the largest finite code it is an
overflow's. -/
theorem roundingIsFaithful : Obligations.RoundingIsFaithful := by
  intro f mem mode x neg m e _ v r y most unit inward
  have hf := ieee_of_mem f mem
  have ha : (0 : Rat) ≤ m * 2 ^ e := by positivity
  have mono := magQ_strictMono f
  obtain ⟨N, delivers, inside, beyond⟩ := roundNum_delivers hf mode x neg m e
  have hv : v = signed neg (m * 2 ^ e) := valQ_fin neg m e false
  have absv : |v| = m * 2 ^ e := hv ▸ abs_signed neg ha
  have top : most = magQ f f.maxCode := valQ_maxCode hf
  have next : magQ f (f.maxCode + 1) = most + unit := by rw [magQ_maxCode_succ hf, ← top]
  have overflows : r.2 &&& fOF ≠ 0 ↔ f.maxCode < N := by
    refine ⟨fun ovf => not_le.mp fun le => ?_, fun lt => ?_⟩
    · obtain ⟨-, none, -⟩ := inside le
      exact ovf none
    · rw [show r = _ from beyond lt]
      exact (by decide : (fOF ||| fNX) &&& fOF ≠ 0)
  refine ⟨fun noOvf => ?_, fun ovf => ?_, fun c hc => ?_, fun hm => ?_, fun hm => ?_, fun hm => ?_⟩
  · have le : N ≤ f.maxCode := not_lt.mp (overflows.not.mp (not_not_intro noOvf))
    obtain ⟨code, -, inexact⟩ := inside le
    obtain ⟨finite, hy⟩ := num_sign_add hf neg le
    have hy : y = signed neg (magQ f N) := by rw [← hy, ← code]
    have absy : |y| = magQ f N := hy ▸ abs_signed neg (magQ_nonneg f N)
    refine ⟨code ▸ finite, by rw [hy, hv, signed_inj]; exact inexact, fun c hc => ?_, fun hm => ?_, fun hm => ?_, fun hm => ?_,
      fun hm c hc => ?_, fun c hc hne heq => ?_⟩
    · obtain ⟨s, n, -, hn⟩ := finite_code hf hc
      rw [hn, hy, hv]
      exact delivers.not_between ha s n
    · rw [absy, absv]
      exact delivers.inward (.inl hm)
    · rw [hy, hv]
      exact delivers.signed_le hm
    · rw [hy, hv]
      exact delivers.le_signed hm
    · obtain ⟨s, n, -, hn⟩ := finite_code hf hc
      rw [hn, hy, hv]
      exact delivers.signed_nearest ha hm s n
    · obtain ⟨s, n, -, hn⟩ := finite_code hf hc
      rw [hn, hy] at hne
      rw [hn, hy, hv] at heq
      refine ⟨fun hm => ?_, fun hm => ?_⟩
      · obtain ⟨other, tie⟩ := delivers.signed_tie ha (.inl hm) hne heq
        rw [code, sign_add_mod_two hf]
        exact delivers.even hm n other tie
      · rw [hn, absy, abs_signed s (magQ_nonneg f n)]
        exact delivers.signed_away ha hm hne heq
  · rw [show r = _ from beyond (overflows.mp ovf)]
    refine ⟨rfl, fun hi => ?_, fun ho => ?_⟩
    · rw [if_pos ((toMax_iff mode neg).mpr hi)]
    · rw [if_neg ((toMax_iff mode neg).not.mpr ho)]
      exact num_sign_infCode hf neg
  · obtain ⟨s, n, le, hn⟩ := finite_code hf hc
    rw [hn, abs_signed s (magQ_nonneg f n), top]
    exact mono.monotone le
  · rw [overflows, absv, delivers.lt_iff_of_nearest mono hm (maxCode_odd hf), next, ← top, add_sub_cancel_left]
  · rw [overflows, absv, delivers.lt_iff_of_inward mono hm, next]
  · rw [overflows, absv, delivers.lt_iff_of_outward mono hm, ← top]

end Sys2Proof.FaithfulRounding

namespace Sys2Proof.IntegerInstructions

open Sys2Proof Machine Laws MasksAndBranches

variable {s : State} {w : Bool} {th : Thread} {d : BitVec 5} {i : Instr}

/-! ### Instructions that write one general register (R165 to R168) -/

/-- An instruction that only writes a general register, with a word that its thread determines. -/
theorem gives_wg {x : Thread → DWord} {y : DWord} (h : Ready s w th) (hi : exec i s = issueThr w s fun th => wg th d (x th))
    (hx : x th = y) : Gives i s (setG s th d y) :=
  hx ▸ gives_issueThr (fun th => wg th d (x th)) h hi

/-! ### High halves of products -/

theorem extractLsb'_ofInt_high (p : Int) : (BitVec.ofInt 128 p).extractLsb' 64 64 = BitVec.ofInt 64 (p / 2 ^ 64) := by
  apply BitVec.eq_of_toNat_eq
  simp only [BitVec.extractLsb'_toNat, BitVec.toNat_ofInt, Nat.shiftRight_eq_div_pow]
  omega

theorem mulh_eq (x y : DWord) :
    (x.signExtend 128 * y.signExtend 128).extractLsb' 64 64 = BitVec.ofInt 64 (x.toInt * y.toInt / 2 ^ 64) := by
  rw [← extractLsb'_ofInt_high, BitVec.ofInt_mul]
  rfl

theorem mulhu_eq (x y : DWord) :
    (x.setWidth 128 * y.setWidth 128).extractLsb' 64 64 = BitVec.ofNat 64 (x.toNat * y.toNat / 2 ^ 64) := by
  have product : x.toNat * y.toNat < 2 ^ 128 := pow_add 2 64 64 ▸ Nat.mul_lt_mul'' x.isLt y.isLt
  apply BitVec.eq_of_toNat_eq
  rw [BitVec.extractLsb'_toNat, BitVec.toNat_mul, BitVec.toNat_setWidth_of_le (by decide), BitVec.toNat_setWidth_of_le (by decide),
    Nat.mod_eq_of_lt product, Nat.shiftRight_eq_div_pow, BitVec.toNat_ofNat]

theorem integerAndLogicResults : IntegerAndLogicResults := by
  intro s w th d a b h
  exact ⟨gives_wg h rfl rfl, gives_wg h rfl rfl, gives_wg h rfl rfl, gives_wg h rfl (mulh_eq _ _), gives_wg h rfl (mulhu_eq _ _),
    gives_wg h rfl rfl, gives_wg h rfl rfl, gives_wg h rfl rfl, gives_wg h rfl rfl, gives_wg h rfl rfl⟩

/-! ### Shifts and rotates -/

theorem sraW_eq (x n : DWord) : sraW x n = BitVec.ofInt 64 (x.toInt / 2 ^ (n.toNat % 64)) := by
  rw [sraW, BitVec.sshiftRight, Int.shiftRight_eq_div_pow]
  rfl

theorem rolW_eq (x n : DWord) : rolW x n = x <<< (n.toNat % 64) ||| x >>> (64 - n.toNat % 64) :=
  BitVec.rotateLeft_eq_rotateLeftAux_of_lt (Nat.mod_lt _ (by decide))

theorem rorW_eq (x n : DWord) : rorW x n = x >>> (n.toNat % 64) ||| x <<< (64 - n.toNat % 64) :=
  BitVec.rotateRight_eq_rotateRightAux_of_lt (Nat.mod_lt _ (by decide))

/-! ### Minima, maxima and comparisons -/

section
variable {α : Type} [LinearOrder α] {v : DWord → α} {back : α → DWord} (hback : ∀ x, back (v x) = x) {x y : DWord} {c : Bool}
  (hc : c = decide (v x < v y))
include hback hc

/-- Of two registers, the one whose value is the lesser, whatever values are compared. -/
theorem select_eq_min : (if c then x else y) = back (min (v x) (v y)) := by
  subst hc
  rcases lt_or_ge (v x) (v y) with less | least
  · rw [if_pos (decide_eq_true less), min_eq_left less.le, hback]
  · rw [if_neg (by simpa using least), min_eq_right least, hback]

theorem select_eq_max : (if c then y else x) = back (max (v x) (v y)) := by
  subst hc
  rcases lt_or_ge (v x) (v y) with less | least
  · rw [if_pos (decide_eq_true less), max_eq_right less.le, hback]
  · rw [if_neg (by simpa using least), max_eq_left least, hback]

end

theorem ofNat_toNat_self (x : DWord) : BitVec.ofNat 64 x.toNat = x := by rw [BitVec.ofNat_toNat, BitVec.setWidth_eq]

theorem boolWord_slt (x y : DWord) : boolWord (x.slt y) = if x.toInt < y.toInt then 1 else 0 := by
  rw [boolWord, BitVec.slt_eq_decide]
  simp only [decide_eq_true_eq]

theorem boolWord_ult (x y : DWord) : boolWord (x.ult y) = if x.toNat < y.toNat then 1 else 0 := by
  rw [boolWord, BitVec.ult_eq_decide]
  simp only [decide_eq_true_eq]

theorem shiftsAndComparisons : ShiftsAndComparisons := by
  intro s w th d a b h
  exact ⟨gives_wg h rfl rfl, gives_wg h rfl rfl, gives_wg h rfl (sraW_eq _ _), gives_wg h rfl (rolW_eq _ _),
    gives_wg h rfl (rorW_eq _ _), gives_wg h rfl (select_eq_min (fun _ => BitVec.ofInt_toInt) rfl),
    gives_wg h rfl (select_eq_max (fun _ => BitVec.ofInt_toInt) rfl), gives_wg h rfl (select_eq_min ofNat_toNat_self rfl),
    gives_wg h rfl (select_eq_max ofNat_toNat_self rfl), gives_wg h rfl (boolWord_slt _ _), gives_wg h rfl (boolWord_ult _ _)⟩

/-! ### Counts and extensions -/

/-- The zeros above the highest bit that is 1. -/
theorem leadZeros_spec (x : DWord) : leadZeros x ≤ 64 ∧ (∀ i, i < leadZeros x → x.getLsbD (63 - i) = false) ∧
    (leadZeros x < 64 → x.getLsbD (63 - leadZeros x) = true) := by
  rcases eq_or_ne x 0 with rfl | hx
  · simp [leadZeros]
  · have nonzero : x.toNat ≠ 0 := fun h => hx (BitVec.eq_of_toNat_eq h)
    have top : x.toNat.log2 < 64 := (Nat.log2_lt nonzero).mpr x.isLt
    rw [leadZeros, if_neg hx]
    refine ⟨by omega, fun i hi => ?_, fun _ => ?_⟩
    · exact Nat.testBit_lt_two_pow (Nat.lt_log2_self.trans_le (Nat.pow_le_pow_right two_pos (by omega)))
    · rw [show 63 - (63 - x.toNat.log2) = x.toNat.log2 by omega]
      exact Nat.testBit_log2 nonzero

/-- The zeros below the lowest bit that is 1. -/
theorem trailZeros_spec (x : DWord) : trailZeros x ≤ 64 ∧ (∀ i, i < trailZeros x → x.getLsbD i = false) ∧
    (trailZeros x < 64 → x.getLsbD (trailZeros x) = true) := by
  rw [trailZeros]
  cases found : (List.range 64).find? fun i => x.getLsbD i with
  | none =>
    rw [List.find?_range_eq_none] at found
    exact ⟨le_rfl, fun i hi => by simpa using found i hi, fun h => absurd h (lt_irrefl 64)⟩
  | some n =>
    obtain ⟨one, inside, zeros⟩ := List.find?_range_eq_some.mp found
    exact ⟨(List.mem_range.mp inside).le, fun i hi => by simpa using zeros i hi, fun _ => one⟩

theorem getLsbD_reverse_of_lt (x : DWord) {i : Nat} (hi : i < 64) : x.reverse.getLsbD i = x.getLsbD (63 - i) := by
  rw [BitVec.getLsbD_reverse, BitVec.getMsbD_eq_getLsbD, decide_eq_true hi, Bool.true_and]

theorem sextBytes_eq (z : Nat) (x : DWord) (hz : 8 * z ≤ 64) : sextBytes z x = (x.extractLsb' 0 (8 * z)).signExtend 64 := by
  rw [sextBytes, ← BitVec.setWidth_eq_extractLsb' hz]

theorem bitCountsAndExtensions : BitCountsAndExtensions := by
  intro s w th d a h
  exact ⟨⟨leadZeros (rg th a), gives_wg h rfl rfl, leadZeros_spec _⟩,
    ⟨trailZeros (rg th a), gives_wg h rfl rfl, trailZeros_spec _⟩,
    gives_wg h rfl (congrArg (BitVec.ofNat 64) List.countP_eq_length_filter),
    ⟨(rg th a).reverse, gives_wg h rfl rfl, fun _ => getLsbD_reverse_of_lt _⟩,
    gives_wg h rfl (sextBytes_eq 1 _ (by decide)), gives_wg h rfl (sextBytes_eq 2 _ (by decide)),
    gives_wg h rfl (sextBytes_eq 4 _ (by decide))⟩

/-- Settles O13. -/
theorem integerResults : Obligations.IntegerResults := ⟨integerAndLogicResults, shiftsAndComparisons, bitCountsAndExtensions⟩

/-! ### Immediates (R166, R167) -/

/-- The amount of a shift by an immediate, as the shift of a register takes it. -/
theorem amount_mod (h : BitVec 6) : (h.setWidth 64 : DWord).toNat % 64 = h.toNat := by
  rw [BitVec.toNat_setWidth_of_le (by decide), Nat.mod_eq_of_lt h.isLt]

/-- Settles O14. -/
theorem immediateResults : Obligations.ImmediateResults := by
  intro s w th d a i h ready
  have left (x : DWord) : sllW x (h.setWidth 64) = x <<< h.toNat := by rw [sllW, amount_mod]
  have right (x : DWord) : srlW x (h.setWidth 64) = x >>> h.toNat := by rw [srlW, amount_mod]
  have arith (x : DWord) : sraW x (h.setWidth 64) = BitVec.ofInt 64 (x.toInt / 2 ^ h.toNat) := by rw [sraW_eq, amount_mod]
  have around (x : DWord) : rorW x (h.setWidth 64) = x >>> h.toNat ||| x <<< (64 - h.toNat) := by rw [rorW_eq, amount_mod]
  exact ⟨gives_wg ready rfl rfl, gives_wg ready rfl rfl, gives_wg ready rfl rfl, gives_wg ready rfl rfl,
    gives_wg ready rfl (boolWord_slt _ _), gives_wg ready rfl (boolWord_ult _ _), gives_wg ready rfl (left _), gives_wg ready rfl (right _),
    gives_wg ready rfl (arith _), gives_wg ready rfl (around _)⟩

/-! ### Upper immediates (R168) -/

theorem off20_eq (o : BitVec 20) : off20 o = o.signExtend 64 * 4 := by
  rw [off20, BitVec.shiftLeft_eq_mul_twoPow]; rfl

/-- A number in the range of a field is what the field's sign extension holds. -/
theorem signExtend_ofInt {n : Nat} {x : Int} (low : -(2 ^ n) ≤ x) (high : x < 2 ^ n) :
    (BitVec.ofInt (n + 1) x).signExtend 64 = BitVec.ofInt 64 x := by
  rw [BitVec.signExtend, BitVec.toInt_ofInt_eq_self (Nat.succ_pos n) low high]

/-- Settles O15. -/
theorem upperImmediates : Obligations.UpperImmediates := by
  refine ⟨fun w d i => ⟨PorlekEncoding.porlekDecodesItsEncoding _ _ rfl rfl, PorlekEncoding.porlekDecodesItsEncoding _ _ rfl rfl⟩,
    fun s w th d i h => ⟨gives_wg h rfl rfl, gives_wg h rfl (by rw [off20_eq])⟩, fun v low high => ?_⟩
  intro hi lo
  have upper : (BitVec.ofInt 20 hi).signExtend 64 = BitVec.ofInt 64 hi := signExtend_ofInt (n := 19) (by omega) (by omega)
  have lower : (BitVec.ofInt 15 lo).signExtend 64 = BitVec.ofInt 64 lo := signExtend_ofInt (n := 14) (by omega) (by omega)
  have whole : hi * 2 ^ 15 + lo = v := by omega
  rw [upper, lower, BitVec.shiftLeft_eq_mul_twoPow, ← whole, BitVec.ofInt_add, BitVec.ofInt_mul]
  rfl

end Sys2Proof.IntegerInstructions

namespace Sys2Proof.ScalarFloats

open Sys2Proof Machine Laws MasksAndBranches FaithfulRounding

variable {s : State} {w : Bool} {th : Thread} {d a b : BitVec 5} {p : BitVec 2} {i : Instr}

/-- An operation that does not round writes its result and raises its flags (R131). -/
theorem gives_fpPlain {f : Fmt → Nat → Nat → Nat × Flags} {q : Nat} {fl : Flags} (h : Ready s w th)
    (hi : exec i s = fpPlain w d a b p f s)
    (hq : f (fmtOfP p.toNat) (fpIn (fmtOfP p.toNat) (rg th a)) (fpIn (fmtOfP p.toNat) (rg th b)) = (q, fl)) :
    Gives i s (setThr s (nextPc (raise (wg th d (BitVec.ofNat 64 q)) fl))) := by
  have result := hi.trans (issueThr_ok h)
  rwa [hq] at result

theorem sigNV_pair (u v : Machine.Num) : sigNV [u, v] = if u.isSig || v.isSig then fNV else 0 := by
  simp only [sigNV, List.any_cons, List.any_nil, Bool.or_false]

/-! ### Minima and maxima (R172) -/

theorem ltMin_of_less {u v : Machine.Num} (h : cmpNum u v = -1) : ltMin u v = true := by
  rw [ltMin, h]; rfl

theorem ltMin_of_greater {u v : Machine.Num} (h : cmpNum u v = 1) : ltMin u v = false := by
  rw [ltMin, h]; rfl

theorem ltMin_of_equal {u v : Machine.Num} (h : cmpNum u v = 0) : ltMin u v = (u.sgn && !v.sgn) := by
  rw [ltMin, h]; rfl

section
variable {f : Fmt} {mx : Bool} {x y : Nat}

theorem minMax_flags : (minMax f mx x y).2 = sigNV [f.num x, f.num y] := by
  unfold minMax
  dsimp only
  split_ifs <;> rfl

theorem minMax_nans (hx : (f.num x).isNan = true) (hy : (f.num y).isNan = true) : (minMax f mx x y).1 = f.nanCode := by
  simp only [minMax, hx, hy, Bool.and_self, if_true]

theorem minMax_nan_left (hx : (f.num x).isNan = true) (hy : (f.num y).isNan = false) : (minMax f mx x y).1 = y := by
  simp only [minMax, hx, hy, Bool.and_false, Bool.false_eq_true, if_false, if_true]

theorem minMax_nan_right (hx : (f.num x).isNan = false) (hy : (f.num y).isNan = true) : (minMax f mx x y).1 = x := by
  simp only [minMax, hx, hy, Bool.false_and, Bool.false_eq_true, if_false, if_true]

theorem minMax_numbers (hx : (f.num x).isNan = false) (hy : (f.num y).isNan = false) :
    (minMax f mx x y).1 = if ltMin (f.num x) (f.num y) != mx then x else y := by
  simp only [minMax, hx, hy, Bool.false_and, Bool.false_eq_true, if_false]

end

/-- The operand that stands below the other, or above it. -/
theorem select_below {c : Bool} (mx : Bool) (x y : Nat) (hc : c = true) : (if c != mx then x else y) = if mx then y else x := by
  subst hc
  cases mx <;> rfl

theorem select_above {c : Bool} (mx : Bool) (x y : Nat) (hc : c = false) : (if c != mx then x else y) = if mx then x else y := by
  subst hc
  cases mx <;> rfl

/-- Settles O20: the operand returned is picked by the order of the values, in which -0 stands below +0. -/
theorem floatMinimumAndMaximum : Obligations.FloatMinimumAndMaximum := by
  intro s w th d a b p h f x y u v chooses
  have choice {i : Instr} {mx : Bool} (hi : exec i s = fpPlain w d a b p (minMax · mx · ·) s) : chooses i mx := by
    have flags : (minMax f mx x y).2 = if u.isSig || v.isSig then fNV else 0 := minMax_flags.trans (sigNV_pair u v)
    refine ⟨(minMax f mx x y).1, gives_fpPlain h hi (Prod.ext rfl flags), minMax_nans, minMax_nan_left, minMax_nan_right,
      fun hu hv => ?_⟩
    rw [minMax_numbers hu hv]
    refine ⟨fun less => select_below mx x y (ltMin_of_less less), fun more => select_above mx x y (ltMin_of_greater more),
      fun tie hus hvs => select_below mx x y ?_, fun tie hus hvs => select_above mx x y ?_, ?_⟩
    · rw [ltMin_of_equal tie, hus, hvs]; rfl
    · rw [ltMin_of_equal tie, hus, hvs]; rfl
    · split <;> simp
  exact ⟨choice rfl, choice rfl⟩

/-! ### Comparisons (R173) -/

/-- A comparison writes 1 where its condition holds. -/
theorem gives_fpCmp {n : Nat} {c : Bool} {fl : Flags} (h : Ready s w th) (hi : exec i s = fpPlain w d a b p (fpCmp n) s)
    (hc : fcmp (fmtOfP p.toNat) n (fpIn (fmtOfP p.toNat) (rg th a)) (fpIn (fmtOfP p.toNat) (rg th b)) = (c, fl)) :
    Gives i s (setThr s (nextPc (raise (wg th d (if c then 1 else 0)) fl))) := by
  have result := gives_fpPlain h hi (congrArg (fun x => (b2n x.1, x.2)) hc)
  cases c <;> exact result

theorem isNan_of_isSig {u : Machine.Num} (h : u.isSig = true) : u.isNan = true := by
  cases u with
  | nan sig => rfl
  | inf neg => cases h
  | fin neg m e st => cases h

/-- An ordered comparison raises NV for every NaN, a signalling one among them. -/
theorem orderedFlags_eq (u v : Machine.Num) :
    (if u.isNan || v.isNan then fNV else sigNV [u, v]) = if u.isNan || v.isNan then fNV else 0 := by
  refine if_ctx_congr Iff.rfl (fun _ => rfl) fun numbers => ?_
  rw [sigNV_pair, if_neg]
  exact fun sig => numbers (Bool.or_eq_true_iff.mpr ((Bool.or_eq_true_iff.mp sig).imp isNan_of_isSig isNan_of_isSig))

/-! ### Classes (R173) -/

/-- A subnormal's magnitude is below the least normal value, a normal number's is not. -/
theorem magnitude_lt_iff {f : Fmt} {m : Nat} {e : Int} (h : (m < 2 ^ f.m ∧ e = f.qmin) ∨ (2 ^ f.m ≤ m ∧ f.qmin ≤ e)) :
    (m : Rat) * 2 ^ e < 2 ^ (1 - f.bias) ↔ m < 2 ^ f.m := by
  have least : (2 : Rat) ^ (1 - f.bias) = (2 ^ f.m : Nat) * 2 ^ f.qmin := by
    rw [Fmt.qmin, Nat.cast_pow, Nat.cast_ofNat, ← zpow_natCast, ← zpow_add₀ two_ne_zero, add_sub_cancel]
  rw [least]
  rcases h with ⟨small, rfl⟩ | ⟨large, above⟩
  · simp only [small, iff_true]
    exact mul_lt_mul_of_pos_right (by exact_mod_cast small) (by positivity)
  · refine iff_of_false (not_lt.mpr ?_) (not_lt.mpr large)
    exact mul_le_mul (by exact_mod_cast large) (zpow_le_zpow_right₀ one_le_two above) (by positivity) (by positivity)

/-- A finite code of a format of R128: its significand lacks the leading 1 at the least exponent only. -/
theorem num_fin_range {f : Fmt} (hf : Ieee f) {c m : Nat} {neg st : Bool} {e : Int} (h : f.num c = .fin neg m e st) :
    (m < 2 ^ f.m ∧ e = f.qmin) ∨ (2 ^ f.m ≤ m ∧ f.qmin ≤ e) := by
  have low : magOf f c % 2 ^ f.m < 2 ^ f.m := Nat.mod_lt _ (Nat.two_pow_pos _)
  rw [num_eq hf] at h
  split_ifs at h with top inf zero
  · injection h with _ hm he
    exact .inl ⟨hm ▸ low, he.symm⟩
  · injection h with _ hm he
    refine .inr ⟨by omega, ?_⟩
    have above : (1 : Int) ≤ (magOf f c / 2 ^ f.m : Nat) := by exact_mod_cast Nat.pos_of_ne_zero zero
    rw [← he, Fmt.qmin]
    linarith

theorem fmtOfP_mem (p : BitVec 2) : fmtOfP p.toNat ∈ [f64, f32, bf16, f16] := by
  decide +revert

/-- The bit of FCLASS for a value of a format, by its class (R173). -/
def classBit (f : Fmt) (x : Machine.Num) : Nat :=
  if x.isSig then 8 else if x.isNan then 9 else if x = .inf true then 0 else if x = .inf false then 7
  else if valQ x = 0 then (if x.sgn then 3 else 4)
  else if |valQ x| < (2 : Rat) ^ (1 - f.bias) then (if x.sgn then 2 else 5) else if x.sgn then 1 else 6

theorem valQ_fin_eq_zero (neg : Bool) (m : Nat) (e : Int) (st : Bool) : valQ (.fin neg m e st) = 0 ↔ m = 0 := by
  have unit : (2 : Rat) ^ e ≠ 0 := zpow_ne_zero e two_ne_zero
  rw [valQ_fin]
  cases neg <;> simp [signed, unit]

theorem classBit_fin (f : Fmt) (neg : Bool) (m : Nat) (e : Int) (st : Bool) :
    classBit f (.fin neg m e st) = if m = 0 then (if neg then 3 else 4)
      else if (m : Rat) * 2 ^ e < 2 ^ (1 - f.bias) then (if neg then 2 else 5) else if neg then 1 else 6 := by
  have magnitude : |valQ (.fin neg m e st)| = m * 2 ^ e := by rw [valQ_fin, abs_signed neg (by positivity)]
  have number : (Machine.Num.fin neg m e st).isSig = false ∧ (Machine.Num.fin neg m e st).isNan = false := ⟨rfl, rfl⟩
  by_cases hm : m = 0
  · simp only [classBit, number, reduceCtorEq, Bool.false_eq_true, if_false, (valQ_fin_eq_zero neg m e st).mpr hm, if_pos hm, if_true]
    rfl
  · simp only [classBit, number, reduceCtorEq, Bool.false_eq_true, if_false, magnitude, (valQ_fin_eq_zero neg m e st).not.mpr hm,
      if_neg hm]
    rfl

theorem fclassOf_eq {f : Fmt} (hf : Ieee f) (c : Nat) : fclassOf f c = 2 ^ classBit f (f.num c) := by
  rw [fclassOf]
  cases hx : f.num c with
  | nan sig => cases sig <;> rfl
  | inf neg => cases neg <;> rfl
  | fin neg m e st =>
    simp only [classBit_fin, magnitude_lt_iff (num_fin_range hf hx)]
    cases neg <;> split_ifs <;> rfl

/-- Settles O21. -/
theorem floatComparisonsAndConversions : Obligations.FloatComparisonsAndConversions := by
  intro s w th d a b p t ty r h f x y un m gives
  refine ⟨gives_fpCmp h rfl (Prod.ext rfl (sigNV_pair x y)), gives_fpCmp h rfl (Prod.ext rfl (orderedFlags_eq x y)),
    gives_fpCmp h rfl (Prod.ext rfl (orderedFlags_eq x y)), ?_, ?_, ?_⟩
  · exact gives_fpPlain (f := fun f x _ => (fclassOf f x, 0)) (b := 0) h rfl (Prod.ext (fclassOf_eq (ieee_of_mem f (fmtOfP_mem p)) _) rfl)
  · exact Eq.trans (b := execFcvtI w d a t p r s) rfl (issueThr_ok h)
  · exact Eq.trans (b := execFcvtF w d a ty p r s) rfl (issueThr_ok h)

/-! ### Bit moves (R176) -/

theorem raise_none (th : Thread) : raise th 0 = th := by
  have none : th.fpcsr ||| (BitVec.setWidth 64 (0 : Flags) <<< 5) = th.fpcsr := by simp
  rw [raise, none]

theorem width_fmtOfP (p : BitVec 2) : (fmtOfP p.toNat).width = if p = 1 then 64 else if p = 0 then 32 else 16 := by
  decide +revert

/-- Settles O22. -/
theorem floatBitMove : Obligations.FloatBitMove := by
  intro s w th d a p h n
  have low : fpIn (fmtOfP p.toNat) (rg th a) = (rg th a).toNat % 2 ^ n := by rw [fpIn, width_fmtOfP]
  have moved := gives_fpPlain (i := .fmvb w d a p) (f := fun _ x _ => (x, 0)) (b := 0) h rfl (Prod.ext low rfl)
  rw [raise_none, nextPc, wg_pc] at moved
  have frame := wg_frame th d (BitVec.ofNat 64 ((rg th a).toNat % 2 ^ n))
  exact ⟨_, _, moved, rfl, by rw [frame], rfl⟩

end Sys2Proof.ScalarFloats

namespace Sys2Proof.JumpsAndPointers

open Sys2Proof Machine Laws

variable {s : State} {w : Bool} {th : Thread} {d a : BitVec 5}

/-! ### JAL (R179) -/

/-- Settles O24. -/
theorem jumpAndLink : Obligations.JumpAndLink :=
  ⟨fun _ _ _ => PorlekEncoding.porlekDecodesItsEncoding _ _ rfl rfl,
    fun _ _ _ _ o h => IntegerInstructions.off20_eq o ▸ InstructionFrames.gives_jal h⟩

/-! ### JALR (R180) -/

section
variable {i : BitVec 15} (h : Ready s w th) (ht : rg th a + i.signExtend 64 ≠ 0)
include h ht

theorem jumps_jalr (aligned : (rg th a + i.signExtend 64).toNat % 4 = 0) :
    Gives (.jalr w d a i) s (setThr s { wg th d (th.pc + 4) with pc := rg th a + i.signExtend 64 }) :=
  Eq.trans (b := execJalr w d a i s) rfl (issue_ok h ((if_neg ht).trans (if_neg (not_not_intro aligned))))

theorem traps_jalr (unaligned : (rg th a + i.signExtend 64).toNat % 4 ≠ 0) :
    Gives (.jalr w d a i) s (trapState s th 0x05 (vaOf (rseg th 0) (rg th a + i.signExtend 64)) 2) :=
  Eq.trans (b := execJalr w d a i s) rfl (issue_err h ((if_neg ht).trans (if_pos unaligned)))

end

/-! ### CALLT (R62, R182) -/

theorem bits_entry (x : Nat) : bits x 55 0 = x % 2 ^ 56 := by simp [bits]

theorem badTag_iff (x : DWord) : badTag x = true ↔ 2 ^ 56 ≤ x.toNat % 2 ^ 62 ∨ 2 ^ 63 ≤ x.toNat := by
  have width := x.isLt
  rw [badTag, Bool.or_eq_true, decide_eq_true_iff, bne_iff_ne]
  simp only [bits]
  omega

/-- A pointer below 2^56 has the tag of Porlek code. -/
theorem porlekTag {x : DWord} (hx : x.toNat < 2 ^ 56) : badTag x = false ∧ bits x.toNat 63 62 = 0 := by
  refine ⟨Bool.eq_false_iff.mpr fun bad => ?_, ?_⟩
  · have := (badTag_iff x).mp bad
    omega
  · simp only [bits]
    omega

section
variable (h : Ready s true th)
include h

theorem traps_callt_tag (bad : badTag (rg th a) = true) :
    Gives (.callt w a) s (trapState s th 0x1D (BitVec.ofNat 64 ((rg th a).toNat % 2 ^ 56)) 2) := by
  refine Eq.trans (b := execCallt w a s) rfl (issue_err h ?_)
  simp only [bad, if_true, bits_entry]
  rfl

theorem traps_callt_entry {c : Byte} (hx : (rg th a).toNat < 2 ^ 56) (refused : porlekEntry (rseg th 0) (rg th a) = .error c) :
    Gives (.callt w a) s (trapState s th c (BitVec.ofNat 64 ((rg th a).toNat % 2 ^ 56)) 2) := by
  obtain ⟨tag, code⟩ := porlekTag hx
  refine Eq.trans (b := execCallt w a s) rfl (issue_err h ?_)
  simp only [tag, code, refused, Bool.false_eq_true, if_false, if_true, bits_entry]
  rfl

theorem calls_callt {off : DWord} (hx : (rg th a).toNat < 2 ^ 56) (entered : porlekEntry (rseg th 0) (rg th a) = .ok off) :
    Gives (.callt w a) s (setThr s { wg th 31 (th.pc + 4) with pc := off }) := by
  obtain ⟨tag, code⟩ := porlekTag hx
  refine Eq.trans (b := execCallt w a s) rfl (issue_ok h ?_)
  simp only [tag, code, entered, Bool.false_eq_true, if_false, if_true]
  rfl

end

/-- The checks of an entry, in their order (R182). -/
theorem porlekEntry_checks (g : Seg) (x : DWord) :
    let e := x.toNat % 2 ^ 56
    (e % 4 ≠ 0 → porlekEntry g x = .error 0x05) ∧
    (e % 4 = 0 → g.exec = false → porlekEntry g x = .error 0x04) ∧
    (e % 4 = 0 → g.exec = true → e < g.base ∨ g.base + g.limit ≤ e → porlekEntry g x = .error 0x03) ∧
    (e % 4 = 0 → g.exec = true → g.base ≤ e → e < g.base + g.limit → porlekEntry g x = .ok (BitVec.ofNat 64 (e - g.base))) := by
  simp only [porlekEntry, bits_entry]
  refine ⟨fun unaligned => if_pos unaligned, fun aligned barred => ?_, fun aligned right outside => ?_,
    fun aligned right low high => ?_⟩
  · rw [if_neg (not_not_intro aligned), barred]
    rfl
  · rw [if_neg (not_not_intro aligned), right, if_neg (by decide), if_pos (by omega)]
  · rw [if_neg (not_not_intro aligned), right, if_neg (by decide), if_neg (by omega)]

/-! ### MKFP (R183) -/

/-- The tag of a graph's pointer stands above its address (R62). -/
theorem graphTag_eq (g : Seg) (x : DWord) :
    BitVec.ofNat 64 (2 ^ 62) ||| vaOf g x = BitVec.ofNat 64 (2 ^ 62 + (g.base + x.toNat) % 2 ^ 56) := by
  have below : (g.base + x.toNat) % 2 ^ 56 < 2 ^ 62 := (Nat.mod_lt _ (by decide)).trans (by decide)
  rw [vaOf, ← BitVec.ofNat_or, ← Nat.mul_one (2 ^ 62), Nat.two_pow_add_eq_or_of_lt below]

section
variable (h : Ready s w th)
include h

/-- MKFP of Porlek code, its checks in their order. -/
theorem mkfpP_checks :
    let x := rg th a
    let c := rseg th 0
    let q := x.toNat
    (q % 4 ≠ 0 → Gives (.mkfpP w d a) s (trapState s th 0x05 (vaOf c x) 2)) ∧
    (q % 4 = 0 → c.exec = false → Gives (.mkfpP w d a) s (trapState s th 0x04 (vaOf c x) 2)) ∧
    (q % 4 = 0 → c.exec = true → c.limit ≤ q → Gives (.mkfpP w d a) s (trapState s th 0x03 (vaOf c x) 2)) ∧
    (q % 4 = 0 → c.exec = true → q < c.limit → Gives (.mkfpP w d a) s (setG s th d (BitVec.ofNat 64 ((c.base + q) % 2 ^ 56)))) := by
  intro x c q
  have exec : exec (.mkfpP w d a) s = execMkfpP w d a s := rfl
  refine ⟨fun unaligned => exec.trans (issue_err h (if_pos unaligned)), fun aligned barred => exec.trans (issue_err h ?_),
    fun aligned right beyond => exec.trans (issue_err h ?_), fun aligned right inside => exec.trans (issue_ok h ?_)⟩
  · rw [if_neg (not_not_intro aligned), barred]
    rfl
  · rw [if_neg (not_not_intro aligned), right, if_neg (by decide), if_pos beyond]
    rfl
  · rw [if_neg (not_not_intro aligned), right, if_neg (by decide), if_neg (not_le.mpr inside)]
    rfl

/-- MKFP of a graph, its checks in their order. -/
theorem mkfpR_checks (g : BitVec 3) :
    let x := rg th a
    let q := x.toNat
    let r := rseg th g
    (q % 64 ≠ 0 → Gives (.mkfpR w d a g) s (trapState s th 0x05 (vaOf r x) 2)) ∧
    (q % 64 = 0 → r.read = false → Gives (.mkfpR w d a g) s (trapState s th 0x04 (vaOf r x) 2)) ∧
    (q % 64 = 0 → r.read = true → r.limit < q + 64 → Gives (.mkfpR w d a g) s (trapState s th 0x03 (vaOf r x) 2)) ∧
    (q % 64 = 0 → r.read = true → q + 64 ≤ r.limit →
      Gives (.mkfpR w d a g) s (setG s th d (BitVec.ofNat 64 (2 ^ 62 + (r.base + q) % 2 ^ 56)))) := by
  intro x q r
  have exec : exec (.mkfpR w d a g) s = execMkfpR w d a g s := rfl
  refine ⟨fun unaligned => exec.trans (issue_err h (if_pos unaligned)), fun aligned barred => exec.trans (issue_err h ?_),
    fun aligned right beyond => exec.trans (issue_err h ?_), fun aligned right inside => exec.trans (issue_ok h ?_)⟩
  · rw [if_neg (not_not_intro aligned), barred]
    rfl
  · rw [if_neg (not_not_intro aligned), right, if_neg (by decide), if_pos beyond]
    rfl
  · rw [if_neg (not_not_intro aligned), right, if_neg (by decide), if_neg (not_lt.mpr inside), graphTag_eq]
    rfl

end

/-- Settles O25. -/
theorem jumpsAndPointers : Obligations.JumpsAndPointers := by
  intro s w th d a i g h x c
  refine ⟨fun ht => ⟨jumps_jalr h ht, traps_jalr h ht⟩, fun ops => ?_, mkfpP_checks h, mkfpR_checks h g⟩
  have marker := ready_strengthen h ops
  obtain ⟨unaligned, barred, outside, entered⟩ := porlekEntry_checks c x
  exact ⟨fun bad => traps_callt_tag marker ((badTag_iff x).mpr bad),
    fun hx => ⟨fun he => traps_callt_entry marker hx (unaligned he), fun he hc => traps_callt_entry marker hx (barred he hc),
      fun he hc ho => traps_callt_entry marker hx (outside he hc ho), fun he hc hl hh => calls_callt marker hx (entered he hc hl hh)⟩⟩

end Sys2Proof.JumpsAndPointers

namespace Sys2Proof.VectorLayer

open Sys2Proof Machine Laws

/-! ### Digits (R74) -/

/-- A digit that lies within the width of a word is the number's own. -/
theorem digit_ofNat {k i n : Nat} (x : Nat) (h : i + n ≤ k) : (BitVec.ofNat k x).toNat / 2 ^ i % 2 ^ n = x / 2 ^ i % 2 ^ n := by
  obtain ⟨c, rfl⟩ := Nat.exists_eq_add_of_le h
  rw [BitVec.toNat_ofNat, Nat.add_assoc, pow_add 2 i, Nat.mod_mul_right_div_self,
    Nat.mod_mod_of_dvd _ (pow_dvd_pow 2 (Nat.le_add_right n c))]

/-- A digit of a number built from a list of them, least first. -/
theorem digit_foldr (w : Nat) (xs : List Nat) (i : Nat) :
    xs.foldr (fun v a => v % 2 ^ w + a * 2 ^ w) 0 / 2 ^ (w * i) % 2 ^ w = xs.getD i 0 % 2 ^ w := by
  have low (v : Nat) : v % 2 ^ w < 2 ^ w := Nat.mod_lt v (Nat.two_pow_pos w)
  induction xs generalizing i with
  | nil => simp
  | cons v vs ih =>
    rw [List.foldr_cons]
    cases i with
    | zero => rw [Nat.mul_zero, pow_zero, Nat.div_one, Nat.add_mul_mod_self_right, Nat.mod_mod, List.getD_cons_zero]
    | succ i =>
      rw [List.getD_cons_succ, ← ih i, Nat.mul_succ, Nat.add_comm (w * i), pow_add, ← Nat.div_div_eq_div_mul,
        Nat.add_mul_div_right _ _ (Nat.two_pow_pos w), Nat.div_eq_of_lt (low v), Nat.zero_add]

/-- The digits that a list of places picks, added up, are the digits of a number. -/
theorem sum_filter_digits (c n : Nat) (p : Nat → Bool) (f : Nat → Nat) (hf : ∀ i, f i < 2 ^ c) :
    (((List.range n).filter p).map fun i => f i * 2 ^ (c * i)).sum = digits c n fun i => if p i then f i else 0 := by
  induction n with
  | zero => rfl
  | succ n ih =>
    rw [List.range_succ, List.filter_append, List.map_append, List.sum_append, ih, digits_succ]
    cases hp : p n <;> simp [hp, Nat.mod_eq_of_lt (hf n)]

/-! ### Lanes (R74, R184) -/

theorem laneW_mul_add_le {l : Bool} {i : Nat} (hi : i < laneN l) : laneW l * i + laneW l ≤ 512 := by
  cases l <;> simp only [laneW, laneN, if_true, if_false, Bool.false_eq_true] at hi ⊢ <;> omega

theorem lane_lt (l : Bool) (x : VReg) (i : Nat) : lane l x i < 2 ^ laneW l := Nat.mod_lt _ (Nat.two_pow_pos _)

theorem toNat_extractLsb'_lane (l : Bool) (x : VReg) (i : Nat) : (x.extractLsb' (laneW l * i) (laneW l)).toNat = lane l x i := by
  rw [BitVec.extractLsb'_toNat, Nat.shiftRight_eq_div_pow]
  rfl

theorem lane_ofLanes {l : Bool} {i : Nat} (xs : List Nat) (hi : i < laneN l) : lane l (ofLanes l xs) i = xs.getD i 0 % 2 ^ laneW l := by
  rw [lane, ofLanes, digit_ofNat _ (laneW_mul_add_le hi), digit_foldr]

@[simp] theorem lane_lanesOf {l : Bool} {i : Nat} (f : Nat → Nat) (hi : i < laneN l) : lane l (lanesOf l f) i = f i % 2 ^ laneW l := by
  rw [lanesOf, lane_ofLanes _ hi, List.getD_eq_getElem?_getD, List.getElem?_map, List.getElem?_range hi]
  rfl

/-! ### Masks (R75) -/

theorem getLsbD_allTrue {i : Nat} (hi : i < 16) : (0xFFFF : BitVec 16).getLsbD i = true := by
  show (BitVec.allOnes 16).getLsbD i = true
  rw [BitVec.getLsbD_allOnes, decide_eq_true hi]

theorem kbit_zero (l : Bool) (th : Thread) {i : Nat} (hi : i < laneN l) : kbit l (rk th 0) i = true := by
  rw [rk_zero, kbit]
  refine getLsbD_allTrue ?_
  cases l <;> simp only [laneN, if_true, if_false, Bool.false_eq_true] at hi ⊢ <;> omega

/-- A bit added to a mask of 16 bits, or not. -/
theorem getLsbD_addBit (c : Bool) (x : BitVec 16) (n : Nat) {j : Nat} (hj : j < 16) :
    (if c then x ||| ((1 : BitVec 16) <<< n) else x).getLsbD j = (x.getLsbD j || (decide (j = n) && c)) := by
  have one : ((1 : BitVec 16) <<< n).getLsbD j = decide (j = n) := by
    by_cases h : j = n
    · simp [h, h ▸ hj]
    · by_cases low : j < n
      · simp [h, low]
      · simp [h, show j - n ≠ 0 by omega]
  cases c
  · simp
  · rw [if_pos rfl, BitVec.getLsbD_or, one, Bool.and_true]

/-- A mask of 16 bits built bit by bit on another one. -/
theorem getLsbD_foldl_addBit (p : Nat → Bool) (m : BitVec 16) (n : Nat) {j : Nat} (hj : j < 16) :
    ((List.range n).foldl (fun x i => if p i then x ||| ((1 : BitVec 16) <<< i) else x) m).getLsbD j =
      (m.getLsbD j || (decide (j < n) && p j)) := by
  induction n with
  | zero => simp
  | succ n ih =>
    rw [List.range_succ, List.foldl_append, List.foldl_cons, List.foldl_nil, getLsbD_addBit _ _ _ hj, ih]
    by_cases h : j = n
    · subst h
      simp
    · have grown : (j < n + 1) = (j < n) := propext (by omega)
      simp only [grown, h, decide_false, Bool.false_and, Bool.or_false]

theorem maskBits_extract (m : BitVec 16) {j : Nat} (hj : j < 16) :
    (maskBits m).extractLsb' (32 * j) 32 = if m.getLsbD j then BitVec.allOnes 32 else 0 := by
  have whole : maskBits m = BitVec.ofNat 512 (digits 32 16 fun j => if m.getLsbD j then 2 ^ 32 - 1 else 0) := by
    unfold maskBits digits
    congr 2
    funext a j
    split
    · next h => simp [h]
    · next h => simp [h]
  apply BitVec.eq_of_toNat_eq
  rw [whole, BitVec.extractLsb'_toNat, Nat.shiftRight_eq_div_pow, digit_ofNat _ (by omega), digit_get _ _ _ _ hj]
  split <;> rfl

/-- A register of which the bits of a mask are replaced. -/
def blend (old mask x : VReg) : VReg := (old &&& ~~~mask) ||| (x &&& mask)

theorem blend_extract_on {old mask x : VReg} {i n : Nat} (on : mask.extractLsb' i n = BitVec.allOnes n) :
    (blend old mask x).extractLsb' i n = x.extractLsb' i n := by
  ext k hk
  have bit : mask.getLsbD (i + k) = true := by
    simpa [hk] using congrArg (fun m : BitVec n => m.getLsbD k) on
  simp [blend, bit]

theorem blend_extract_off {old mask x : VReg} {i n : Nat} (off : mask.extractLsb' i n = 0) :
    (blend old mask x).extractLsb' i n = old.extractLsb' i n := by
  ext k hk
  have bit : mask.getLsbD (i + k) = false := by
    simpa [hk] using congrArg (fun m : BitVec n => m.getLsbD k) off
  simp only [blend, BitVec.getElem_extractLsb', BitVec.getLsbD_or, BitVec.getLsbD_and, BitVec.getLsbD_not, bit, Bool.not_false,
    Bool.and_true, Bool.and_false, Bool.or_false, Bool.and_eq_left_iff_imp, decide_eq_true_eq]
  exact BitVec.lt_of_getLsbD

/-- Lane by lane: the mask is a lane's ones, or its zeros. -/
theorem lane_blend {l : Bool} {old mask x : VReg} {j : Nat} {c : Prop} [Decidable c]
    (hm : lane l mask j = if c then 2 ^ laneW l - 1 else 0) :
    lane l (blend old mask x) j = if c then lane l x j else lane l old j := by
  rw [← toNat_extractLsb'_lane] at hm
  split
  · next hc =>
    rw [if_pos hc, ← BitVec.toNat_allOnes] at hm
    rw [← toNat_extractLsb'_lane, blend_extract_on (BitVec.eq_of_toNat_eq hm), toNat_extractLsb'_lane]
  · next hc =>
    rw [if_neg hc] at hm
    rw [← toNat_extractLsb'_lane, blend_extract_off (BitVec.eq_of_toNat_eq hm), toNat_extractLsb'_lane]

/-- The mask of a 16-bit mask, lane by lane. -/
theorem lane_maskBits (m : BitVec 16) {j : Nat} (hj : j < 16) :
    lane false (maskBits m) j = if m.getLsbD j then 2 ^ laneW false - 1 else 0 := by
  refine (toNat_extractLsb'_lane false _ j).symm.trans ?_
  show ((maskBits m).extractLsb' (32 * j) 32).toNat = _
  rw [maskBits_extract m hj]
  split <;> rfl

/-! ### Flags of lanes (R131) -/

theorem and_foldl_or {fl : Flags} (l : List Flags) (acc : Flags) (h : fl ∈ l ∨ fl &&& acc = fl) :
    fl &&& l.foldl (· ||| ·) acc = fl := by
  induction l generalizing acc with
  | nil => exact h.resolve_left List.not_mem_nil
  | cons x xs ih =>
    refine ih _ ?_
    rcases h with h | h
    · rcases List.mem_cons.mp h with rfl | h
      · exact .inr (by rw [BitVec.and_or_distrib_left, BitVec.and_self]; ext; simp +contextual)
      · exact .inl h
    · exact .inr (by rw [BitVec.and_or_distrib_left, h]; ext; simp +contextual)

/-- The flags of each lane are among those of all. -/
theorem and_orFlags {l : List Flags} {fl : Flags} (h : fl ∈ l) : fl &&& orFlags l = fl := and_foldl_or l 0 (.inl h)

end Sys2Proof.VectorLayer

namespace Sys2Proof.VectorForms

open Sys2Proof Machine Laws VectorLayer

variable {s s' u : State} {w : Bool} {th : Thread} {i : Instr} {srcs : List (BitVec 4)} {dst : Option (BitVec 4)} {rd : BitVec 4 → VReg}

/-! ### Operands (R76) -/

theorem withVec_of_reads (hv : VecReads s th srcs dst s' rd) (k : State → Thread → (BitVec 4 → VReg) → Res) :
    withVec s th srcs dst k = k s' th rd := by
  obtain ⟨l, popped, room, rfl⟩ := hv
  simp only [withVec, popped, room]

/-- An instruction whose operands are there answers what its meaning makes of them. -/
theorem gives_withVec {k : State → Thread → (BitVec 4 → VReg) → Res} (h : Ready s w th) (hv : VecReads s th srcs dst s' rd)
    (hi : exec i s = issue w s fun s th => withVec s th srcs dst k) (hk : k s' th rd = .ok u) : Gives i s u :=
  gives_ok h hi ((withVec_of_reads hv k).trans hk)

/-! ### What a vector instruction changes of its thread besides registers (R131, R134) -/

/-- Stepping generators changes nothing else of the thread. -/
theorem exists_foldl_stepGen {α : Type} (mode : Nat) (g : α → Nat) (l : List α) (th : Thread) :
    ∃ gens, l.foldl (fun th j => stepGen mode (g j) th) th = { th with gens := gens } := by
  induction l generalizing th with
  | nil => exact ⟨th.gens, rfl⟩
  | cons j l ih =>
    obtain ⟨gens, rest⟩ := ih (stepGen mode (g j) th)
    exact ⟨gens, by rw [List.foldl_cons, rest, InstructionFrames.stepGen_frame mode (g j) th]⟩

theorem exists_stepGens (mode : Nat) (l : List Nat) (th : Thread) : ∃ gens, stepGens mode l th = { th with gens := gens } :=
  exists_foldl_stepGen mode id l th

theorem rk_stepGens (mode : Nat) (l : List Nat) (th : Thread) (k : BitVec 2) : rk (stepGens mode l th) k = rk th k := by
  obtain ⟨gens, stepped⟩ := exists_stepGens mode l th
  rw [stepped]
  rfl

/-! ### Lanes with flags (R131, R185) -/

/-- Lane j of the results of all lanes, and its flags among theirs. -/
theorem lane_of_results {l : Bool} {j : Nat} (q : Nat → Nat × Flags) (hj : j < laneN l) :
    lane l (ofLanes l (((List.range (laneN l)).map q).map (·.1))) j = (q j).1 % 2 ^ laneW l ∧
    (q j).2 &&& orFlags (((List.range (laneN l)).map q).map (·.2)) = (q j).2 := by
  rw [List.map_map, List.map_map]
  exact ⟨lane_lanesOf (fun i => (q i).1) hj, and_orFlags (List.mem_map_of_mem (List.mem_range.mpr hj))⟩

end Sys2Proof.VectorForms

namespace Sys2Proof.VectorIntegers

open Sys2Proof Machine Laws VectorLayer VectorForms

variable {s s' : State} {w : Bool} {th : Thread} {i : Instr} {d a b : BitVec 4} {k : BitVec 2} {l : Bool} {rd : BitVec 4 → VReg}

/-! ### Integer lanes (R185, R186) -/

theorem wrapOf_natCast (w n : Nat) : wrapOf w n = n % 2 ^ w := by
  rw [wrapOf, ← Int.natCast_mod, Int.toNat_natCast]

/-- A difference wraps like the sum with the complement. -/
theorem wrapOf_sub (w x : Nat) {y : Nat} (hy : y ≤ 2 ^ w) : wrapOf w (x - y) = (x + (2 ^ w - y)) % 2 ^ w := by
  have shifted : ((x : Int) - y) % (2 ^ w : Nat) = ((x + (2 ^ w - y) : Nat) : Int) % (2 ^ w : Nat) := by
    rw [Nat.cast_add, Nat.cast_sub hy, ← Int.add_emod_right]
    ring_nf
  rw [wrapOf, shifted, ← Int.natCast_mod, Int.toNat_natCast]

/-- A lane-wise operation whose function agrees with f on lanes. -/
theorem lanes_vecInt {f g : Nat → Nat → Nat} (h : Ready s w th) (hv : VecReads s th [a, b] (some d) s' rd)
    (hi : exec i s = vecInt w d a b k l g s)
    (hg : ∀ x y, y < 2 ^ laneW l → g x y % 2 ^ laneW l = f x y % 2 ^ laneW l) :
    ∃ x, Gives i s (vecOut s' th d (rk th k) x) ∧
      ∀ j, j < laneN l → lane l x j = f (lane l (rd a) j) (lane l (rd b) j) % 2 ^ laneW l := by
  refine ⟨_, gives_withVec h hv hi rfl, fun j hj => ?_⟩
  rw [lane_lanesOf _ hj, hg _ _ (lane_lt l _ j)]

/-- Saturating arithmetic clamps the exact result, any other wraps it. -/
theorem vintArith_mod {sat u : Bool} {f : Int → Int → Int} {g : Nat → Nat → Nat} {x y : Nat}
    (hg : wrapOf (laneW l) (f x y) = g x y % 2 ^ laneW l) :
    vintArith l sat u f x y % 2 ^ laneW l =
      (if sat then clampOf (laneW l) u (f (laneInt (laneW l) u x) (laneInt (laneW l) u y)) else g x y) % 2 ^ laneW l := by
  cases sat
  · simp only [vintArith, Bool.false_eq_true, if_false, hg, Nat.mod_mod]
  · rfl

theorem vectorIntegerResults : VectorIntegerResults := by
  intro s s' w th d a b k l sat u rd h hv n v lanes
  have result {i : Instr} {f : Nat → Nat → Nat} (g : Nat → Nat → Nat) (hi : exec i s = vecInt w d a b k l g s)
      (hg : ∀ x y, y < 2 ^ n → g x y % 2 ^ n = f x y % 2 ^ n) : lanes i f := lanes_vecInt h hv hi hg
  clear_value lanes
  refine ⟨result (vintArith l sat u (· + ·)) rfl ?_, result (vintArith l sat u (· - ·)) rfl ?_,
    result (vintArith l sat u (· * ·)) rfl ?_, result (fun x y => if v x ≤ v y then x else y) rfl fun x y _ => rfl,
    result (fun x y => if v x ≤ v y then y else x) rfl fun x y _ => rfl, result (· &&& ·) rfl fun x y _ => rfl,
    result (· ||| ·) rfl fun x y _ => rfl, result (· ^^^ ·) rfl fun x y _ => rfl,
    result (fun x y => x * 2 ^ (y % n) % 2 ^ n) rfl fun x y _ => Nat.mod_mod _ _,
    result (fun x y => x / 2 ^ (y % n)) rfl fun x y _ => rfl,
    result (fun x y => wrapOf n (sgnOf n x / (2 ^ (y % n) : Nat))) rfl ?_⟩
  · exact fun x y _ => vintArith_mod (g := (· + ·)) (by exact_mod_cast wrapOf_natCast n (x + y))
  · exact fun x y hy => vintArith_mod (g := fun x y => x + (2 ^ n - y)) (wrapOf_sub n x hy.le)
  · exact fun x y _ => vintArith_mod (g := (· * ·)) (by exact_mod_cast wrapOf_natCast n (x * y))
  · intro x y _
    simp only [Nat.cast_pow, Nat.cast_ofNat]

/-! ### Comparisons (R187, R189) -/

/-- What a destination mask's instruction changes of its thread. -/
theorem exists_maskOut (th : Thread) (m k : BitVec 2) (f : Nat → Bool) : ∃ k1 k2 k3, maskOut th m k f =
    { th with pc := th.pc + 4, unbIn := [], unbOut := [], k1 := k1, k2 := k2, k3 := k3 } :=
  ⟨_, _, _, MasksAndBranches.wk_frame (pastVec th) m _⟩

/-- The enabled bits of the destination mask are the condition's, the others stay. -/
theorem getLsbD_rk_maskOut (th : Thread) {m : BitVec 2} (k : BitVec 2) (f : Nat → Bool) (hm : m ≠ 0) {j : Nat} (hj : j < 16) :
    (rk (maskOut th m k f) m).getLsbD j = if (rk th k).getLsbD j then f j else (rk th m).getLsbD j := by
  have built := getLsbD_foldl_addBit (fun i => (rk th k).getLsbD i && f i) (rk th m &&& ~~~rk th k) 16 hj
  rw [maskOut, MasksAndBranches.rk_wk_same _ _ hm, built, BitVec.getLsbD_and, BitVec.getLsbD_not, decide_eq_true hj]
  cases (rk th k).getLsbD j <;> simp only [Bool.not_false, Bool.not_true, Bool.and_true, Bool.and_false, Bool.or_false, Bool.false_or,
    Bool.true_and, Bool.false_and, Bool.false_eq_true, if_true, if_false]

theorem rk_maskOut_other (th : Thread) {m q : BitVec 2} (k : BitVec 2) (f : Nat → Bool) (hq : q ≠ m) :
    rk (maskOut th m k f) q = rk th q := MasksAndBranches.rk_wk_other (pastVec th) _ hq

section
variable {m : BitVec 2} {c : BitVec 3} {u : Bool} (h : Ready s w th) (hv : VecReads s th [a, b] none s' rd)
include h hv

theorem gives_vcmp : Gives (.vcmp w m a b k c u) s (setThr s' (maskOut th m k fun i =>
    vcmpHolds c (laneInt 32 u (lane false (rd a) i)) (laneInt 32 u (lane false (rd b) i)))) :=
  gives_withVec h hv (Eq.trans (b := execVcmp w m a b k c u s) rfl rfl) rfl

theorem gives_vfcmp : ∃ fl, Gives (.vfcmp w m a b k c) s (setThr s' (raise (maskOut th m k fun i =>
    (fcmp f32 c.toNat (lane false (rd a) i) (lane false (rd b) i)).1) fl)) :=
  ⟨_, gives_withVec h hv (Eq.trans (b := execVfcmp w m a b k c s) rfl rfl) rfl⟩

end

theorem vectorComparisons : VectorComparisons := by
  intro s s' w th m k a b c u rd h hv sets
  have result {i : Instr} {f : Nat → Nat → Bool} {fp : DWord} (hi : Gives i s (setThr s'
      { maskOut th m k fun j => f (lane false (rd a) j) (lane false (rd b) j) with fpcsr := fp })) : sets i f := by
    obtain ⟨k1, k2, k3, frame⟩ := exists_maskOut th m k fun j => f (lane false (rd a) j) (lane false (rd b) j)
    refine ⟨_, hi, ?_, ?_, ?_, fun hm j hj => getLsbD_rk_maskOut th k _ hm hj, fun q hq => rk_maskOut_other th k _ hq⟩ <;>
      rw [frame]
  obtain ⟨fl, compared⟩ := gives_vfcmp h hv
  exact ⟨result (f := fun x y => vcmpHolds c (laneInt 32 u x) (laneInt 32 u y)) (gives_vcmp h hv),
    result (f := fun x y => (fcmp f32 c.toNat x y).1) compared⟩

/-- Settles O26. -/
theorem vectorIntegerLanes : Obligations.VectorIntegerLanes := ⟨vectorIntegerResults, vectorComparisons⟩

end Sys2Proof.VectorIntegers

namespace Sys2Proof.VectorFloats

open Sys2Proof Machine Laws VectorLayer VectorForms

variable {s s' : State} {w : Bool} {th : Thread} {i : Instr} {d a b : BitVec 4} {k : BitVec 2} {l f : Bool} {r : BitVec 3}
  {rd : BitVec 4 → VReg}

/-- A disabled lane has no result. -/
theorem lane_of_enabled {j : Nat} (m : BitVec 16) (q : Nat → Nat × Flags) (hj : j < laneN l) (on : kbit l m j = true) :
    let x := (List.range (laneN l)).map fun i => if kbit l m i then q i else (0, 0)
    lane l (ofLanes l (x.map (·.1))) j = (q j).1 % 2 ^ laneW l ∧ (q j).2 &&& orFlags (x.map (·.2)) = (q j).2 := by
  have result := lane_of_results (fun i => if kbit l m i then q i else (0, 0)) hj
  rwa [if_pos on] at result

/-! ### Short operations (R188) -/

/-- The mask is read before the generators step, which leaves it. -/
theorem gives_vecFp {op : Nat} (h : Ready s w th) (hi : exec i s = vecFp w op d a b k l f r s)
    (hv : VecReads s th (if op = 5 then [a, b, d] else [a, b]) (some d) s' rd) :
    let x := fpLanes th l f k op (modeOf th r) (rd a) (rd b) (rd d)
    Gives i s (vecOut s' (raise (stepGens (modeOf th r) (enabled l (rk th k)) th) (orFlags (x.map (·.2)))) d (rk th k)
      (ofLanes l (x.map (·.1)))) := by
  intro x
  have mask : rk (raise (stepGens (modeOf th r) (enabled l (rk th k)) th) (orFlags (x.map (·.2)))) k = rk th k :=
    rk_stepGens (modeOf th r) (enabled l (rk th k)) th k
  have result := gives_withVec h hv (hi.trans rfl) rfl
  rwa [mask] at result

theorem rounds_vecFp {op : Nat} (h : Ready s w th) (hi : exec i s = vecFp w op d a b k l f r s)
    (hv : VecReads s th (if op = 5 then [a, b, d] else [a, b]) (some d) s' rd) :
    ∃ x fl, Gives i s (vecOut s' (raise (stepGens (modeOf th r) (enabled l (rk th k)) th) fl) d (rk th k) x) ∧
      ∀ j, j < laneN l → kbit l (rk th k) j = true →
        let q := fpOp (vfltFmt l f) op (modeOf th r) (genAt th j) (lane l (rd a) j) (lane l (rd b) j) (lane l (rd d) j)
        lane l x j = q.1 % 2 ^ laneW l ∧ q.2 &&& fl = q.2 :=
  ⟨_, _, gives_vecFp h hi hv, fun _ hj on => lane_of_enabled _ _ hj on⟩

theorem picks_vecMinMax {mx : Bool} (h : Ready s w th) (hi : exec i s = vecMinMax w mx d a b k l f s)
    (hv : VecReads s th [a, b] (some d) s' rd) :
    ∃ x fl, Gives i s (vecOut s' (raise th fl) d (rk th k) x) ∧ ∀ j, j < laneN l → kbit l (rk th k) j = true →
      let q := minMax (vfltFmt l f) mx (lane l (rd a) j) (lane l (rd b) j)
      lane l x j = q.1 % 2 ^ laneW l ∧ q.2 &&& fl = q.2 :=
  ⟨_, _, gives_withVec h hv (hi.trans rfl) rfl, fun _ hj on => lane_of_enabled _ _ hj on⟩

theorem vectorFloatResults : VectorFloatResults := by
  intro s s' w th d a b k l f r rd h n m rounds picks
  have rounded {i : Instr} (op : Nat) {srcs : List (BitVec 4)} (hi : exec i s = vecFp w op d a b k l f r s)
      (hs : (if op = 5 then [a, b, d] else [a, b]) = srcs) : rounds i op srcs := fun hv => rounds_vecFp h hi (hs ▸ hv)
  have picked {i : Instr} (mx : Bool) (hi : exec i s = vecMinMax w mx d a b k l f s) : picks i mx := picks_vecMinMax h hi
  exact ⟨rounded 0 rfl rfl, rounded 1 rfl rfl, rounded 2 rfl rfl, rounded 5 rfl rfl, picked false rfl, picked true rfl⟩

/-! ### Long operations (R162, R196, R200) -/

theorem lane_zero (l : Bool) (i : Nat) : lane l 0 i = 0 := by
  show (0#512).toNat / 2 ^ (laneW l * i) % 2 ^ laneW l = 0
  rw [BitVec.toNat_zero, Nat.zero_div, Nat.zero_mod]

theorem gives_vfdiv (h : Ready s w th) (hv : VecReads s th [a, b] none s' rd) :
    let x := fpLanes th l f k 3 (modeOf th r) (rd a) (rd b) 0
    Gives (.vfdiv w d a b k l f r) s (longResult s' { stepGens (modeOf th r) (enabled l (rk th k)) th with unbIn := [], unbOut := [] }
      { id := 0, pc := 0, dest := .v d, res := [(0, (rk th k).setWidth 64)], vres := ofLanes l (x.map (·.1)),
        flags := orFlags (x.map (·.2)) } 64) := by
  have result := gives_withVec (i := .vfdiv w d a b k l f r) h hv (Eq.trans (b := execVfdiv w d a b k l f r s) rfl rfl) rfl
  rwa [vecLong, rk_stepGens] at result

theorem gives_vsfu {fn : BitVec 3} (h : Ready s w th) (hv : VecReads s th [a] none s' rd) :
    let x := (List.range 16).map fun i =>
      if kbit false (rk th k) i then sfuOp fn.toNat (BitVec.ofNat 32 (lane false (rd a) i)) else (0, 0)
    Gives (.vsfu w d a k fn) s (longResult s' { th with unbIn := [], unbOut := [] }
      { id := 0, pc := 0, dest := .v d, res := [(0, (rk th k).setWidth 64)], vres := ofLanes false (x.map (·.1)),
        flags := orFlags (x.map (·.2)) } 48) :=
  gives_withVec h hv (Eq.trans (b := execVsfu w d a k fn s) rfl rfl) rfl

theorem vectorLongResults : VectorLongResults := by
  intro s s' w th d a b k l f r fn rd h starts
  refine ⟨fun hv => ?_, fun hv => ?_⟩
  · refine ⟨_, _, gives_vfdiv h hv, fun j hj on => ?_⟩
    rw [← lane_zero l j]
    exact lane_of_enabled _ _ hj on
  · refine ⟨_, _, gives_vsfu (d := d) (k := k) (fn := fn) h hv, fun j hj on => ?_⟩
    exact lane_of_enabled _ (fun i => sfuOp fn.toNat (BitVec.ofNat 32 (lane false (rd a) i))) hj on

/-- Settles O27. -/
theorem vectorFloatLanes : Obligations.VectorFloatLanes := ⟨vectorFloatResults, vectorLongResults⟩

end Sys2Proof.VectorFloats

namespace Sys2Proof.VectorIota

open Sys2Proof Machine Laws VectorLayer VectorForms

theorem count_lt_lane {l : Bool} {i : Nat} (p : Nat → Bool) (hi : i < laneN l) : (List.range i).countP p < 2 ^ laneW l := by
  have few := List.countP_le_length (p := p) (l := List.range i)
  rw [List.length_range] at few
  cases l <;> simp only [laneW, laneN, if_true, if_false, Bool.false_eq_true] at hi ⊢ <;> omega

theorem count_of_allTrue {p : Nat → Bool} {i : Nat} (h : ∀ j, j < i → p j = true) : (List.range i).countP p = i := by
  rw [List.countP_eq_length.mpr fun j hj => h j (List.mem_range.mp hj), List.length_range]

/-- Settles O28: a lane holds every count of the lanes below it, so none wraps. -/
theorem vectorIota : Obligations.VectorIota := by
  refine ⟨fun x w d k l hx => ?_, fun s s' w th d k l rd h hv => ?_⟩
  · obtain ⟨-, encoded⟩ := PorlekEncoding.decodedWordsEncodeBack.1 x _ hx
    obtain rfl := Option.some.inj encoded
    simp (disch := decide) only [PorlekEncoding.field_of_append, Nat.reduceSub, BitVec.reduceExtractLsb']
    exact ⟨rfl, rfl⟩
  · refine ⟨_, gives_withVec h hv (Eq.trans (b := execViota w d k l s) rfl rfl) rfl, fun i hi => ?_⟩
    rw [lane_lanesOf _ hi, Nat.mod_eq_of_lt (count_lt_lane _ hi)]
    refine ⟨List.countP_eq_length_filter, fun hk => ?_⟩
    subst hk
    exact count_of_allTrue fun j hj => kbit_zero l th (hj.trans hi)

end Sys2Proof.VectorIota

namespace Sys2Proof.VectorRegisterFile

open Sys2Proof Machine Laws VectorLayer VectorForms

variable {s s' : State} {w : Bool} {th : Thread} {d a b g n : BitVec 4} {k : BitVec 2} {l hb m x : Bool} {rd : BitVec 4 → VReg}

/-! ### Writing a vector register (R73, R75, R76) -/

@[simp] theorem rv_wv_same (th : Thread) (d : BitVec 4) (x : VReg) : rv (wv th d x) d = x := Vector.getElem_set_self d.isLt

theorem rv_wv_other (th : Thread) {d q : BitVec 4} (x : VReg) (h : q ≠ d) : rv (wv th d x) q = rv th q :=
  Vector.getElem_set_ne d.isLt q.isLt fun same => h (BitVec.eq_of_toNat_eq same).symm

/-- The thread behind an instruction that replaces the bits of a mask in an unbound vector register. -/
def wrote (th : Thread) (d : BitVec 4) (mask x : VReg) : Thread := wv (pastVec th) d (blend (rv th d) mask x)

/-- A register that no stream is bound to takes the enabled lanes. -/
theorem vecOut_unbound {m : BitVec 16} {x : VReg} (hd : d.toNat ∉ th.unbOut)
    (hp : portOf s th.station false 0 d.toNat th.tid = none) : vecOut s th d m x = setThr s (wrote th d (maskBits m) x) := by
  have unbound : th.unbOut.contains d.toNat = false := by simpa using hd
  simp only [vecOut, unbound, hp, Bool.false_eq_true, if_false]
  rfl

theorem vecBits_unbound {mask x : VReg} (hd : d.toNat ∉ th.unbOut)
    (hp : portOf s th.station false 0 d.toNat th.tid = none) : vecBits s th d mask x = setThr s (wrote th d mask x) := by
  have unbound : th.unbOut.contains d.toNat = false := by simpa using hd
  simp only [vecBits, unbound, hp, Option.isSome_none, Bool.or_self, Bool.false_eq_true, if_false]
  rfl

/-! ### Threads without streams (R76, R388) -/

theorem not_mem_unbOut (hn : NoStreams s th) (d : BitVec 4) : d.toNat ∉ th.unbOut := by
  obtain ⟨-, unbound, -⟩ := hn
  rw [unbound]
  exact List.not_mem_nil

theorem popSources_of_noStreams (hn : NoStreams s th) (srcs : List (BitVec 4)) : ∃ l, popSources srcs s th = .ok (s, l) := by
  obtain ⟨unbIn, -, ports⟩ := hn
  induction srcs with
  | nil => exact ⟨[], rfl⟩
  | cons r rs ih =>
    obtain ⟨l, popped⟩ := ih
    rw [popSources, popped]
    simp only [unbIn, ports, List.contains_nil, Bool.false_eq_true, if_false]
    split
    · exact ⟨_, rfl⟩
    · exact ⟨_, rfl⟩

/-- The operands of an instruction are there, and its destination has room. -/
theorem exists_reads (hn : NoStreams s th) (srcs : List (BitVec 4)) (dst : Option (BitVec 4)) : ∃ rd, VecReads s th srcs dst s rd := by
  obtain ⟨l, popped⟩ := popSources_of_noStreams hn srcs
  obtain ⟨-, unbOut, ports⟩ := hn
  refine ⟨_, l, popped, ?_, rfl⟩
  cases dst with
  | none => rfl
  | some d => simp [pushPort, unbOut, ports]

/-- An instruction without vector sources pops none. -/
theorem state_of_reads_nil {dst : Option (BitVec 4)} (hv : VecReads s th [] dst s' rd) : s = s' := by
  obtain ⟨l, popped, -⟩ := hv
  cases popped
  rfl

/-! ### Moves (R191, R192) -/

/-- The mask of one lane. -/
def laneMask (l : Bool) (i : Nat) : VReg := lanesOf l fun j => if j = i then 2 ^ laneW l - 1 else 0

theorem lane_laneMask (l : Bool) (i : Nat) {j : Nat} (hj : j < laneN l) :
    lane l (laneMask l i) j = if j = i then 2 ^ laneW l - 1 else 0 := by
  rw [laneMask, lane_lanesOf _ hj]
  refine Nat.mod_eq_of_lt ?_
  have := Nat.two_pow_pos (laneW l)
  split <;> omega

/-- VINS writes one lane. -/
theorem gives_vins (h : Ready s w th) (hn : NoStreams s th) (hv : VecReads s th [] (some d) s' rd) :
    Gives (.vins w d g n l hb m) s (setThr s' (wrote th d (laneMask l (16 * b2n m + n.toNat))
      (lanesOf l fun _ => (rgN th (16 * b2n hb + g.toNat)).toNat))) := by
  obtain rfl := state_of_reads_nil hv
  have unbound := not_mem_unbOut hn d
  have result := gives_withVec (i := .vins w d g n l hb m) h hv (Eq.trans (b := execVins w d g n l hb m s) rfl rfl) rfl
  obtain ⟨-, -, ports⟩ := hn
  rwa [vecBits_unbound unbound (ports false d.toNat)] at result

theorem wg_nextPc (th : Thread) (r : BitVec 5) (x : DWord) : wg (nextPc th) r x = nextPc (wg th r x) := by
  unfold wg
  split <;> rfl

/-- VEXTR writes a general register. -/
theorem gives_vextr (h : Ready s w th) (hv : VecReads s th [a] none s' rd) :
    Gives (.vextr w g a n l hb m x) s (setThr s' (nextPc (wg { th with unbIn := [], unbOut := [] }
      (BitVec.ofNat 5 (16 * b2n hb + g.toNat)) (let v : DWord := BitVec.ofNat 64 (lane l (rd a) (16 * b2n m + n.toNat))
        if x then sextBytes (if l then 2 else 4) v else v)))) := by
  rw [← wg_nextPc]
  exact gives_withVec h hv (Eq.trans (b := execVextr w g a n l hb m x s) rfl rfl) rfl

theorem vectorMoves : VectorMoves := by
  intro s s' w th d a b g n k l hb m x rd h all i reg
  refine ⟨fun hv => ?_, fun hv => ?_, fun hv => ?_, fun hv _ => gives_vextr h hv, fun hv hn hi => ?_⟩
  · refine ⟨_, gives_withVec h hv (Eq.trans (b := execVsel w d a b k l s) rfl rfl) rfl, fun j hj => ?_⟩
    rw [lane_lanesOf _ hj, Nat.mod_eq_of_lt]
    split <;> exact lane_lt l _ _
  · refine ⟨_, gives_withVec h hv (Eq.trans (b := execVperm w d a b k l s) rfl rfl) rfl, fun j hj => ?_⟩
    rw [lane_lanesOf _ hj, Nat.mod_eq_of_lt (lane_lt l _ _)]
  · exact ⟨_, gives_withVec h hv (Eq.trans (b := execVbcast w d g k l hb s) rfl rfl) rfl, fun j hj => lane_lanesOf _ hj⟩
  · refine ⟨_, gives_vins h hn hv, rfl, rfl, fun q hq => rv_wv_other (pastVec th) _ hq, fun j hj => ?_⟩
    rw [wrote, rv_wv_same, lane_blend (lane_laneMask l i hj), lane_lanesOf _ hj]
    rfl

/-! ### Reductions (R156, R193) -/

/-- VRED raises the flags of its roundings and steps generator 0 for each; what it writes is what R193 says of the enabled lanes. -/
theorem gives_vred {c : BitVec 5} (h : Ready s w th) (hv : VecReads s th [a] (some d) s' rd) :
    ∃ (q : Red) (gens : Vector Word 32),
      Gives (.vred w d a k l c) s (vecOut s' (raise { th with gens := gens } q.fl) d 0xFFFF (BitVec.ofNat 512 q.v)) ∧
      (enabled l (rk th k) = [] → q = { v := redIdentity c.toNat (laneW l) }) ∧
      ∀ i is, enabled l (rk th k) = i :: is →
        q = is.foldl (fun q j => redCombine c.toNat l (modeOf th 7) (genAt th 0) q (lane l (rd a) j))
          (redWiden c.toNat l (lane l (rd a) i)) := by
  have result := gives_withVec (i := .vred w d a k l c) h hv (Eq.trans (b := execVred w d a k l c s) rfl rfl) rfl
  obtain ⟨gens, stepped⟩ := exists_foldl_stepGen (modeOf th 7) (fun _ : Nat => 0) _ th
  rw [stepped] at result
  exact ⟨_, gens, result, fun none => by rw [none], fun i is some => by rw [some]⟩

/-- A sum of lanes wraps at the lane width. -/
theorem foldl_redCombine_sum (mode : Nat) (gen : Word) (f : Nat → Nat) (is : List Nat) (q : Red) (hq : q.v < 2 ^ laneW l) :
    (is.foldl (fun q j => redCombine 0 l mode gen q (f j)) q).v = (q.v + (is.map f).sum) % 2 ^ laneW l := by
  induction is generalizing q with
  | nil => exact (Nat.mod_eq_of_lt hq).symm
  | cons i is ih =>
    rw [List.foldl_cons, ih _ (Nat.mod_lt _ (Nat.two_pow_pos _)), List.map_cons, List.sum_cons, ← Nat.add_assoc]
    exact Nat.mod_add_mod _ _ _

/-! ### Conversions (R194, R195) -/

/-- The codes of the enabled elements, in containers of c bits. -/
def placed (c : Nat) (m : BitVec 16) (f : Nat → Nat) : VReg :=
  BitVec.ofNat 512 (((enabled false m).map fun i => f i * 2 ^ (c * i)).sum)

theorem digit_placed {c j : Nat} {m : BitVec 16} {f : Nat → Nat} (hf : ∀ i, f i < 2 ^ c) (hj : j < 16) (hc : c * j + c ≤ 512) :
    (placed c m f).toNat / 2 ^ (c * j) % 2 ^ c = if m.getLsbD j then f j else 0 := by
  rw [placed, digit_ofNat _ hc, enabled, sum_filter_digits c _ _ _ hf, digit_get c (laneN false) _ j hj]
  refine (Nat.mod_eq_of_lt ?_).trans rfl
  split
  · exact hf j
  · exact Nat.two_pow_pos c

theorem fdTy_width_le (n : Nat) : (fdTy n).width ≤ 32 := by
  have exponent : bits n 2 0 < 8 := Nat.mod_lt _ (by decide)
  have fraction : bits n 6 3 < 16 := Nat.mod_lt _ (by decide)
  have sign : b2n (bit n 7) ≤ 1 := by unfold b2n; split <;> decide
  unfold fdTy
  split
  · split
    · show b2n (bit n 7) + bits n 6 3 ≤ 32
      omega
    · show b2n (bit n 7) + bits n 2 0 + bits n 6 3 ≤ 32
      omega
  all_goals decide

theorem le_container {n : Nat} (hn : n ≤ 32) : n ≤ container n := by
  unfold container
  split_ifs <;> omega

/-- An element's code fits its container. -/
theorem elemTy_width_le (s : State) (st code : Nat) : (elemTy s st code).w ≤ (elemTy s st code).c := by
  unfold elemTy
  split
  · exact le_rfl
  · exact le_container (fdTy_width_le _)

/-- Element i of a register x, converted in the thread's mode. -/
def converted (s : State) (th : Thread) (t src : BitVec 4) (r : BitVec 2) (x : VReg) (i : Nat) : Nat × Flags :=
  let es := elemTy s th.station src.toNat
  convert (elemTy s th.station t.toNat).ty (modeOf th 7) r.toNat (genAt th i) (es.ty.num (es.get x i))

/-- VCVT where its types and its rule are admitted. -/
theorem gives_vcvt {t src : BitVec 4} {r : BitVec 2} (h : Ready s w th) (hv : VecReads s th [a] (some d) s' rd)
    (ht : vcvtTrap s th.station t src r = none) :
    let ed := elemTy s' th.station t.toNat
    let conv := converted s' th t src r (rd a)
    ∃ (fl : Flags) (gens : Vector Word 32), Gives (.vcvt w d a t k src r) s (vecBits s' (raise { th with gens := gens } fl) d
      (placed ed.c (rk th k) fun _ => 2 ^ ed.c - 1) (placed ed.c (rk th k) fun i => (conv i).1 % 2 ^ ed.w)) := by
  intro ed conv
  let on := enabled false (rk th k)
  have result : Gives (.vcvt w d a t k src r) s (vecBits s'
      (raise (stepGens (modeOf th 7) on th) (orFlags (on.map fun i => (conv i).2))) d
      (placed ed.c (rk th k) fun _ => 2 ^ ed.c - 1) (placed ed.c (rk th k) fun i => (conv i).1 % 2 ^ ed.w)) := by
    refine gives_ok h (Eq.trans (b := execVcvt w d a t k src r s) rfl rfl) ?_
    simp only [ht]
    refine (withVec_of_reads hv _).trans ?_
    simp only [List.map_map]
    rfl
  obtain ⟨gens, stepped⟩ := exists_stepGens (modeOf th 7) on th
  rw [stepped] at result
  exact ⟨_, gens, result⟩

theorem traps_vcvt {t src : BitVec 4} {r : BitVec 2} {e : Byte} (h : Ready s w th) (ht : vcvtTrap s th.station t src r = some e) :
    Gives (.vcvt w d a t k src r) s (trapState s th e 0 2) := by
  refine Eq.trans (b := execVcvt w d a t k src r s) rfl (issue_err h ?_)
  simp only [ht]
  rfl

theorem vectorReductionAndConversion : VectorReductionAndConversion := by
  intro s s' w th d a t src k l c r rd h hv
  refine ⟨fun i is he => ?_, fun he => ?_, fun e ht => traps_vcvt h ht, fun ht => ?_⟩
  · intro q
    obtain ⟨p, gens, result, -, reduced⟩ := gives_vred (k := k) (l := l) (c := c) h hv
    obtain rfl : p = q := reduced i is he
    refine ⟨_, result, rfl, rfl, rfl, rfl, fun hc => ?_⟩
    subst hc
    exact foldl_redCombine_sum _ _ (fun j => lane l (rd a) j) is { v := lane l (rd a) i } (lane_lt l _ i)
  · obtain ⟨p, gens, result, reduced, -⟩ := gives_vred (k := k) (l := l) (c := c) h hv
    rw [reduced he] at result
    exact ⟨_, result⟩
  · obtain ⟨fl, gens, result⟩ := gives_vcvt (k := k) h hv ht
    refine ⟨_, _, _, result, rfl, rfl, rfl, ?_⟩
    intro ed es j hj
    have fits (n : Nat) : n % 2 ^ ed.w < 2 ^ ed.c :=
      (Nat.mod_lt n (Nat.two_pow_pos _)).trans_le (Nat.pow_le_pow_right two_pos (elemTy_width_le s' th.station t.toNat))
    have ones : 2 ^ ed.c - 1 < 2 ^ ed.c := Nat.sub_lt (Nat.two_pow_pos _) one_pos
    refine ⟨fun off hc => ?_, fun on hc => ⟨?_, ?_⟩⟩
    · rw [digit_placed (fun _ => ones) hj hc, off]
      rfl
    · rw [digit_placed (fun _ => ones) hj hc, if_pos on]
    · rw [digit_placed (fun _ => fits _) hj hc, if_pos on]
      rfl

/-! ### Groups pushed to a port (R76, R387) -/

theorem vget_vset {α : Type} [Inhabited α] {n i : Nat} (v : Vector α n) (x : α) (hi : i < n) : vget (vset v i x) i = x := by
  simp [vget, vset, hi]

/-- A station has eight ports. -/
theorem portOf_lt {st kind i p : Nat} {cons : Bool} {t : Word} (hp : portOf s st cons kind i t = some p) : p < 8 :=
  List.mem_range.mp (List.mem_of_find?_eq_some hp)

/-- Entries that a port has room for go to its end. -/
theorem portPush_of_room {st p : Nat} {es : List (BitVec 256 × BitVec 8)} (hp : p < 8)
    (room : (portAt s st p).queue.length + es.length ≤ 32) :
    ∃ t, portPush s st p es = some t ∧ t.threads = s.threads ∧ (portAt t st p).queue = (portAt s st p).queue ++ es := by
  refine ⟨_, if_pos room, rfl, ?_⟩
  have port : portAt (modPort s st p fun q => { q with queue := q.queue ++ es }) st p =
      { portAt s st p with queue := (portAt s st p).queue ++ es } := by
    rw [portAt, modPort, stn_modStn]
    exact vget_vset _ _ hp
  exact congrArg Port.queue port

/-- A lane of a group: its value where its mask bit is 1, else zero. -/
theorem extract_masked (m : BitVec 16) (x : VReg) {j : Nat} (hj : j < 16) :
    (x &&& maskBits m).extractLsb' (32 * j) 32 = if m.getLsbD j then BitVec.ofNat 32 (lane false x j) else 0 := by
  have value : x.extractLsb' (32 * j) 32 = BitVec.ofNat 32 (lane false x j) := by
    refine BitVec.eq_of_toNat_eq ((toNat_extractLsb'_lane false x j).trans ?_)
    exact (Nat.mod_eq_of_lt (lane_lt false x j)).symm
  rw [BitVec.extractLsb'_and, maskBits_extract m hj, value]
  split
  · exact BitVec.and_allOnes
  · exact BitVec.and_zero

/-- Lane j of the entry that starts at lane n of the register. -/
theorem entry_lane (m : BitVec 16) (x : VReg) {n j : Nat} (hn : n ≤ 8) (hj : j < 8) :
    (m.extractLsb' n 8).getLsbD j = m.getLsbD (n + j) ∧
    ((x &&& maskBits m).extractLsb' (32 * n) 256).extractLsb' (32 * j) 32 =
      if m.getLsbD (n + j) then BitVec.ofNat 32 (lane false x (n + j)) else 0 := by
  refine ⟨by rw [BitVec.getLsbD_extractLsb', decide_eq_true hj, Bool.true_and], ?_⟩
  rw [← extract_masked m x (by omega), Nat.mul_add]
  ext i hi
  simp only [BitVec.getElem_extractLsb', BitVec.getLsbD_extractLsb']
  rw [decide_eq_true (by omega), Bool.true_and, Nat.add_assoc]

/-- A group goes to the port that its register is bound to, and the thread goes on. -/
theorem vecOut_bound {m : BitVec 16} {x : VReg} {p : Nat} (hd : d.toNat ∉ th.unbOut)
    (hp : portOf s th.station false 0 d.toNat th.tid = some p) (room : (portAt s th.station p).queue.length ≤ 30) :
    ∃ t, vecOut s th d m x = setThr t (pastVec th) ∧ (portAt t th.station p).queue = (portAt s th.station p).queue ++
      [((x &&& maskBits m).extractLsb' 0 256, m.extractLsb' 0 8), ((x &&& maskBits m).extractLsb' 256 256, m.extractLsb' 8 8)] := by
  have unbound : th.unbOut.contains d.toNat = false := by simpa using hd
  obtain ⟨t, pushed, -, queue⟩ := portPush_of_room (s := s) (st := th.station) (es :=
    [((x &&& maskBits m).extractLsb' 0 256, m.extractLsb' 0 8), ((x &&& maskBits m).extractLsb' 256 256, m.extractLsb' 8 8)])
    (portOf_lt hp) (Nat.add_le_add_right room 2)
  refine ⟨t, ?_, queue⟩
  simp only [vecOut, unbound, hp, pushGroup, pushed, Bool.false_eq_true, if_false]
  rfl

theorem vectorRegisterWrites : VectorRegisterWrites := by
  intro s th d m x hd
  refine ⟨fun hp => ⟨_, vecOut_unbound hd hp, rfl, rfl, fun q hq => rv_wv_other (pastVec th) _ hq, fun j hj => ?_⟩,
    fun p hp room => ?_⟩
  · rw [wrote, rv_wv_same, lane_blend (lane_maskBits m hj)]
  · obtain ⟨t, pushed, queue⟩ := vecOut_bound (m := m) (x := x) hd hp room
    rw [pushed]
    exact ⟨pastVec th, _, _, getThr_setThr t (pastVec th), rfl, rfl, rfl, queue, fun j hj =>
      ⟨by simpa using entry_lane m x (Nat.zero_le 8) hj, entry_lane m x le_rfl hj⟩⟩

/-! ### Completion -/

/-- i completes: its thread stands behind it in its slot, with its general registers. -/
def Completes (s : State) (th : Thread) (i : Instr) : Prop :=
  ∃ z o, exec i s = .next z ∧ getThr z th.tid = some o ∧ o.pc = th.pc + 4 ∧ o.st = th.st ∧ o.g = th.g ∧ o.sup = th.sup

section
variable {i : Instr} {u : Thread}

theorem getThr_of_tid {x : Word} (tid : u.tid = x) : getThr (settle s (setThr s u)) x = some u :=
  tid ▸ getThr_setThr s u

theorem completes_of_setThr (hi : Gives i s (setThr s u)) (tid : u.tid = th.tid) (pc : u.pc = th.pc + 4) (st : u.st = th.st)
    (hg : u.g = th.g) (sup : u.sup = th.sup) : Completes s th i :=
  ⟨_, u, hi, getThr_of_tid tid, pc, st, hg, sup⟩

/-- The thread with other flags and generators. -/
def flagged (th : Thread) (fp : DWord) (gens : Vector Word 32) : Thread := { th with fpcsr := fp, gens := gens }

variable {fp : DWord} {gens : Vector Word 32}

/-- An instruction that writes an unbound vector register. -/
theorem completes_of_wrote {mask x : VReg} (hi : Gives i s (setThr s (wrote (flagged th fp gens) d mask x))) : Completes s th i :=
  completes_of_setThr hi rfl rfl rfl rfl rfl

theorem completes_of_vecOut {m : BitVec 16} {x : VReg} (hn : NoStreams s th)
    (hi : Gives i s (vecOut s (flagged th fp gens) d m x)) : Completes s th i := by
  have unbound := not_mem_unbOut hn d
  obtain ⟨-, -, ports⟩ := hn
  exact completes_of_wrote (vecOut_unbound (th := flagged th fp gens) unbound (ports false d.toNat) ▸ hi)

theorem completes_of_vecBits {mask x : VReg} (hn : NoStreams s th)
    (hi : Gives i s (vecBits s (flagged th fp gens) d mask x)) : Completes s th i := by
  have unbound := not_mem_unbOut hn d
  obtain ⟨-, -, ports⟩ := hn
  exact completes_of_wrote (vecBits_unbound (th := flagged th fp gens) unbound (ports false d.toNat) ▸ hi)

/-- A long operation, whose result is yet to come. -/
theorem completes_of_long {o : LongOp} {n : Nat}
    (hi : Gives i s (longResult s { flagged th fp gens with unbIn := [], unbOut := [] } o n)) : Completes s th i :=
  ⟨_, _, hi, getThr_setThr s (addOp (nextPc { flagged th fp gens with unbIn := [], unbOut := [] }) { o with pc := th.pc }).2,
    rfl, rfl, rfl, rfl⟩

/-- A comparison, which writes a destination mask. -/
theorem completes_of_maskOut {m k : BitVec 2} {f : Nat → Bool} (hi : Gives i s (setThr s { maskOut th m k f with fpcsr := fp })) :
    Completes s th i := by
  obtain ⟨k1, k2, k3, frame⟩ := VectorIntegers.exists_maskOut th m k f
  rw [frame] at hi
  exact completes_of_setThr hi rfl rfl rfl rfl rfl

theorem exists_flagged (mode : Nat) (is : List Nat) (th : Thread) (fl : Flags) :
    ∃ fp gens, raise (stepGens mode is th) fl = flagged th fp gens := by
  obtain ⟨gens, stepped⟩ := exists_stepGens mode is th
  rw [stepped]
  exact ⟨_, gens, rfl⟩

end

section
variable {i : Instr} {e fn : BitVec 3} {f u : Bool} (h : Ready s w th) (hn : NoStreams s th)
include h hn

theorem vectorIntegers_complete (sat v : Bool) :
    ∀ i ∈ [Instr.vadd w d a b k l sat v, .vsub w d a b k l sat v, .vmul w d a b k l sat v, .vmin w d a b k l u, .vmax w d a b k l u,
      .vand w d a b k l, .vor w d a b k l, .vxor w d a b k l, .vsll w d a b k l, .vsrl w d a b k l, .vsra w d a b k l],
      Completes s th i := by
  obtain ⟨rd, hv⟩ := exists_reads hn [a, b] (some d)
  have done {i : Instr} {p : VReg → Prop} (hi : ∃ x, Gives i s (vecOut s th d (rk th k) x) ∧ p x) : Completes s th i := by
    obtain ⟨x, hi, -⟩ := hi
    exact completes_of_vecOut (fp := th.fpcsr) (gens := th.gens) hn hi
  obtain ⟨vadd, vsub, vmul, -, -, vand, vor, vxor, vsll, vsrl, vsra⟩ :=
    VectorIntegers.vectorIntegerResults s s w th d a b k l sat v rd h hv
  obtain ⟨-, -, -, vmin, vmax, -⟩ := VectorIntegers.vectorIntegerResults s s w th d a b k l sat u rd h hv
  simp only [List.forall_mem_cons]
  exact ⟨done vadd, done vsub, done vmul, done vmin, done vmax, done vand, done vor, done vxor, done vsll, done vsrl, done vsra,
    List.forall_mem_nil _⟩

theorem vectorComparisons_complete {m : BitVec 2} : ∀ i ∈ [Instr.vcmp w m a b k e u, .vfcmp w m a b k e], Completes s th i := by
  obtain ⟨rd, hv⟩ := exists_reads hn [a, b] none
  obtain ⟨fl, compared⟩ := VectorIntegers.gives_vfcmp (m := m) (k := k) (c := e) h hv
  simp only [List.forall_mem_cons]
  exact ⟨completes_of_maskOut (VectorIntegers.gives_vcmp h hv), completes_of_maskOut compared, List.forall_mem_nil _⟩

theorem vectorFloats_complete :
    ∀ i ∈ [Instr.vfadd w d a b k l f e, .vfsub w d a b k l f e, .vfmul w d a b k l f e, .vffma w d a b k l f e, .vfmin w d a b k l f,
      .vfmax w d a b k l f], Completes s th i := by
  obtain ⟨rd, hv⟩ := exists_reads hn [a, b] (some d)
  obtain ⟨rd3, hv3⟩ := exists_reads hn [a, b, d] (some d)
  have rounded {i : Instr} {mode : Nat} {is : List Nat} {p : VReg → Flags → Prop}
      (hi : ∃ x fl, Gives i s (vecOut s (raise (stepGens mode is th) fl) d (rk th k) x) ∧ p x fl) : Completes s th i := by
    obtain ⟨x, fl, hi, -⟩ := hi
    obtain ⟨fp, gens, same⟩ := exists_flagged mode is th fl
    exact completes_of_vecOut hn (same ▸ hi)
  have picked {i : Instr} {p : VReg → Flags → Prop}
      (hi : ∃ x fl, Gives i s (vecOut s (raise th fl) d (rk th k) x) ∧ p x fl) : Completes s th i := by
    obtain ⟨x, fl, hi, -⟩ := hi
    exact completes_of_vecOut (gens := th.gens) hn hi
  obtain ⟨vfadd, vfsub, vfmul, -, vfmin, vfmax⟩ := VectorFloats.vectorFloatResults s s w th d a b k l f e rd h
  obtain ⟨-, -, -, vffma, -⟩ := VectorFloats.vectorFloatResults s s w th d a b k l f e rd3 h
  simp only [List.forall_mem_cons]
  exact ⟨rounded (vfadd hv), rounded (vfsub hv), rounded (vfmul hv), rounded (vffma hv3), picked (vfmin hv), picked (vfmax hv),
    List.forall_mem_nil _⟩

theorem vectorLong_complete : ∀ i ∈ [Instr.vfdiv w d a b k l f e, .vsfu w d a k fn], Completes s th i := by
  obtain ⟨rd, hv⟩ := exists_reads hn [a, b] none
  obtain ⟨rd1, hv1⟩ := exists_reads hn [a] none
  obtain ⟨gens, stepped⟩ := exists_stepGens (modeOf th e) (enabled l (rk th k)) th
  have divided := VectorFloats.gives_vfdiv (d := d) (k := k) (l := l) (f := f) (r := e) h hv
  rw [stepped] at divided
  simp only [List.forall_mem_cons]
  exact ⟨completes_of_long (fp := th.fpcsr) divided,
    completes_of_long (fp := th.fpcsr) (gens := th.gens) (VectorFloats.gives_vsfu h hv1), List.forall_mem_nil _⟩

theorem vectorMoves_complete {c : BitVec 5} :
    ∀ i ∈ [Instr.vsel w d a b k l, .vperm w d a b k l, .vbcast w d g k l hb, .viota w d k l, .vred w d a k l c], Completes s th i := by
  obtain ⟨rd0, hv0⟩ := exists_reads hn [] (some d)
  obtain ⟨rd1, hv1⟩ := exists_reads hn [a] (some d)
  obtain ⟨rd2, hv2⟩ := exists_reads hn [a, b] (some d)
  have done {i : Instr} {m : BitVec 16} {p : VReg → Prop} (hi : ∃ x, Gives i s (vecOut s th d m x) ∧ p x) : Completes s th i := by
    obtain ⟨x, hi, -⟩ := hi
    exact completes_of_vecOut (fp := th.fpcsr) (gens := th.gens) hn hi
  obtain ⟨vsel, vperm, -⟩ := vectorMoves s s w th d a b g d k l hb l l rd2 h
  obtain ⟨-, -, vbcast, -⟩ := vectorMoves s s w th d a b g d k l hb l l rd0 h
  obtain ⟨q, gens, vred, -⟩ := gives_vred (k := k) (l := l) (c := c) h hv1
  simp only [List.forall_mem_cons]
  exact ⟨done (vsel hv2), done (vperm hv2), done (vbcast hv0), done (VectorIota.vectorIota.2 s s w th d k l rd0 h hv0),
    completes_of_vecOut hn vred, List.forall_mem_nil _⟩

theorem vins_completes : Completes s th (.vins w d g n l hb m) := by
  obtain ⟨rd, hv⟩ := exists_reads hn [] (some d)
  exact completes_of_wrote (fp := th.fpcsr) (gens := th.gens) (gives_vins h hn hv)

/-- VEXTR writes no general register but its own. -/
theorem vextr_completes : ∃ z o, exec (.vextr w g a n l hb m x) s = .next z ∧ getThr z th.tid = some o ∧ o.pc = th.pc + 4 ∧
    o.st = th.st ∧ ∀ q : BitVec 5, q.toNat ≠ 16 * b2n hb + g.toNat → rg o q = rg th q := by
  obtain ⟨rd, hv⟩ := exists_reads hn [a] none
  have result := gives_vextr (g := g) (n := n) (l := l) (hb := hb) (m := m) (x := x) h hv
  refine ⟨_, _, result, getThr_of_tid (wg_tid { th with unbIn := [], unbOut := [] } _ _), ?_, ?_, fun q hq => ?_⟩
  · rw [nextPc, wg_pc]
  · rw [wg_frame]
    rfl
  · refine rg_wg_other { th with unbIn := [], unbOut := [] } _ fun same => hq ?_
    rw [← same, BitVec.toNat_ofNat]
    have low : b2n hb ≤ 1 := by unfold b2n; split <;> decide
    omega

theorem vcvt_completes {t r : BitVec 4} {y : BitVec 2} (src : r.toNat < 8 ∨ codeClass s th.station r.toNat < 3)
    (dst : y ≠ 1 ∨ t.toNat < 8 ∨ 3 < codeClass s th.station t.toNat ∨
      (fdTy (vget (stn s th.station).fd (t.toNat - 8)).toNat).isFp = false) : Completes s th (.vcvt w d a t k r y) := by
  have admitted : vcvtTrap s th.station t r y = none := by
    unfold vcvtTrap
    dsimp only
    rw [if_neg, if_neg]
    · omega
    · rintro ⟨rule, high, float, narrow⟩
      rcases dst with h | h | h | h
      · exact h rule
      · omega
      · omega
      · rw [h] at float
        cases float
  obtain ⟨rd, hv⟩ := exists_reads hn [a] (some d)
  obtain ⟨fl, gens, result⟩ := gives_vcvt (k := k) h hv admitted
  exact completes_of_vecBits hn result

end

theorem vectorFormsComplete : VectorFormsComplete := by
  intro s w th d a b g n t r k m l h u f x c e fn y ready hn completes
  have forms := List.forall_mem_append.mpr ⟨vectorIntegers_complete (d := d) (a := a) (b := b) (k := k) (l := l) (u := u) ready hn u x,
    List.forall_mem_append.mpr ⟨vectorComparisons_complete (a := a) (b := b) (k := k) (u := u) (e := e) (m := m) ready hn,
    List.forall_mem_append.mpr ⟨vectorFloats_complete (d := d) (a := a) (b := b) (k := k) (l := l) (f := f) (e := e) ready hn,
    List.forall_mem_append.mpr ⟨vectorLong_complete (d := d) (a := a) (b := b) (k := k) (l := l) (f := f) (e := e) (fn := fn) ready hn,
      vectorMoves_complete (d := d) (a := a) (b := b) (g := g) (k := k) (l := l) (hb := h) (c := c) ready hn⟩⟩⟩⟩
  exact ⟨forms, fun _ => ⟨vins_completes ready hn, vextr_completes ready hn⟩, fun src dst => vcvt_completes ready hn src dst⟩

/-- Settles O29. -/
theorem vectorRegisterFile : Obligations.VectorRegisterFile :=
  ⟨vectorMoves, vectorReductionAndConversion, vectorRegisterWrites, vectorFormsComplete⟩

end Sys2Proof.VectorRegisterFile

namespace Sys2Proof.GraphAndUnitEvents

open Sys2Proof Machine

/-- Refutes O56 in the clause of the watchdog's readout (R314, R437): the statement bounds the stations of a consist's tiles, but not its
anchor. From an anchor in row 2,048, of which a mesh has 16, the stop needs 2,048 hops to a tile at station 0, and no readout due within
2,048 cycles comes behind it. -/
theorem not_graphAndUnitEvents : ¬ Obligations.GraphAndUnitEvents := by
  rintro ⟨-, -, -, consists, -, -⟩
  let c : Consist := { cid := 1, anchor := 16 * 2048, tiles := [{ st := 0, elems := 1, readout := 0 }] }
  let s : State := { State.reset with parts := [(0, { consists := [c] })] }
  have resident : consistOf s 0 1 = some c := rfl
  have stations : ∀ t ∈ c.tiles, t.st < 256 := by decide
  have far : ∃ t ∈ c.tiles, hops c.anchor t.st = 2048 := by decide
  obtain ⟨-, ofConsist, -⟩ := consists s 0
  obtain ⟨-, -, -, -, readout, -⟩ := ofConsist 1 c resident
  obtain ⟨_, d, -, soon, -, behind⟩ := readout rfl stations
  obtain ⟨t, ht, stop⟩ := far
  have late : 2048 < d := stop ▸ behind t ht
  omega

end Sys2Proof.GraphAndUnitEvents

namespace Sys2Proof.GraphFirings

open Sys2Proof Machine Laws

/-! ### Firings and their results (R106, R274) -/

section
variable {s u : State} {f : Firing} {pn : Nat} {c : Consist} {a b : Token} {i : Instr}

/-- A firing comes to what its op makes of the state in which its tokens are consumed. -/
theorem firesTo_withFiring {k : State → Nat → Consist → Firing → State} (hf : FiresOn s f pn c) (hi : exec i s = withFiring s k)
    (hk : k (fired s f pn c) pn c f = u) : FiresTo i s f pn c u := by
  subst hk
  exact hi.trans (withFiring_ok hf)

theorem firesTo_sent {k : Elem → Firing → Token → Token → Except Byte Sent} {out : Sent} (hf : FiresOn s f pn c) (ho : Operands f a b)
    (ha : a.kind = 0) (hb : b.kind = 0) (hi : exec i s = fireOp s k)
    (hk : k (elemAt (fired s f pn c) f.st f.elem) f a b = .ok out) : FiresTo i s f pn c (sendAll (fired s f pn c) f out true) :=
  hi.trans (fireOp_ok hf ho ha hb hk)

end

/-- The lanes of a token are those of its payload, whatever its tags. -/
theorem laneN_of_pay {r : Token} {v : BitVec 8} {g : Nat → Nat} (h : r.pay = lanesFrom v g) {j : Nat} (hj : j < 8) :
    r.laneN j = if v.getLsbD j then g j % 2 ^ 32 else 0 := by
  unfold Token.laneN Token.lane
  rw [h, lane_lanesFrom v g j hj]

theorem lane_of_pay {r : Token} {v : BitVec 8} {g : Nat → Nat} (h : r.pay = lanesFrom v g) {j : Nat} (hj : j < 8) :
    r.lane j = if v.getLsbD j then BitVec.ofNat 32 (g j) else 0 := by
  apply BitVec.eq_of_toNat_eq
  refine (laneN_of_pay h hj).trans ?_
  split <;> simp

/-- Lanes that are kept as they are. -/
theorem lane_of_pay_toNat {r : Token} {v : BitVec 8} {l : Nat → Word} (h : r.pay = lanesFrom v fun j => (l j).toNat) {j : Nat}
    (hj : j < 8) : r.lane j = if v.getLsbD j then l j else 0 := by
  rw [lane_of_pay h hj, BitVec.ofNat_toNat, BitVec.setWidth_eq]

/-- A token of port a's pair with a payload, and a kind, a format and an SC of its own (R103). -/
def taggedTok (a : Token) (v : BitVec 8) (g : Nat → Nat) (k : BitVec 4) (m : BitVec 3) (sc : Bool) : Token :=
  { a with pay := lanesFrom v g, valid := v, kind := k, fmt := m, sc := sc }

theorem taggedTok_eq (a : Token) (v : BitVec 8) (g : Nat → Nat) (k : BitVec 4) (m : BitVec 3) (sc : Bool) :
    taggedTok a v g k m sc =
      { a with pay := (taggedTok a v g k m sc).pay, valid := v, kind := k, fmt := m, sc := sc } := rfl

/-- The payload is made opaque first, so that no comparison of tags unfolds it. -/
theorem resultTok_fields (a : Token) (v : BitVec 8) (g : Nat → Nat) : let r := resultTok a v g
    (r.pay = lanesFrom v g ∧ r.valid = v ∧ r.seq = a.seq ∧ r.iter = a.iter ∧ r.act = a.act) ∧
      r.kind = 0 ∧ r.fmt = a.fmt ∧ r.sc = a.sc := by
  have h : resultTok a v g = { a with pay := lanesFrom v g, valid := v, kind := 0 } := rfl
  generalize lanesFrom v g = p at h ⊢
  rw [h]
  exact ⟨⟨rfl, rfl, rfl, rfl, rfl⟩, rfl, rfl, rfl⟩

@[simp] theorem resultTok_kind (a : Token) (v : BitVec 8) (g : Nat → Nat) : (resultTok a v g).kind = 0 := (resultTok_fields a v g).2.1

@[simp] theorem resultTok_fmt (a : Token) (v : BitVec 8) (g : Nat → Nat) : (resultTok a v g).fmt = a.fmt := (resultTok_fields a v g).2.2.1

@[simp] theorem resultTok_sc (a : Token) (v : BitVec 8) (g : Nat → Nat) : (resultTok a v g).sc = a.sc := (resultTok_fields a v g).2.2.2

theorem resultTok_retagged (a : Token) (v : BitVec 8) (g : Nat → Nat) (k : BitVec 4) (m : BitVec 3) (sc : Bool) :
    { resultTok a v g with kind := k, fmt := m, sc := sc } = taggedTok a v g k m sc := by
  obtain ⟨⟨pay, valid, seq, iter, act⟩, -⟩ := resultTok_fields a v g
  simp only [pay, valid, seq, iter, act, taggedTok]

theorem pay_taggedTok (a : Token) (v : BitVec 8) (g : Nat → Nat) (k : BitVec 4) (m : BitVec 3) (sc : Bool) :
    (taggedTok a v g k m sc).pay = lanesFrom v g := rfl

/-! ### The state of a firing -/

theorem fd_takeEnd (s : State) (i : Nat) (d : Half) (l st : Nat) : (stn (takeEnd s i d l) st).fd = (stn s st).fd := by
  unfold takeEnd
  split
  · by_cases h : i = st
    · rw [h, stn_modStn]
    · rw [stn_modStn_other s _ h]
  · rfl

/-- A firing changes no format register before its op reads them. -/
theorem fd_fired (s : State) (f : Firing) (pn : Nat) (c : Consist) (st : Nat) : (stn (fired s f pn c) st).fd = (stn s st).fd := by
  change (stn (if _ then reserveEnds s f 0 else s) st).fd = _
  split
  · rw [reserveEnds, fd_takeEnd, fd_takeEnd]
  · rfl

theorem elemTy_congr {s t : State} {st : Nat} (h : (stn s st).fd = (stn t st).fd) (code : Nat) : elemTy s st code = elemTy t st code := by
  unfold elemTy
  rw [h]

theorem formatExp_congr {s t : State} {st : Nat} (h : (stn s st).fd = (stn t st).fd) (n : Nat) : formatExp s st n = formatExp t st n := by
  unfold formatExp
  rw [h]

end Sys2Proof.GraphFirings

namespace Sys2Proof.GraphScalars

open Sys2Proof Machine Laws GraphFirings

/-! ### Tags, merges and constants (R269, R270, R289 to R292, R310) -/

section
variable {s : State} {f : Firing} {pn : Nat} {c : Consist} {a b r : Token} {i : Instr}

/-- A token on port a goes on, whatever stands at port b. -/
theorem firesTo_eitherPort_a {g : Firing → Bool → Token → Token} (hf : FiresOn s f pn c) (hi : exec i s = eitherPort g s)
    (ha : f.a = some a) (hg : g f false a = r) :
    FiresTo i s f pn c (sendAll (fired s f pn c) f (both r 1) (a.kind == 0)) :=
  firesTo_withFiring hf hi (by simp only [ha, hg])

theorem firesTo_eitherPort_b {g : Firing → Bool → Token → Token} (hf : FiresOn s f pn c) (hi : exec i s = eitherPort g s)
    (ha : f.a = none) (hb : f.b = some b) (hg : g f true b = r) :
    FiresTo i s f pn c (sendAll (fired s f pn c) f (both r 1) (b.kind == 0)) :=
  firesTo_withFiring hf hi (by simp only [ha, hb, hg])

end

/-- The lanes of a predicate token that are true (R270). -/
def truths (b : Token) : BitVec 8 :=
  (List.range 8).foldl (fun m j => if b.valid.getLsbD j && b.lane j != 0 then m ||| ((1 : BitVec 8) <<< j) else m) 0

theorem getLsbD_truths (b : Token) {j : Nat} (hj : j < 8) : (truths b).getLsbD j = (b.valid.getLsbD j && b.lane j != 0) := by
  rw [truths, mask_bit (fun j => b.valid.getLsbD j && b.lane j != 0) 8 j hj, decide_eq_true hj, Bool.true_and]

/-- The mask of the lowest n lanes (R269). -/
theorem getLsbD_lowLanes (n : Nat) {j : Nat} (hj : j < 8) : (BitVec.ofNat 8 (2 ^ n - 1)).getLsbD j = decide (j < n) := by
  rw [BitVec.getLsbD_ofNat, Nat.testBit_two_pow_sub_one, decide_eq_true hj, Bool.true_and]

/-- The lanes of a list, packed from lane 0 (R269). -/
theorem lane_resultTok_getD (a : Token) (ls : List Word) {j : Nat} (hj : j < 8) :
    (resultTok a (BitVec.ofNat 8 (2 ^ ls.length - 1)) fun j => (ls.map BitVec.toNat).getD j 0).lane j = ls.getD j 0 := by
  rw [lane_of_pay rfl hj, getLsbD_lowLanes _ hj]
  by_cases h : j < ls.length <;> simp [h, List.getD_eq_getElem?_getD]

section
variable {s : State} {f : Firing} {pn : Nat} {c : Consist} {a b : Token} (hf : FiresOn s f pn c) (ho : Operands f a b)
  (ha : a.kind = 0) (hb : b.kind = 0)
include hf ho ha hb

theorem firesTo_steer : FiresTo .steer s f pn c (sendAll (fired s f pn c) f
    [(0, resultTok a (a.valid &&& truths b) a.laneN, 1), (1, resultTok a (a.valid &&& ~~~truths b) a.laneN, 1)] true) :=
  firesTo_sent hf ho ha hb (Eq.trans (b := execSteer s) rfl rfl) rfl

theorem firesTo_filter : let ls := ((List.range 8).filter fun j => a.valid.getLsbD j).map a.lane
    FiresTo .filter s f pn c (sendAll (fired s f pn c) f
      (both (resultTok a (BitVec.ofNat 8 (2 ^ ls.length - 1)) fun j => (ls.map BitVec.toNat).getD j 0) 1) true) :=
  firesTo_sent hf ho ha hb (Eq.trans (b := execFilter s) rfl rfl) (by
    simp only [List.map_map, List.length_map]
    rfl)

theorem firesTo_settag_imm (mode : f.word.mod.getLsbD 0 = true) :
    FiresTo .settag s f pn c (sendAll (fired s f pn c) f (both { a with iter := f.word.imm } 1) true) :=
  firesTo_sent hf ho ha hb (Eq.trans (b := execSettag s) rfl rfl) (if_pos mode)

theorem firesTo_settag_fault (mode : f.word.mod.getLsbD 0 = false) (lane : b.valid.getLsbD 0 = false) :
    FiresTo .settag s f pn c (fireFault (fired s f pn c) pn c f 0x1D 0) :=
  GraphLanes.firesTo_fault hf ho ha hb (Eq.trans (b := execSettag s) rfl rfl)
    (by simp only [mode, lane, Bool.false_eq_true, if_false])

theorem firesTo_settag_lane (mode : f.word.mod.getLsbD 0 = false) (lane : b.valid.getLsbD 0 = true) :
    FiresTo .settag s f pn c (sendAll (fired s f pn c) f (both { a with iter := (b.lane 0).extractLsb' 0 16 } 1) true) :=
  firesTo_sent hf ho ha hb (Eq.trans (b := execSettag s) rfl rfl) (by
    simp only [mode, lane, Bool.false_eq_true, if_false, if_true]
    rfl)

theorem firesTo_const : let k := vget (elemAt (fired s f pn c) f.st f.elem).consts (bits f.word.imm.toNat 1 0)
    FiresTo .const s f pn c (sendAll (fired s f pn c) f (both (taggedTok a (f.word.imm.extractLsb' 8 8)
      (fun j => (k.extractLsb' (32 * j) 32).toNat) (f.word.mod.extractLsb' 0 4) (f.word.mod.extractLsb' 4 3) false) 1) true) :=
  firesTo_sent hf ho ha hb (Eq.trans (b := execConst s) rfl rfl)
    (congrArg (fun r => Except.ok (both r 1)) (resultTok_retagged a _ _ _ _ _))

theorem firesTo_emit : FiresTo .emit s f pn c (sendAll (fired s f pn c) f (both { a with
    pay := 0, valid := 0, kind := f.word.mod.extractLsb' 0 4, seq := a.seq + f.word.imm, sc := false, fmt := 0 } 1) true) :=
  firesTo_sent hf ho ha hb (Eq.trans (b := execEmit s) rfl rfl) rfl

end

/-- The tokens of the ops on tags (R269, R270, R289, R290, R292, R310). -/
theorem graphTagResults : GraphTagResults := by
  intro s f pn c a b hf t
  have merge : exec .merge s = execMerge s := rfl
  have carry : exec .carry s = execCarry s := rfl
  refine ⟨fun ha hb => ⟨firesTo_eitherPort_b hf merge ha hb rfl, firesTo_eitherPort_b hf carry ha hb rfl⟩,
    fun ho => ⟨firesTo_eitherPort_a hf merge ho.1 rfl, firesTo_eitherPort_a hf carry ho.1 rfl⟩, fun ho ha hb => ⟨?_, ?_,
      firesTo_settag_imm hf ho ha hb, fun mode => ⟨firesTo_settag_fault hf ho ha hb mode, firesTo_settag_lane hf ho ha hb mode⟩, ?_,
      firesTo_emit hf ho ha hb⟩⟩
  · refine ⟨_, _, firesTo_steer hf ho ha hb, rfl, rfl, fun j hj => ⟨?_, ?_, lane_of_pay_toNat rfl hj, lane_of_pay_toNat rfl hj⟩⟩
    · exact (BitVec.getLsbD_and ..).trans (by rw [getLsbD_truths b hj])
    · exact (BitVec.getLsbD_and ..).trans (by rw [BitVec.getLsbD_not, getLsbD_truths b hj, decide_eq_true hj, Bool.true_and])
  · exact ⟨_, firesTo_filter hf ho ha hb, rfl, fun j hj => lane_resultTok_getD a _ hj⟩
  · exact ⟨_, firesTo_const hf ho ha hb, taggedTok_eq .., fun j hj => lane_of_pay_toNat
      (l := fun j => (vget (elemAt t f.st f.elem).consts (bits f.word.imm.toNat 1 0)).extractLsb' (32 * j) 32) (pay_taggedTok ..) hj⟩

/-! ### CVT (R151, R284, R285) -/

/-- What a CVT makes of an element of its operand. -/
def cvtElem (p q : ElemTy) (m : Nat × Nat) (a : Token) (j i : Nat) : Nat :=
  (convert q.ty m.1 m.2 (laneState a.iter a.seq j i) (p.ty.num (a.laneN j / 2 ^ (p.c * i) % 2 ^ p.w))).1

/-- A lane of CVT's result: as many elements as both types have places. -/
def cvtLane (p q : ElemTy) (m : Nat × Nat) (a : Token) (j : Nat) : Nat :=
  (List.range (min (32 / p.c) (32 / q.c))).foldl (fun o i => o + cvtElem p q m a j i * 2 ^ (q.c * i)) 0

/-- CVT on a data token: its checks in order, and its result. -/
def cvtFiring (t : State) (pn : Nat) (c : Consist) (f : Firing) (a : Token) : State :=
  let src := bits f.word.mod.toNat 3 0
  let dst := bits f.word.imm.toNat 3 0
  let sc := if src = 8 then bits (vget (stn t f.st).fd a.fmt.toNat).toNat 23 20 else 0
  let p := elemTy t f.st (if src = 8 then 8 + a.fmt.toNat else src)
  let q := elemTy t f.st dst
  let m := cvtSetting (elemAt t f.st f.elem) f a.iter
  if a.sc then fireFault t pn c f 0x0D 0
  else if 3 ≤ sc then fireFault t pn c f 0x24 0
  else if m.2 = 1 ∧ q.ty.isFp = true then fireFault t pn c f 0x14 0
  else sendAll t f
    (both (taggedTok a a.valid (cvtLane p q m a) 0 (if 8 ≤ dst then BitVec.ofNat 3 (dst - 8) else a.fmt) a.sc) 3) true

section
variable {s : State} {f : Firing} {pn : Nat} {c : Consist} {a : Token} (hf : FiresOn s f pn c)
include hf

/-- A control token leaves without a result (R151). -/
theorem firesTo_cvt_control (ha : f.a = none) :
    FiresTo .cvt s f pn c (sendAll (fired s f pn c) f [] (f.b.any fun t => t.kind == 0)) :=
  firesTo_withFiring hf (Eq.trans (b := execCvt s) rfl rfl) (by simp only [ha])

theorem firesTo_cvt (ho : Operands f a a) (h0 : a.kind = 0) : FiresTo .cvt s f pn c (cvtFiring (fired s f pn c) pn c f a) := by
  refine firesTo_withFiring hf (Eq.trans (b := execCvt s) rfl rfl) ?_
  simp only [ho.1, byKind_data ho h0 h0, resultTok_retagged, resultTok_kind, resultTok_sc]
  rfl

end

/-! ### SCALE (R286, R287) -/

theorem scaleByte_le (e : Int) (xs : List Word) : scaleByte e xs ≤ 254 := by
  simp only [scaleByte]
  split <;> omega

/-- The scale byte of a token's block. -/
def blockScale (t : State) (f : Firing) (a : Token) : Nat :=
  scaleByte (formatExp t f.st (bits f.word.imm.toNat 2 0)) (((List.range 8).filter fun j => a.valid.getLsbD j).map a.lane)

/-- A lane of a block in tile format. -/
def scaledLane (t : State) (f : Firing) (a : Token) (j : Nat) : Nat :=
  (convert (elemTy t f.st (8 + bits f.word.imm.toNat 2 0)).ty (bits f.word.imm.toNat 5 3) 0 (laneState a.iter a.seq j 0)
    ((f32.num (a.laneN j)).shift ((blockScale t f a : Int) - 127))).1

/-- A lane of a block in tile format with scale byte k, as an f32. -/
def unscaledLane (t : State) (f : Firing) (a : Token) (k j : Nat) : Nat :=
  let p := elemTy t f.st (8 + a.fmt.toNat)
  if k = 255 then f32.nanCode
  else (roundNum f32 (bits f.word.imm.toNat 5 3) (laneState a.iter a.seq j 0) ((p.ty.num (a.laneN j % 2 ^ p.w)).shift (127 - (k : Int)))).1

theorem blockScale_fired (s : State) (f : Firing) (pn : Nat) (c : Consist) (a : Token) :
    blockScale (fired s f pn c) f a = blockScale s f a := by
  rw [blockScale, formatExp_congr (fd_fired s f pn c f.st), blockScale]

theorem scaledLane_fired (s : State) (f : Firing) (pn : Nat) (c : Consist) (a : Token) :
    scaledLane (fired s f pn c) f a = scaledLane s f a := by
  funext j
  rw [scaledLane, blockScale_fired, elemTy_congr (fd_fired s f pn c f.st), scaledLane]

theorem unscaledLane_fired (s : State) (f : Firing) (pn : Nat) (c : Consist) (a : Token) :
    unscaledLane (fired s f pn c) f a = unscaledLane s f a := by
  funext k j
  rw [unscaledLane, elemTy_congr (fd_fired s f pn c f.st), unscaledLane]

section
variable {s : State} {f : Firing} {pn : Nat} {c : Consist} {a b : Token} (hf : FiresOn s f pn c) (ho : Operands f a b)
  (ha : a.kind = 0) (hb : b.kind = 0)
include hf ho ha hb

theorem firesTo_scale_fault (mode : f.word.mod.getLsbD 0 = false) (scaled : a.sc = true) :
    FiresTo .scale s f pn c (fireFault (fired s f pn c) pn c f 0x0D 0) :=
  GraphLanes.firesTo_fault hf ho ha hb (Eq.trans (b := execScale s) rfl rfl)
    (by simp only [mode, scaled, Bool.not_false, if_true])

theorem firesTo_scale (mode : f.word.mod.getLsbD 0 = false) (plain : a.sc = false) : let t := fired s f pn c
    FiresTo .scale s f pn c (sendAll t f
      [(0, taggedTok a a.valid (scaledLane t f a) 0 (BitVec.ofNat 3 (bits f.word.imm.toNat 2 0)) true, 4),
        (1, taggedTok a 1 (fun _ => blockScale t f a) 0 a.fmt false, 4)] true) := by
  refine firesTo_sent hf ho ha hb (Eq.trans (b := execScale s) rfl rfl) ?_
  rw [scaledLane_fired, blockScale_fired]
  simp only [mode, plain, Bool.not_false, if_true, Bool.false_eq_true, if_false, resultTok_retagged, resultTok_kind,
    resultTok_fmt]
  rfl

theorem firesTo_unscale_fault (mode : f.word.mod.getLsbD 0 = true)
    (bad : a.sc = false ∨ b.valid.getLsbD 0 = false ∨ b.sc = true) :
    FiresTo .scale s f pn c (fireFault (fired s f pn c) pn c f 0x0D 0) := by
  refine GraphLanes.firesTo_fault hf ho ha hb (Eq.trans (b := execScale s) rfl rfl) ?_
  have check : (!a.sc || !b.valid.getLsbD 0 || b.sc) = true := by
    rcases bad with h | h | h <;> rw [h] <;> simp
  simp only [mode, check, Bool.not_true, Bool.false_eq_true, if_false, if_true]

theorem firesTo_unscale (mode : f.word.mod.getLsbD 0 = true) (scaled : a.sc = true) (lane : b.valid.getLsbD 0 = true)
    (plain : b.sc = false) : let t := fired s f pn c
    FiresTo .scale s f pn c (sendAll t f (both (taggedTok a a.valid (unscaledLane t f a (b.laneN 0 % 256)) 0 0 false) 4) true) := by
  refine firesTo_sent hf ho ha hb (Eq.trans (b := execScale s) rfl rfl) ?_
  rw [unscaledLane_fired]
  simp only [mode, scaled, lane, plain, Bool.not_true, Bool.or_false, Bool.false_eq_true, if_false, resultTok_retagged,
    resultTok_kind]
  rfl

end

/-- CVT and SCALE (R151, R284 to R287). -/
theorem graphConversions : GraphConversions := by
  intro s f pn c a b hf t x imm fails
  refine ⟨firesTo_cvt_control hf, fun ha hb h0 => ?_, fun ho ha hb => ⟨fun mode => ⟨firesTo_scale_fault hf ho ha hb mode,
    fun plain => ?_⟩, fun mode => ⟨firesTo_unscale_fault hf ho ha hb mode, fun scaled lane plain => ?_⟩⟩⟩
  · intro src dst sc p q m v
    have ho : Operands f a a := ⟨ha, by rcases hb with hb | hb <;> rw [hb] <;> rfl⟩
    have h := firesTo_cvt hf ho h0
    unfold cvtFiring at h
    refine ⟨fun scaled => ?_, fun plain hc => ?_, fun plain hc hr hq => ?_, fun plain hc hr => ⟨_, ?_, taggedTok_eq .., fun j hj =>
      laneN_of_pay (pay_taggedTok ..) hj⟩⟩
    · rwa [if_pos scaled] at h
    · rwa [if_neg (Bool.eq_false_iff.mp plain), if_pos hc] at h
    · rwa [if_neg (Bool.eq_false_iff.mp plain), if_neg (not_le.mpr hc), if_pos ⟨hr, hq⟩] at h
    · have fits : ¬ (m.2 = 1 ∧ q.ty.isFp = true) := fun ⟨rule, float⟩ => hr.elim (· rule) (Bool.eq_false_iff.mp · float)
      rwa [if_neg (Bool.eq_false_iff.mp plain), if_neg (not_le.mpr hc), if_neg fits] at h
  · intro q k
    refine ⟨_, _, firesTo_scale hf ho ha hb mode plain, taggedTok_eq .., taggedTok_eq .., ?_, fun j hj =>
      laneN_of_pay (pay_taggedTok ..) hj⟩
    refine (laneN_of_pay (pay_taggedTok ..) (by decide)).trans ?_
    exact Nat.mod_eq_of_lt (Nat.lt_of_le_of_lt (scaleByte_le _ _) (by decide))
  · intro p k
    exact ⟨_, firesTo_unscale hf ho ha hb mode scaled lane plain, taggedTok_eq .., fun j hj => laneN_of_pay (pay_taggedTok ..) hj⟩

/-- Settles O52: each op's token is port a's with the fields it sets, and CVT and SCALE read format registers that no firing changes. -/
theorem graphScalarResults : Obligations.GraphScalarResults := ⟨graphTagResults, graphConversions⟩

end Sys2Proof.GraphScalars

namespace Sys2Proof.GraphStreams

open Sys2Proof Machine Laws GraphFirings

/-! ### What a STREAM in emits by itself (R303) -/

theorem left_of_emitting {x : Elem} {i : Nat} {y : Pair} (h : emitting x i = some y) : y.left ≠ 0 := by
  have found := List.find?_some h
  rw [Bool.and_eq_true, bne_iff_ne] at found
  exact found.2

/-- The pair of a stream that has emitted one token more, n of them since its last End-of-row. -/
def emitted (y : Pair) (n : Half) : Pair := { y with left := y.left - 1, out := y.out + 1, next := n }

/-- The token of a group popped from a port, under the tags of the stream's control token. -/
def groupTok (h : Token) (n : Half) (d : BitVec 256) (v : BitVec 8) : Token :=
  { h with pay := lanesFrom v fun j => (d.extractLsb' (32 * j) 32).toNat, valid := 0xFF, kind := 0, seq := n }

theorem lane_groupTok (h : Token) (n : Half) (d : BitVec 256) (v : BitVec 8) {j : Nat} (hj : j < 8) :
    (groupTok h n d v).lane j = if v.getLsbD j then d.extractLsb' (32 * j) 32 else 0 :=
  lane_of_pay_toNat (l := fun j => d.extractLsb' (32 * j) 32) rfl hj

theorem stream_port (imm : Half) : bits imm.toNat 2 0 = imm.toNat % 8 := by simp [bits]

section
variable {t : State} {pn : Nat} {c : Consist} {f : Firing} {y : Pair} {h : Token} {l : List Token} (toks : y.toks = h :: l)
include toks

theorem streamNext_end (last : y.left = 1) : streamNext t pn c f y =
    sendAll (modElem t f.st f.elem fun x => dropPair x y) f (both { h with pay := 0, valid := 0, kind := 9, seq := y.out } 1) false := by
  simp only [streamNext, toks, last]
  rfl

theorem streamNext_row (more : 1 < y.left) (rows : bits f.word.imm.toNat 10 3 ≠ 0) (full : y.next.toNat = bits f.word.imm.toNat 10 3) :
    streamNext t pn c f y = sendAll (modElem t f.st f.elem fun x => putPair x (emitted y 0)) f
      (both { h with pay := 0, valid := 0, kind := 1, seq := y.out } 1) false := by
  have left : y.left - 1 ≠ 0 := by omega
  simp only [streamNext, emitted, toks, more.ne', if_false, rows, full, ne_eq, not_false_eq_true, and_self, if_true, left]
  rfl

theorem streamNext_group {d : BitVec 256} {v : BitVec 8} {u : State} (more : 1 < y.left)
    (row : bits f.word.imm.toNat 10 3 = 0 ∨ y.next.toNat ≠ bits f.word.imm.toNat 10 3)
    (cons : graphEnd (portAt t f.st (bits f.word.imm.toNat 2 0)).cons = true)
    (pop : portPop t f.st (bits f.word.imm.toNat 2 0) 1 = some ([(d, v)], u)) :
    streamNext t pn c f y = sendAll (modElem u f.st f.elem fun x => putPair x (emitted y (y.next + 1))) f
      (both (groupTok h y.out d v) 1) true := by
  have left : y.left - 1 ≠ 0 := by omega
  have within : ¬ (bits f.word.imm.toNat 10 3 ≠ 0 ∧ y.next.toNat = bits f.word.imm.toNat 10 3) := by tauto
  simp only [streamNext, emitted, toks, more.ne', if_false, within, cons, Bool.not_true, Bool.false_eq_true, pop, left]
  rfl

end

/-! ### STREAM on a token (R303) -/

section
variable {s u : State} {f : Firing} {pn : Nat} {c : Consist} {a : Token} {y : Pair} (hf : FiresOn s f pn c)
include hf

/-- Without a token on port a, the slot's stream goes on. -/
theorem firesTo_stream_next (ha : f.a = none) (mode : f.word.mod.getLsbD 0 = false)
    (hy : emitting (elemAt (fired s f pn c) f.st f.elem) f.slot = some y) (hu : streamNext (fired s f pn c) pn c f y = u) :
    FiresTo .stream s f pn c u :=
  firesTo_withFiring hf (Eq.trans (b := execStream s) rfl rfl) (by simp only [mode, ha, hy, hu, Bool.false_eq_true, if_false])

/-- An End-of-stream goes on by itself. -/
theorem firesTo_stream_end (ha : f.a = some a) (mode : f.word.mod.getLsbD 0 = true) (h9 : a.kind = 9) :
    FiresTo .stream s f pn c (sendAll (fired s f pn c) f [(0, { a with pay := 0, valid := 0, kind := 9 }, 1)] false) :=
  firesTo_withFiring hf (Eq.trans (b := execStream s) rfl rfl) (by
    simp only [ha, mode, h9, if_true, Option.filter_some, beq_self_eq_true]
    rfl)

section
variable (ho : Operands f a a) (h0 : a.kind = 0)
include ho h0

theorem firesTo_stream_out_fault (mode : f.word.mod.getLsbD 0 = true)
    (unbound : graphEnd (portAt (fired s f pn c) f.st (bits f.word.imm.toNat 2 0)).prod = false) :
    FiresTo .stream s f pn c (fireFault (fired s f pn c) pn c f 0x13 0) :=
  firesTo_withFiring hf (Eq.trans (b := execStream s) rfl rfl) (by
    rw [if_pos mode, ho.1, Option.filter_some, if_neg (by rw [h0]; decide)]
    simp only [byKind_data ho h0 h0, unbound, Bool.not_false, if_true])

theorem firesTo_stream_out (mode : f.word.mod.getLsbD 0 = true)
    (bound : graphEnd (portAt (fired s f pn c) f.st (bits f.word.imm.toNat 2 0)).prod = true)
    (push : portPush (fired s f pn c) f.st (bits f.word.imm.toNat 2 0) [(lanesFrom a.valid a.laneN, a.valid)] = some u) :
    FiresTo .stream s f pn c (sendAll u f [] true) :=
  firesTo_withFiring hf (Eq.trans (b := execStream s) rfl rfl) (by
    rw [if_pos mode, ho.1, Option.filter_some, if_neg (by rw [h0]; decide)]
    simp only [byKind_data ho h0 h0, bound, push, Bool.not_true, Bool.false_eq_true, if_false])

theorem firesTo_stream_in_fault (mode : f.word.mod.getLsbD 0 = false)
    (unbound : graphEnd (portAt (fired s f pn c) f.st (bits f.word.imm.toNat 2 0)).cons = false) :
    FiresTo .stream s f pn c (fireFault (fired s f pn c) pn c f 0x13 0) :=
  firesTo_withFiring hf (Eq.trans (b := execStream s) rfl rfl) (by
    simp only [mode, ho.1, byKind_data ho h0 h0, unbound, Bool.not_false, Bool.false_eq_true, if_false, if_true])

/-- A control token opens its slot's stream. -/
theorem firesTo_stream_in (mode : f.word.mod.getLsbD 0 = false)
    (bound : graphEnd (portAt (fired s f pn c) f.st (bits f.word.imm.toNat 2 0)).cons = true) :
    let n := if a.valid.getLsbD 0 then a.laneN 0 else 0
    let y : Pair := { slot := f.slot, act := a.act, iter := a.iter, left := streamLength n (bits f.word.imm.toNat 10 3), toks := [a],
                      arr := (fired s f pn c).time }
    FiresTo .stream s f pn c (sendAll (modElem (fired s f pn c) f.st f.elem fun x => putPair x y) f [] true) :=
  firesTo_withFiring hf (Eq.trans (b := execStream s) rfl rfl) (by
    simp only [mode, ho.1, byKind_data ho h0 h0, bound, Bool.not_true, Bool.false_eq_true, if_false])

end

end

end Sys2Proof.GraphStreams

namespace Sys2Proof.GraphPairs

open Sys2Proof Machine Laws GraphFirings GraphStreams

theorem data_ne_barrier : (0 : BitVec 4) ≠ 8 := by decide

/-! ### Lanes that go with a partial token (R271) -/

/-- Neither check of COALESCE fails on a token without lanes, or with the partial token's SC and format. -/
theorem coalesce_checks_of_agree {a h : Token} (agree : a.lanes = [] ∨ (h.sc = a.sc ∧ h.fmt = a.fmt)) :
    (!a.lanes.isEmpty && h.sc != a.sc) = false ∧ (!a.lanes.isEmpty && h.fmt != a.fmt) = false := by
  rcases agree with empty | ⟨sc, fmt⟩
  · simp [empty]
  · simp [sc, fmt]

/-- No lane is left over beyond a full token. -/
theorem isEmpty_drop_eight {ls : List Word} (full : 8 ≤ ls.length) : (ls.drop 8).isEmpty = true ↔ ls.length = 8 := by
  rw [List.isEmpty_iff, List.drop_eq_nil_iff]
  omega

section
variable {s : State} {f : Firing} {pn : Nat} {c : Consist} {a b : Token} (hf : FiresOn s f pn c) (ha : f.a = some a)
include hf ha

/-! ### Barriers (R108) -/

section
variable (h8 : a.kind = 8)
include h8

theorem firesTo_seq_barrier : FiresTo .seq s f pn c (sendAll (fired s f pn c) f (both a 1) false) :=
  firesTo_withFiring hf (Eq.trans (b := execSeq s) rfl rfl) (by simp only [ha, h8, if_true])

theorem firesTo_reduce_barrier : FiresTo .reduce s f pn c (sendAll (fired s f pn c) f (both a 1) false) :=
  firesTo_withFiring hf (Eq.trans (b := execReduce s) rfl rfl) (by simp only [ha, h8, if_true])

theorem firesTo_rowstat_barrier : FiresTo .rowstat s f pn c (sendAll (fired s f pn c) f (both a 1) false) :=
  firesTo_withFiring hf (Eq.trans (b := execRowstat s) rfl rfl) (by simp only [ha, h8, if_true])

theorem firesTo_delay_barrier (hb : f.b = some b) : FiresTo .delay s f pn c (sendAll (fired s f pn c) f (both a 1) false) :=
  firesTo_withFiring hf (Eq.trans (b := execDelay s) rfl rfl) (by simp only [ha, hb, h8, if_true])

/-- A Barrier goes on behind the partial tokens of all its activation's pairs. -/
theorem firesTo_coalesce_barrier : let t := fired s f pn c
    let flushed := flushAll (elemAt t f.st f.elem) f a.act
    FiresTo .coalesce s f pn c (sendAll (modElem t f.st f.elem fun _ => flushed.2) f (inTurn 1 (flushed.1 ++ [a])) false) :=
  firesTo_withFiring hf (Eq.trans (b := execCoalesce s) rfl rfl) (by simp only [ha, h8, if_true])

end

/-! ### SEQ (R293) -/

theorem firesTo_seq (h8 : a.kind ≠ 8) : let t := fired s f pn c
    let p := pairFor (elemAt t f.st f.elem) f.word f.slot a
    FiresTo .seq s f pn c (sendAll (keepPair t f a { p with out := p.out + 1 }) f (both { a with seq := p.out } 1) (a.kind == 0)) :=
  firesTo_withFiring hf (Eq.trans (b := execSeq s) rfl rfl) (by simp only [ha, h8, if_false])

/-! ### REDUCE (R295, R296) and ROWSTAT (R297) -/

section
variable (h0 : a.kind ≠ 0) (h8 : a.kind ≠ 8)
include h0 h8

theorem firesTo_joinGroup_of_below (below : ¬ levelOf f ≤ a.closes) : let t := fired s f pn c
    let p := pairFor (elemAt t f.st f.elem) f.word f.slot a
    FiresTo .reduce s f pn c (joinGroup t f a p) ∧ FiresTo .rowstat s f pn c (joinGroup t f a p) :=
  ⟨firesTo_withFiring hf (Eq.trans (b := execReduce s) rfl rfl) (by simp only [ha, h8, h0, below, if_false]),
    firesTo_withFiring hf (Eq.trans (b := execRowstat s) rfl rfl) (by simp only [ha, h8, h0, below, if_false])⟩

theorem firesTo_reduce_close (top : levelOf f ≤ a.closes) : let t := fired s f pn c
    let p := pairFor (elemAt t f.st f.elem) f.word f.slot a
    let r := reduceResult f.word.mod.toNat p.toks
    let h := p.toks.head?.getD a
    FiresTo .reduce s f pn c
      (closeGroup t f a p { a with pay := r.1, valid := r.2, kind := 0, sc := h.sc, fmt := h.fmt } (latOf f.word)) :=
  firesTo_withFiring hf (Eq.trans (b := execReduce s) rfl rfl) (by simp only [ha, h8, h0, top, if_false, if_true])

theorem firesTo_rowstat_close (top : levelOf f ≤ a.closes) : let t := fired s f pn c
    let p := pairFor (elemAt t f.st f.elem) f.word f.slot a
    let r := rowStats (p.toks.flatMap fun t => t.lanes.map (·.toNat))
    FiresTo .rowstat s f pn c
      (closeGroup t f a p (taggedTok a 7 (fun j => [r.1, r.2.1, r.2.2].getD j 0) 0 a.fmt false) (8 + 2 * p.toks.length)) :=
  firesTo_withFiring hf (Eq.trans (b := execRowstat s) rfl rfl) (by
    simp only [ha, h8, h0, top, if_false, if_true, resultTok_retagged, resultTok_kind, resultTok_fmt])

end

section
variable (h0 : a.kind = 0)
include h0

theorem firesTo_reduce_fault
    (differ : ((pairFor (elemAt (fired s f pn c) f.st f.elem) f.word f.slot a).toks.any fun t => t.sc != a.sc) = true) :
    FiresTo .reduce s f pn c (fireFault (fired s f pn c) pn c f 0x0D 0) :=
  firesTo_withFiring hf (Eq.trans (b := execReduce s) rfl rfl) (by
    simp only [ha, h0, data_ne_barrier, differ, if_false, if_true])

theorem firesTo_reduce_join : let t := fired s f pn c
    let p := pairFor (elemAt t f.st f.elem) f.word f.slot a
    (p.toks.any fun t => t.sc != a.sc) = false → FiresTo .reduce s f pn c (joinGroup t f a p) := fun agree =>
  firesTo_withFiring hf (Eq.trans (b := execReduce s) rfl rfl) (by
    simp only [ha, h0, data_ne_barrier, agree, Bool.false_eq_true, if_false, if_true])

theorem firesTo_rowstat_fault (scaled : a.sc = true) : FiresTo .rowstat s f pn c (fireFault (fired s f pn c) pn c f 0x0D 0) :=
  firesTo_withFiring hf (Eq.trans (b := execRowstat s) rfl rfl) (by
    simp only [ha, h0, data_ne_barrier, scaled, if_false, if_true])

theorem firesTo_rowstat_overflow (plain : a.sc = false)
    (full : 32 ≤ (pairFor (elemAt (fired s f pn c) f.st f.elem) f.word f.slot a).toks.length) :
    FiresTo .rowstat s f pn c (fireFault (fired s f pn c) pn c f 0x21 0) :=
  firesTo_withFiring hf (Eq.trans (b := execRowstat s) rfl rfl) (by
    simp only [ha, h0, data_ne_barrier, plain, full, Bool.false_eq_true, if_false, if_true])

theorem firesTo_rowstat_join (plain : a.sc = false) : let t := fired s f pn c
    let p := pairFor (elemAt t f.st f.elem) f.word f.slot a
    p.toks.length < 32 → FiresTo .rowstat s f pn c (joinGroup t f a p) := fun room =>
  firesTo_withFiring hf (Eq.trans (b := execRowstat s) rfl rfl) (by
    simp only [ha, h0, data_ne_barrier, plain, room.not_ge, Bool.false_eq_true, if_false, if_true])

end

/-! ### DELAY (R298) -/

section
variable (hb : f.b = some b)
include hb

theorem firesTo_delay_data (h0 : a.kind = 0) : let t := fired s f pn c
    let p := pairFor (elemAt t f.st f.elem) f.word f.slot a
    FiresTo .delay s f pn c (sendAll (keepPair t f a { p with next := a.seq + 1, left := p.left + 1 }) f
      [(0, a, 1), (1, { b with act := a.act, iter := a.iter, seq := a.seq }, 1)] true) :=
  firesTo_withFiring hf (Eq.trans (b := execDelay s) rfl rfl) (by simp only [ha, hb, h0, data_ne_barrier, if_false, if_true])

/-- A marker at the level or above it ends the group, whose release token leaves. -/
theorem firesTo_delay_close (h0 : a.kind ≠ 0) (h8 : a.kind ≠ 8) (top : levelOf f ≤ a.closes) : let t := fired s f pn c
    let p := pairFor (elemAt t f.st f.elem) f.word f.slot a
    FiresTo .delay s f pn c (sendAll (modElem (keepPair t f a { p with next := a.seq + 1, left := 0, grp := p.grp + 1 }) f.st f.elem
      fun x => dropRelease x f) f (both (kindTok a.kind a) 1) false) :=
  firesTo_withFiring hf (Eq.trans (b := execDelay s) rfl rfl) (by simp only [ha, hb, h8, h0, top, if_false, if_true])

theorem firesTo_delay_below (h0 : a.kind ≠ 0) (h8 : a.kind ≠ 8) (below : ¬ levelOf f ≤ a.closes) : let t := fired s f pn c
    let p := pairFor (elemAt t f.st f.elem) f.word f.slot a
    FiresTo .delay s f pn c (sendAll (keepPair t f a { p with next := a.seq + 1 }) f [(0, kindTok a.kind a, 1)] false) :=
  firesTo_withFiring hf (Eq.trans (b := execDelay s) rfl rfl) (by simp only [ha, hb, h8, h0, below, if_false])

end

/-! ### COALESCE (R271) -/

/-- A marker goes on behind the pair's partial token. -/
theorem firesTo_coalesce_mark (h0 : a.kind ≠ 0) (h8 : a.kind ≠ 8) : let t := fired s f pn c
    let p := pairFor (elemAt t f.st f.elem) f.word f.slot a
    let part := p.toks.map fun t => { t with seq := p.out }
    let n : Half := BitVec.ofNat 16 part.length
    FiresTo .coalesce s f pn c (sendAll (keepPair t f a { p with toks := [], out := p.out + n + 1 }) f
      (inTurn 1 (part ++ [{ kindTok a.kind a with seq := p.out + n }])) false) :=
  firesTo_withFiring hf (Eq.trans (b := execCoalesce s) rfl rfl) (by
    simp only [ha, h8, h0, ne_eq, not_false_eq_true, if_false, if_true])

section
variable (h0 : a.kind = 0)
include h0

theorem firesTo_coalesce_full : let t := fired s f pn c
    let p := pairFor (elemAt t f.st f.elem) f.word f.slot a
    p.toks = [] → a.lanes.length = 8 →
      FiresTo .coalesce s f pn c (sendAll (keepPair t f a { p with out := p.out + 1 }) f
        (both { packed a a.lanes with seq := p.out } 1) true) := fun toks full =>
  firesTo_withFiring hf (Eq.trans (b := execCoalesce s) rfl rfl) (by
    simp only [ha, h0, data_ne_barrier, toks, full, List.flatMap_nil, List.nil_append, ne_eq, not_true_eq_false, if_false, if_true])

theorem firesTo_coalesce_opens : let t := fired s f pn c
    let p := pairFor (elemAt t f.st f.elem) f.word f.slot a
    p.toks = [] → a.lanes.length < 8 →
      FiresTo .coalesce s f pn c (sendAll (keepPair t f a { p with toks := if a.lanes.isEmpty then [] else [packed a a.lanes] }) f
        [] true) := fun toks room =>
  firesTo_withFiring hf (Eq.trans (b := execCoalesce s) rfl rfl) (by
    simp only [ha, h0, data_ne_barrier, toks, room.ne, List.flatMap_nil, List.nil_append, ne_eq, not_true_eq_false, if_false])

section
variable {h : Token} {l : List Token}
  (toks : (pairFor (elemAt (fired s f pn c) f.st f.elem) f.word f.slot a).toks = h :: l)
include toks

theorem firesTo_coalesce_sc (occupied : a.lanes ≠ []) (differ : h.sc ≠ a.sc) :
    FiresTo .coalesce s f pn c (fireFault (fired s f pn c) pn c f 0x0D 0) :=
  have check : (!a.lanes.isEmpty && h.sc != a.sc) = true := by simp [occupied, differ]
  firesTo_withFiring hf (Eq.trans (b := execCoalesce s) rfl rfl) (by
    simp only [ha, h0, data_ne_barrier, toks, check, ne_eq, not_true_eq_false, if_false, if_true])

theorem firesTo_coalesce_fmt (occupied : a.lanes ≠ []) (same : h.sc = a.sc) (differ : h.fmt ≠ a.fmt) :
    FiresTo .coalesce s f pn c (fireFault (fired s f pn c) pn c f 0x1D 0) :=
  have first : (!a.lanes.isEmpty && h.sc != a.sc) = false := by simp [same]
  have check : (!a.lanes.isEmpty && h.fmt != a.fmt) = true := by simp [occupied, differ]
  firesTo_withFiring hf (Eq.trans (b := execCoalesce s) rfl rfl) (by
    simp only [ha, h0, data_ne_barrier, toks, first, check, Bool.false_eq_true, ne_eq, not_true_eq_false, if_false, if_true])

section
variable (agree : a.lanes = [] ∨ (h.sc = a.sc ∧ h.fmt = a.fmt))
include agree

/-- Lanes that fill the partial token: a full token leaves, and the lanes left over wait. -/
theorem firesTo_coalesce_fills : let t := fired s f pn c
    let p := pairFor (elemAt t f.st f.elem) f.word f.slot a
    let ls := p.toks.flatMap Token.lanes ++ a.lanes
    8 ≤ ls.length → FiresTo .coalesce s f pn c (sendAll (keepPair t f a { p with
      toks := (if ls.length = 8 then [] else [packed a (ls.drop 8)]), out := p.out + 1 }) f
      (both { packed a (ls.take 8) with seq := p.out } 1) true) := fun full =>
  have ⟨sc, fmt⟩ := coalesce_checks_of_agree agree
  firesTo_withFiring hf (Eq.trans (b := execCoalesce s) rfl rfl) (by
    rw [toks] at full
    simp only [ha, h0, data_ne_barrier, toks, sc, fmt, full, isEmpty_drop_eight full, Bool.false_eq_true, ne_eq, not_true_eq_false,
      if_false, if_true])

theorem firesTo_coalesce_waits : let t := fired s f pn c
    let p := pairFor (elemAt t f.st f.elem) f.word f.slot a
    let ls := p.toks.flatMap Token.lanes ++ a.lanes
    ls.length < 8 → FiresTo .coalesce s f pn c (sendAll (keepPair t f a { p with toks := [packed h ls] }) f [] true) := fun room =>
  have ⟨sc, fmt⟩ := coalesce_checks_of_agree agree
  firesTo_withFiring hf (Eq.trans (b := execCoalesce s) rfl rfl) (by
    rw [toks] at room
    simp only [ha, h0, data_ne_barrier, toks, sc, fmt, room.not_ge, Bool.false_eq_true, ne_eq, not_true_eq_false, if_false])

end

end

end

end

/-- Settles O53: a STREAM in goes on by its pair, and each other op by the kind and the level of the token at its port a. -/
theorem graphPairsInOrder : Obligations.GraphPairsInOrder := by
  refine ⟨?_, ?_⟩
  · intro s f pn c y h l hf ha mode hy toks t r port mark on emits
    have left : y.left ≠ 0 := left_of_emitting hy
    have next {u : State} := firesTo_stream_next (u := u) hf ha mode hy
    have hport : bits f.word.imm.toNat 2 0 = port := stream_port _
    refine ⟨fun last => next (streamNext_end toks last), fun more rows full => next (streamNext_row toks (by omega) rows full),
      fun more row cons d v u pop => ⟨groupTok h y.out d v, next ?_, rfl, fun j hj => lane_groupTok h y.out d v hj⟩⟩
    rw [← hport] at cons pop
    exact streamNext_group toks (by omega) row cons pop
  · intro s f pn c a hf ha t x p sends fails joins top
    refine ⟨fun h8 => ?barrier, fun h8 => firesTo_seq hf ha h8, fun h0 h8 => ?marker, fun h0 => ?data,
      fun h9 mode => firesTo_stream_end hf ha mode h9, ?stream⟩
    case barrier =>
      exact ⟨firesTo_seq_barrier hf ha h8, firesTo_reduce_barrier hf ha h8, firesTo_rowstat_barrier hf ha h8,
        firesTo_coalesce_barrier hf ha h8, fun b hb => firesTo_delay_barrier hf ha h8 hb⟩
    case marker =>
      refine ⟨firesTo_coalesce_mark hf ha h0 h8, firesTo_joinGroup_of_below hf ha h0 h8,
        fun close => ⟨firesTo_reduce_close hf ha h0 h8 close, _, firesTo_rowstat_close hf ha h0 h8 close, taggedTok_eq .., ?_, ?_, ?_⟩,
        fun b hb => ⟨firesTo_delay_close hf ha hb h0 h8, firesTo_delay_below hf ha hb h0 h8⟩⟩
      all_goals exact laneN_of_pay (pay_taggedTok ..) (by decide)
    case data =>
      refine ⟨fun toks => ⟨firesTo_coalesce_full hf ha h0 toks, firesTo_coalesce_opens hf ha h0 toks⟩, fun h l toks => ?_,
        firesTo_reduce_fault hf ha h0, firesTo_reduce_join hf ha h0, firesTo_rowstat_fault hf ha h0,
        fun plain => ⟨firesTo_rowstat_overflow hf ha h0 plain, firesTo_rowstat_join hf ha h0 plain⟩,
        fun b hb => firesTo_delay_data hf ha hb h0⟩
      exact ⟨firesTo_coalesce_sc hf ha h0 toks, firesTo_coalesce_fmt hf ha h0 toks,
        fun agree => ⟨firesTo_coalesce_fills hf ha h0 toks agree, firesTo_coalesce_waits hf ha h0 toks agree⟩⟩
    case stream =>
      intro port q h0 hb
      have ho : Operands f a a := ⟨ha, by rcases hb with hb | hb <;> rw [hb] <;> rfl⟩
      exact ⟨fun mode => ⟨firesTo_stream_out_fault hf ho h0 mode, fun bound u push => firesTo_stream_out hf ho h0 mode bound push⟩,
        fun mode => ⟨firesTo_stream_in_fault hf ho h0 mode, firesTo_stream_in hf ho h0 mode⟩⟩

end Sys2Proof.GraphPairs

namespace Sys2Proof.GraphTags

open Sys2Proof Machine Laws GraphFirings

/-! ### GETTAG (R291) -/

/-- What decodes as a graph op is well formed, and the word's op field is that op's (R109, R113). -/
theorem op_of_decodeRoszon {x : BitVec 64} {r : RoszonWord} (h : decodeRoszon x = .ok r) :
    r.wf = true ∧ roszonOp r.op = some (x.extractLsb' 56 8) := by
  obtain ⟨hwf, hop, -⟩ := PorlekEncoding.soundOp_decodeOp _ _ _ _ _ r h
  exact ⟨hwf, hop⟩

/-- A well-formed GETTAG has neither settings nor an immediate. -/
theorem gettag_fields_of_wf {r : RoszonWord} (hwf : r.wf = true) (hop : r.op = .gettag) : r.mod = 0 ∧ r.imm = 0 := by
  rw [RoszonWord.wf, hop] at hwf
  have fields : ((r.mod == 0 && r.imm == 0) && destsOk r.d0 r.d1) = true := hwf
  simp only [Bool.and_eq_true, beq_iff_eq] at fields
  exact fields.1

/-- GETTAG's token: port a's tags in lanes 0 to 2, without format and scale. -/
def gettagTok (a : Token) : Token := taggedTok a 7 (fun j => [a.iter.toNat, a.act.toNat, a.seq.toNat].getD j 0) 0 0 false

/-- No tag is wider than a lane. -/
theorem lane_gettagTok (a : Token) : (gettagTok a).lane 0 = a.iter.setWidth 32 ∧ (gettagTok a).lane 1 = a.act.setWidth 32 ∧
    (gettagTok a).lane 2 = a.seq.setWidth 32 := by
  have lane {j : Nat} (hj : j < 8) := lane_of_pay (r := gettagTok a) (pay_taggedTok ..) hj
  exact ⟨(lane (by decide)).trans (BitVec.ofNat_toNat ..), (lane (by decide)).trans (BitVec.ofNat_toNat ..),
    (lane (by decide)).trans (BitVec.ofNat_toNat ..)⟩

theorem firesTo_gettag {s : State} {f : Firing} {pn : Nat} {c : Consist} {a b : Token} (hf : FiresOn s f pn c) (ho : Operands f a b)
    (ha : a.kind = 0) (hb : b.kind = 0) :
    FiresTo .gettag s f pn c (sendAll (fired s f pn c) f (both (gettagTok a) 1) true) :=
  firesTo_sent hf ho ha hb (Eq.trans (b := execGettag s) rfl rfl)
    (congrArg (fun r => Except.ok (both r 1)) (resultTok_retagged a 7 _ 0 0 false))

/-- Settles O51: the decoder keeps GETTAG's word free of settings, and its token's valid lanes are the tags. -/
theorem gettagReadsTheTags : Obligations.GettagReadsTheTags := by
  refine ⟨fun x r hr hop => ?_, fun s f pn c a b hf ho ha hb =>
    ⟨gettagTok a, firesTo_gettag hf ho ha hb, taggedTok_eq .., lane_gettagTok a⟩⟩
  obtain ⟨hwf, op⟩ := op_of_decodeRoszon hr
  rw [hop] at op
  exact ⟨(Option.some.inj op).symm, gettag_fields_of_wf hwf hop⟩

end Sys2Proof.GraphTags

namespace Sys2Proof.GraphAccesses

open Sys2Proof Machine Laws GraphFirings

/-! ### The check of a node's lanes (R299, R319, R321) -/

section
variable {s : State} {pn z : Nat} {g : Seg} {rd wr pres : Bool}

/-- An access that is admitted passes every check of R85 in its order. -/
theorem wordCheck_of_admits {off : Nat} (hz : 0 < z) (h : Admits s pn g off z rd wr) : wordCheck s pn g off z rd wr false = none := by
  obtain ⟨aligned, ⟨read, write⟩, buffer, limit, small⟩ := h
  obtain ⟨-, -, -, passes⟩ := SegmentChecks.segmentChecksInOrder.1 s pn g off z rd wr false hz
  have opened : (wr && g.type == 1 && (kget (part s pn).seals g.idx).isSome) = false := by
    by_cases closable : wr = true ∧ g.type = 1
    · simp [buffer closable.1 closable.2]
    · simpa [not_and] using fun hw ht => absurd ⟨hw, ht⟩ closable
  exact passes aligned ⟨read, write, rfl⟩ opened small limit

/-- An offset below 2^40 is its own residue of 64 bits. -/
theorem toNat_emod_of_small {o : Int} (h0 : 0 ≤ o) (small : o.toNat < 2 ^ 40) : (o % 2 ^ 64).toNat = o.toNat := by
  rw [Int.emod_eq_of_lt h0 (by omega)]

/-- Lanes that are admitted, in a segment with presence bits where the node asks for them, give their elements. -/
theorem nodeEls_of_admitted {ls : List (Nat × Int × DWord)} (hz : 0 < z) (hp : pres = true → g.presence = true)
    (h : LanesAdmitted s pn g z rd wr ls) : nodeEls s pn g z rd wr pres ls = .ok (laneElsOf g ls) := by
  obtain ⟨engine, kind, lanes⟩ := h
  have right : (!g.engine || g.type == 3 || (pres && !g.presence)) = false := by
    cases pres with
    | false => simp [engine, kind]
    | true => simp [engine, kind, hp rfl]
  induction ls with
  | nil => rfl
  | cons x l ih =>
    obtain ⟨j, o, v⟩ := x
    obtain ⟨⟨h0, admits⟩, rest⟩ := List.forall_mem_cons.mp lanes
    have small := admits.limit.2
    have inside : ¬ (o < 0 ∨ 2 ^ 40 ≤ o) := by
      simp only at h0 small
      omega
    have wide : o.toNat % 2 ^ 64 = o.toNat := Nat.mod_eq_of_lt (by simp only at small; omega)
    simp only [nodeEls, right, toNat_emod_of_small h0 small, wordCheck_of_admits hz admits, inside, if_false, ih rest, vaOf,
      BitVec.toNat_ofNat, wide]
    rfl

end

/-- The slot that a tile op names in the low four bits of its immediate (R305, R306). -/
theorem tileNo_eq_mod (f : Firing) : tileNo f = f.word.imm.toNat % 16 := by simp [tileNo, bits]

theorem nodeSize_pos (f : Firing) : 0 < nodeSize f := Nat.two_pow_pos _

section
variable {s u : State} {f : Firing} {pn : Nat} {c : Consist} {a b : Token} {i : Instr} {e : Byte × DWord} {ls : List (Nat × Int × DWord)}

/-- An op that reads the kinds of its operands first computes where both are data (R108). -/
theorem firesTo_data {l : Firing → Nat} {k : State → Nat → Consist → Firing → Token → Token → State} (hf : FiresOn s f pn c)
    (ho : Operands f a b) (ha : a.kind = 0) (hb : b.kind = 0)
    (hi : exec i s = withFiring s fun s pn c f => byKind s pn c f (l f) (k s pn c f)) (hk : k (fired s f pn c) pn c f a b = u) :
    FiresTo i s f pn c u :=
  firesTo_withFiring hf hi ((byKind_data ho ha hb).trans hk)

/-! ### TILEGET by itself (R306) -/

section
variable (hf : FiresOn s f pn c) (ha : f.a = none) {y : Pair} {h : Token} {l : List Token}
  (hy : emitting (elemAt (fired s f pn c) f.st f.elem) f.slot = some y) (toks : y.toks = h :: l)
include hf ha hy toks

theorem firesTo_tileget_end (last : y.left = 1) : let t := fired s f pn c
    FiresTo .tileget s f pn c (settleSlot (sendAll (modElem t f.st f.elem fun x => dropPair x y) f
      (both { kindTok 2 h with seq := y.out } 1) false) f.st (tileNo f)) :=
  firesTo_withFiring hf (Eq.trans (b := execTileget s) rfl rfl) (by simp only [ha, hy, tileGetNext, toks, last, if_true])

theorem firesTo_tileget_next (more : y.left ≠ 1) : let t := fired s f pn c
    FiresTo .tileget s f pn c (sendAll
      (modElem t f.st f.elem fun x => putPair x { y with left := y.left - 1, out := y.out + 1 }) f
      (both { h with pay := BitVec.ofNat 256 (rdN t (tileKey f.st (tileNo f) (32 * y.out.toNat)) 32), valid := 0xFF, kind := 0,
                     seq := y.out, fmt := f.word.mod.extractLsb' 0 3 } 1) true) :=
  firesTo_withFiring hf (Eq.trans (b := execTileget s) rfl rfl) (by simp only [ha, hy, tileGetNext, toks, more, if_false])

end

section
variable (hf : FiresOn s f pn c) (ho : Operands f a b) (ha : a.kind = 0) (hb : b.kind = 0)
include hf ho ha hb

/-! ### LOAD and STORE (R300) -/

/-- The lanes of v at port a's offsets, each with its value. -/
def nodeLanes (f : Firing) (a : Token) (v : BitVec 8) (d : Nat → DWord) : List (Nat × Int × DWord) :=
  ((List.range 8).filter fun j => v.getLsbD j).map fun j => (j, nodeOff f a j, d j)

theorem firesTo_load_fault : let t := fired s f pn c
    nodeEls t pn (nodeSeg t f.st (bits f.word.mod.toNat 2 0)) (nodeSize f) true false false
      (nodeLanes f a a.valid fun _ => 0) = .error e →
    FiresTo .graphLoad s f pn c (nodeFault t pn c f e) := fun refused =>
  firesTo_data hf ho ha hb (Eq.trans (b := execGraphLoad s) rfl rfl) (by
    rw [nodeLanes] at refused
    simp only [refused])

theorem firesTo_load : let t := fired s f pn c
    let g := nodeSeg t f.st (bits f.word.mod.toNat 2 0)
    let ls := nodeLanes f a a.valid fun _ => 0
    LanesAdmitted t pn g (nodeSize f) true false ls →
    FiresTo .graphLoad s f pn c (nodeRead t pn c f (nodeSize f) g (laneElsOf g ls) a.valid (loadLat f.word)) := fun admitted =>
  firesTo_data hf ho ha hb (Eq.trans (b := execGraphLoad s) rfl rfl) (by
    have els := nodeEls_of_admitted (pres := false) (nodeSize_pos f) nofun admitted
    rw [nodeLanes] at els ⊢
    simp only [els])

theorem firesTo_store_fault : let t := fired s f pn c
    nodeEls t pn (nodeSeg t f.st (bits f.word.mod.toNat 2 0)) (nodeSize f) false true false
      (nodeLanes f a (a.valid &&& b.valid) fun j => (b.lane j).setWidth 64) = .error e →
    FiresTo .graphStore s f pn c (nodeFault t pn c f e) := fun refused =>
  firesTo_data hf ho ha hb (Eq.trans (b := execGraphStore s) rfl rfl) (by
    rw [nodeLanes] at refused
    simp only [refused])

theorem firesTo_store : let t := fired s f pn c
    let g := nodeSeg t f.st (bits f.word.mod.toNat 2 0)
    let ls := nodeLanes f a (a.valid &&& b.valid) fun j => (b.lane j).setWidth 64
    LanesAdmitted t pn g (nodeSize f) false true ls →
    FiresTo .graphStore s f pn c (nodeWrite (countFiring t f 0) pn c f (nodeSize f) g (laneElsOf g ls)) := fun admitted =>
  firesTo_data hf ho ha hb (Eq.trans (b := execGraphStore s) rfl rfl) (by
    have els := nodeEls_of_admitted (pres := false) (nodeSize_pos f) nofun admitted
    rw [nodeLanes] at els ⊢
    simp only [els])

/-! ### TAKE and PUT (R302) -/

/-- The one lane of a presence access: lane 0 of port a, an invalid lane as zero. -/
def presenceLane (a : Token) (v : DWord) : List (Nat × Int × DWord) := [(0, if a.valid.getLsbD 0 then (a.laneN 0 : Int) else 0, v)]

section
variable {kind : AccKind} {get : Bool} {valid : BitVec 8} {v : Token → DWord}
  (hi : exec i s = withFiring s fun s pn c f => byKind s pn c f 1 fun a b => nodePresence s pn c f kind get a (v b) valid)
include hi

theorem firesTo_presence_fault : let t := fired s f pn c
    nodeEls t pn (nodeSeg t f.st (bits f.word.mod.toNat 2 0)) 8 get true true (presenceLane a (v b)) = .error e →
    FiresTo i s f pn c (nodeFault t pn c f e) := fun refused =>
  firesTo_data hf ho ha hb hi (by
    rw [presenceLane] at refused
    simp only [nodePresence, refused])

theorem firesTo_presence : let t := fired s f pn c
    let g := nodeSeg t f.st (bits f.word.mod.toNat 2 0)
    LanesAdmitted t pn g 8 get true (presenceLane a (v b)) → g.presence = true →
    let r := nodeIssue (countFiring t f valid) pn c f kind 8 g (laneElsOf g (presenceLane a (v b)))
    FiresTo i s f pn c (if f.word.imm = 0 then r.2 else later r.2 (256 * f.word.imm.toNat) (.graphPresenceWaitLimit r.1)) :=
  fun admitted present => firesTo_data hf ho ha hb hi (by
    have els := nodeEls_of_admitted (pres := true) (by decide) (fun _ => present) admitted
    rw [presenceLane] at els ⊢
    simp only [nodePresence, els])

end

/-! ### ARG (R307) -/

theorem firesTo_arg : let t := fired s f pn c
    let va := (pairWord a 0).toNat + 32 + 32 * bits f.word.mod.toNat 1 0
    FiresTo .arg s f pn c (nodeRead t pn c f 8 (nodeSeg t f.st 6)
      ((List.range 4).map fun k => { lane := k, va := BitVec.ofNat 64 (va + 8 * k) }) 0xFF 48) :=
  firesTo_data hf ho ha hb (l := fun _ => 48) (Eq.trans (b := execArg s) rfl rfl) rfl

/-! ### TILEGET, RETURN and CALLOUT (R306, R308, R309) -/

/-- A data token on port a opens the drain of its slot. -/
theorem firesTo_tileget_open : let t := fired s f pn c
    let z : Pair := { slot := f.slot, act := a.act, iter := a.iter, left := bits f.word.imm.toNat 13 4 + 2,
                      toks := [{ a with sc := (tileAt t f.st (tileNo f)).sc }], arr := t.time }
    FiresTo .tileget s f pn c (sendAll (modElem (modTile t f.st (tileNo f) fun t => { t with tag := .draining }) f.st f.elem
      fun x => putPair x z) f [] true) :=
  firesTo_withFiring hf (Eq.trans (b := execTileget s) rfl rfl) (by simp only [ho.1, byKind_data ho ha hb])

theorem firesTo_ret : FiresTo .ret s f pn c (checkAct (modAct (sendAll (fired s f pn c) f [] true) pn c.cid a.act fun x =>
    { x with ret := some (x.ret.getD (pairWord a 0, pairWord a 2)) }) pn c.cid a.act) :=
  firesTo_data hf ho ha hb (l := fun _ => 1) (Eq.trans (b := execRet s) rfl rfl) rfl

theorem firesTo_callout_fault (lanes : a.valid.getLsbD 0 = false ∨ a.valid.getLsbD 1 = false) :
    FiresTo .callout s f pn c (fireFault (sendAll (fired s f pn c) f [] true) pn c f 0x1D 0) :=
  firesTo_data hf ho ha hb (l := fun _ => 1) (Eq.trans (b := execCallout s) rfl rfl)
    (if_pos (by rcases lanes with h | h <;> rw [h] <;> simp))

section
variable (h0 : a.valid.getLsbD 0 = true) (h1 : a.valid.getLsbD 1 = true)
include h0 h1

theorem firesTo_callout_ended (ended : actOf c f.act = none) :
    FiresTo .callout s f pn c (sendAll (fired s f pn c) f [] true) :=
  firesTo_data hf ho ha hb (l := fun _ => 1) (Eq.trans (b := execCallout s) rfl rfl) (by
    simp only [h0, h1, ended, Bool.and_self, Bool.not_true, Bool.false_eq_true, if_false])

theorem firesTo_callout {x : Act} (live : actOf c f.act = some x) :
    FiresTo .callout s f pn c (calloutGo (sendAll (fired s f pn c) f [] true) pn c f x (pairWord a 0)
      (padTo 8 0 ((List.range 4).map fun k => pairWord b (2 * k)))) :=
  firesTo_data hf ho ha hb (l := fun _ => 1) (Eq.trans (b := execCallout s) rfl rfl) (by
    simp only [h0, h1, live, Bool.and_self, Bool.not_true, Bool.false_eq_true, if_false])

end

end

section
variable (hf : FiresOn s f pn c) (ha : f.a = some a) (h0 : a.kind = 0)
include hf ha h0

/-! ### SINK (R304) and TILEPUT (R305) -/

/-- The lanes of a SINK's token: 32 bytes for each SEQ, behind the rows of the earlier iterations, from the activation's base on. -/
def sinkLanes (u : State) (f : Firing) (a : Token) : List (Nat × Int × DWord) :=
  let base := (((sinkBase (elemAt u f.st f.elem) f.slot a.act).bind (·.base)).getD 0).toNat
  let off := base + 32 * f.word.imm.toNat * a.iter.toNat + 32 * a.seq.toNat
  ((List.range 8).filter fun j => a.valid.getLsbD j).map fun j => (j, ((off + 4 * j : Nat) : Int), (a.lane j).setWidth 64)

theorem firesTo_sink_fault : let u := sinkStep (sinkOpen (fired s f pn c) f a) f a
    nodeEls u pn (nodeSeg u f.st (bits f.word.mod.toNat 2 0)) 4 false true false (sinkLanes u f a) = .error e →
    FiresTo .sink s f pn c (nodeFault u pn c f e) := fun refused =>
  firesTo_withFiring hf (Eq.trans (b := execSink s) rfl rfl) (by
    rw [sinkLanes] at refused
    simp only [ha, h0, GraphPairs.data_ne_barrier, refused, if_false, if_true])

theorem firesTo_sink : let u := sinkStep (sinkOpen (fired s f pn c) f a) f a
    let g := nodeSeg u f.st (bits f.word.mod.toNat 2 0)
    LanesAdmitted u pn g 4 false true (sinkLanes u f a) →
    FiresTo .sink s f pn c (sendAll (nodeWrite u pn c f 4 g (laneElsOf g (sinkLanes u f a))) f [(0, a, 1)] true) := fun admitted =>
  firesTo_withFiring hf (Eq.trans (b := execSink s) rfl rfl) (by
    have els := nodeEls_of_admitted (pres := false) (by decide) nofun admitted
    rw [sinkLanes] at els ⊢
    simp only [ha, h0, GraphPairs.data_ne_barrier, els, if_false, if_true])

theorem firesTo_tileput : let t := fired s f pn c
    FiresTo .tileput s f pn c (tilePutData t pn c f a (pairFor (elemAt t f.st f.elem) f.word f.slot a)) :=
  firesTo_withFiring hf (Eq.trans (b := execTileput s) rfl rfl) (by
    simp only [ha, h0, GraphPairs.data_ne_barrier, if_false, if_true])

end

end

/-- Settles O54: a TILEGET goes on by its pair, and each other op on data either faults with its first lane's check or issues the
elements of its lanes. -/
theorem graphAccesses : Obligations.GraphAccesses := by
  refine ⟨fun s f pn c y h l hf ha hy toks => ?_, ?_⟩
  · rw [← tileNo_eq_mod f]
    exact ⟨firesTo_tileget_end hf ha hy toks, firesTo_tileget_next hf ha hy toks⟩
  intro s f pn c a b hf ho ha hb
  have take := Eq.trans (a := exec .graphTake s) (b := execGraphTake s) rfl rfl
  have put := Eq.trans (a := exec .graphPut s) (b := execGraphPut s) rfl rfl
  refine ⟨fun e => firesTo_load_fault hf ho ha hb, firesTo_load hf ho ha hb, fun e => firesTo_store_fault hf ho ha hb,
    firesTo_store hf ho ha hb, ⟨fun e => firesTo_presence_fault (v := fun _ => 0) hf ho ha hb take,
      firesTo_presence (v := fun _ => 0) hf ho ha hb take⟩, ⟨fun e => firesTo_presence_fault (v := (pairWord · 0)) hf ho ha hb put,
      firesTo_presence (v := (pairWord · 0)) hf ho ha hb put⟩, firesTo_arg hf ho ha hb, ⟨fun e => firesTo_sink_fault hf ho.1 ha,
      firesTo_sink hf ho.1 ha⟩, firesTo_tileput hf ho.1 ha, firesTo_tileget_open hf ho ha hb, firesTo_ret hf ho ha hb,
    firesTo_callout_fault hf ho ha hb, fun h0 h1 =>
      ⟨firesTo_callout_ended hf ho ha hb h0 h1, fun x => firesTo_callout hf ho ha hb h0 h1⟩⟩

end Sys2Proof.GraphAccesses

namespace Sys2Proof.MemoryForm

open Sys2Proof Machine Laws

/-- What a step settles keeps the form of the memory that the step found, whatever it gathered. -/
theorem memInv_settle {s u : State} (h : mwf s.mem = true) (hu : u.waitsFor = false) : MemInv (settle s u) :=
  ⟨mwf_settle u h, rfl, hu⟩

/-- Nothing is waited for in a state made calm. -/
theorem waitsFor_calm (s : State) : s.calm.waitsFor = false := rfl

theorem memInv_putOff {s : State} (p t : State) (used : Bool) (h : mwf s.mem = true) : MemInv (putOff s p used t) :=
  memInv_settle h (waitsFor_calm _)

/-- The passing of the turn touches neither memory nor what is waited for. -/
theorem memInv_advance {s t : State} (refill : Bool) (h : MemInv t) : MemInv (advance s t refill) := h

/-- A row that answers: put off where it has to wait, else settled on the memory that the step found. -/
theorem memInv_afterExec {s p t : State} {used : Bool} {i : Instr} (h : mwf s.mem = true)
    (ht : afterExec s p used i (exec i { p with mem := s.mem }) = .next t) : MemInv t := by
  obtain ⟨r, performs⟩ := exec_performs i { p with mem := s.mem }
  rw [performs] at ht
  cases r with
  | none => cases ht
  | some u =>
    obtain rfl := Host.Outcome.next.inj ht
    split
    · exact memInv_putOff p _ used h
    · next calm =>
      have settled : MemInv (settle { p with mem := s.mem } u) := memInv_settle h (Bool.eq_false_of_not_eq_true calm)
      split
      · exact memInv_advance _ settled
      · exact settled

/-- Settles O11: a step ends in a settled state, on the memory that it found, and nothing is waited for where it does not put its row off. -/
theorem stepKeepsTheMemoryForm : Obligations.StepKeepsTheMemoryForm := by
  rintro s t ⟨form, -, -⟩ ht
  unfold step at ht
  dsimp only at ht
  split at ht
  · obtain rfl := Host.Outcome.next.inj ht
    exact memInv_settle form (waitsFor_calm _)
  · exact memInv_afterExec form ht

end Sys2Proof.MemoryForm

namespace Sys2Proof.RequestsAtHome

open Sys2Proof Machine Laws

/-- The row of a request on its way is its turn (R325). -/
theorem accessPerformed_happens {s : State} {r : Req} (here : kget s.reqs r.id = some r) :
    Happens (.accessPerformed r.id) s (reqTurn { s with hand := .event (.accessPerformed r.id) } r) := by
  refine Eq.trans (b := execAccessPerformed _) rfl (onEvent_some ?_ rfl)
  simp only [here, Option.map_some, Option.getD_some]

/-- Refutes O34 in the clause of the AMOs (R372): the statement does not say that each thread stands under its own number. Where the thread
under number 2 calls itself 1 and has armed a monitor on the word's line, the write triggers that monitor (R416) and puts the thread back
under number 1, over the thread whose AMO is performed, and no operation is left there to take the answer. -/
theorem not_performedRequests : ¬ Obligations.PerformedRequests := by
  rintro ⟨-, -, performed⟩
  let o : LongOp := { id := 1, pc := 0, left := 1 }
  let th : Thread := { tid := 1, ops := [o] }
  let r : Req :=
    { id := 0, who := .thread 1 1 0, part := 0, st := 0, path := 0, kind := .amo 10, va := 0, z := 8, pa := some (2 ^ 60), bank := 1000 }
  let s : State := { State.reset with
    threads := [(1, th), (2, { tid := 1 })], reqs := [(0, r)], arms := [{ line := 2 ^ 52, tid := 2, n := 0, home := 1000 }] }
  have arrives : Arrives s r (2 ^ 60) :=
    ⟨⟨rfl, rfl⟩, ⟨rfl, rfl, by decide⟩, by decide, fun h => absurd h (by decide), by decide, by decide⟩
  have clean : CleanSlice s r.bank := ⟨List.nodup_nil, fun _ h => absurd h List.not_mem_nil⟩
  obtain ⟨-, amo, -⟩ := performed s r (2 ^ 60) th 1 0 o arrives clean rfl rfl rfl (by decide)
  obtain ⟨-, -, -, -, -, -, -, -, swap, -⟩ := amo 10 rfl
  obtain ⟨u, w, p, answers, found, held, -⟩ := swap rfl
  obtain rfl := Host.Outcome.next.inj ((accessPerformed_happens (s := s) rfl).symm.trans answers)
  have lost : (getThr (reqTurn { s with hand := .event (.accessPerformed r.id) } r) th.tid).map (·.ops) = some [] := by
    decide +kernel
  rw [getThr_settle] at found
  rw [found, Option.map_some, Option.some_inj] at lost
  exact List.not_mem_nil (lost ▸ held)

end Sys2Proof.RequestsAtHome

namespace Sys2Proof.SealedBuffers

open Sys2Proof Machine Laws

/-- Refutes O35 in the clause of a SEAL that enters the table (R347): the statement does not say that each thread stands under its own number.
Where the thread under number 2 calls itself 1 and waits in a fence, the SEAL of thread 1 refuses the last sector on its way to the buffer,
the wait for sectors ends with that answer (R335), and the one that waited becomes READY under number 1, in the place of the thread that the
SEAL has just parked. -/
theorem not_fencesAndSeals : ¬ Obligations.FencesAndSeals := by
  rintro ⟨-, seals⟩
  let th : Thread :=
    { tid := 1, st := .running 0, seg := (Vector.replicate 8 {}).set 0 { desc := BitVec.ofNat 128 (2 ^ 124 + 2 ^ 113), bySet := true } }
  let r : Req := { id := 0, who := .sector [], part := 0, st := 1, path := 0, kind := .sector, va := 0, z := 64, segIdx := 1 }
  let s : State := { State.reset with
    cursor := 0, stations := [(0, { slots := vset (Vector.replicate 16 none) 0 (some 1) })]
    threads := [(1, th), (2, { tid := 1, wait := some { on := .drain false, pc := 0, id := 0, since := 0 } })], reqs := [(0, r)] }
  have ready : Ready s true th := ⟨by decide +kernel, rfl, fun _ => rfl⟩
  have sealable : (rseg th 0).type = 1 ∧ (rseg th 0).bySet = true ∧ (rseg th 0).write = true := by decide +kernel
  have woken : ∃ t, exec (.seal false 0) s = .next t ∧ (getThr t th.tid).map (·.st) = some .ready :=
    ⟨_, rfl, by decide +kernel⟩
  obtain ⟨-, -, enters, -⟩ := seals s false th 0 ready
  obtain ⟨new, -⟩ := enters sealable (.inr (by decide +kernel))
  obtain ⟨t, u, performs, found, parked, -⟩ := new (by decide +kernel)
  obtain ⟨v, performed, awake⟩ := woken
  obtain rfl := Host.Outcome.next.inj (performed.symm.trans performs)
  rw [found, Option.map_some, Option.some_inj, parked] at awake
  cases awake

end Sys2Proof.SealedBuffers

namespace Sys2Proof.Faces

open Sys2Proof Machine CacheFrames

/-! ### What is looked at -/

/-- What is looked at of a partition, which says nothing of its folded events, its seals and its held output. -/
structure Look (β : Type) where
  of : Partition → β
  folds : ∀ p l, of { p with folds := l } = of p
  seals : ∀ p l, of { p with seals := l } = of p
  heldOut : ∀ p l, of { p with heldOut := l } = of p

/-- The pins, and what is looked at of every partition. -/
def faceOf {β : Type} (g : Look β) (pins : Pins) (parts : KMap Partition) : Pins × (Nat → β) :=
  (pins, fun q => g.of ((kget parts q).getD {}))

/-- The face of a state. -/
@[simp] abbrev face {β : Type} (g : Look β) (s : State) : Pins × (Nat → β) := faceOf g s.pins s.parts

section

variable {β : Type} {g : Look β}

@[simp] theorem look_folds (p : Partition) (l : List (Nat × Nat × List Byte)) : g.of { p with folds := l } = g.of p := g.folds p l
@[simp] theorem look_seals (p : Partition) (l : KMap Seal) : g.of { p with seals := l } = g.of p := g.seals p l
@[simp] theorem look_heldOut (p : Partition) (l : List (Nat × Frame)) : g.of { p with heldOut := l } = g.of p := g.heldOut p l

/-- A state of the same face looks the same at its pins and at each partition. -/
theorem face_eq_iff {s t : State} : face g t = face g s ↔ t.pins = s.pins ∧ ∀ q, g.of (part t q) = g.of (part s q) := by
  simp only [face, faceOf, Prod.mk.injEq, funext_iff, part]

@[simp] theorem face_kput {s : State} {pn : Nat} {p : Partition} {pins : Pins} (h : g.of p = g.of (part s pn)) :
    faceOf g pins (kput s.parts pn p) = faceOf g pins s.parts := by
  simp only [faceOf, Prod.mk.injEq, true_and]
  funext q
  rw [kget_kput]
  split
  · next e => subst e; exact h
  · rfl

/-- A partition changed in nothing that is looked at. -/
theorem face_modPart (s : State) {pn : Nat} {f : Partition → Partition} (h : ∀ p, g.of (f p) = g.of p) :
    face g (modPart s pn f) = face g s := face_kput (h _)

/-- Every partition changed in nothing that is looked at. -/
theorem face_map (s : State) (f : Partition → Partition) (h : ∀ p, g.of (f p) = g.of p) :
    face g { s with parts := s.parts.map fun e => (e.1, f e.2) } = face g s := by
  have entry (q : Nat) : g.of ((kget (s.parts.map fun e => (e.1, f e.2)) q).getD {}) = g.of ((kget s.parts q).getD {}) := by
    rw [kget_map_snd]
    cases kget s.parts q with
    | none => rfl
    | some p => exact h p
  exact congrArg (Prod.mk s.pins) (funext entry)

@[simp] theorem face_ite (c : Prop) [Decidable c] (s t : State) : face g (if c then s else t) = if c then face g s else face g t :=
  apply_ite (face g) c s t

@[simp] theorem face_foldl {α : Type} {f : State → α → State} (h : ∀ s a, face g (f s a) = face g s) (l : List α) (s : State) :
    face g (l.foldl f s) = face g s := by
  induction l generalizing s with
  | nil => rfl
  | cons a l ih => exact (ih _).trans (h s a)

/-- A fold that carries more than the state. -/
theorem face_foldl_fst {α γ : Type} {f : State × γ → α → State × γ} (h : ∀ x a, face g (f x a).1 = face g x.1) (l : List α)
    (x : State × γ) : face g (l.foldl f x).1 = face g x.1 := by
  induction l generalizing x with
  | nil => rfl
  | cons a l ih => exact (ih _).trans (h x a)

/-- The state of an answer known to be the pair of t and a. -/
theorem face_fst {α : Type} {s t : State} {r : State × α} {a : α} (h : face g r.1 = face g s) (e : r = (t, a)) : face g t = face g s := by
  rw [e] at h
  exact h

/-! ### Memory, slices and threads -/

variable (s : State)

@[simp] theorem face_wrL (a : Nat) (l : List Byte) : face g (wrL s a l) = face g s := face_foldl (fun _ _ => by rfl) _ s
@[simp] theorem face_modLine (bank key : Nat) (f : SLine → SLine) : face g (modLine s bank key f) = face g s := rfl
@[simp] theorem face_hWrB (bank key : Nat) (b : Byte) : face g (hWrB s bank key b) = face g s := by simp [hWrB]
@[simp] theorem face_hWrL (bank key : Nat) (l : List Byte) : face g (hWrL s bank key l) = face g s := by simp [hWrL]
@[simp] theorem face_hWrN (bank key n x : Nat) : face g (hWrN s bank key n x) = face g s := by simp [hWrN]
@[simp] theorem face_writeBack (l : SLine) : face g (writeBack s l) = face g s := by simp [writeBack]

@[simp] theorem face_proxyFetch (bank key n : Nat) (wr : Bool) : face g (proxyFetch s bank key n wr) = face g s := by
  rw [proxyFetch]
  split
  · exact face_foldl (fun s k => by split <;> simp) _ _
  · rfl

@[simp] theorem face_touchSlice (bank pn key n : Nat) (wr : Bool) : face g (touchSlice s bank pn key n wr) = face g s := by
  rw [touchSlice]
  split
  · rfl
  · cases sliceVictim s bank pn key <;> simp

/-! ### Translation -/

@[simp] theorem face_trigger (key : Nat) : face g (trigger s key) = face g s := by
  refine face_foldl (fun s a => ?_) _ s
  split
  · rfl
  · split <;> rfl

@[simp] theorem face_physWrB (key : Nat) (b : Byte) : face g (physWrB s key b) = face g s := by
  rw [physWrB]
  split <;> rfl

@[simp] theorem face_noteHeld (bank pn key n : Nat) (wr : Bool) : face g (noteHeld s bank pn key n wr) = face g s := rfl
@[simp] theorem face_told (key n : Nat) : face g (told s key n) = face g s := rfl
@[simp] theorem face_walkRead (pn ea : Nat) : face g (walkRead s pn ea) = face g s := by rw [walkRead, face_touchSlice, face_noteHeld]

@[simp] theorem face_walkOr (pn ea : Nat) (b : Byte) : face g (walkOr s pn ea b) = face g s := by
  rw [walkOr, face_trigger, face_physWrB, face_touchSlice, face_noteHeld]

@[simp] theorem face_translateKeep (st pn va : Nat) (wr fe pin : Bool) (lost : List (Nat × Nat)) :
    face g (translateKeep s st pn va wr fe pin lost).1 = face g s := by
  have read (l : List Nat) (s : State) : face g (l.foldl (fun s ea => walkRead s pn ea) s) = face g s :=
    face_foldl (fun s ea => face_walkRead s pn ea) l s
  have toldOf (l : List Nat) (s : State) : face g (l.foldl (fun s ea => told s ea 8) s) = face g s := face_foldl (fun _ _ => by rfl) l s
  simp only [translateKeep]
  split
  · rw [toldOf, read]
  · split
    · exact read _ s
    · simp [tlbTouch]

@[simp] theorem face_translate (st pn va : Nat) (wr fe pin : Bool) : face g (translate s st pn va wr fe pin).1 = face g s :=
  face_translateKeep s st pn va wr fe pin []

@[simp] theorem face_rowTranslate (st pn va : Nat) (wr pin : Bool) : face g (rowTranslate s st pn va wr pin).1 = face g s := by
  simp only [rowTranslate]
  split
  · exact face_translate s ..
  · split
    · exact face_translate _ ..
    · rfl

@[simp] theorem face_rowSlot (home pn key : Nat) : face g (rowSlot s home pn key) = face g s := by
  rw [rowSlot]
  split <;> rfl

/-! ### Requests on their way -/

@[simp] theorem face_foldEvent (pn st b kind addr : Nat) (data : List Byte) : face g (foldEvent s pn st b kind addr data) = face g s := by
  simp [foldEvent]

@[simp] theorem face_routerPass (st : Nat) (r : Req) (key : Nat) : face g (routerPass s st r key) = face g s := by rfl

@[simp] theorem face_travel (r : Req) (key w : Nat) : face g (travel s r key w) = face g s := by
  rw [travel]
  split <;> rfl

@[simp] theorem face_toBank (r : Req) (key : Nat) : face g (toBank s r key) = face g s := by
  simp [toBank]

@[simp] theorem face_portServe (c : Nat) : face g (portServe s c) = face g s := by
  refine face_foldl (fun s e => ?_) _ s
  simp

@[simp] theorem face_sendReq (r : Req) : face g (sendReq s r) = face g s := by
  unfold sendReq
  extract_lets id fresh r' miss
  have missed (u : State) : face g (miss u) = face g u := by simp [miss]
  split
  · exact face_toBank fresh ..
  · split
    · have served := face_translate (g := g) fresh r'.st r'.part r'.va.toNat r'.kind.writes r'.code r'.pinned
      split
      · next e => exact (face_toBank ..).trans (face_fst served e)
      · next e => exact (missed _).trans (face_fst served e)
    · exact missed fresh

/-! ### Ranges read and written within one step -/

theorem face_vreadGo (st pn : Nat) (hashed pin : Bool) (k : Nat) (va n : Nat) :
    face g (vreadGo st pn hashed pin k s va n).1 = face g s := by
  induction k generalizing s va n with
  | zero => rfl
  | succ k ih =>
    unfold vreadGo
    split
    · rfl
    · extract_lets m
      have served := face_rowTranslate (g := g) s st pn va false pin
      split
      · next e => exact face_fst served e
      · next t key e =>
        replace served : face g t = face g s := face_fst served e
        extract_lets home
        split
        · exact served
        · next touched here _ _ =>
          have read : face g touched = face g s := by simp [touched, served]
          have rest := ih touched (va + m) (n - m)
          split <;> (next e => exact ((congrArg (fun r => face g r.1) e).symm.trans rest).trans read)

@[simp] theorem face_vread (st pn va n : Nat) (hashed pin : Bool) : face g (vread s st pn va n hashed pin).1 = face g s :=
  face_vreadGo s st pn hashed pin _ va n

theorem face_vwriteGo (st pn : Nat) (hashed pin : Bool) (k : Nat) (va : Nat) (l : List Byte) :
    face g (vwriteGo st pn hashed pin k s va l).1 = face g s := by
  induction k generalizing s va l with
  | zero => rfl
  | succ k ih =>
    unfold vwriteGo
    split
    · rfl
    · extract_lets m
      have served := face_rowTranslate (g := g) s st pn va true pin
      split
      · next e => exact face_fst served e
      · next t key e =>
        replace served : face g t = face g s := face_fst served e
        extract_lets home
        split
        · exact served
        · next touched wrote folded _ _ =>
          refine (ih folded _ _).trans ?_
          simp [folded, wrote, touched, served]

@[simp] theorem face_vwrite (st pn va : Nat) (l : List Byte) (hashed pin : Bool) : face g (vwrite s st pn va l hashed pin).1 = face g s :=
  face_vwriteGo s st pn hashed pin _ va l

/-! ### The L1s -/

@[simp] theorem face_drainSector (st : Nat) (c : Comb) : face g (drainSector s st c) = face g s := by simp [drainSector]
@[simp] theorem face_drainWhere (st : Nat) (f : Comb → Bool) : face g (drainWhere s st f) = face g s := by simp [drainWhere]
@[simp] theorem face_drainFor (th : Thread) : face g (drainFor s th) = face g s := by simp [drainFor]
@[simp] theorem face_sealCount (pn idx : Nat) (up : Bool) : face g (sealCount s pn idx up) = face g s := by simp [sealCount]

@[simp] theorem face_dropLines (st : Nat) (f : L1Line → Bool) : face g (dropLines s st f) = face g s := by
  refine (face_foldl (fun s l => ?_) _ _).trans (by rfl)
  split <;> simp

@[simp] theorem face_invalUnsealed (st : Nat) : face g (invalUnsealed s st) = face g s := by simp [invalUnsealed]

@[simp] theorem face_footBytes (st pn : Nat) (f : FootRange) : face g (footBytes s st pn f).1 = face g s := by
  have read := face_vread (g := g) s st pn f.va.toNat f.len f.seg.hashed f.seg.pinned
  unfold footBytes
  split <;> (next e => exact face_fst read e)

@[simp] theorem face_modThr (t : Word) (f : Thread → Thread) : face g (modThr s t f) = face g s := by
  rw [modThr]
  split <;> rfl

@[simp] theorem face_refetchIf (th : Thread) (test : FootRange → Bool) : face g (refetchIf s th test) = face g s := by
  rw [refetchIf, face_modThr]
  refine face_foldl_fst (fun a f => ?_) _ (s, [])
  split
  · rfl
  · have read := face_footBytes (g := g) a.1 (tidHome th.tid) (tidPart th.tid) f
    split <;> (next e => exact face_fst read e)

@[simp] theorem face_acquire (th : Thread) : face g (acquire s th) = face g s := by simp [acquire, refetch]

@[simp] theorem face_fuseCluster (c : Nat) : face g (fuseCluster s c) = face g s := by
  simp only [fuseCluster]
  split
  · rfl
  · simp

@[simp] theorem face_planSlice (n : Nat) : face g (planSlice s n) = face g s := by
  simp only [planSlice]
  split
  · rfl
  · split <;> rfl

/-! ### Frames that leave -/

@[simp] theorem face_queueFrame (f : Frame) : face g (queueFrame s f) = face g s := by
  unfold queueFrame
  split
  · rfl
  · extract_lets seq noted
    simp [transmit, noted, modSession]

@[simp] theorem face_sendPart (x : Session) (type flags pn : Nat) (payload : Frame) :
    face g (sendPart s x type flags pn payload) = face g s := by simp [sendPart]

@[simp] theorem face_sendFrame (x : Session) (type pn : Nat) (payload : Frame) : face g (sendFrame s x type pn payload) = face g s := by
  simp [sendFrame]

@[simp] theorem face_sendAgent (a type pn : Nat) (payload : Frame) : face g (sendAgent s a type pn payload) = face g s := by
  rw [sendAgent]
  split <;> simp

/-! ### Threads and reports -/

@[simp] theorem face_leaveSlot (th : Thread) : face g (leaveSlot s th).1 = face g s := by
  rw [leaveSlot]
  split <;> rfl

@[simp] theorem face_makeReady (th : Thread) : face g (makeReady s th) = face g s := by simp [makeReady]

@[simp] theorem face_wakeThr (th : Thread) : face g (wakeThr s th) = face g s := by
  rw [wakeThr]
  split <;> simp

@[simp] theorem face_opLane (t : Word) (op lane : Nat) (r : Except DFault Nat) : face g (opLane s t op lane r) = face g s := by
  rw [opLane]
  split
  · rfl
  · split
    · rfl
    · simp

@[simp] theorem face_startWithin (pn n : Nat) (e : Event) : face g (startWithin s pn n e) = face g s := by rfl

@[simp] theorem face_sendMsg (a : Option (Word × Nat)) (to_ : Word) (m : Msg) (from_ : Nat) :
    face g (sendMsg s a to_ m from_) = face g s := by simp [sendMsg]

@[simp] theorem face_report (pn : Nat) (to_ : Word) (from_ : Nat) (data : Frame) : face g (report s pn to_ from_ data) = face g s := by
  simp [report]

@[simp] theorem face_supReport (pn cause kind station : Nat) (tid : Word) (addr pc info : Nat) :
    face g (supReport s pn cause kind station tid addr pc info) = face g s := by simp [supReport]

/-! ### Copies -/

@[simp] theorem face_copyDone (st c : Nat) : face g (copyDone s st c) = face g s := by
  rw [copyDone]
  split <;> rfl

theorem face_portPop {st p n : Nat} {r : List (BitVec 256 × BitVec 8) × State} (h : portPop s st p n = some r) :
    face g r.2 = face g s := by
  simp only [portPop] at h
  split at h
  · obtain rfl := Option.some.inj h
    rfl
  · cases h

theorem face_portPush {st p : Nat} {es : List (BitVec 256 × BitVec 8)} {t : State} (h : portPush s st p es = some t) :
    face g t = face g s := by
  rw [portPush] at h
  split at h
  · obtain rfl := Option.some.inj h
    rfl
  · cases h

theorem face_indexPull {st c p : Nat} {t : State} (h : indexPull s st c p = some t) : face g t = face g s := by
  simp only [indexPull] at h
  split at h
  · cases h
  · split at h
    · obtain ⟨r, hr, rfl⟩ := Option.map_eq_some_iff.mp h
      exact face_portPop s hr
    · split at h
      · obtain ⟨r, hr, rfl⟩ := Option.map_eq_some_iff.mp h
        exact (face_portPop _ hr).trans (by rfl)
      · obtain rfl := Option.some.inj h
        rfl

theorem face_chanPull {st c p : Nat} {cmd : CopyCmd} {t : State} (h : chanPull s st c p cmd = some t) : face g t = face g s := by
  simp only [chanPull] at h
  split at h
  · cases h
  · obtain ⟨u, hu, rfl⟩ := Option.map_eq_some_iff.mp h
    split at hu
    · obtain ⟨r, hr, rfl⟩ := Option.map_eq_some_iff.mp hu
      exact (face_portPop _ hr).trans (by rfl)
    · obtain rfl := Option.some.inj hu
      rfl

@[simp] theorem face_chanReq (st c : Nat) (cmd : CopyCmd) (side : Nat) (off : Int) (z val : Nat) (mask : BitVec 64) :
    face g (chanReq s st c cmd side off z val mask) = face g s := by
  unfold chanReq
  extract_lets seg o base
  split
  · rfl
  · exact face_sendReq s _

theorem face_copyAdvance (st c k : Nat) : face g (copyAdvance st c k s) = face g s := by
  induction k generalizing s with
  | zero => rfl
  | succ k ih =>
    rw [copyAdvance]
    split
    · rfl
    · split
      · rfl
      · split
        · rfl
        · split
          · split
            · split
              · next h => exact (ih _).trans (face_indexPull s h)
              · rfl
            · exact face_chanReq ..
          · split
            · split
              · split
                · next h => exact (ih _).trans (face_chanPull s h)
                · rfl
              · exact face_chanReq ..
            · split
              · extract_lets fromPort acc
                split
                · exact (ih _).trans (by rfl)
                · split
                  · next h => exact (ih _).trans ((by rfl : face g (copyReached _ st c _ []) = _).trans (face_portPush s h))
                  · rfl
              · split
                · exact (ih _).trans (by rfl)
                · split
                  · exact (ih _).trans (face_copyDone ..)
                  · exact face_chanReq ..

@[simp] theorem face_chanReply (st c side : Nat) (r : Except DFault Nat) : face g (chanReply s st c side r) = face g s := by
  unfold chanReply
  split
  · rfl
  · refine (face_copyAdvance _ st c 64).trans ?_
    split
    · rfl
    · exact face_copyDone ..
    · rfl

/-! ### Answers -/

@[simp] theorem face_graphLane (fid lane : Nat) (r : Except DFault Nat) : face g (graphLane s fid lane r) = face g s := by
  unfold graphLane
  split
  · rfl
  · extract_lets left answered noted
    have known : face g noted = face g s := by rfl
    split
    · split
      · exact known
      · exact known
      · exact known
      · split <;> exact known
    · exact known

@[simp] theorem face_wakeSession (id : Word) : face g (wakeSession s id) = face g s := by
  refine face_foldl (fun s f => ?_) _ s
  split <;> rfl

@[simp] theorem face_hostDone (o : HostOp) : face g (hostDone s o) = face g s := by
  simp only [hostDone]
  split <;> simp

@[simp] theorem face_hostLane (id lane z : Nat) (r : Except DFault Nat) : face g (hostLane s id lane z r) = face g s := by
  rw [hostLane]
  split
  · rfl
  · simp

@[simp] theorem face_fillArrives (st id : Nat) (pf : Bool) (r : Except DFault Nat) : face g (fillArrives s st id pf r) = face g s := by
  rw [fillArrives]
  split <;> rfl

@[simp] theorem face_drainWake : face g (drainWake s) = face g s := by
  refine face_foldl (fun s e => ?_) _ s
  split
  · simp
  · rfl

@[simp] theorem face_deliverOne (r : Req) (res : Except DFault Nat) : face g (deliverOne s r res) = face g s := by
  unfold deliverOne
  extract_lets gone late away
  have known : face g gone = face g s := by rfl
  split
  · exact (face_opLane ..).trans known
  · rw [face_drainWake, face_foldl fun s o => face_opLane ..]
    cases res <;> rfl
  · split
    · rfl
    · exact (face_graphLane ..).trans known
  · split
    · rfl
    · exact (face_chanReply ..).trans known
  · exact (face_hostLane ..).trans known
  · rfl
  · exact (face_fillArrives ..).trans known

@[simp] theorem face_deliver (r : Req) (res : Except DFault Nat) : face g (deliver s r res) = face g s := by simp [deliver]

/-! ### Requests performed -/

@[simp] theorem face_installLine (st pn va bank key segIdx : Nat) (hashed : Bool) :
    face g (installLine s st pn va bank key segIdx hashed) = face g s := by
  unfold installLine
  extract_lets l1 line base idx bytes dropped
  split
  · rfl
  · next d room l' entered _ =>
    have known : face g dropped = face g s := face_dropLines ..
    have made : face g room = face g s := by
      simp only [room]
      split
      · split
        · exact (face_dropLines ..).trans known
        · exact known
      · exact known
    have installed : face g entered = face g s := made
    clear_value entered idx
    cases idx with
    | none => exact installed
    | some i => exact (face_sealCount ..).trans installed

@[simp] theorem face_writeBytes (bank key z data mask : Nat) : face g (writeBytes s bank key z data mask) = face g s := by
  simp [writeBytes]

@[simp] theorem face_setTag (key : Nat) (full : Bool) : face g (setTag s key full) = face g s := by rfl
@[simp] theorem face_hostWrite (r : Req) (key z : Nat) : face g (hostWrite s r key z) = face g s := by simp [hostWrite]
@[simp] theorem face_written (r : Req) (key z : Nat) : face g (written s r key z) = face g s := by simp [written]

@[simp] theorem face_passL1 (r : Req) : face g (passL1 s r) = face g s := by
  unfold passL1
  extract_lets va drop
  have dropped (all : Bool) : face g (drop all) = face g s := face_dropLines ..
  split
  · exact dropped true
  · rfl
  · split
    · exact dropped false
    · rfl
  · rfl

@[simp] theorem face_performReq (r : Req) (key : Nat) : face g (performReq s r key).1 = face g s := by
  simp only [performReq]
  split
  case h_16 => split <;> simp
  all_goals simp [apply_ite Prod.fst]

/-! ### Reservations and presence words -/


@[simp] theorem face_servePresence (k w : Nat) : face g (servePresence k s w) = face g s := by
  induction k generalizing s with
  | zero => rfl
  | succ k ih =>
    rw [servePresence]
    split
    · rfl
    · extract_lets left key performed
      split
      · exact ih _
      · rw [ih, face_deliver, face_performReq]

@[simp] theorem face_presenceReq (r : Req) (key : Nat) : face g (presenceReq s r key) = face g s := by simp [presenceReq]
@[simp] theorem face_grantRsv (r : Req) (key : Nat) (t : Word) (op : Nat) : face g (grantRsv s r key t op) = face g s := by simp [grantRsv]

@[simp] theorem face_unreserved (r : Req) (key : Nat) : face g (unreserved s r key) = face g s := by
  unfold unreserved
  split
  · split <;> simp
  all_goals simp

@[simp] theorem face_serveRsv (k w : Nat) : face g (serveRsv k s w) = face g s := by
  induction k generalizing s with
  | zero => rfl
  | succ k ih =>
    rw [serveRsv]
    split
    · rfl
    · split
      · rfl
      · split
        · rfl
        · rw [ih, face_unreserved]

@[simp] theorem face_releaseRsv (w : Nat) : face g (releaseRsv s w) = face g s := by
  rw [releaseRsv]
  split
  · rfl
  · rw [face_serveRsv]

@[simp] theorem face_dropReservations (t : Word) : face g (dropReservations s t) = face g s := by simp [dropReservations]

/-! ### Frames of graph calls -/

@[simp] theorem face_netSend (src dst : Nat) (l : List Event) : face g (netSend s src dst l) = face g s :=
  face_foldl (fun _ _ => by rfl) l _

@[simp] theorem face_frameWrite (pn : Nat) (fr : FrameRef) (off : Nat) (l : List Byte) : face g (frameWrite s pn fr off l).1 = face g s := by
  simp [frameWrite]

@[simp] theorem face_wakeCalls (pn : Nat) : face g (wakeCalls s pn) = face g s :=
  face_foldl (fun s c => by split <;> rfl) _ s

@[simp] theorem face_frameFree (pn : Nat) (fr : FrameRef) : face g (frameFree s pn fr) = face g s := by simp [frameFree]

@[simp] theorem face_resumeCaller (pn : Nat) (caller : Caller) (fr : FrameRef) (r : Except Byte (DWord × DWord)) :
    face g (resumeCaller s pn caller fr r) = face g s := by
  unfold resumeCaller
  split
  · split
    · simp
    · split
      · simp
      · split
        · simp
        · split <;> simp
  · simp

@[simp] theorem face_calloutReturn (th : Thread) (r : Except Byte (DWord × DWord)) : face g (calloutReturn s th r) = face g s := by
  unfold calloutReturn
  split
  · cases r <;> simp
  · rfl

/-! ### Threads that end -/

@[simp] theorem face_mapWrite (c pn b : Nat) (tid : Word) (w grain : Nat) : face g (mapWrite s c pn b tid w grain) = face g s := by
  unfold mapWrite
  extract_lets x sg off r
  have wrote : face g r.1 = face g s := by
    simp only [r]
    split
    · rfl
    · exact face_vwrite ..
  clear_value r
  obtain ⟨t, f⟩ := r
  cases f <;> exact wrote

@[simp] theorem face_setGrains (c pn b : Nat) (tid : Word) (ns : List Nat) (v : BitVec 2) : face g (setGrains s c pn b tid ns v) = face g s := by
  simp [setGrains, modSb]

@[simp] theorem face_returnTickets (t : Word) : face g (returnTickets s t) = face g s := by
  refine face_foldl (fun s e => face_foldl (fun s b => ?_) _ s) _ s
  simp [modSb]

@[simp] theorem face_releaseJoins (t : Word) : face g (releaseJoins s t) = face g s := by
  unfold releaseJoins
  split
  · rfl
  · extract_lets w woken
    have known : face g woken = face g s := face_foldl (fun s e => by split <;> simp) _ s
    split
    · rfl
    · split <;> exact known

@[simp] theorem face_pumpArrivals (st : Nat) : face g (pumpArrivals s st) = face g s := by simp [pumpArrivals]

end

/-! ### What stands -/

/-- A partition's state and its record: what a partition keeps while its threads, rakes, calls, consists and launches come and go. -/
def standing : Look (PState × KMap Byte) where
  of p := (p.st, p.record)
  folds _ _ := rfl
  seals _ _ := rfl
  heldOut _ _ := rfl

section

variable (s : State)

@[simp] theorem standing_modConsist (pn : Nat) (cid : Half) (f : Consist → Consist) :
    face standing (modConsist s pn cid f) = face standing s := face_modPart s fun _ => by rfl

@[simp] theorem standing_releaseHold (pn : Nat) (cid : Half) (n : Nat) (f : Hold → Bool) :
    face standing (releaseHold s pn cid n f) = face standing s := by rw [releaseHold, standing_modConsist]

@[simp] theorem standing_modLeg (pn : Nat) (cid : Half) (id : Nat) (f : Leg → Leg) :
    face standing (modLeg s pn cid id f) = face standing s := by rw [modLeg, standing_modConsist]

@[simp] theorem standing_modAct (pn : Nat) (cid : Half) (a : BitVec 12) (f : Act → Act) :
    face standing (modAct s pn cid a f) = face standing s := by rw [modAct, standing_modConsist]

@[simp] theorem standing_modLaunch (pn n : Nat) (f : Launch → Launch) : face standing (modLaunch s pn n f) = face standing s :=
  face_modPart s fun _ => by rfl

@[simp] theorem standing_modRake (pn i : Nat) (f : Rake → Rake) : face standing (modRake s pn i f) = face standing s :=
  face_modPart s fun _ => by rfl

/-! ### Rakes -/

@[simp] theorem face_barGo {β : Type} {g : Look β} (t : Word) (broken : Bool) (lost : Word) : face g (barGo s t broken lost) = face g s := by
  unfold barGo
  split
  · rfl
  · split
    · simp
    · rfl

@[simp] theorem standing_barRelease (pn i : Nat) (broken : Bool) (lost : Word) :
    face standing (barRelease s pn i broken lost) = face standing s := by simp [barRelease]

@[simp] theorem standing_barCheck (pn i : Nat) : face standing (barCheck s pn i) = face standing s := by
  rw [barCheck]
  split
  · split <;> simp
  · rfl

@[simp] theorem standing_rakeLeave (pn : Nat) (t : Word) (id : Half) (mark : Bool) :
    face standing (rakeLeave s pn t id mark) = face standing s := by
  unfold rakeLeave
  extract_lets i
  split
  · rfl
  · rw [standing_barCheck, face_modThr, standing_modRake]

/-! ### Activations -/

@[simp] theorem standing_legSend (pn : Nat) (cid : Half) (l : Leg) (tok : Token) :
    face standing (legSend s pn cid l tok) = face standing s := by
  unfold legSend
  extract_lets c d noted st folded
  have known : face standing noted = face standing s := standing_modLeg ..
  have left : face standing folded = face standing s := by
    simp only [folded]
    split
    · exact (face_foldEvent ..).trans known
    · exact (face_foldEvent ..).trans known
    · exact known
  exact left

@[simp] theorem standing_legFree (id k : Nat) : face standing (legFree id k s) = face standing s := by
  induction k generalizing s with
  | zero => rfl
  | succ k ih =>
    rw [legFree]
    split
    · rfl
    · split
      · rfl
      · split
        · exact standing_releaseHold ..
        · rw [ih, standing_legSend, standing_modLeg]

@[simp] theorem standing_enterWaiting (pn : Nat) (cid : Half) (st e : Nat) :
    face standing (enterWaiting s pn cid st e) = face standing s := by
  simp [enterWaiting]

@[simp] theorem face_modElems {β : Type} {g : Look β} (c : Consist) (f : Elem → Elem) : face g (modElems s c f) = face g s :=
  face_foldl (fun s t => face_foldl (fun s e => by split <;> rfl) _ s) _ s

@[simp] theorem standing_discardAccs (pn : Nat) (cid : Half) (a : BitVec 12) :
    face standing (discardAccs s pn cid a) = face standing s := by simp [discardAccs, nodeWithdraw]

@[simp] theorem standing_discardAct (pn : Nat) (c : Consist) (a : BitVec 12) :
    face standing (discardAct s pn c a) = face standing s := by
  simp [discardAct, voidPackets]

@[simp] theorem standing_reapAct (pn : Nat) (cid : Half) (a : BitVec 12) : face standing (reapAct s pn cid a) = face standing s := by
  unfold reapAct
  split
  · rfl
  · extract_lets woken reaped called
    have known : face standing woken = face standing s := by
      simp only [woken, wakeLaunch]
      split <;> rfl
    have left : face standing called = face standing s := by simp [called, reaped, known]
    split
    · split
      · split
        · exact left
        · exact left
      · exact left
    · exact known

@[simp] theorem standing_endAct (pn : Nat) (cid : Half) (a : Act) (r : Except Byte (DWord × DWord)) (fault : List Byte) :
    face standing (endAct s pn cid a r fault) = face standing s := by
  unfold endAct
  split
  · rfl
  · simp only [standing_reapAct, face_resumeCaller, standing_modAct, standing_discardAct]
    split <;> simp

@[simp] theorem standing_abortCall (th : Thread) (cause : Byte) : face standing (abortCall s th cause) = face standing s := by
  unfold abortCall
  split
  · exact face_map s (fun p => { p with calls := p.calls.filter fun w => match w.caller with | .thread t => !(t == th.tid) | _ => true })
      fun _ => by rfl
  · extract_lets pn
    split
    · exact standing_endAct ..
    · exact (face_frameFree ..).trans (face_modPart s fun _ => by rfl)

/-! ### The end of a thread -/

@[simp] theorem standing_unpin (th : Thread) : face standing (unpin s th).1 = face standing s := by
  unfold unpin
  extract_lets n pn
  split
  · rfl
  · exact face_modPart s fun _ => by rfl

@[simp] theorem standing_passReports (t : Word) : face standing (passReports s t) = face standing s :=
  (face_foldl (fun s x => face_sendMsg ..) _ _).trans (face_modPart s fun _ => by rfl)

@[simp] theorem standing_noteEnd (th : Thread) (final : TState) : face standing (noteEnd s th final) = face standing s := by
  unfold noteEnd
  extract_lets c
  split
  · rfl
  · exact standing_modLaunch ..

@[simp] theorem standing_finishEnd (t : Word) : face standing (finishEnd s t) = face standing s := by
  unfold finishEnd
  split
  · rfl
  · extract_lets final pn mark dropped left th u unbound m returned aborted freed back ended stored passed told joined planned
    have raked : face standing left = face standing s :=
      (face_foldl (fun s id => standing_rakeLeave ..) _ _).trans (face_dropReservations ..)
    clear_value left
    have unpinned : face standing u.1 = face standing s := (standing_unpin left th).trans raked
    clear_value u th
    have disarmed : face standing m.1 = face standing s := unpinned
    clear_value m
    have called : face standing aborted = face standing s :=
      (standing_abortCall ..).trans ((face_returnTickets ..).trans disarmed)
    clear_value aborted
    have framed : face standing freed = face standing s := by
      simp only [freed]
      split
      · exact (face_frameFree ..).trans called
      · exact called
    clear_value freed
    have returned : face standing back = face standing s := by
      simp only [back]
      split
      · exact (face_calloutReturn ..).trans framed
      · exact framed
    clear_value back
    have reported : face standing passed = face standing s := (standing_passReports ..).trans returned
    clear_value passed
    have said : face standing told = face standing s := by
      simp only [told]
      split
      · exact (face_supReport ..).trans reported
      · split
        · exact (face_supReport ..).trans reported
        · exact reported
    clear_value told
    have known : face standing joined = face standing s := (face_releaseJoins ..).trans ((standing_noteEnd ..).trans said)
    clear_value joined
    have due : face standing planned = face standing s := by
      simp only [planned]
      split
      · exact known
      · exact known
    exact (face_pumpArrivals ..).trans due

@[simp] theorem standing_beginEnd (th : Thread) (final : TState) (cause : Byte) (code : DWord) :
    face standing (beginEnd s th final cause code) = face standing s := by
  simp [beginEnd, leaveQueue]

@[simp] theorem standing_killThr (t : Word) : face standing (killThr s t) = face standing s := by
  unfold killThr
  split
  · rfl
  · split
    · rfl
    · split
      · rfl
      · split
        · rfl
        · exact standing_beginEnd ..

@[simp] theorem standing_endNow (th : Thread) : face standing (endNow s th) = face standing s := by simp [endNow]

/-! ### The stop of a partition -/

@[simp] theorem standing_unloadConsist (pn : Nat) (c : Consist) : face standing (unloadConsist s pn c) = face standing s := by
  unfold unloadConsist
  extract_lets mine planned freed untracked
  have known : face standing freed = face standing s := by
    refine (face_foldl (fun s t => ?_) _ planned).trans (by rfl)
    exact (face_foldl (fun _ _ => by rfl) _ _).trans (by rfl)
  clear_value freed
  exact (face_modPart untracked fun _ => by rfl).trans known

@[simp] theorem standing_launchError (pn : Nat) (l : Launch) (cause : Nat) :
    face standing (launchError s pn l cause) = face standing s := by
  unfold launchError
  split
  · rfl
  · extract_lets noted
    have known : face standing noted = face standing s := standing_modLaunch ..
    split
    · exact (face_sendFrame ..).trans known
    · exact known

end

end Sys2Proof.Faces

namespace Sys2Proof.PartitionTurns

open Sys2Proof Machine CacheFrames Faces Laws

/-! ### What the rows of partitions come to -/

section Rows

variable (s : State)

theorem happens_commit (pn : Nat) : Happens (.commit pn) s (commitPart { s with hand := .event (.commit pn) } pn) :=
  Eq.trans (b := execCommit _) rfl (onEvent_some rfl rfl)

theorem happens_stop (pn : Nat) : Does (.stop pn) s fun s =>
    if (part s pn).st = .running then opResult (stopPart s pn) 0 0 14464 else opResult s 0x14 0 14400 :=
  Eq.trans (b := execStop _) rfl (onEvent_some rfl rfl)

theorem happens_destroy (pn : Nat) : Does (.destroy pn) s fun s =>
    if (part s pn).st = .stopped then
      opResult { s with parts := kdel s.parts pn, threads := s.threads.filter fun e => tidPart e.2.tid != pn } 0 0 14400
    else opResult s 0x14 0 14400 :=
  Eq.trans (b := execDestroy _) rfl (onEvent_some rfl rfl)

theorem happens_configOpComplete : Does .configOpComplete s fun s => { s with cmdStatus := s.cmdStatus &&& 0xFFFFFFFEFFFFFFFF } :=
  Eq.trans (b := execConfigOpComplete _) rfl (onEvent_some rfl rfl)

theorem happens_sliceExpiry (n : Nat) : Does (.sliceExpiry n) s fun s => sliceEnds s n :=
  Eq.trans (b := execSliceExpiry _) rfl (onEvent_some rfl rfl)

theorem happens_swapComplete (n : Nat) (bad : Bool) : Does (.swapComplete n bad) s fun s => swapDone s n bad :=
  Eq.trans (b := execSwapComplete _) rfl (onEvent_some rfl rfl)

theorem happens_launchStart (pn n : Nat) : Does (.launchStart pn n) s fun s => launchTurn s pn n :=
  Eq.trans (b := execLaunchStart _) rfl (onEvent_some rfl rfl)

theorem happens_budgetExpiry (pn n : Nat) : Does (.budgetExpiry pn n) s fun s => budgetSpent s pn n :=
  Eq.trans (b := execBudgetExpiry _) rfl (onEvent_some rfl rfl)

theorem happens_evictionScheduleEntry (c pn n : Nat) : Does (.evictionScheduleEntry c pn n) s fun s => evictEntry s pn n :=
  Eq.trans (b := execEvictionScheduleEntry _) rfl (onEvent_some rfl rfl)

end Rows

/-- A row that comes to one state comes to any equal to it. -/
theorem happens_of_eq {e : Event} {s t u : State} (h : Happens e s t) (he : t = u) : Happens e s u := he ▸ h

theorem does_of_eq {e : Event} {s : State} {f k : State → State} (h : Does e s f)
    (he : f { s with hand := .event e } = k { s with hand := .event e }) : Does e s k := happens_of_eq h he

/-! ### COMMIT (R448) -/

section Commit

variable {s : State} {pn : Nat}

theorem commitPart_of_running (h : (part s pn).st = .running) : commitPart s pn = opResult s 0x14 0 14400 := if_pos h

theorem commitPart_of_bad (h : (part s pn).st ≠ .running) {o : Nat}
    (hbad : firstBad s { st := .running, record := slotRecord s pn } pn = some o) : commitPart s pn = opResult s 0x14 o 14400 := by
  simp only [commitPart, if_neg h, hbad]

theorem commitPart_of_good (h : (part s pn).st ≠ .running)
    (hgood : firstBad s { st := .running, record := slotRecord s pn } pn = none) :
    ∃ t, commitPart s pn = opResult (commitRecord s pn (slotRecord s pn)) 0 0 t ∧ 14400 ≤ t := by
  simp only [commitPart, if_neg h, hgood]
  exact ⟨_, rfl, Nat.le_add_right ..⟩

variable (s)

@[simp] theorem standing_startSupervisor (pn : Nat) : face standing (startSupervisor s pn) = face standing s := by
  unfold startSupervisor
  extract_lets p
  split
  · rfl
  · split
    · rfl
    · next t u created =>
      have known : face standing u = face standing s := by
        obtain ⟨n, -, made⟩ := Option.map_eq_some_iff.1 created
        obtain ⟨-, rfl⟩ := Prod.mk.inj made
        rfl
      have noted : face standing (modPart u pn fun p => { p with supervisor := t }) = face standing s :=
        (face_modPart u fun _ => by rfl).trans known
      extract_lets v
      split
      · exact (face_makeReady ..).trans noted
      · exact noted

@[simp] theorem standing_loadEvictions (pn : Nat) : face standing (loadEvictions s pn) = face standing s := by
  unfold loadEvictions
  extract_lets p l fits kept listed
  exact (face_foldl (fun _ _ => by rfl) _ listed).trans (face_modPart s fun _ => by rfl)

/-- The record that COMMIT takes stands, and the partition runs, whatever else takes effect. -/
theorem standing_commitRecord (pn : Nat) (r : KMap Byte) : face standing (commitRecord s pn r) =
    face standing { s with parts := kput s.parts pn { st := .running, record := r } } := by
  unfold commitRecord
  extract_lets p alone b q dropped renamed cleared lm untagged eng placed loaded started
  have entered : face standing dropped = face standing { s with parts := kput s.parts pn { st := .running, record := r } } := by
    simp only [face, faceOf, dropped, dropCaches, Prod.mk.injEq, true_and]
    funext n
    simp only [kget_kput]
    split
    · rfl
    · rfl
  clear_value dropped
  have clean : face standing cleared = face standing dropped :=
    (face_foldl (fun _ _ => by rfl) _ renamed).trans (face_foldl (fun _ _ => by rfl) _ dropped)
  clear_value cleared
  have put : face standing placed = face standing dropped := by
    simp only [placed]
    split
    · exact (face_foldl (fun _ _ => by rfl) _ untagged).trans clean
    · exact clean
  clear_value placed
  have begun : face standing started = face standing dropped := by
    simp only [started]
    split
    · exact (standing_loadEvictions ..).trans put
    · exact (standing_startSupervisor ..).trans ((standing_loadEvictions ..).trans put)
  exact ((face_planSlice ..).trans begun).trans entered

theorem part_commitRecord (pn : Nat) (r : KMap Byte) : (part (commitRecord s pn r) pn).st = .running ∧
    (part (commitRecord s pn r) pn).record = r := by
  have h := congrFun (congrArg Prod.snd (standing_commitRecord s pn r)) pn
  simp only [face, faceOf, kget_kput_same, Option.getD_some, standing, Prod.mk.injEq] at h
  exact h

/-- COMMIT, in all its cases. -/
theorem commit_events (pn : Nat) :
    ((part s pn).st = .running → Does (.commit pn) s fun s => opResult s 0x14 0 14400) ∧
    ((part s pn).st ≠ .running →
      (∀ o, firstBad s { st := .running, record := slotRecord s pn } pn = some o → Does (.commit pn) s fun s => opResult s 0x14 o 14400) ∧
      (firstBad s { st := .running, record := slotRecord s pn } pn = none → ∃ u t, Happens (.commit pn) s u ∧
        u = opResult (commitRecord { s with hand := .event (.commit pn) } pn (slotRecord s pn)) 0 0 t ∧ 14400 ≤ t ∧
        (part u pn).st = .running ∧ (part u pn).record = slotRecord s pn)) := by
  have row := happens_commit s pn
  refine ⟨fun h => does_of_eq (f := fun s => commitPart s pn) row (commitPart_of_running h), fun h => ⟨fun o hbad =>
    does_of_eq (f := fun s => commitPart s pn) row (commitPart_of_bad (s := { s with hand := .event (.commit pn) }) h hbad), fun hgood => ?_⟩⟩
  obtain ⟨t, done, late⟩ := commitPart_of_good (s := { s with hand := .event (.commit pn) }) (pn := pn) h hgood
  obtain ⟨runs, taken⟩ := part_commitRecord { s with hand := .event (.commit pn) } pn (slotRecord s pn)
  rw [done] at row
  exact ⟨_, t, row, rfl, late, runs, taken⟩

end Commit

/-! ### STOP and DESTROY (R448) -/

/-- What STOP leaves of a partition. -/
def stopped (p : Partition) : Partition := { p with
  st := .stopped, rakes := [], seals := [], consists := [], loads := [], calls := [], colls := [], launches := [], drains := []
  swapped := false, resident := false, heldOut := [], inputs := [], ready := [], evict := [], foot := [] }

/-- The state, and what a partition has under way. -/
def underWay : Look (PState × List Consist × List CallWait × List Launch) where
  of p := (p.st, p.consists, p.calls, p.launches)
  folds _ _ := rfl
  seals _ _ := rfl
  heldOut _ _ := rfl

section Stop

variable (s : State) (pn : Nat)

@[simp] theorem face_mapSlices {β : Type} {g : Look β} (f : List SLine → List SLine) : face g (mapSlices s f) = face g s := rfl

@[simp] theorem face_flushSlices {β : Type} {g : Look β} (lo n : Nat) : face g (flushSlices s lo n) = face g s := by
  unfold flushSlices
  extract_lets hit
  exact (face_mapSlices ..).trans (face_foldl (fun s l => face_writeBack s l) _ s)

/-- A running partition's threads, consists and launches end, which changes no state and no record; it is then what stopped leaves of it. -/
theorem stopPart_of_running (h : (part s pn).st = .running) : ∃ t, face standing t = face standing s ∧
    ∀ {β : Type} (g : Look β), face g (stopPart s pn) = face g (modPart t pn stopped) := by
  unfold stopPart
  extract_lets p killed drained unloaded answered planned lm flushed freed blanked ended fused
  rw [if_neg (not_not_intro h)]
  have silent : face standing killed = face standing s := by
    refine face_foldl (fun s e => ?_) _ s
    split
    · exact standing_killThr ..
    · rfl
  clear_value killed
  have dry : face standing drained = face standing s := (face_foldl (fun s st => face_drainWhere ..) _ killed).trans silent
  clear_value drained
  have free : face standing unloaded = face standing s := (face_foldl (fun s c => standing_unloadConsist ..) _ drained).trans dry
  clear_value unloaded
  have told : face standing answered = face standing s := 
    (face_foldl (fun s l => (standing_launchError (draw s 36).2 pn l _).trans rfl) _ unloaded).trans free
  clear_value answered
  have flush : face standing flushed = face standing s := (face_flushSlices ..).trans told
  clear_value flushed
  have blank : face standing blanked = face standing s := by
    simp only [blanked]
    split
    · exact (face_foldl (fun _ _ => by rfl) _ freed).trans flush
    · exact flush
  clear_value blanked
  exact ⟨blanked, blank, fun g => (face_planSlice ..).trans (face_foldl (fun s c => face_fuseCluster s c) _ ended)⟩

theorem part_stopPart (h : (part s pn).st = .running) : let p := part (stopPart s pn) pn
    p.st = .stopped ∧ p.consists = [] ∧ p.calls = [] ∧ p.launches = [] := by
  obtain ⟨t, -, left⟩ := stopPart_of_running s pn h
  have here := (face_eq_iff.1 (left underWay)).2 pn
  simp only [underWay, part_modPart, stopped, Prod.mk.injEq] at here
  exact here

/-- STOP, in all its cases. -/
theorem stop_events : ((part s pn).st ≠ .running → Does (.stop pn) s fun s => opResult s 0x14 0 14400) ∧
    ((part s pn).st = .running → ∃ u, Happens (.stop pn) s u ∧
      u = opResult (stopPart { s with hand := .event (.stop pn) } pn) 0 0 14464 ∧
      (part u pn).st = .stopped ∧ (part u pn).consists = [] ∧ (part u pn).calls = [] ∧ (part u pn).launches = []) :=
  ⟨fun h => does_of_eq (happens_stop s pn) (if_neg h), fun h =>
    ⟨_, does_of_eq (k := fun s => opResult (stopPart s pn) 0 0 14464) (happens_stop s pn) (if_pos h), rfl,
      part_stopPart { s with hand := .event (.stop pn) } pn h⟩⟩

/-- DESTROY, in all its cases. -/
theorem destroy_events : ((part s pn).st ≠ .stopped → Does (.destroy pn) s fun s => opResult s 0x14 0 14400) ∧
    ((part s pn).st = .stopped → ∃ u, Happens (.destroy pn) s u ∧ u = opResult { s with
      hand := .event (.destroy pn), parts := kdel s.parts pn, threads := s.threads.filter fun e => tidPart e.2.tid != pn } 0 0 14400) :=
  ⟨fun h => does_of_eq (happens_destroy s pn) (if_neg h), fun h => ⟨_, does_of_eq (k := fun s => opResult { s with
    parts := kdel s.parts pn, threads := s.threads.filter fun e => tidPart e.2.tid != pn } 0 0 14400) (happens_destroy s pn) (if_pos h), rfl⟩⟩

/-- CONFIG_OP_COMPLETE clears BUSY alone. -/
theorem configOpComplete_event : ∃ u, Happens .configOpComplete s u ∧ u.cmdStatus.getLsbD 32 = false ∧
    ∀ i, i < 64 → i ≠ 32 → u.cmdStatus.getLsbD i = s.cmdStatus.getLsbD i := by
  have mask (i : Nat) (hi : i < 64) : (0xFFFFFFFEFFFFFFFF : BitVec 64).getLsbD i = !decide (i = 32) := by
    revert hi
    revert i
    decide
  refine ⟨_, happens_configOpComplete s, ?_, fun i hi ne => ?_⟩
  · simp
  · exact BitVec.getLsbD_and.trans (by rw [mask i hi, decide_eq_false ne, Bool.not_false, Bool.and_true])

end Stop

end Sys2Proof.PartitionTurns

namespace Sys2Proof.PartitionTurns

open Sys2Proof Machine CacheFrames Faces Laws

/-! ### Slices and swaps (R452, R498) -/

section Slices

variable (s : State)

theorem slice_events (pn g : Nat) (q : Partition) (hq : (groupMembers s g).find? (fun e => e.2.resident) = some (pn, q))
    (two : 2 ≤ (groupMembers s g).length) :
    ((q.consists.any fun c => !c.freezing.isEmpty) = false ∨ q.sliceEnd + 2048 = s.time → Does (.sliceExpiry g) s fun s =>
        let t := s.threads.foldl (fun s e => match e.2.st with
          | .running _ => if tidPart e.2.tid = pn then makeReady s e.2 else s
          | _ => s) s
        later (shelveEvents (modPart t pn fun p => { p with swapped := true, sliceEnd := t.time }) pn) 14464 (.swapComplete g false)) ∧
      ((q.consists.any fun c => !c.freezing.isEmpty) = true → q.sliceEnd + 2048 ≠ s.time → Does (.sliceExpiry g) s fun s =>
        later (modPart s pn fun p => { p with sliceEnd := s.time }) 2048 (.sliceExpiry g)) := by
  obtain ⟨n, hn⟩ := Nat.exists_eq_add_of_le' two
  have resident : (groupMembers { s with hand := .event (.sliceExpiry g) } g).find? (fun e => e.2.resident) = some (pn, q) := hq
  have members : (groupMembers { s with hand := .event (.sliceExpiry g) } g).length = n + 2 := hn
  refine ⟨fun h => does_of_eq (happens_sliceExpiry s g) ?_, fun busy late => does_of_eq (happens_sliceExpiry s g) ?_⟩
  · have go : ¬ ((q.consists.any fun c => !c.freezing.isEmpty) && decide (q.sliceEnd + 2048 ≠ s.time)) = true := by
      rcases h with h | h <;> simp [h]
    simp only [sliceEnds, resident, members]
    exact if_neg go
  · simp only [sliceEnds, resident, members]
    exact if_pos (by simp [busy, late])

theorem swap_events (pn g q : Nat) (r : Partition) (hq : (groupMembers s g).find? (fun e => e.2.resident) = some (q, r))
    (next : nextMember (groupMembers s g) q = some pn) :
    (pn ≠ q → Does (.swapComplete g false) s fun s => planSlice (moveIn (moveOut s q) pn) g) ∧
      (pn = q → Does (.swapComplete g false) s fun s => planSlice (moveIn s pn) g) ∧
      (pn ≠ q → Does (.swapComplete g true) s fun s =>
        let t := partLost s pn
        if (groupMembers t g).isEmpty then t else later t 14464 (.swapComplete g false)) := by
  have turn (bad : Bool) : swapDone { s with hand := .event (.swapComplete g bad) } g bad =
      (let s := { s with hand := .event (.swapComplete g bad) }
       if bad && pn != q then if (groupMembers (partLost s pn) g).isEmpty then partLost s pn else later (partLost s pn) 14464 (.swapComplete g false)
       else planSlice (moveIn (if pn != q then moveOut s q else s) pn) g) := by
    have resident : (groupMembers { s with hand := .event (.swapComplete g bad) } g).find? (fun e => e.2.resident) = some (q, r) := hq
    have after : nextMember (groupMembers { s with hand := .event (.swapComplete g bad) } g) q = some pn := next
    simp only [swapDone, resident, Option.map_some, Option.getD_some, after, Option.isSome_some, Bool.true_and]
  refine ⟨fun ne => does_of_eq (happens_swapComplete s g false) ((turn false).trans ?_),
    fun e => does_of_eq (happens_swapComplete s g false) ((turn false).trans ?_),
    fun ne => does_of_eq (happens_swapComplete s g true) ((turn true).trans ?_)⟩
  · simp [ne]
  · simp [e]
  · simp [ne]

end Slices

/-! ### Frames that leave, and what is under way -/

/-- The threads, the packets and the accesses of graphs. -/
def crew (s : State) : KMap Thread × KMap Packet × KMap GAcc := (s.threads, s.pkts, s.gaccs)

/-- The calls that wait and the consists of a partition. -/
def engaged : Look (List CallWait × List Consist) where
  of p := (p.calls, p.consists)
  folds _ _ := rfl
  seals _ _ := rfl
  heldOut _ _ := rfl

/-- A partition's launches. -/
def launched : Look (List Launch) where
  of p := p.launches
  folds _ _ := rfl
  seals _ _ := rfl
  heldOut _ _ := rfl

section Frames

variable (s : State)

theorem crew_queueFrame (f : Frame) : crew (queueFrame s f) = crew s := by
  unfold queueFrame
  split
  · rfl
  · extract_lets seq noted
    split
    · simp only [transmit, crew, later, apply_ite State.threads, apply_ite State.pkts, apply_ite State.gaccs, ite_self]
      rfl
    · rfl

theorem crew_sendPart (x : Session) (type flags pn : Nat) (payload : Frame) : crew (sendPart s x type flags pn payload) = crew s := by
  unfold sendPart
  extract_lets p f
  split
  · split
    · rfl
    · rfl
  · exact crew_queueFrame s f

theorem crew_sendFrame (x : Session) (type pn : Nat) (payload : Frame) : crew (sendFrame s x type pn payload) = crew s :=
  List.foldlRecOn (motive := fun t => crew t = crew s) _ _ rfl fun t h _ _ => (crew_sendPart t ..).trans h

theorem crew_launchError (pn : Nat) (l : Launch) (cause : Nat) : crew (launchError s pn l cause) = crew s := by
  unfold launchError
  split
  · rfl
  · extract_lets noted
    split
    · exact crew_sendFrame noted ..
    · rfl

theorem engaged_launchError (pn : Nat) (l : Launch) (cause : Nat) : face engaged (launchError s pn l cause) = face engaged s := by
  unfold launchError
  split
  · rfl
  · extract_lets noted
    have known : face engaged noted = face engaged s := face_modPart s fun _ => by rfl
    split
    · exact (face_sendFrame ..).trans known
    · exact known

theorem launchFinished_of_same {s t : State} (hc : crew t = crew s) (he : face engaged t = face engaged s) (pn n : Nat) :
    launchFinished t pn n = launchFinished s pn n := by
  obtain ⟨threads, pkts, gaccs⟩ : t.threads = s.threads ∧ t.pkts = s.pkts ∧ t.gaccs = s.gaccs := by simpa [crew] using hc
  obtain ⟨calls, consists⟩ : (part t pn).calls = (part s pn).calls ∧ (part t pn).consists = (part s pn).consists := by
    simpa [engaged] using (face_eq_iff.1 he).2 pn
  simp only [launchFinished, storesOut, threads, pkts, gaccs, calls, consists]

end Frames

/-! ### Launches (R443, R444) -/

section Launches

variable {s : State} {pn n : Nat}

theorem launchTurn_of_stopped (h : (part s pn).st ≠ .running) : launchTurn s pn n = s := if_pos h

/-- After the decision no launch of this number is under way. -/
theorem launchTurn_of_none (h : (part s pn).st = .running)
    (hn : (part (decideLaunch s pn n) pn).launches.find? (fun l => l.n == n && l.state == 1) = none) :
    launchTurn s pn n = startQueues (decideLaunch s pn n) pn := by
  simp only [launchTurn, h, ne_eq, not_true_eq_false, if_false, hn]

theorem find_other (l : List Launch) : (l.filter fun x => x.n != n).find? (fun l => l.n == n && l.state == 1) = none := by
  rw [List.find?_eq_none]
  intro x hx
  have other := (List.mem_filter.1 hx).2
  simp_all

theorem decideLaunch_of_none (h : ((part s pn).launches.any fun l => l.state == 2) = false) : decideLaunch s pn n = s := by
  have none : (part s pn).launches.find? (fun l => l.state == 2) = none := by
    rw [List.find?_eq_none]
    exact List.any_eq_false.1 h
  simp only [decideLaunch, none]

variable {l : Launch}

theorem decideLaunch_of_accepted (hl : (part s pn).launches.find? (fun l => l.state == 2) = some l) (hn : l.n = n)
    (ok : rejectReason s (part s pn) l = none) : decideLaunch s pn n =
      modPart s pn fun p => { p with launches := ((part s pn).launches.filter fun x => x.n != n) ++ [{ l with state := 0 }] } := by
  simp only [decideLaunch, hl, hn, ne_eq, not_true_eq_false, if_false, ok]

theorem decideLaunch_of_rejected (hl : (part s pn).launches.find? (fun l => l.state == 2) = some l) (hn : l.n = n) {r : Nat}
    (bad : rejectReason s (part s pn) l = some r) {x : Session} (hx : s.sessions.find? (fun x => x.id == l.session && x.up) = some x) :
    decideLaunch s pn n = sendFrame (modPart s pn fun p => { p with launches := (part s pn).launches.filter fun x => x.n != n }) x 9 pn
      (rejectPayload l.tag l.queue r) := by
  simp only [decideLaunch, hl, hn, ne_eq, not_true_eq_false, if_false, bad, modPart_sessions, hx]

/-- A launch accepted joins the end of its queue, and free queues start their next. -/
theorem launchTurn_of_accepted (run : (part s pn).st = .running)
    (hl : (part s pn).launches.find? (fun l => l.state == 2) = some l) (hn : l.n = n)
    (ok : rejectReason s (part s pn) l = none) : launchTurn s pn n = startQueues (modPart s pn fun p =>
      { p with launches := ((part s pn).launches.filter fun x => x.n != n) ++ [{ l with state := 0 }] }) pn := by
  have decided := decideLaunch_of_accepted hl hn ok
  rw [launchTurn_of_none run, decided]
  rw [decided, part_modPart, List.find?_append, find_other]
  simp

/-- A launch rejected leaves, its host is told, and free queues start their next. -/
theorem launchTurn_of_rejected (run : (part s pn).st = .running)
    (hl : (part s pn).launches.find? (fun l => l.state == 2) = some l) (hn : l.n = n) {r : Nat}
    (bad : rejectReason s (part s pn) l = some r) {x : Session} (hx : s.sessions.find? (fun x => x.id == l.session && x.up) = some x) :
    launchTurn s pn n = startQueues (sendFrame (modPart s pn fun p =>
      { p with launches := (part s pn).launches.filter fun x => x.n != n }) x 9 pn (rejectPayload l.tag l.queue r)) pn := by
  have decided := decideLaunch_of_rejected hl hn bad hx
  rw [launchTurn_of_none run, decided]
  have left (t : State) : (part (sendFrame t x 9 pn (rejectPayload l.tag l.queue r)) pn).launches = (part t pn).launches :=
    (face_eq_iff.1 (face_sendFrame (g := launched) t ..)).2 pn
  rw [decided, left, part_modPart, find_other]

variable (run : (part s pn).st = .running) (settled : ((part s pn).launches.any fun l => l.state == 2) = false)
  (hl : (part s pn).launches.find? (fun l => l.n == n && l.state == 1) = some l)
include run settled hl

/-- A faulted launch with something still under way: its host is told. -/
theorem launchTurn_of_faulted {c : Byte} (hc : l.cause = some c) (busy : launchFinished s pn n = false) :
    launchTurn s pn n = startQueues (launchError s pn l c.toNat) pn := by
  have still := (launchFinished_of_same (crew_launchError s pn l c.toNat) (engaged_launchError s pn l c.toNat) pn n).trans busy
  simp only [launchTurn, run, ne_eq, not_true_eq_false, if_false, decideLaunch_of_none settled, hl, hc, still, Bool.false_eq_true]

theorem launchTurn_of_busy (hc : l.cause = none) (busy : launchFinished s pn n = false) : launchTurn s pn n = startQueues s pn := by
  simp only [launchTurn, run, ne_eq, not_true_eq_false, if_false, decideLaunch_of_none settled, hl, hc, busy, Bool.false_eq_true]

theorem launchTurn_of_finished (hc : l.cause = none) (done : launchFinished s pn n = true) :
    launchTurn s pn n = startQueues (fuseCluster (modPart (unplan s fun e => e == .budgetExpiry pn n) pn fun p =>
      { p with launches := p.launches.filter (·.n != n) }) (clusterOf l.station)) pn := by
  simp only [launchTurn, run, ne_eq, not_true_eq_false, if_false, decideLaunch_of_none settled, hl, hc, done, if_true]

end Launches

section LaunchRows

variable (s : State) (pn n : Nat)

/-- The decision, the progress and the end of a launch. -/
theorem launch_events : ((part s pn).st ≠ .running → Does (.launchStart pn n) s id) ∧
    ((part s pn).st = .running →
      (∀ l, (part s pn).launches.find? (fun l => l.state == 2) = some l → l.n = n →
        ((part s pn).launches.any fun x => x.n == n && x.state == 1) = false →
        let rest := (part s pn).launches.filter fun x => x.n != n
        (rejectReason s (part s pn) l = none → Does (.launchStart pn n) s fun s =>
          startQueues (modPart s pn fun p => { p with launches := rest ++ [{ l with state := 0 }] }) pn) ∧
        ∀ r x, rejectReason s (part s pn) l = some r → s.sessions.find? (fun x => x.id == l.session && x.up) = some x →
          ∃ u, Happens (.launchStart pn n) s (startQueues u pn) ∧
            u = sendFrame (modPart { s with hand := .event (.launchStart pn n) } pn fun p => { p with launches := rest }) x 9 pn
              (natLe 4 l.tag.toNat ++ natLe 1 l.queue ++ natLe 1 r)) ∧
      ∀ l, ((part s pn).launches.any fun l => l.state == 2) = false →
        (part s pn).launches.find? (fun l => l.n == n && l.state == 1) = some l →
        (∀ c, l.cause = some c → launchFinished s pn n = false →
          Does (.launchStart pn n) s fun s => startQueues (launchError s pn l c.toNat) pn) ∧
        (l.cause = none → launchFinished s pn n = false → Does (.launchStart pn n) s fun s => startQueues s pn) ∧
        (l.cause = none → launchFinished s pn n = true → Does (.launchStart pn n) s fun s =>
          startQueues (fuseCluster (modPart (unplan s fun e => e == .budgetExpiry pn n) pn fun p =>
            { p with launches := p.launches.filter (·.n != n) }) (clusterOf l.station)) pn)) := by
  have row := happens_launchStart s pn n
  let t : State := { s with hand := .event (.launchStart pn n) }
  refine ⟨fun h => does_of_eq row (launchTurn_of_stopped (s := t) h), fun run => ⟨fun l hl hn _ => ⟨fun ok => ?_, fun r x bad hx => ?_⟩,
    fun l settled hl => ⟨fun c hc busy => ?_, fun hc busy => ?_, fun hc done => ?_⟩⟩⟩
  · exact does_of_eq row (launchTurn_of_accepted (s := t) run hl hn ok)
  · exact ⟨_, happens_of_eq row (launchTurn_of_rejected (s := t) run hl hn bad hx), rfl⟩
  · exact does_of_eq row (launchTurn_of_faulted (s := t) run settled hl hc busy)
  · exact does_of_eq row (launchTurn_of_busy (s := t) run settled hl hc busy)
  · exact does_of_eq row (launchTurn_of_finished (s := t) run settled hl hc done)

theorem budget_of_none (h : (part s pn).launches.find? (fun l => l.n == n && l.state == 1) = none) : Does (.budgetExpiry pn n) s id := by
  refine does_of_eq (happens_budgetExpiry s pn n) ?_
  have none : (part { s with hand := .event (.budgetExpiry pn n) } pn).launches.find? (fun l => l.n == n && l.state == 1) = none := h
  simp only [budgetSpent, none, id]

/-- A launch past its budget ends. -/
theorem budget_of_started (l : Launch) (h : (part s pn).launches.find? (fun l => l.n == n && l.state == 1) = some l) :
    Does (.budgetExpiry pn n) s fun s =>
      let t := dropSpawns s pn n
      let t := t.threads.foldl (fun s e => if tidPart e.2.tid = pn ∧ e.2.launch = some n then killThr s e.2.tid else s) t
      let t := ((part t pn).calls.filter fun w => w.launch == some n).foldl (fun s w => callFailed s pn w 0x18 0) t
      let t := (part t pn).consists.foldl (fun s c =>
        (c.acts.filter fun a => a.launch == some n && !a.ended).foldl (fun s a => faultAct s pn c.cid a.id 0x18 c.anchor 0 0 0 0) s) t
      later (launchError t pn l 0x18) 1 (.launchStart pn n) := by
  refine does_of_eq (happens_budgetExpiry s pn n) ?_
  have known : (part { s with hand := .event (.budgetExpiry pn n) } pn).launches.find? (fun l => l.n == n && l.state == 1) = some l := h
  simp only [budgetSpent, known]

/-- An entry of an eviction schedule applies, and comes again in the next frame. -/
theorem evict_events (c : Nat) (e : EvictEnt) (h : (part s pn).evict[n]? = some e) :
    (e.cache < 256 → Does (.evictionScheduleEntry c pn n) s fun s =>
        later (scheduleSlice s e.cache (memKey s (256 * e.line)) e.sect e.evict) 4096 (.evictionScheduleEntry e.cache pn n)) ∧
      (256 ≤ e.cache → Does (.evictionScheduleEntry c pn n) s fun s =>
        later (scheduleL1 s (e.cache % 256) pn (memKey s (256 * e.line)) e.sect e.evict) 4096
          (.evictionScheduleEntry e.cache pn n)) := by
  have known : (part { s with hand := .event (.evictionScheduleEntry c pn n) } pn).evict[n]? = some e := h
  refine ⟨fun lt => does_of_eq (happens_evictionScheduleEntry s c pn n) ?_,
    fun le => does_of_eq (happens_evictionScheduleEntry s c pn n) ?_⟩
  · simp only [evictEntry, known, lt, if_true]
  · simp only [evictEntry, known, Nat.not_lt.2 le, if_false]

/-- What partitions do in their own time. -/
theorem partitionEvents : PartitionEvents := fun s pn =>
  ⟨(commit_events s pn).1, (commit_events s pn).2, (stop_events s pn).1, (stop_events s pn).2, (destroy_events s pn).1,
    (destroy_events s pn).2, configOpComplete_event s, slice_events s pn, fun g q r => swap_events s pn g q r,
    launch_events s pn, budget_of_none s pn, fun n l => budget_of_started s pn n l, fun c n e => evict_events s pn n c e⟩

end LaunchRows

end Sys2Proof.PartitionTurns

namespace Sys2Proof.LockstepTurns

open Sys2Proof Machine CacheFrames Faces Laws PartitionTurns

/-! ### What the rows of pairs come to -/

section Rows

variable (s : State) (pn : Nat)

theorem happens_lockstepInputForward (t : Nat) (f : Frame) : Does (.lockstepInputForward pn t f) s fun s => inputForwarded s pn t f :=
  Eq.trans (b := execLockstepInputForward _) rfl (onEvent_some rfl rfl)

theorem happens_lockstepInputInject : Does (.lockstepInputInject pn) s fun s => injectInputs s pn :=
  Eq.trans (b := execLockstepInputInject _) rfl (onEvent_some rfl rfl)

theorem happens_digestWindowEnd : Does (.digestWindowEnd pn) s fun s => windowEnds s pn :=
  Eq.trans (b := execDigestWindowEnd _) rfl (onEvent_some rfl rfl)

theorem happens_digestArrival (n : Nat) (d : DWord) : Does (.digestArrival pn n d) s fun s =>
    if inStep s pn then compareDigests (modPart s pn fun p => { p with partner := kput p.partner n d }) pn n else s :=
  Eq.trans (b := execDigestArrival _) rfl (onEvent_some rfl rfl)

theorem happens_lockstepAlignment (t : Nat) : Does (.lockstepAlignment pn t) s fun s => aligned s pn t :=
  Eq.trans (b := execLockstepAlignment _) rfl (onEvent_some rfl rfl)

end Rows

/-! ### Pairs in step -/

section InStep

variable {s : State} {pn : Nat}

theorem running_of_inStep (h : inStep s pn = true) : (part s pn).st = .running := by
  simp only [inStep, Partition.inStep, Bool.and_eq_true, beq_iff_eq] at h
  exact h.1.1

theorem diverge_of_running (h : (part s pn).st = .running) (w : Nat) :
    diverge s pn w = supReport (stopPart s pn) pn 0x19 5 0xFFFF 0 0 0 w := if_neg (not_not_intro h)

theorem inputForwarded_of_apart (h : inStep s pn = false) (t : Nat) (f : Frame) : inputForwarded s pn t f = s := by
  simp [inputForwarded, h]

theorem inputForwarded_of_late (h : inStep s pn = true) {t : Nat} (late : t < partCycle s pn) (f : Frame) :
    inputForwarded s pn t f = supReport (stopPart s pn) pn 0x19 5 0xFFFF 0 0 0 (partCycle s pn / 1024) := by
  simp [inputForwarded, h, late, diverge_of_running (running_of_inStep h)]

theorem inputForwarded_of_due (h : inStep s pn = true) {t : Nat} (due : partCycle s pn ≤ t) (f : Frame) : inputForwarded s pn t f =
    later (modPart s pn fun p => { p with inputs := p.inputs ++ [(t, asMessage f)] }) (t - partCycle s pn) (.lockstepInputInject pn) := by
  simp [inputForwarded, h, Nat.not_lt.2 due]

theorem windowEnds_of_apart (h : inStep s pn = false) : windowEnds s pn = s := by simp [windowEnds, h]

/-! ### Digests (R465, R466) -/

/-- The window that has ended. -/
def ended (s : State) (pn : Nat) : Nat := partCycle s pn / 1024 - 1

/-- A window's digest is formed, and what it was formed of goes. -/
def closed (s : State) (pn w : Nat) : State := modPart s pn fun p =>
  { p with digests := kput p.digests w (foldWindow p w), folds := p.folds.filter fun e => w < e.1 / 1024 }

theorem part_closed (w : Nat) : part (closed s pn w) pn = { part s pn with
    digests := kput (part s pn).digests w (foldWindow (part s pn) w), folds := (part s pn).folds.filter fun e => w < e.1 / 1024 } := part_modPart ..

/-- The digest of the window before the one that has ended is not touched. -/
theorem digests_closed (h : ended s pn ≠ 0) :
    kget (part (closed s pn (ended s pn)) pn).digests (ended s pn - 1) = kget (part s pn).digests (ended s pn - 1) := by
  rw [part_closed]
  exact kget_kput_other _ _ (by omega)

theorem compareDigests_of_partner_none {w : Nat} (h : kget (part s pn).partner w = none) : compareDigests s pn w = s := by
  unfold compareDigests
  rw [h]
  cases kget (part s pn).digests w <;> rfl

/-- The window ends with the one before it compared, and the partner's digest still to come. -/
theorem windowEnds_of_compared (h : inStep s pn = true) (before : ended s pn = 0 ∨ kget (part s pn).digests (ended s pn - 1) = none)
    (wait : kget (part s pn).partner (ended s pn) = none) : windowEnds s pn = later (closed s pn (ended s pn)) 1024 (.digestWindowEnd pn) := by
  have there : ¬ (ended s pn ≠ 0 ∧ (kget (part (closed s pn (ended s pn)) pn).digests (ended s pn - 1)).isSome) := by
    rintro ⟨ne, some⟩
    rw [digests_closed ne, before.resolve_left ne] at some
    exact absurd some (by simp)
  have open_ : kget (part (later (closed s pn (ended s pn)) 1024 (.digestWindowEnd pn)) pn).partner (ended s pn) = none :=
    (congrArg (fun p : Partition => kget p.partner (ended s pn)) (part_closed _)).trans wait
  rw [windowEnds, h]
  exact (if_neg there).trans (compareDigests_of_partner_none open_)

/-- The window ends with the one before it missing. -/
theorem windowEnds_of_missing (h : inStep s pn = true) {a : Nat} (ha : lockPartner s pn = some a) (ne : ended s pn ≠ 0)
    (missing : (kget (part s pn).digests (ended s pn - 1)).isSome = true) :
    windowEnds s pn = diverge (suspectAll (closed s pn (ended s pn)) a) pn (ended s pn - 1) := by
  have there : ended s pn ≠ 0 ∧ (kget (part (closed s pn (ended s pn)) pn).digests (ended s pn - 1)).isSome :=
    ⟨ne, by rwa [digests_closed ne]⟩
  have partner : lockPartner (closed s pn (ended s pn)) pn = some a := by
    have record : (part (closed s pn (ended s pn)) pn).record = (part s pn).record := by rw [part_closed]
    rw [← ha]
    simp only [lockPartner, pfield, record]
    rfl
  rw [windowEnds, h]
  refine (if_pos there).trans ?_
  change diverge (match lockPartner (closed s pn (ended s pn)) pn with
    | some a => suspectAll (closed s pn (ended s pn)) a
    | none => closed s pn (ended s pn)) pn _ = _
  rw [partner]
  rfl

/-- The partner's digest noted. -/
def seen (s : State) (pn n : Nat) (d : DWord) : State := modPart s pn fun p => { p with partner := kput p.partner n d }

theorem compareDigests_of_unformed {n : Nat} (h : kget (part s pn).digests n = none) : compareDigests s pn n = s := by
  unfold compareDigests
  rw [h]

theorem part_seen (n : Nat) (d : DWord) : part (seen s pn n d) pn = { part s pn with partner := kput (part s pn).partner n d } :=
  part_modPart ..

theorem compareDigests_of_other (run : (part s pn).st = .running) {n : Nat} {a d : DWord} (ha : kget (part s pn).digests n = some a)
    (ne : a ≠ d) : compareDigests (seen s pn n d) pn n = supReport (stopPart (seen s pn n d) pn) pn 0x19 5 0xFFFF 0 0 0 n := by
  have known : (part (seen s pn n d) pn).st = .running := by rw [part_seen]; exact run
  rw [← diverge_of_running known]
  simp [compareDigests, part_seen, ha, ne]

theorem compareDigests_of_same {n : Nat} {a : DWord} (ha : kget (part s pn).digests n = some a) : compareDigests (seen s pn n a) pn n =
    ((part s pn).heldOut.filter (·.1 == n)).foldl (fun s h => queueFrame s h.2) (modPart (seen s pn n a) pn fun q =>
      { q with heldOut := q.heldOut.filter (·.1 != n), digests := kdel q.digests n, partner := kdel q.partner n }) := by
  simp [compareDigests, part_seen, ha]

end InStep

/-! ### The events of pairs -/

section Events

variable (s : State) (pn : Nat)

theorem apart_events (h : inStep s pn = false) : (∀ t f, Does (.lockstepInputForward pn t f) s id) ∧ Does (.digestWindowEnd pn) s id ∧
    ∀ n d, Does (.digestArrival pn n d) s id := by
  refine ⟨fun t f => does_of_eq (happens_lockstepInputForward s pn t f) ?_, does_of_eq (happens_digestWindowEnd s pn) ?_,
    fun n d => does_of_eq (happens_digestArrival s pn n d) ?_⟩
  · exact inputForwarded_of_apart (s := { s with hand := .event (.lockstepInputForward pn t f) }) h t f
  · exact windowEnds_of_apart (s := { s with hand := .event (.digestWindowEnd pn) }) h
  · exact if_neg (Bool.eq_false_iff.1 h)

theorem forward_events (h : inStep s pn = true) (t : Nat) (f : Frame) :
    (t < partCycle s pn → Does (.lockstepInputForward pn t f) s fun s =>
      supReport (stopPart s pn) pn 0x19 5 0xFFFF 0 0 0 (partCycle s pn / 1024)) ∧
    (partCycle s pn ≤ t → Does (.lockstepInputForward pn t f) s fun s =>
      later (modPart s pn fun p => { p with inputs := p.inputs ++ [(t, asMessage f)] }) (t - partCycle s pn) (.lockstepInputInject pn)) := by
  have row := happens_lockstepInputForward s pn t f
  exact ⟨fun late => does_of_eq row (inputForwarded_of_late (s := { s with hand := .event (.lockstepInputForward pn t f) }) h late f),
    fun due => does_of_eq row (inputForwarded_of_due (s := { s with hand := .event (.lockstepInputForward pn t f) }) h due f)⟩

theorem window_events (h : inStep s pn = true) :
    (ended s pn = 0 ∨ kget (part s pn).digests (ended s pn - 1) = none → kget (part s pn).partner (ended s pn) = none →
      Does (.digestWindowEnd pn) s fun t => later (closed t pn (ended s pn)) 1024 (.digestWindowEnd pn)) ∧
    (∀ a, lockPartner s pn = some a → ended s pn ≠ 0 → (kget (part s pn).digests (ended s pn - 1)).isSome = true →
      Does (.digestWindowEnd pn) s fun t => diverge (suspectAll (closed t pn (ended s pn)) a) pn (ended s pn - 1)) := by
  have row := happens_digestWindowEnd s pn
  exact ⟨fun before wait => does_of_eq row (windowEnds_of_compared (s := { s with hand := .event (.digestWindowEnd pn) }) h before wait),
    fun a ha ne missing =>
      does_of_eq row (windowEnds_of_missing (s := { s with hand := .event (.digestWindowEnd pn) }) h ha ne missing)⟩

theorem digest_events (h : inStep s pn = true) (n : Nat) (d : DWord) :
    (kget (part s pn).digests n = none → Does (.digestArrival pn n d) s fun s => seen s pn n d) ∧
    ∀ a, kget (part s pn).digests n = some a →
      (a ≠ d → Does (.digestArrival pn n d) s fun s => supReport (stopPart (seen s pn n d) pn) pn 0x19 5 0xFFFF 0 0 0 n) ∧
      (a = d → Does (.digestArrival pn n d) s fun s => ((part s pn).heldOut.filter (·.1 == n)).foldl (fun s h => queueFrame s h.2)
        (modPart (seen s pn n d) pn fun q =>
          { q with heldOut := q.heldOut.filter (·.1 != n), digests := kdel q.digests n, partner := kdel q.partner n })) := by
  let t : State := { s with hand := .event (.digestArrival pn n d) }
  have row : Does (.digestArrival pn n d) s fun s => compareDigests (seen s pn n d) pn n :=
    does_of_eq (happens_digestArrival s pn n d) (if_pos h)
  refine ⟨fun unformed => does_of_eq row ?_, fun a ha => ⟨fun ne => does_of_eq row ?_, fun e => does_of_eq row ?_⟩⟩
  · refine compareDigests_of_unformed ?_
    rw [part_seen]
    exact unformed
  · exact compareDigests_of_other (s := t) (running_of_inStep h) ha ne
  · subst e
    exact compareDigests_of_same (s := t) ha

theorem inject_due (i : Nat × Frame) (e : Event) (hi : (part s pn).inputs = [i]) (due : i.1 ≤ partCycle s pn)
    (he : inputEvent i.2 = some e) : Does (.lockstepInputInject pn) s fun s =>
      later (modPart s pn fun p => { p with inputs := [], ready := p.ready ++ [i.2] }) 0 e := by
  refine does_of_eq (happens_lockstepInputInject s pn) ?_
  have known : (part { s with hand := .event (.lockstepInputInject pn) } pn).inputs = [i] := hi
  have now : i.1 ≤ partCycle { s with hand := .event (.lockstepInputInject pn) } pn := due
  simp [injectInputs, modPart, known, now, he]

theorem inject_early (i : Nat × Frame) (hi : (part s pn).inputs = [i]) (early : partCycle s pn < i.1) :
    Does (.lockstepInputInject pn) s fun s => modPart s pn fun p => { p with inputs := [i], ready := p.ready ++ [] } := by
  refine does_of_eq (happens_lockstepInputInject s pn) ?_
  have known : (part { s with hand := .event (.lockstepInputInject pn) } pn).inputs = [i] := hi
  have now : partCycle { s with hand := .event (.lockstepInputInject pn) } pn < i.1 := early
  simp [injectInputs, modPart, known, now]

theorem alignment_events (t : Nat) (run : (part s pn).st = .running) (pair : (part s pn).lockstep = true)
    (new : (part s pn).lockBase = none) :
    (s.time < t → Does (.lockstepAlignment pn t) s fun s => later s (t - s.time) (.lockstepAlignment pn t)) ∧
      (t ≤ s.time → Does (.lockstepAlignment pn t) s fun s =>
        let u := startSupervisor (modPart s pn fun p => { p with lockBase := some s.time }) pn
        later (((List.range 16).filter (leased u)).foldl (fun u h => noteTo u pn h 1) u) 1024 (.digestWindowEnd pn)) := by
  have go : ¬ (!((part s pn).st == .running && (part s pn).lockstep && (part s pn).lockBase.isNone)) = true := by
    simp [run, pair, new]
  refine ⟨fun lt => does_of_eq (happens_lockstepAlignment s pn t) ((if_neg go).trans (if_pos lt)),
    fun le => does_of_eq (happens_lockstepAlignment s pn t) ((if_neg go).trans (if_neg (Nat.not_lt.2 le)))⟩

theorem alignment_of_other (t : Nat) (h : (part s pn).st ≠ .running ∨ (part s pn).lockstep = false ∨ (part s pn).lockBase.isSome = true) :
    Does (.lockstepAlignment pn t) s id := by
  have stay : (!((part s pn).st == .running && (part s pn).lockstep && (part s pn).lockBase.isNone)) = true := by
    rcases h with h | h | h
    · simp [h]
    · simp [h]
    · simp [Option.isNone_eq_false_iff.2 h]
  exact does_of_eq (happens_lockstepAlignment s pn t) (if_pos stay)

/-- What lockstep pairs do in their own time. -/
theorem lockstepEvents : LockstepEvents := by
  intro s pn
  refine ⟨apart_events s pn, fun h => ⟨?_, ?_, ?_, ?_, ?_⟩, inject_due s pn, inject_early s pn,
    alignment_events s pn, alignment_of_other s pn⟩
  · exact fun t f => (forward_events s pn h t f).1
  · exact fun t f => (forward_events s pn h t f).2
  · exact window_events s pn h
  · exact fun n d => (digest_events s pn h n d).1
  · exact fun n d => (digest_events s pn h n d).2

end Events

end Sys2Proof.LockstepTurns

namespace Sys2Proof.AgentTurns

open Sys2Proof Machine CacheFrames Faces Laws PartitionTurns

/-! ### What the rows of agents come to -/

section Rows

variable (s : State) (a : Nat)

theorem happens_heartbeat : Does (.heartbeat a) s fun s => heartbeatArrived s a :=
  Eq.trans (b := execHeartbeat _) rfl (onEvent_some rfl rfl)

theorem happens_agentSuspect : Does (.agentSuspect a) s fun s => suspectAll s a :=
  Eq.trans (b := execAgentSuspect _) rfl (onEvent_some rfl rfl)

theorem happens_transactionLate (r : Nat) : Does (.transactionLate a r) s fun s => transactionLate s a r :=
  Eq.trans (b := execAgentSuspect _) rfl (onEvent_some rfl rfl)

theorem happens_probeAnswer : Does (.probeAnswer a) s fun s => agentAlive s a :=
  Eq.trans (b := execProbeAnswer _) rfl (onEvent_some rfl rfl)

theorem happens_probeExpiry : Does (.probeExpiry a) s fun s => if s.suspects.contains a then declareDead s a else s :=
  Eq.trans (b := execProbeExpiry _) rfl (onEvent_some rfl rfl)

theorem happens_selftestComplete (n : Nat) (pass : Bool) : Does (.selftestComplete n pass) s fun s => selftestDone s n pass :=
  Eq.trans (b := execSelftestComplete _) rfl (onEvent_some rfl rfl)

end Rows

/-! ### Heartbeats and suspicion (R500) -/

section Suspicion

variable {s : State} {a : Nat}

theorem heartbeatArrived_of_dead (h : s.deadAgents.contains a = true) : heartbeatArrived s a = s := if_pos h

theorem heartbeatArrived_of_peer (h : s.deadAgents.contains a = false) (peer : a < 64) :
    heartbeatArrived s a = later (agentAlive s a) 360001 (.agentSuspect a) := by
  simp only [heartbeatArrived, h, heartPeriod, peer, if_true, Bool.false_eq_true, if_false]
  exact if_neg (by omega)

theorem heartbeatArrived_of_station (h : s.deadAgents.contains a = false) (lo : 256 ≤ a) (hi : a < 512) :
    heartbeatArrived s a = later (later (agentAlive s a) 36001 (.agentSuspect a)) 36000 (.heartbeat a) := by
  simp only [heartbeatArrived, h, heartPeriod, Nat.not_lt.2 (show 64 ≤ a by omega), lo, hi, and_self, if_true, Bool.false_eq_true, if_false]

theorem suspect_of_suspected (h : s.suspects.contains a = true) : suspect s a = s := if_pos (by simp only [h, Bool.true_or])

variable (live : s.deadAgents.contains a = false) (new : s.suspects.contains a = false)
include live new

theorem suspect_of_probed {n : Nat} (h : probeTime a = some n) :
    suspect s a = later { s with suspects := s.suspects ++ [a] } n (.probeExpiry a) := by
  simp only [suspect, live, new, Bool.or_false, Bool.false_eq_true, if_false, h]

theorem suspect_of_unprobed (h : probeTime a = none) : suspect s a = { s with suspects := s.suspects ++ [a] } := by
  simp only [suspect, live, new, Bool.or_false, Bool.false_eq_true, if_false, h]

theorem suspect_peer (peer : a < 64) : suspect s a = later { s with suspects := s.suspects ++ [a] } 18400 (.probeExpiry a) :=
  suspect_of_probed live new (if_pos peer)

/-- A host agent is not probed. -/
theorem suspect_host (lo : 64 ≤ a) (hi : a < 256) : suspect s a = { s with suspects := s.suspects ++ [a] } :=
  suspect_of_unprobed live new ((if_neg (by omega)).trans (if_neg (by omega)))

theorem suspect_station (lo : 256 ≤ a) (hi : a < 512) :
    suspect s a = later { s with suspects := s.suspects ++ [a] } 1440 (.probeExpiry a) :=
  suspect_of_probed live new ((if_neg (by omega)).trans (if_pos ⟨lo, hi⟩))

end Suspicion

section Agents

variable (s : State) (a : Nat)

/-- Heartbeats, and agents that have shown no life. -/
theorem suspicion_events (live : s.deadAgents.contains a = false) :
    let alive (s : State) : State :=
      { s with agenda := s.agenda.filter fun x => !(x.2 == .probeExpiry a || x.2 == .agentSuspect a)
               suspects := s.suspects.filter fun x => x != a && !(decide (256 ≤ a ∧ a < 512) && x == dieAgent (dieOf (a - 256))) }
    (a < 64 → Does (.heartbeat a) s fun s => later (alive s) 360001 (.agentSuspect a)) ∧
    (256 ≤ a → a < 512 → Does (.heartbeat a) s fun s => later (later (alive s) 36001 (.agentSuspect a)) 36000 (.heartbeat a)) ∧
    Does (.probeAnswer a) s alive ∧
    (s.suspects.contains a = true → a < 512 → Does (.agentSuspect a) s id) ∧
    (s.suspects.contains a = false →
      (a < 64 → Does (.agentSuspect a) s fun s => later { s with suspects := s.suspects ++ [a] } 18400 (.probeExpiry a)) ∧
      (64 ≤ a → a < 256 → Does (.agentSuspect a) s fun s => { s with suspects := s.suspects ++ [a] }) ∧
      (256 ≤ a → a < 512 → Does (.agentSuspect a) s fun s => later { s with suspects := s.suspects ++ [a] } 1440 (.probeExpiry a)) ∧
      Does (.probeExpiry a) s id) := by
  intro alive
  let t : State := { s with hand := .event (.agentSuspect a) }
  have one (h : a < 512) : suspectAll t a = suspect t a := if_neg (Nat.not_le.2 h)
  have turn := happens_agentSuspect s a
  refine ⟨fun h => does_of_eq (happens_heartbeat s a) (heartbeatArrived_of_peer (s := { s with hand := .event (.heartbeat a) }) live h),
    fun lo hi => does_of_eq (happens_heartbeat s a) (heartbeatArrived_of_station (s := { s with hand := .event (.heartbeat a) }) live lo hi),
    happens_probeAnswer s a, fun h lt => does_of_eq turn ((one lt).trans (suspect_of_suspected (s := t) h)),
    fun new => ⟨fun h => does_of_eq turn ?_, fun lo hi => does_of_eq turn ?_, fun lo hi => does_of_eq turn ?_, ?_⟩⟩
  · exact (one (by omega)).trans (suspect_peer (s := t) live new h)
  · exact (one (by omega)).trans (suspect_host (s := t) live new lo hi)
  · exact (one hi).trans (suspect_station (s := t) live new lo hi)
  · exact does_of_eq (happens_probeExpiry s a) (if_neg (Bool.eq_false_iff.1 new))

/-- A suspected agent that fails its probe. -/
theorem probe_events (suspected : s.suspects.contains a = true) :
    (a < 64 → Does (.probeExpiry a) s fun s => peerDead s a) ∧
    (512 ≤ a → Does (.probeExpiry a) s fun s => dieDead s (a - 512)) ∧
    (256 ≤ a → a < 512 →
      let t := stationDead { s with hand := .event (.probeExpiry a) } (a - 256)
      let d := dieOf (a - 256)
      (((dieStations d).all fun st => (stn t st).dead) = false → Happens (.probeExpiry a) s t) ∧
      (((dieStations d).all fun st => (stn t st).dead) = true → t.deadAgents.contains (dieAgent d) = false →
        Happens (.probeExpiry a) s (dieDead t d))) := by
  have turn : Does (.probeExpiry a) s fun s => declareDead s a := does_of_eq (happens_probeExpiry s a) (if_pos suspected)
  refine ⟨fun h => does_of_eq turn (if_pos h), fun h => does_of_eq turn ?_, fun lo hi => ?_⟩
  · exact (if_neg (by omega)).trans ((if_neg (by omega)).trans (if_neg (by omega)))
  · intro t d
    have failed : declareDead { s with hand := .event (.probeExpiry a) } a =
        if (dieStations d).all (fun st => (stn t st).dead) && !t.deadAgents.contains (dieAgent d) then dieDead t d else t :=
      (if_neg (by omega)).trans ((if_neg (by omega)).trans (if_pos hi))
    refine ⟨fun some => happens_of_eq turn (failed.trans (if_neg ?_)), fun all new => happens_of_eq turn (failed.trans (if_pos ?_))⟩
    · simp only [some, Bool.false_and, Bool.false_eq_true, not_false_eq_true]
    · simp only [all, new, Bool.not_false, Bool.and_self]

/-- A request that an agent keeps waiting. -/
theorem late_events (live : s.deadAgents.contains a = false) (r : Nat) (q : Req) (hq : kget s.reqs r = some q)
    (new : s.suspects.contains a = false) :
    (a < 64 → q.recalls.contains a = true → Does (.transactionLate a r) s fun s =>
      later { s with suspects := s.suspects ++ [a] } 18400 (.probeExpiry a)) ∧
    (a < 256 → q.recalls.contains a = false → Does (.transactionLate a r) s id) ∧
    (256 ≤ a → a < 512 → q.bank + 256 = a → (stn s q.bank).dead = false → ∃ u d, Happens (.transactionLate a r) s u ∧
      u.suspects = s.suspects ++ [a] ∧ (s.time + 1440, Event.probeExpiry a) ∈ u.agenda ∧ d < 1440 ∧
      (s.time + d, Event.probeAnswer a) ∈ u.agenda) := by
  have turn := happens_transactionLate s a r
  let t : State := { s with hand := .event (.transactionLate a r) }
  have known : transactionLate t a r = if 256 ≤ a then
      if q.bank + 256 = a ∧ !(stn s q.bank).dead then within (suspect t a) 1439 (.probeAnswer a) else t
    else if q.recalls.contains a then suspect t a else t := by
    have here : kget t.reqs r = some q := hq
    simp only [transactionLate, here]
    rfl
  refine ⟨fun peer kept => does_of_eq turn (known.trans ?_), fun lt given => does_of_eq turn (known.trans ?_), fun lo hi home alive => ?_⟩
  · exact (if_neg (by omega)).trans ((if_pos kept).trans (suspect_peer (s := t) live new peer))
  · exact (if_neg (by omega)).trans (if_neg (Bool.eq_false_iff.1 given))
  · have answered : transactionLate t a r = within (suspect t a) 1439 (.probeAnswer a) :=
      known.trans ((if_pos lo).trans (if_pos ⟨home, by rw [alive, Bool.not_false]⟩))
    rw [suspect_station (s := t) live new lo hi] at answered
    refine ⟨_, 1 + Config.draw s.freeCtr % 1439, happens_of_eq turn answered, rfl, ?_, ?_, ?_⟩
    · exact List.mem_append_left _ (List.mem_append_right _ (List.mem_singleton.2 rfl))
    · have := Nat.mod_lt (Config.draw s.freeCtr) (show 0 < 1439 by decide)
      omega
    · exact List.mem_append_right _ (List.mem_singleton.2 rfl)

end Agents

/-! ### Self-tests (R503) -/

section Selftests

variable (s : State) (n : Nat)

/-- The errors met in the row under test, the first one first. -/
def joined (x : Selftest) : List Selftest := x :: s.selftests.filter fun y => y.joins == some n

/-- The self-test has ended, and its errors l stand in the error log. -/
def logged (l : List Selftest) (last : Bool) : State := l.foldl (fun s y =>
    logRecord s y.kind.toNat (b2n last) y.severity.toNat y.struct.toNat y.unit y.part.toNat y.addr.toNat y.time)
  { s with selftests := s.selftests.filter fun y => y.n != n && y.joins != some n }

/-- Transient errors of the structure under test in the last 2^30 cycles. -/
def recent (x : Selftest) : Nat := s.transients.countP fun t => t.1 == x.kind && t.2.1 == x.struct && t.2.2.1 == x.unit &&
  t.2.2.2.1 == x.addr && decide (x.time < t.2.2.2.2 + 2 ^ 30)

theorem parts_logRecord (kind outcome severity struct unit part addr time : Nat) :
    (logRecord s kind outcome severity struct unit part addr time).parts = s.parts := by simp only [logRecord]

theorem parts_logged (l : List Selftest) (last : Bool) : (logged s n l last).parts = s.parts := by
  have kept (t : State) : (l.foldl (fun s y =>
      logRecord s y.kind.toNat (b2n last) y.severity.toNat y.struct.toNat y.unit y.part.toNat y.addr.toNat y.time) t).parts = t.parts := by
    induction l generalizing t with
    | nil => rfl
    | cons y l ih => rw [List.foldl_cons, ih, parts_logRecord]
  exact kept _

theorem selftestDone_of_none (pass : Bool) (h : s.selftests.find? (·.n == n) = none) : selftestDone s n pass = s := by
  simp only [selftestDone, h]

theorem selftestDone_of_some (pass : Bool) {x : Selftest} (h : s.selftests.find? (·.n == n) = some x) : selftestDone s n pass =
    let last := !pass || decide (3 ≤ recent s x + (joined s n x).length)
    let t := logged s n (joined s n x) last
    if last then lasting t x
    else { t with transients := t.transients ++ (joined s n x).map fun y => (y.kind, y.struct, y.unit, y.addr, y.time) } := by
  have turned : recent s x = s.transients.countP fun t =>
      x.tests t.1 t.2.1 t.2.2.1 t.2.2.2.1 && decide (x.time < t.2.2.2.2 + 2 ^ 30) := by
    unfold recent Selftest.tests
    simp only [Bool.beq_comm]
  unfold selftestDone
  rw [h, turned]
  rfl

variable {s n} {x : Selftest}

theorem selftestDone_of_transient (h : s.selftests.find? (·.n == n) = some x) (few : recent s x + (joined s n x).length < 3) :
    selftestDone s n true = { logged s n (joined s n x) false with
      transients := (logged s n (joined s n x) false).transients ++
        (joined s n x).map fun y => (y.kind, y.struct, y.unit, y.addr, y.time) } := by
  have last : (!true || decide (3 ≤ recent s x + (joined s n x).length)) = false := by simp [few]
  rw [selftestDone_of_some s n true h, last]
  rfl

theorem selftestDone_of_lasting (h : s.selftests.find? (·.n == n) = some x) {pass : Bool}
    (many : pass = false ∨ 3 ≤ recent s x + (joined s n x).length) :
    selftestDone s n pass = lasting (logged s n (joined s n x) true) x := by
  have last : (!pass || decide (3 ≤ recent s x + (joined s n x).length)) = true := by
    rcases many with failed | third
    · rw [failed, Bool.not_false, Bool.true_or]
    · rw [decide_eq_true third, Bool.or_true]
  rw [selftestDone_of_some s n pass h, last]
  rfl

/-- A lasting fault of a station's structure, the station in no partition that runs. -/
theorem lasting_station (t : State) (row : x.kind ≠ 2) (lane : x.kind ≠ 3) (struct : x.struct.toNat < 10)
    (free : (t.parts.any fun e => e.2.st == .running && e.2.stations.contains x.unit) = false) :
    lasting t x = stationDead t x.unit := by
  have none : partsWhere t (fun p => p.stations.contains x.unit) = [] := by
    rw [partsWhere, List.map_eq_nil_iff, List.filter_eq_nil_iff]
    exact List.any_eq_false.1 free
  simp only [lasting, row, lane, Nat.not_le.2 struct, if_false, none, List.foldl_nil]

end Selftests

section SelftestRows

variable (s : State) (n : Nat)

/-- The end of a self-test, in all its cases. -/
theorem selftest_events (pass : Bool) (x : Selftest) (h : s.selftests.find? (·.n == n) = some x) :
    (pass = true → recent s x + (joined s n x).length < 3 → Does (.selftestComplete n pass) s fun t =>
      let t := logged t n (joined s n x) false
      { t with transients := t.transients ++ (joined s n x).map fun y => (y.kind, y.struct, y.unit, y.addr, y.time) }) ∧
    (pass = false ∨ 3 ≤ recent s x + (joined s n x).length →
      (x.kind = 2 → let k := stackOf x.addr.toNat
        Does (.selftestComplete n pass) s fun t => let t := logged t n (joined s n x) true
          { t with retired := vset t.retired k (vget t.retired k ++ [x.addr.toNat / 4096]) }) ∧
      (x.kind = 3 → x.struct = 12 → Does (.selftestComplete n pass) s fun t => let t := logged t n (joined s n x) true
        { t with lanes := vset t.lanes x.unit (if vget t.lanes x.unit = 8 then 4 else 2) }) ∧
      (x.kind = 3 → x.struct = 11 → Does (.selftestComplete n pass) s fun t => let t := logged t n (joined s n x) true
        { t with narrow := x.unit :: t.narrow.filter (· != x.unit) }) ∧
      (x.kind = 3 → x.struct = 13 → Does (.selftestComplete n pass) s fun t => let t := logged t n (joined s n x) true
        { t with etherLanes := if t.etherLanes = 8 then 4 else 2 }) ∧
      (x.kind ≠ 2 → x.kind ≠ 3 → 10 ≤ x.struct.toNat → Does (.selftestComplete n pass) s fun t => logged t n (joined s n x) true) ∧
      (x.kind ≠ 2 → x.kind ≠ 3 → x.struct.toNat < 10 → (s.parts.any fun e => e.2.st == .running && e.2.stations.contains x.unit) = false →
        Does (.selftestComplete n pass) s fun t => stationDead (logged t n (joined s n x) true) x.unit)) := by
  have row := happens_selftestComplete s n pass
  let t : State := { s with hand := .event (.selftestComplete n pass) }
  refine ⟨fun passed few => ?_, fun many => ?_⟩
  · subst passed
    exact does_of_eq row (selftestDone_of_transient (s := t) h few)
  have known : Does (.selftestComplete n pass) s fun t => lasting (logged t n (joined s n x) true) x :=
    does_of_eq row (selftestDone_of_lasting (s := t) h many)
  refine ⟨fun kind => does_of_eq known ?_, fun kind struct => does_of_eq known ?_, fun kind struct => does_of_eq known ?_,
    fun kind struct => does_of_eq known ?_, fun row lane struct => does_of_eq known ?_, fun row lane struct free => does_of_eq known ?_⟩
  · simp only [lasting, kind, if_true]
  · simp [lasting, kind, struct]
  · simp [lasting, kind, struct]
  · simp [lasting, kind, struct]
  · simp only [lasting, row, lane, struct, if_false, if_true]
  · refine lasting_station _ row lane struct ?_
    rw [parts_logged]
    exact free

theorem selftest_of_none (pass : Bool) (h : s.selftests.find? (·.n == n) = none) : Does (.selftestComplete n pass) s id :=
  does_of_eq (happens_selftestComplete s n pass) (selftestDone_of_none { s with hand := .event (.selftestComplete n pass) } n pass h)

/-- What agents do in their own time. -/
theorem agentEvents : AgentEvents := by
  intro s
  refine ⟨fun a h => ?_, fun a live => ?_, fun n pass x h => selftest_events s n pass x h, fun n pass h => selftest_of_none s n pass h⟩
  · exact does_of_eq (happens_heartbeat s a) (heartbeatArrived_of_dead (s := { s with hand := .event (.heartbeat a) }) h)
  · obtain ⟨peer, station, answer, again, first⟩ := suspicion_events s a live
    exact ⟨peer, station, answer, again, first, probe_events s a, fun r q hq new => late_events s a live r q hq new⟩

end SelftestRows

end Sys2Proof.AgentTurns

namespace Sys2Proof.BoardTurns

open Sys2Proof Machine CacheFrames Faces Laws PartitionTurns

/-! ### What the rows of the board come to -/

section Rows

variable (s : State)

theorem happens_pwrgood : Does .pwrgood s fun s => { s with pins := { s.pins with pwrgood := true } } :=
  Eq.trans (b := execPwrgood _) rfl (onEvent_some rfl rfl)

theorem happens_pwrgoodDeassert : Does .pwrgoodDeassert s fun s => { s with pins := { s.pins with pwrgood := false } } :=
  Eq.trans (b := execPwrgoodDeassert _) rfl (onEvent_some rfl rfl)

theorem happens_resetRelease : Does .resetRelease s fun s => { s with pins := { s.pins with resetN := true } } :=
  Eq.trans (b := execResetRelease _) rfl (onEvent_some rfl rfl)

theorem happens_resetAssert : Does .resetAssert s inReset :=
  Eq.trans (b := execResetAssert _) rfl (onEvent_some rfl rfl)

theorem happens_firmwareVerified (f : Frame) : Does (.firmwareVerified f) s fun s => verified s f :=
  Eq.trans (b := execFirmwareVerified _) rfl (onEvent_some rfl rfl)

theorem happens_stationSelftestDone (st : Nat) (pass : Bool) : Does (.stationSelftestDone st pass) s fun s => stationTested s st pass :=
  Eq.trans (b := execStationSelftestDone _) rfl (onEvent_some rfl rfl)

theorem happens_lmTrainingDone (n : Nat) (pass : Bool) (bad : List Nat) :
    Does (.lmTrainingDone n pass bad) s fun s => stackTrained s n pass bad :=
  Eq.trans (b := execLmTrainingDone _) rfl (onEvent_some rfl rfl)

theorem happens_linkTrained : Does .linkTrained s fun s =>
    if s.live && (s.boot == .link || s.boot == .ready) then { s with linkUp := true, boot := .ready } else s :=
  Eq.trans (b := execLinkTrained _) rfl (onEvent_some rfl rfl)

theorem happens_linkLoss : Does .linkLoss s fun s => { s with linkUp := false } :=
  Eq.trans (b := execLinkLoss _) rfl (onEvent_some rfl rfl)

theorem happens_powerSample (mw : Nat) : Does (.powerSample mw) s fun s => measure { s with power := (mw :: s.power).take 100 } :=
  Eq.trans (b := execPowerSample _) rfl (onEvent_some rfl rfl)

theorem happens_dutyStep : Does .dutyStep s dutyStep :=
  Eq.trans (b := execDutyStep _) rfl (onEvent_some rfl rfl)

theorem happens_thermalTrip : Does .thermalTrip s tripped :=
  Eq.trans (b := execThermalTrip _) rfl (onEvent_some rfl rfl)

end Rows

/-! ### Self-tests and the link (R536, R538) -/

section Tests

variable (s : State)

theorem station_tested (st : Nat) (pass : Bool) (boot : s.boot = .selftest) (lt : st < 256) (new : s.tested.contains st = false) :
    Does (.stationSelftestDone st pass) s fun s => testsDone (if pass then { s with tested := s.tested ++ [st] } else
      modStn { s with tested := s.tested ++ [st] } st fun x => { x with outOfService := true }) := by
  refine does_of_eq (happens_stationSelftestDone s st pass) (if_neg ?_)
  rintro (other | high | old)
  · exact other boot
  · omega
  · exact Bool.eq_false_iff.1 new old

theorem stack_trained (n : Nat) (bad : List Nat) (boot : s.boot = .selftest) (lt : n < 8) (new : s.trained.contains n = false) :
    (Does (.lmTrainingDone n true bad) s fun s =>
      testsDone { s with trained := s.trained ++ [n], retired := vset s.retired n (vget s.retired n ++ bad) }) ∧
    Does (.lmTrainingDone n false bad) s fun s => haltDies { s with boot := .lmfail, pins := { s.pins with faultN := false } } := by
  have go : ¬ (s.boot ≠ .selftest ∨ 8 ≤ n ∨ s.trained.contains n = true) := by
    rintro (other | high | old)
    · exact other boot
    · omega
    · exact Bool.eq_false_iff.1 new old
  exact ⟨does_of_eq (happens_lmTrainingDone s n true bad) ((if_neg go).trans rfl),
    does_of_eq (happens_lmTrainingDone s n false bad) ((if_neg go).trans rfl)⟩

theorem link_trained (live : s.live = true) (boot : s.boot = .link ∨ s.boot = .ready) :
    Does .linkTrained s fun s => { s with linkUp := true, boot := .ready } := by
  refine does_of_eq (happens_linkTrained s) (if_pos ?_)
  rcases boot with boot | boot
  · simp [live, boot]
  · simp [live, boot]

end Tests

/-! ### Power (R539) -/

section Power

variable (s : State)

/-- Measurements of the agenda. -/
def isSample : Event → Bool
  | .powerSample _ => true
  | _ => false

theorem power_sampled (mw : Nat) : Does (.powerSample mw) s fun s =>
    later { s with power := (mw :: s.power).take 100, agenda := s.agenda.filter fun e => match e.2 with | .powerSample _ => false | _ => true }
      3600 (.powerSample (Config.modulePower (s.time + 3600))) := by
  have kept : (fun e : Nat × Event => !isSample e.2) = fun e => match e.2 with | .powerSample _ => false | _ => true := by
    funext e
    obtain ⟨-, e⟩ := e
    cases e <;> rfl
  have row : Does (.powerSample mw) s fun s =>
      later { s with power := (mw :: s.power).take 100, agenda := s.agenda.filter fun e => !isSample e.2 }
        3600 (.powerSample (Config.modulePower (s.time + 3600))) := happens_powerSample s mw
  exact kept ▸ row

/-- The entry of a key in a map whose entries are all changed, by their keys too. -/
theorem kget_map_key {α : Type} (f : Nat → α → α) (m : KMap α) (i : Nat) :
    kget (m.map fun e => (e.1, f e.1 e.2)) i = (kget m i).map (f i) := by
  induction m with
  | nil => rfl
  | cons e m ih =>
    simp only [List.map_cons, kget, ih]
    split
    · next h => simp_all
    · rfl

/-- A partition with the duty that f gives it while it runs. -/
def withDuty (f : Nat → Partition → Nat) (pn : Nat) (p : Partition) : Partition := if p.st = .running then { p with duty := f pn p } else p

theorem kget_modDuties (f : Nat → Partition → Nat) (pn : Nat) : kget (modDuties s f).parts pn = (kget s.parts pn).map (withDuty f pn) := by
  have each : (modDuties s f).parts = s.parts.map fun e => (e.1, withDuty f e.1 e.2) := by
    refine List.map_congr_left fun e _ => ?_
    unfold withDuty
    split <;> rfl
  rw [each, kget_map_key]

/-- The duty of a partition after a step of the duties. -/
def stepped (s : State) (pn : Nat) (p : Partition) : Nat :=
  let floor := s.parts.all fun e => e.2.st != .running || e.2.timed || e.2.duty == 1
  let high := powerAbove s 2600000
  let low := powerBelow s 2500000
  if p.timed then
    if !overPower s pn p then 16 else if high && floor then max 1 (p.duty - 1) else if low then min 16 (p.duty + 1) else p.duty
  else if high then max 1 (p.duty - 1) else if low then min 16 (p.duty + 1) else p.duty

theorem dutyStep_eq : dutyStep s = later (modDuties s (stepped s)) 36000 .dutyStep := rfl

theorem stepped_of_timed {pn : Nat} {p : Partition} (h : p.timed = true) (under : overPower s pn p = false) : stepped s pn p = 16 := by
  simp only [stepped, h, under, if_true, Bool.not_false]

theorem stepped_of_untimed {pn : Nat} {p : Partition} (h : p.timed = false) : stepped s pn p =
    if powerAbove s 2600000 then max 1 (p.duty - 1) else if powerBelow s 2500000 then min 16 (p.duty + 1) else p.duty := by
  simp only [stepped, h, Bool.false_eq_true, if_false]

theorem duty_stepped : ∃ u, Happens .dutyStep s u ∧ (s.time + 36000, Event.dutyStep) ∈ u.agenda ∧ ∀ pn p, kget s.parts pn = some p →
    let d := ((kget u.parts pn).getD {}).duty
    (p.st ≠ .running → d = p.duty) ∧ (p.st = .running → p.timed = false →
      (powerAbove s 2600000 = true → d = max 1 (p.duty - 1)) ∧
      (powerAbove s 2600000 = false → powerBelow s 2500000 = true → d = min 16 (p.duty + 1)) ∧
      (powerAbove s 2600000 = false → powerBelow s 2500000 = false → d = p.duty)) ∧
    (p.st = .running → p.timed = true → overPower s pn p = false → d = 16) := by
  refine ⟨_, happens_of_eq (happens_dutyStep s) (dutyStep_eq _), List.mem_append_right _ (List.mem_singleton.2 rfl), fun pn p hp => ?_⟩
  intro d
  have known : d = (withDuty (stepped s) pn p).duty := by
    have there := kget_modDuties s (stepped s) pn
    rw [hp] at there
    exact congrArg (fun o : Option Partition => (o.getD {}).duty) there
  rw [known]
  refine ⟨fun idle => ?_, fun run untimed => ?_, fun run timed under => ?_⟩
  · rw [withDuty, if_neg idle]
  · rw [withDuty, if_pos run]
    have duty := stepped_of_untimed s (pn := pn) untimed
    exact ⟨fun high => by simp [duty, high], fun high low => by simp [duty, high, low], fun high low => by simp [duty, high, low]⟩
  · rw [withDuty, if_pos run]
    exact stepped_of_timed s timed under

end Power

/-! ### RESET_N (R541) -/

section Reset

variable (s : State)

theorem wbuf_inReset : (inReset s).wbuf = [.clear (2 ^ 46) (2 ^ 64), .clear 0 (2 ^ 45)] := rfl

/-- Of the memory, that of the hosts stays alone. -/
theorem mget_inReset (t : State) (a : Nat) : mget (settle t (inReset s)).mem a =
    if 2 ^ 46 ≤ a ∧ a < 2 ^ 46 + 2 ^ 64 then 0 else if 0 ≤ a ∧ a < 0 + 2 ^ 45 then 0 else mget t.mem a := by
  have cleared : (settle t (inReset s)).mem = mclear (mclear t.mem 0 (2 ^ 45)) (2 ^ 46) (2 ^ 64) := by
    simp only [settle, wbuf_inReset, List.foldr_cons, List.foldr_nil, applyMem]
  rw [cleared, mget_mclear, mget_mclear]

theorem agenda_inReset : (inReset s).agenda = (s.agenda.filter fun e => outsideInput e.2).map fun e => (e.1 - s.time, e.2) := rfl

theorem reset_asserted : ∃ u, Happens .resetAssert s u ∧ u.live = false ∧ u.boot = .fwload ∧ u.bootSlot = 0 ∧ u.parts = [] ∧
    u.sessions = [] ∧ u.threads = [] ∧ u.stations = [] ∧ u.elems = [] ∧ u.linkUp = false ∧ u.pins = { pwrgood := s.pins.pwrgood } ∧
    u.domain = State.reset.domain ∧
    (∀ a, a < 2 ^ 45 ∨ 2 ^ 46 ≤ a ∧ a < 2 ^ 64 → mget (settle s u).mem a = 0) ∧
    (∀ a, 2 ^ 45 ≤ a → a < 2 ^ 46 → mget (settle s u).mem a = mget s.mem a) ∧
    (∀ x ∈ s.agenda, outsideInput x.2 = true → (x.1 - s.time, x.2) ∈ u.agenda) ∧ ∀ x ∈ u.agenda, outsideInput x.2 = true := by
  refine ⟨_, happens_resetAssert s, rfl, rfl, rfl, rfl, rfl, rfl, rfl, rfl, rfl, rfl, rfl, fun a ha => ?_, fun a lo hi => ?_,
    fun x hx outside => ?_, fun x hx => ?_⟩
  · rw [mget_inReset]
    split
    · rfl
    · exact if_pos (by omega)
  · rw [mget_inReset, if_neg (by omega), if_neg (by omega)]
  · rw [agenda_inReset]
    exact List.mem_map_of_mem (f := fun e : Nat × Event => (e.1 - s.time, e.2)) (List.mem_filter.2 ⟨hx, outside⟩)
  · rw [agenda_inReset] at hx
    obtain ⟨y, hy, rfl⟩ := List.mem_map.1 hx
    exact (List.mem_filter.1 hy).2

end Reset

/-! ### Firmware (R473, R535) -/

section Firmware

variable (s : State) (f : Frame)

/-- The dies released, before their tests are planned. -/
def begun : State := later (Machine.measure { s with
  mf := BitVec.ofNat 512 (leNat (Config.shake256 (f.take (256 + field f 8 4)) 64)), live := true, boot := .selftest, time := 0, cursor := 256
  agenda := s.agenda.map fun e => (e.1 - s.time, e.2) }) 36000 .dutyStep

/-- A station's first heartbeat and its test are planned. -/
def stationTurn (s : State) (st : Nat) : State :=
  let d := draw (later s 36000 (.heartbeat (stationAgent st))) 2
  later d.2 (2 ^ 22) (.stationSelftestDone st (d.1 == 0))

/-- A stack's training and test are planned. -/
def stackTurn (s : State) (n : Nat) : State :=
  let d := draw s 2
  later d.2 180000000 (.lmTrainingDone n (d.1 == 0) (Config.failedPages n))

theorem startImage_eq : startImage s f = (List.range 8).foldl stackTurn ((List.range 256).foldl stationTurn (begun s f)) := rfl

/-- What planning leaves as it is. -/
def started (s : State) : Bool × Boot × Nat × BitVec 512 := (s.live, s.boot, s.time, s.mf)

/-- Planning takes nothing from the agenda, and nothing of what has started. -/
structure Plans (k : State → Nat → State) : Prop where
  started : ∀ s n, BoardTurns.started (k s n) = BoardTurns.started s
  agenda : ∀ s n, ∀ x ∈ s.agenda, x ∈ (k s n).agenda

theorem plans_stationTurn : Plans stationTurn :=
  ⟨fun _ _ => rfl, fun _ _ _ h => List.mem_append_left _ (List.mem_append_left _ h)⟩

theorem plans_stackTurn : Plans stackTurn := ⟨fun _ _ => rfl, fun _ _ _ h => List.mem_append_left _ h⟩

variable {k : State → Nat → State} (hk : Plans k)
include hk

theorem Plans.started_foldl (l : List Nat) : BoardTurns.started (l.foldl k s) = BoardTurns.started s := by
  induction l generalizing s with
  | nil => rfl
  | cons n l ih => exact (ih _).trans (hk.started s n)

theorem Plans.agenda_foldl (l : List Nat) {x : Nat × Event} (h : x ∈ s.agenda) : x ∈ (l.foldl k s).agenda := by
  induction l generalizing s with
  | nil => exact h
  | cons n l ih => exact ih _ (hk.agenda s n x h)

omit hk

/-- What is planned n cycles after cycle 0 is due at cycle n. -/
theorem mem_later_zero (n : Nat) (e : Event) (zero : s.time = 0) : (n, e) ∈ (later s n e).agenda := by
  refine List.mem_append_right _ (List.mem_singleton.2 ?_)
  rw [zero, Nat.zero_add]

theorem heartbeat_foldl (l : List Nat) {st : Nat} (h : st ∈ l) (zero : s.time = 0) :
    (36000, Event.heartbeat (256 + st)) ∈ (l.foldl stationTurn s).agenda := by
  induction l generalizing s with
  | nil => cases h
  | cons n l ih =>
    rcases List.mem_cons.1 h with rfl | h
    · exact plans_stationTurn.agenda_foldl _ l (List.mem_append_left _ (mem_later_zero s _ _ zero))
    · exact ih _ h zero

/-- The image runs from cycle 0, with the first duty step and the heartbeats of the stations to come. -/
theorem startImage_starts : started (startImage s f) =
      (true, .selftest, 0, BitVec.ofNat 512 (leNat (Config.shake256 (f.take (256 + field f 8 4)) 64))) ∧
    (36000, Event.dutyStep) ∈ (startImage s f).agenda ∧ ∀ st, st < 256 → (36000, Event.heartbeat (256 + st)) ∈ (startImage s f).agenda := by
  rw [startImage_eq]
  refine ⟨(plans_stackTurn.started_foldl _ _).trans (plans_stationTurn.started_foldl _ _), ?_, fun st lt => ?_⟩
  · exact plans_stackTurn.agenda_foldl _ _ (plans_stationTurn.agenda_foldl _ _ (mem_later_zero _ _ _ rfl))
  · exact plans_stackTurn.agenda_foldl _ _ (heartbeat_foldl _ _ (List.mem_range.2 lt) rfl)

theorem firmware_verified (power : s.pins.pwrgood = true) (high : s.pins.resetN = true) (boot : s.boot = .fwload) (dead : s.live = false)
    (cool : s.halted = false) :
    (imageGood f = true → ∃ u, Happens (.firmwareVerified f) s u ∧ u.live = true ∧ u.boot = .selftest ∧ u.time = 0 ∧
      u.mf = BitVec.ofNat 512 (leNat (Config.shake256 (f.take (256 + field f 8 4)) 64)) ∧ (36000, Event.dutyStep) ∈ u.agenda ∧
      ∀ st, st < 256 → (36000, Event.heartbeat (256 + st)) ∈ u.agenda) ∧
    (imageGood f = false → (s.bootSlot = 0 → Does (.firmwareVerified f) s fun s => { s with bootSlot := 1 }) ∧
      (s.bootSlot ≠ 0 → Does (.firmwareVerified f) s fun s => { s with boot := .fwfail, pins := { s.pins with faultN := false } })) := by
  have go : ¬ (!(s.pins.pwrgood && s.pins.resetN && s.boot == .fwload && !s.live && !s.halted)) = true := by
    simp [power, high, boot, dead, cool]
  have row := happens_firmwareVerified s f
  refine ⟨fun good => ?_, fun bad => ⟨fun first => does_of_eq row ?_, fun second => does_of_eq row ?_⟩⟩
  · obtain ⟨same, duty, hearts⟩ := startImage_starts { s with hand := .event (.firmwareVerified f) } f
    simp only [started, Prod.mk.injEq] at same
    obtain ⟨live, boot, time, mf⟩ := same
    exact ⟨_, happens_of_eq row ((if_neg go).trans (if_pos good)), live, boot, time, mf, duty, hearts⟩
  · exact (if_neg go).trans ((if_neg (Bool.eq_false_iff.1 bad)).trans (if_pos first))
  · exact (if_neg go).trans ((if_neg (Bool.eq_false_iff.1 bad)).trans (if_neg second))

end Firmware

/-! ### The thermal trip (R540) -/

section Trip

variable (s : State)

theorem mem_of_kget {α : Type} {m : KMap α} {i : Nat} {a : α} (h : kget m i = some a) : (i, a) ∈ m := by
  induction m with
  | nil => cases h
  | cons e m ih =>
    rw [kget] at h
    split at h
    · next same =>
      cases h
      exact same ▸ List.mem_cons_self
    · exact List.mem_cons_of_mem _ (ih h)

/-- A partition that runs is among those that run. -/
theorem mem_partsWhere_of_running {pn : Nat} (h : (part s pn).st = .running) : pn ∈ partsWhere s fun _ => true := by
  unfold part at h
  cases hp : kget s.parts pn with
  | none =>
    rw [hp] at h
    cases h
  | some p =>
    rw [hp] at h
    refine List.mem_map.2 ⟨(pn, p), List.mem_filter.2 ⟨mem_of_kget hp, ?_⟩, rfl⟩
    simpa using h

/-- STOP leaves the pins, and lets every other partition run or not as before. -/
theorem stopPart_running (pn : Nat) : (stopPart s pn).pins = s.pins ∧
    ∀ q, (part (stopPart s pn) q).st = .running → q ≠ pn ∧ (part s q).st = .running := by
  by_cases run : (part s pn).st = .running
  · obtain ⟨t, before, after⟩ := stopPart_of_running s pn run
    obtain ⟨pins, parts⟩ := face_eq_iff.1 before
    obtain ⟨pins', parts'⟩ := face_eq_iff.1 (after standing)
    refine ⟨pins'.trans pins, fun q hq => ?_⟩
    have here := congrArg Prod.fst (parts' q)
    by_cases e : q = pn
    · subst e
      rw [part_modPart] at here
      exact nomatch show PState.stopped = .running from here.symm.trans hq
    · rw [part_modPart_other t stopped (Ne.symm e)] at here
      exact ⟨e, ((congrArg Prod.fst (parts q)).symm.trans here.symm).trans hq⟩
  · rw [show stopPart s pn = s from if_pos run]
    exact ⟨rfl, fun q hq => ⟨fun e => run (e ▸ hq), hq⟩⟩

theorem foldl_stopPart (l : List Nat) : (l.foldl stopPart s).pins = s.pins ∧
    ∀ q, (part (l.foldl stopPart s) q).st = .running → q ∉ l ∧ (part s q).st = .running := by
  induction l generalizing s with
  | nil => exact ⟨rfl, fun q h => ⟨List.not_mem_nil, h⟩⟩
  | cons pn l ih =>
    obtain ⟨pins, parts⟩ := stopPart_running s pn
    obtain ⟨pins', parts'⟩ := ih (stopPart s pn)
    refine ⟨pins'.trans pins, fun q h => ?_⟩
    obtain ⟨out, run⟩ := parts' q h
    obtain ⟨ne, was⟩ := parts q run
    exact ⟨fun mem => (List.mem_cons.1 mem).elim ne out, was⟩

theorem thermal_tripped : ∃ u, Happens .thermalTrip s u ∧ u.halted = true ∧ u.live = false ∧ u.pins.thermtripN = false ∧
    (∀ pn, (part u pn).st ≠ .running) ∧ ∀ x ∈ u.agenda, boardInput x.2 = true := by
  let hot : State := { s with hand := .event .thermalTrip, pins := { s.pins with thermtripN := false } }
  let pns := partsWhere hot fun _ => true
  obtain ⟨pins, parts⟩ := foldl_stopPart hot pns
  have ended (l : List (Nat × Thread)) (t : State) : face standing (l.foldl (fun s e => endNow s e.2) t) = face standing t :=
    face_foldl (fun s e => standing_endNow s e.2) l t
  obtain ⟨pins', parts'⟩ := face_eq_iff.1 (ended ((pns.foldl stopPart hot).threads.filter fun e => pns.contains (tidPart e.2.tid))
    (pns.foldl stopPart hot))
  refine ⟨_, happens_thermalTrip s, rfl, rfl, ?_, fun pn run => ?_, fun x hx => (List.mem_filter.1 hx).2⟩
  · exact congrArg Pins.thermtripN (pins'.trans pins)
  · obtain ⟨out, was⟩ := parts pn ((congrArg Prod.fst (parts' pn)).symm.trans run)
    exact out (mem_partsWhere_of_running hot was)

end Trip

/-- What the board does in its own time. -/
theorem boardEvents : BoardEvents := fun s =>
  ⟨happens_pwrgood s, happens_pwrgoodDeassert s, happens_resetRelease s, reset_asserted s, firmware_verified s, station_tested s,
    stack_trained s, link_trained s, happens_linkLoss s, power_sampled s, duty_stepped s, thermal_tripped s⟩

end Sys2Proof.BoardTurns

namespace Sys2Proof.DeviceTurns

open Sys2Proof

/-- Settles O57: each row unfolds to what its function of the model does; STOP, COMMIT and the thermal trip rest on what of a partition
stands while everything under way in it ends. -/
theorem partitionAndDeviceEvents : Obligations.PartitionAndDeviceEvents :=
  ⟨PartitionTurns.partitionEvents, LockstepTurns.lockstepEvents, AgentTurns.agentEvents, BoardTurns.boardEvents⟩

end Sys2Proof.DeviceTurns

namespace Sys2Proof.StrayThreads

open Sys2Proof Machine Laws

/-! ### An access that loses its thread (R327, R416, R457) -/

/-- An access does not issue as it should where its thread has then nothing outstanding. -/
theorem not_issues_of_lost {i : Instr} {s : State} {th : Thread} {a : Access}
    (lost : (getThr (issueAccess s (nextPc th) th.pc a none) th.tid).map outstanding = some false) : ¬ Issues i s th a := by
  rintro ⟨gives, t, u, next, found, -, -, -, -, out, -⟩
  obtain rfl := Host.Outcome.next.inj (gives.symm.trans next)
  rw [getThr_settle] at found
  rw [found, Option.map_some, out] at lost
  cases lost

/-- A segment of 64 bytes from address 0 on that can be read. -/
def readable : Seg := { desc := BitVec.ofNat 128 (2 ^ 112 + 2 ^ 70) }

/-- Thread 1, in its slot, with a store still in a combining sector. -/
def loader : Thread := { tid := 1, st := .running 0, k1 := 1, seg := Vector.replicate 8 readable }

/-- A load of thread 1 first sends the combining sector of the line (R327). The sector's translation is cached without D, and sets it in
the leaf entry (R457, R459): a write of a line on which the thread under number 2 has a monitor (R416). That thread calls itself 1. -/
def strayed : State := { State.reset with
  cursor := 0
  stations := [(0, { slots := vset (Vector.replicate 16 none) 0 (some 1)
                     comb := [{ part := 0, line := 0, data := 0, mask := 1, first := 0, ops := [(1, 0, 0)] }] })]
  clusters := [(0, { tlb := [{ part := 0, vpn := 0, size := 12, leaf := 4, entry := 2 ^ 20 }] })]
  threads := [(1, loader), (2, { tid := 1 })]
  arms := [{ line := 2 ^ 12, tid := 2, n := 0, home := 0 }] }

theorem ready_loader : Ready strayed false loader := ⟨by decide +kernel, rfl, fun h => absurd h (by decide)⟩

theorem noStreams_loader : NoStreams strayed loader := ⟨rfl, rfl, fun cons _ => by cases cons <;> rfl⟩

/-- Thread 1 may read at offset 0. -/
theorem admits_loader {z : Nat} (hz : z ≤ 64) : Admits strayed (tidPart loader.tid) (rseg loader 0) 0 z true false where
  aligned := Nat.zero_mod z
  rights := ⟨fun _ => by decide, fun h => absurd h (by decide)⟩
  buffer h := absurd h (by decide)
  limit := ⟨Nat.le_trans (by omega) (by decide : 64 ≤ (rseg loader 0).limit), by decide⟩

/-- Refutes O31 in the clause of LDD (R360): the statement does not say that each thread stands under its own number. Where the thread under
number 2 calls itself 1 and has armed a monitor on the line of a page-table entry, the load of thread 1 that sets the entry's D bit triggers
that monitor and puts the thread back under number 1, over the one that loads, and no operation is outstanding there. -/
theorem not_scalarAccessesIssue : ¬ Obligations.ScalarAccessesIssue := by
  rintro ⟨loads, -⟩
  obtain ⟨-, -, -, ⟨issues, -⟩, -⟩ := loads strayed false loader 0 0 0 0 ready_loader
  exact not_issues_of_lost (by decide +kernel) (issues (admits_loader (by decide)) (by decide))

/-- Refutes O32 in the clause of VLD (R363), for the same reason as O31: the load of one lane loses its thread. -/
theorem not_vectorLoadsAndStores : ¬ Obligations.VectorLoadsAndStores := by
  intro vectors
  obtain ⟨⟨issues, -⟩, -⟩ := vectors strayed strayed false loader 0 0 0 1 false 0 0 0 (rv loader) ready_loader
  have lanes : enabled false (rk loader 1) = [0] := by decide
  have admitted : ∀ n ∈ enabled false (rk loader 1), Admits strayed (tidPart loader.tid) (rseg loader 0)
      (rg loader 0 + (0 : BitVec 8).signExtend 64 * 64 + BitVec.ofNat 64 (n * 4)).toNat 4 true false := by
    intro n hn
    rw [lanes, List.mem_singleton] at hn
    rw [hn]
    exact admits_loader (by decide)
  obtain ⟨-, issued⟩ := issues admitted (by decide)
  exact not_issues_of_lost (by decide +kernel) (issued noStreams_loader)

end Sys2Proof.StrayThreads

namespace Sys2Proof.CheckedCommands

open Sys2Proof Machine Laws

/-- What a command comes to that goes on to u unless a check of it fails. -/
def sentUnless (th : Thread) (u : State) : Option Byte → Res
  | some e => .error (trapOp th e)
  | none => .ok u

/-- A command traps with its first failing check, and goes on where none fails. -/
theorem gives_sentUnless {s : State} {w : Bool} {th : Thread} {i : Instr} {fault : State → Thread → Option Byte} {u : State → Thread → State}
    (h : Ready s w th) (hi : exec i s = issue w s fun s th => sentUnless th (u s th) (fault s th)) :
    (∀ e, fault s th = some e → Gives i s (trapState s th e 0 2)) ∧ (fault s th = none → Gives i s (u s th)) :=
  ⟨fun e fails => gives_err (t := trapOp th e) h hi (congrArg (sentUnless th (u s th)) fails),
    fun passes => gives_ok h hi (congrArg (sentUnless th (u s th)) passes)⟩

end Sys2Proof.CheckedCommands

namespace Sys2Proof.CopyCommands

open Sys2Proof Machine Laws CheckedCommands

/-! ### The checks of a copy command (R381, R382) -/

section

variable {s : State} {st : Nat} {c : CopyCmd}

/-- A side that an admitted command names in the tile file stays within one slot. -/
theorem leaves_of_admitted (h : CopyAdmitted s st c) (tile : c.tile = true) {dst : Bool} (slot : (c.seg s st (b2n dst)).type = 2) :
    c.leaves dst = false := by
  obtain ⟨-, inside⟩ := h.slots tile
  cases hi : c.idxSide dst with
  | true => simp only [CopyCmd.leaves, hi, Bool.not_true, Bool.false_and]
  | false =>
    obtain ⟨low, high⟩ := inside dst slot hi
    simp only [CopyCmd.leaves, hi, Bool.not_false, Bool.true_and, decide_eq_false_iff_not, not_or, Int.not_lt]
    omega

/-- The strides of a command, of its indices or of both its sides, are multiples of n. -/
theorem strides_of_multiples {n : Nat} (index : c.indexed = true → bits (c.w 4) 31 0 % n = 0)
    (sides : c.indexed = false → ∀ dst k, k < 4 → c.stride dst k % n = 0) :
    (if c.indexed then bits (c.w 4) 31 0 % n != 0
      else (List.range 4).any fun k => c.stride false k % n != 0 || c.stride true k % n != 0) = false := by
  cases hx : c.indexed with
  | true => rw [if_pos rfl, index hx, bne_self_eq_false]
  | false =>
    rw [if_neg Bool.false_ne_true, List.any_eq_false]
    intro k hk
    have inside := List.mem_range.mp hk
    rw [sides hx false k inside, sides hx true k inside]
    decide

theorem copyIllegal_of_admitted (h : CopyAdmitted s st c) : copyIllegal s st c = false := by
  obtain ⟨w0, w0low, scatter, w1, w7, noTile⟩ := h.reserved
  obtain ⟨size, count⟩ := h.sizes
  simp only [copyIllegal, Bool.or_eq_false_iff, Bool.and_eq_false_imp, Bool.or_eq_true, Bool.and_eq_true, Bool.not_eq_true',
    bne_iff_ne, bne_eq_false_iff_eq, beq_eq_false_iff_ne, beq_iff_eq, decide_eq_false_iff_not, Nat.not_le, and_assoc, or_assoc]
  refine ⟨w0, w0low, scatter, w1, w7, noTile, fun hx => ?_, size, count, fun b => ?_, fun tile => ?_⟩
  · obtain ⟨w2, w3, w4, w5, w6, some_⟩ := h.indices hx
    exact ⟨w2, w3, w4, w5, w6, Nat.ne_of_gt some_⟩
  · obtain ⟨wide, src, dst, tile, index, sides⟩ := h.bstore b
    exact ⟨fun _ => by omega, src, dst, tile, strides_of_multiples (n := 16) index sides⟩
  · obtain ⟨one, -⟩ := h.slots tile
    refine ⟨?_, leaves_of_admitted h tile (dst := false), leaves_of_admitted h tile (dst := true)⟩
    intro same
    have both : (c.seg s st 0).type = 2 ↔ (c.seg s st 1).type = 2 := by rw [← beq_iff_eq, same, beq_iff_eq]
    tauto

theorem copyRights_of_admitted (h : CopyAdmitted s st c) : copyRights s st c = false := by
  obtain ⟨src, dst, read, write, index⟩ := h.rights
  simp only [copyRights, Bool.or_eq_false_iff, Bool.and_eq_false_imp, Bool.not_eq_false', bne_iff_ne, and_assoc]
  exact ⟨src, dst, read, write, index⟩

theorem copyAlign_of_admitted (h : CopyAdmitted s st c) : copyAlign c = false := by
  obtain ⟨src, dst, places, index, sides⟩ := h.aligned
  simp only [copyAlign, src, dst, strides_of_multiples index sides, bne_self_eq_false, Bool.false_or, Bool.or_false,
    Bool.and_eq_false_imp, bne_eq_false_iff_eq]
  exact places

theorem copyLimit_of_admitted (h : CopyAdmitted s st c) : copyLimit s st c = false := by
  obtain ⟨sides, index⟩ := h.limits
  have inside (dst : Bool) : (!(c.idxSide dst) && decide ((c.range dst).1 < 0 ∨
      (sideLimit s c.part (c.seg s st (b2n dst)) : Int) < (c.range dst).2)) = false := by
    rw [Bool.and_eq_false_imp, Bool.not_eq_true', decide_eq_false_iff_not, not_or, Int.not_lt, Int.not_lt]
    exact sides dst
  have indices : (c.memIndex && decide ((c.seg s st 2).limit < bits (c.w 2) 39 0 + 4 * bits (c.w 3) 39 0)) = false := by
    rw [Bool.and_eq_false_imp, decide_eq_false_iff_not, Nat.not_lt]
    exact index
  simp only [copyLimit, Bool.or_eq_false_iff]
  exact ⟨⟨inside false, inside true⟩, indices⟩

/-- What R381 and R382 accept meets none of their checks. -/
theorem copyFault_of_admitted (h : CopyAdmitted s st c) : copyFault s st c = none := by
  rw [copyFault, copyIllegal_of_admitted h, copyRights_of_admitted h, copyAlign_of_admitted h, copyLimit_of_admitted h]
  rfl

end

variable {s : State} {w : Bool} {th : Thread} {d a : BitVec 5} {c : BitVec 3}

/-! ### CPY and CPYX (R379, R380, R382) -/

/-- The serial that the next command of channel c takes. -/
def nextSerial (s : State) (th : Thread) (c : BitVec 3) : Half := vget (stn s th.station).serials c.toNat + 1

/-- The command in the eight registers from g[a] on. -/
def cmdAt (s : State) (th : Thread) (a : BitVec 5) (c : BitVec 3) (ix : Bool) : CopyCmd :=
  { serial := nextSerial s th c, indexed := ix, words := (List.range 8).map fun i => rgN th (a.toNat + i), issuer := th.tid,
    part := tidPart th.tid }

/-- A command behind those of its channel, which starts where it is the head. -/
def enqueued (s : State) (th : Thread) (c : BitVec 3) (k : CopyCmd) : State :=
  chanNext (modChan (modStn s th.station fun x => { x with serials := vset x.serials c.toNat (nextSerial s th c) }) th.station c.toNat
    fun h => { h with queue := h.queue ++ [k] }) th.station c.toNat

/-- The state behind CPY and CPYX, with the serial of the command k in g[d]. -/
def copySent (s : State) (th : Thread) (d : BitVec 5) (c : BitVec 3) (k : CopyCmd) : State :=
  setThr (enqueued s th c k) (nextPc (wg th d ((nextSerial s th c).setWidth 64)))

theorem copyOp_eq (ix : Bool) : copyOp w ix d a c s = issue w s fun s th =>
    sentUnless th (copySent s th d c (cmdAt s th a c ix)) (copyFault s th.station (cmdAt s th a c ix)) := by
  refine congrArg (issue w s) ?_
  funext s th
  simp only [cmdAt, nextSerial]
  split <;> (next fails => rw [fails]; rfl)

/-- A copy command traps with its first failing check, and a legal one joins its channel. -/
theorem sends_copyOp {i : Instr} {ix : Bool} (h : Ready s w th) (hi : exec i s = copyOp w ix d a c s) :
    (∀ e, copyFault s th.station (cmdAt s th a c ix) = some e → Gives i s (trapState s th e 0 2)) ∧
    (CopyAdmitted s th.station (cmdAt s th a c ix) → Gives i s (copySent s th d c (cmdAt s th a c ix))) := by
  obtain ⟨traps, goes⟩ := gives_sentUnless h (hi.trans (copyOp_eq ix))
  exact ⟨traps, fun legal => goes (copyFault_of_admitted legal)⟩

/-! ### STRBIND (R386) -/

/-- Port c of the thread's station has its two ends, which are told, and the thread goes on. -/
def portBound (s : State) (th : Thread) (c : BitVec 3) (y z : PEnd) : State :=
  setThr (touchPort (modPort s th.station c.toNat fun q => { q with prod := some y, cons := some z }) th.station c.toNat) (nextPc th)

theorem portAt_portBound (s : State) (th : Thread) (c : BitVec 3) (y z : PEnd) :
    portAt (portBound s th c y z) th.station c.toNat = { portAt s th.station c.toNat with prod := some y, cons := some z } := by
  have port : portAt (modPort s th.station c.toNat fun q => { q with prod := some y, cons := some z }) th.station c.toNat =
      { portAt s th.station c.toNat with prod := some y, cons := some z } := by
    rw [portAt, modPort, stn_modStn]
    exact VectorRegisterFile.vget_vset _ _ c.isLt
  exact port

/-- What STRBIND comes to with the ends that its operand names. -/
def bindRes (s : State) (th : Thread) (c : BitVec 3) : Option PEnd → Option PEnd → Res
  | some y, some z =>
    if (portAt s th.station c.toNat).prod.isSome || (portAt s th.station c.toNat).cons.isSome || endTaken s th false y ||
        endTaken s th true z then .error (trapOp th 0x14)
    else .ok (portBound s th c y z)
  | _, _ => .error (trapOp th 0x14)

theorem exec_strbind : exec (.strbind w a c) s = issue w s fun s th =>
    bindRes s th c (bindEnd th (bits (rg th a).toNat 7 0) false) (bindEnd th (bits (rg th a).toNat 15 8) true) := by
  refine Eq.trans (b := execStrbind w a c s) rfl (congrArg (issue w s) ?_)
  funext s th
  simp only
  cases bindEnd th (bits (rg th a).toNat 7 0) false <;> cases bindEnd th (bits (rg th a).toNat 15 8) true <;> rfl

theorem bindRes_of_none {x y : Option PEnd} (h : x = none ∨ y = none) : bindRes s th c x y = .error (trapOp th 0x14) := by
  rcases h with rfl | rfl
  · rfl
  · cases x <;> rfl

theorem bindRes_taken {y z : PEnd} (h : (portAt s th.station c.toNat).prod.isSome = true ∨
      (portAt s th.station c.toNat).cons.isSome = true ∨ endTaken s th false y = true ∨ endTaken s th true z = true) :
    bindRes s th c (some y) (some z) = .error (trapOp th 0x14) :=
  if_pos (by simpa only [Bool.or_eq_true, or_assoc] using h)

theorem bindRes_free {y z : PEnd} (prod : (portAt s th.station c.toNat).prod = none) (cons : (portAt s th.station c.toNat).cons = none)
    (hy : endTaken s th false y = false) (hz : endTaken s th true z = false) :
    bindRes s th c (some y) (some z) = .ok (portBound s th c y z) :=
  if_neg (by simp only [prod, cons, hy, hz]; decide)

/-- Where no port of the station has an end, none is taken. -/
theorem endTaken_of_unbound (h : ∀ e, e < 8 → (portAt s th.station e).prod = none ∧ (portAt s th.station e).cons = none) (cons : Bool)
    (y : PEnd) : endTaken s th cons y = false := by
  have free (k i : Nat) (t : Word) : portOf s th.station cons k i t = none := by
    rw [portOf, List.find?_eq_none]
    intro e he
    obtain ⟨prod, cons_⟩ := h e (List.mem_range.mp he)
    cases cons <;> simp [prod, cons_]
  rw [endTaken, free, Option.isSome_none, Bool.and_false]

/-- What the statement asks of a byte that names an end: a kind below a bound, and an index that the kind has (R386). -/
structure NamesEnd (b kinds : Nat) : Prop where
  kind : b / 16 < kinds
  register : b / 16 = 0 → 12 ≤ b % 16
  channel : b / 16 = 1 → b % 16 < 8
  array : b / 16 = 2 → b % 16 = 0
  generator : b / 16 = 3 → b % 16 < 2

theorem bindEnd_of_namesEnd {b : Nat} {cons : Bool} (byte : b < 256) (h : NamesEnd b (if cons then 3 else 4)) :
    ∃ y, bindEnd th b cons = some y := by
  obtain ⟨kind, register, channel, array, generator⟩ := h
  have code : bits b 7 4 = b / 16 := by simp only [bits]; omega
  have index : bits b 3 0 = b % 16 := by simp only [bits]; omega
  have kinds : b / 16 = 0 ∨ b / 16 = 1 ∨ b / 16 = 2 ∨ (b / 16 = 3 ∧ cons = false) := by
    cases cons with
    | true =>
      have below : b / 16 < 3 := kind
      omega
    | false =>
      have below : b / 16 < 4 := kind
      simp only [and_true]
      omega
  simp only [bindEnd, code, index]
  rcases kinds with k | k | k | ⟨k, hc⟩
  · simp [k, register k]
  · simp [k, channel k]
  · simp [k, array k]
  · simp [k, generator k, hc]

theorem bits_low_byte (x : Nat) : bits x 7 0 = x % 256 := by simp [bits]
theorem bits_next_byte (x : Nat) : bits x 15 8 = x / 2 ^ 8 % 256 := rfl

/-- At a station without a bound port, STRBIND binds what its operand names. -/
theorem binds_strbind (h : Ready s w th) (hp : NamesEnd ((rg th a).toNat % 256) 4) (hy : NamesEnd ((rg th a).toNat / 2 ^ 8 % 256) 3)
    (free : ∀ e, e < 8 → (portAt s th.station e).prod = none ∧ (portAt s th.station e).cons = none) :
    ∃ t u, exec (.strbind w a c) s = .next t ∧ getThr t th.tid = some u ∧ u.pc = th.pc + 4 ∧ u.st = th.st ∧ u.g = th.g ∧
      (portAt t th.station c.toNat).prod.isSome = true ∧ (portAt t th.station c.toNat).cons.isSome = true := by
  obtain ⟨y, prod⟩ := bindEnd_of_namesEnd (th := th) (cons := false) (Nat.mod_lt _ (by decide)) hp
  obtain ⟨z, cons⟩ := bindEnd_of_namesEnd (th := th) (cons := true) (Nat.mod_lt _ (by decide)) hy
  obtain ⟨noProd, noCons⟩ := free c.toNat c.isLt
  have bound := portAt_portBound s th c y z
  refine ⟨_, nextPc th, exec_strbind.trans (issue_ok h (u := portBound s th c y z) ?_), getThr_setThr _ _, rfl, rfl, rfl, ?_, ?_⟩
  · rw [bits_low_byte, bits_next_byte, prod, cons]
    exact bindRes_free noProd noCons (endTaken_of_unbound free false y) (endTaken_of_unbound free true z)
  · exact congrArg (fun q : Port => q.prod.isSome) bound
  · exact congrArg (fun q : Port => q.cons.isSome) bound

/-! ### Copies and ports -/

theorem copiesAndPorts : CopiesAndPorts := by
  intro s w th d a c h st n cmd queued sends q x prod cons refused
  have strbind := exec_strbind (s := s) (w := w) (a := a) (c := c)
  refine ⟨sends_copyOp h (i := .cpy w d a c) (Eq.trans (b := execCpy w d a c s) rfl rfl),
    sends_copyOp h (i := .cpyx w d a c) (Eq.trans (b := execCpyx w d a c s) rfl rfl),
    gives_ok h (i := .cpywp w d a c) (Eq.trans (b := execCpywp w d a c s) rfl rfl) rfl,
    fun unnamed => gives_err h strbind (t := trapOp th 0x14) (bindRes_of_none unnamed), ?_, fun y z hy hz => ⟨fun taken => ?_,
      fun noProd noCons ty tz => ?_⟩, gives_ok h (i := .strunb w c) (Eq.trans (b := execStrunb w c s) rfl rfl) rfl⟩
  · rintro p y fits ⟨pk, p0, p1, p2, p3⟩ ⟨yk, y0, y1, y2, y3⟩ free
    exact binds_strbind h ⟨pk, p0, p1, p2, p3⟩ ⟨yk, y0, y1, y2, y3⟩ free
  · refine gives_err h strbind (t := trapOp th 0x14) ?_
    rw [show bindEnd th (bits (rg th a).toNat 7 0) false = some y from hy,
      show bindEnd th (bits (rg th a).toNat 15 8) true = some z from hz]
    exact bindRes_taken taken
  · refine gives_ok h strbind ?_
    rw [show bindEnd th (bits (rg th a).toNat 7 0) false = some y from hy,
      show bindEnd th (bits (rg th a).toNat 15 8) true = some z from hz]
    exact bindRes_free noProd noCons ty tz

end Sys2Proof.CopyCommands

namespace Sys2Proof.Collectives

open Sys2Proof Machine Laws CheckedCommands

/-! ### The checks of a collective's command (R390) -/

theorem collOp_eq (b : Nat) : collOp b = b % 4 := by simp [collOp, bits]

theorem collFmt_eq (b : Nat) : collFmt b = b / 4 % 4 := rfl

section

variable {s : State} {pn st : Nat} {bc : Bool} {ws : List DWord}

/-- What R390 accepts meets none of its checks. -/
theorem collFault_of_admitted (h : CollAdmitted s pn st bc ws) : collFault s pn st bc ws = none := by
  obtain ⟨w0, w0mid, w1, w2, w3, noRoot, code⟩ := h.reserved
  obtain ⟨op, wide, add, count⟩ := h.operation
  obtain ⟨engine, write, aligned, inside⟩ := h.destination
  have source : (!bc || isRoot s pn st (collCmd ws)) = true → _ := fun contributes => h.source (by simpa using contributes)
  have high : bits (collCmd ws).op 7 4 = 0 := by simp only [bits]; omega
  rw [collFault, if_neg, if_neg, if_neg, if_neg]
  all_goals simp only [Bool.not_eq_true, Bool.or_eq_false_iff, Bool.and_eq_false_imp, Bool.not_eq_eq_eq_not, Bool.not_true, Bool.not_false,
    bne_eq_false_iff_eq, beq_eq_false_iff_ne, beq_iff_eq, decide_eq_false_iff_not, Nat.not_lt, collOp_eq, collFmt_eq, and_assoc]
  · refine ⟨inside, fun contributes => ?_⟩
    obtain ⟨-, -, -, within⟩ := source contributes
    exact within
  · refine ⟨aligned, fun contributes => ?_⟩
    obtain ⟨-, -, whole, -⟩ := source contributes
    exact whole
  · refine ⟨engine, write, fun contributes => ?_⟩
    obtain ⟨reads, right, -⟩ := source contributes
    exact ⟨reads, right⟩
  · exact ⟨w0, w0mid, w1, w2, w3, noRoot, high, op, wide, add, count⟩

end

variable {s : State} {w : Bool} {th : Thread} {d a b : BitVec 5} {g : BitVec 3} {n : Bool} {k : BitVec 2}

/-! ### IGLOAD, IGSTART and IGSTAT (R264 to R266) -/

/-- What IGLOAD comes to at an offset of a segment. -/
def igloadRes (s : State) (th : Thread) (x : Seg) (off : DWord) (n : Bool) : Res :=
  if !x.read || !x.engine then .error (trapAt th 0x04 (vaOf x off))
  else if off.toNat % 64 ≠ 0 then .error (trapAt th 0x05 (vaOf x off))
  else if x.limit < off.toNat + 128 then .error (trapAt th 0x03 (vaOf x off))
  else .ok (igAccept (setThr s (nextPc th)) th.station (b2n n) (.load th.tid (tidPart th.tid) (vaOf x off) x))

theorem exec_igload : exec (.igload w a g n) s = issue w s fun s th => igloadRes s th (rseg th g) (rg th a) n :=
  Eq.trans (b := execIgload w a g n s) rfl rfl

section

variable {x : Seg} {off : DWord}

theorem igloadRes_rights (h : x.read = false ∨ x.engine = false) :
    igloadRes s th x off n = .error (trapAt th 0x04 (vaOf x off)) :=
  if_pos (by simpa only [Bool.or_eq_true, Bool.not_eq_true'] using h)

variable (hr : x.read = true) (he : x.engine = true)
include hr he

theorem igloadRes_of_rights : igloadRes s th x off n =
    if off.toNat % 64 ≠ 0 then .error (trapAt th 0x05 (vaOf x off))
    else if x.limit < off.toNat + 128 then .error (trapAt th 0x03 (vaOf x off))
    else .ok (igAccept (setThr s (nextPc th)) th.station (b2n n) (.load th.tid (tidPart th.tid) (vaOf x off) x)) :=
  if_neg (by rw [hr, he]; decide)

theorem igloadRes_unaligned (unaligned : off.toNat % 64 ≠ 0) : igloadRes s th x off n = .error (trapAt th 0x05 (vaOf x off)) :=
  (igloadRes_of_rights hr he).trans (if_pos unaligned)

theorem igloadRes_beyond (aligned : off.toNat % 64 = 0) (beyond : x.limit < off.toNat + 128) :
    igloadRes s th x off n = .error (trapAt th 0x03 (vaOf x off)) :=
  (igloadRes_of_rights hr he).trans ((if_neg (not_not_intro aligned)).trans (if_pos beyond))

theorem igloadRes_inside (aligned : off.toNat % 64 = 0) (inside : off.toNat + 128 ≤ x.limit) : igloadRes s th x off n =
    .ok (igAccept (setThr s (nextPc th)) th.station (b2n n) (.load th.tid (tidPart th.tid) (vaOf x off) x)) :=
  (igloadRes_of_rights hr he).trans ((if_neg (not_not_intro aligned)).trans (if_neg (Nat.not_lt.mpr inside)))

end

/-- What IGSTAT comes to with the selector x. -/
def igstatRes (s : State) (th : Thread) (d : BitVec 5) (k : BitVec 2) (n : Bool) (x : DWord) : Res :=
  match selector s th x 65536 with
  | .error e => .error (trapOp th e)
  | .ok (st, _) =>
    let r := combine s th [1, st, b2n n, k.toNat] fun s => (s, BitVec.ofNat 64 (igstatWord (igAt s st (b2n n)) k.toNat))
    .ok (longG r.1 th d r.2 (statClass th.station st))

theorem exec_igstat : exec (.igstat w d a k n) s = issue w s fun s th => igstatRes s th d k n (rg th a) :=
  Eq.trans (b := execIgstat w d a k n s) rfl rfl

theorem igstatRes_foreign {x : DWord} (hi : (part s (tidPart th.tid)).hasStation (ArrayRegisters.selected th x) = false) :
    igstatRes s th d k n x = .error (trapOp th 0x04) := by
  rw [igstatRes, ArrayRegisters.selector_eq, if_pos hi]

theorem igstatRes_inside {x : DWord} (hi : (part s (tidPart th.tid)).hasStation (ArrayRegisters.selected th x) = true) :
    let y := ArrayRegisters.selected th x
    let r := combine s th [1, y, b2n n, k.toNat] fun s => (s, BitVec.ofNat 64 (igstatWord (igAt s y (b2n n)) k.toNat))
    igstatRes s th d k n x = .ok (longG r.1 th d r.2 (statClass th.station y)) := by
  rw [igstatRes, ArrayRegisters.selector_eq, if_neg (by rw [hi]; decide), if_neg (show ¬ 65536 ≤ x.toNat % 2 ^ 16 by omega)]

/-! ### COLLRED, COLLBC and COLLSTAT (R390, R391, R393) -/

/-- The four words of a command in registers from g[a] on. -/
def commandAt (th : Thread) (a : BitVec 5) : List DWord := (List.range 4).map fun i => rgN th (a.toNat + i)

/-- A contribution of the words ws on its way to the unit, its thread behind the instruction. -/
def contributed (s : State) (th : Thread) (bc : Bool) (ws : List DWord) : State :=
  within (setThr (foldEvent
    (modColl { s with fresh := s.fresh + 1 } (tidPart th.tid) (BitVec.ofNat 16 (collCmd ws).cid) fun c => { c with waiting := c.waiting ++
      [{ st := th.station, tid := th.tid, bc := bc, words := ws, n := s.fresh }] })
    (tidPart th.tid) th.station (portCorner th.station) 1 (ownDev s * 2 ^ 56) (ws.flatMap fun x => natLe 8 x.toNat)) (nextPc th)) 360
    (.collectiveContribution (tidPart th.tid) (collCmd ws).cid)

theorem collOpIssue_eq (bc : Bool) : collOpIssue w bc a s = issue w s fun s th =>
    sentUnless th (contributed s th bc (commandAt th a)) (collFault s (tidPart th.tid) th.station bc (commandAt th a)) := by
  refine congrArg (issue w s) ?_
  funext s th
  simp only [commandAt]
  split <;> (next fails => rw [fails]; rfl)

/-- A collective's command traps with its first failing check, and a legal one goes to its unit. -/
theorem sends_collOpIssue {i : Instr} {bc : Bool} (h : Ready s w th) (hi : exec i s = collOpIssue w bc a s) :
    (∀ e, collFault s (tidPart th.tid) th.station bc (commandAt th a) = some e → Gives i s (trapState s th e 0 2)) ∧
    (CollAdmitted s (tidPart th.tid) th.station bc (commandAt th a) → Gives i s (contributed s th bc (commandAt th a))) := by
  obtain ⟨traps, goes⟩ := gives_sentUnless h (hi.trans (collOpIssue_eq bc))
  exact ⟨traps, fun legal => goes (collFault_of_admitted legal)⟩

/-- The state in which a COLLSTAT of the thread is answered: its cluster's earlier commands have reached the unit (log 123). -/
def reached (s : State) (th : Thread) : State :=
  ((List.range 256).filter fun x => clusterOf x == clusterOf th.station && collOut s (tidPart th.tid) x).foldl
    (fun s x => collReach s (tidPart th.tid) x s.fresh) s

theorem answers_collstat (h : Ready s w th) :
    Answers (reached s th) th [3, ((rg th a).setWidth 16).toNat] (reached s th, collWord (reached s th) (tidPart th.tid) ((rg th a).setWidth 16))
      fun u v => Gives (.collstat w d a) s (longG u th d v 360) :=
  answers_combine (reached s th) th _ (fun t => (t, collWord t (tidPart th.tid) ((rg th a).setWidth 16))) _
    (Eq.trans (b := execCollstat w d a s) rfl (issue_ok h rfl))

/-! ### Generators and collectives -/

theorem generatorsAndCollectives : GeneratorsAndCollectives := by
  intro s w th d a b g n k h st pn x off va ctl win bad ws cid sends
  have igload := exec_igload (s := s) (w := w) (a := a) (g := g) (n := n)
  have igstat := exec_igstat (s := s) (w := w) (d := d) (a := a) (k := k) (n := n)
  refine ⟨fun missing => gives_err (t := trapAt th 0x04 va) h igload (igloadRes_rights missing),
    fun read engine => ⟨fun unaligned => gives_err (t := trapAt th 0x05 va) h igload (igloadRes_unaligned read engine unaligned),
      fun aligned beyond => gives_err (t := trapAt th 0x03 va) h igload (igloadRes_beyond read engine aligned beyond),
      fun aligned inside => gives_ok h igload (igloadRes_inside read engine aligned inside)⟩,
    fun refused => Eq.trans (b := execIgstart w a b n s) rfl (issue_err (t := trapOp th 0x14) h (if_pos refused)),
    fun accepted => Eq.trans (b := execIgstart w a b n s) rfl (issue_ok h (if_neg accepted)),
    ⟨fun foreign => gives_err (t := trapOp th 0x04) h igstat (igstatRes_foreign foreign), fun inside => ?_⟩,
    sends_collOpIssue h (i := .collred w a) (Eq.trans (b := execCollred w a s) rfl rfl),
    sends_collOpIssue h (i := .collbc w a) (Eq.trans (b := execCollbc w a s) rfl rfl), answers_collstat h⟩
  exact answers_combine s th _ (fun s => (s, BitVec.ofNat 64 (igstatWord (igAt s _ (b2n n)) k.toNat))) _
    (gives_ok h igstat (igstatRes_inside inside))

/-- Settles O42: what R381, R382 and R390 accept meets none of their checks, and each command then reaches its channel, its port or its
unit. -/
theorem copiesPortsAndGenerators : Obligations.CopiesPortsAndGenerators := ⟨CopyCommands.copiesAndPorts, generatorsAndCollectives⟩

end Sys2Proof.Collectives

namespace Sys2Proof.Parking

open Sys2Proof Machine Laws

variable (s : State) (th : Thread)

/-! ### A thread leaves its slot (R35, R37, R39) -/

@[simp] theorem leaveSlot_time : (leaveSlot s th).1.time = s.time := by rw [leaveSlot]; split <;> rfl

@[simp] theorem parkThr_time (why : Park) : (parkThr s th why).time = s.time := leaveSlot_time s th

/-- Leaving its slot changes nothing of a thread but its priority. -/
theorem leaveSlot_thread : ∃ p, (leaveSlot s th).2 = { th with prio := p } := by
  rw [leaveSlot]
  split
  · exact ⟨th.bprio, rfl⟩
  · exact ⟨th.prio, rfl⟩

/-- A parked thread is as before but for its priority. -/
theorem getThr_parkThr (why : Park) : ∃ p, getThr (parkThr s th why) th.tid = some { th with prio := p, st := .parked why } := by
  obtain ⟨p, left⟩ := leaveSlot_thread s th
  refine ⟨p, ?_⟩
  rw [parkThr, left]
  exact getThr_setThr _ _

/-! ### Answers of other units (R404, R411, R419) -/

/-- A cycle drawn is below its bound. -/
theorem draw_lt (n : Nat) : (draw s n).1 < max n 1 := Nat.mod_lt _ (by omega)

/-- The thread behind an instruction whose answer another unit gives. -/
def asking (d : BitVec 5) (v : DWord) : Thread :=
  (addOp { th with pc := th.pc + 4 } { id := 0, pc := th.pc, dest := .g d, res := [(0, v)], hold := true }).2

theorem answer_eq (d : BitVec 5) (v : DWord) (n : Nat) :
    answer s th d v n = within (parkThr s (asking th d v) .marker) n (.longOpComplete th.tid.toNat th.nextOp) := rfl

/-- An answer parks its thread behind the instruction, and is due within its class. -/
theorem answersParkTheirThread : AnswersParkTheirThread := by
  intro s th d v n some_
  obtain ⟨p, parked⟩ := getThr_parkThr s (asking th d v) .marker
  have drawn := draw_lt (parkThr s (asking th d v) .marker) n
  rw [answer_eq]
  refine ⟨_, _, 1 + (draw (parkThr s (asking th d v) .marker) n).1, parked, rfl, rfl, rfl, rfl, rfl, rfl, rfl, rfl,
    Nat.le_add_right 1 _, by omega, ?_⟩
  rw [within_agenda, parkThr_time]
  exact List.mem_append_right _ (List.mem_singleton_self _)

end Sys2Proof.Parking

namespace Sys2Proof.Tickets

open Sys2Proof Machine Laws

variable {s : State} {w : Bool} {th : Thread} {d a b : BitVec 5} {n : BitVec 4} {k : BitVec 3}

/-! ### A function of a cluster's schedule unit (R430) -/

section

variable {i : Instr} {c : Thread → Nat} {f : State → Thread → Res} (h : Ready s w th)
  (hi : exec i s = issue w s fun s th => withCluster s th (c th) (f s th))
include h hi

/-- Outside the thread's partition no unit answers. -/
theorem traps_foreign (foreign : (part s (tidPart th.tid)).hasCluster (c th) = false) : Gives i s (trapState s th 0x04 0 2) :=
  gives_err (t := trapOp th 0x04) h hi (if_neg (by rw [foreign]; decide))

theorem gives_mine {u : State} (mine : (part s (tidPart th.tid)).hasCluster (c th) = true) (goes : f s th = .ok u) : Gives i s u :=
  gives_ok h hi ((if_pos mine).trans goes)

theorem traps_mine {e : Byte} (mine : (part s (tidPart th.tid)).hasCluster (c th) = true) (fails : f s th = .error (trapOp th e)) :
    Gives i s (trapState s th e 0 2) :=
  gives_err (t := trapOp th e) h hi ((if_pos mine).trans fails)

end

/-- What a function comes to that its unit refuses with a cause, or answers. -/
def unitRes (th : Thread) (d : BitVec 5) (c : Nat) (cause : Byte) : Option (State × Nat) → Res
  | none => .error (trapOp th cause)
  | some (t, v) => .ok (answer t th d (BitVec.ofNat 64 v) (unitClass th c))

theorem exec_sbcommit : exec (.sbcommit w d a k) s = issue w s fun s th => withCluster s th (clusterArg th a)
    (unitRes th d (clusterArg th a) 0x14 (sbCommit s (clusterArg th a) (tidPart th.tid) k.toNat th.tid)) := by
  refine Eq.trans (b := execSbcommit w d a k s) rfl (congrArg (issue w s) ?_)
  funext s th
  simp only
  cases sbCommit s (clusterArg th a) (tidPart th.tid) k.toNat th.tid <;> rfl

/-- The cluster of a ticket's word (R434). -/
def ticketCluster (th : Thread) (a : BitVec 5) : Nat := bits (rg th a).toNat 21 16

theorem ticketOp_eq (fin : Bool) : ticketOp w d a b fin s = issue w s fun s th => withCluster s th (ticketCluster th a)
    (unitRes th d (ticketCluster th a) 0x1A (ticketEnd s (tidPart th.tid) th.tid (rg th a) (rg th b) fin)) := by
  refine congrArg (issue w s) ?_
  funext s th
  simp only
  cases ticketEnd s (tidPart th.tid) th.tid (rg th a) (rg th b) fin <;> rfl

theorem exec_tget : exec (.tget w a k) s = issue w s fun s th => withCluster s th (clusterArg th a)
    (let r := tget s (clusterArg th a) (tidPart th.tid) k.toNat th.station th.tid
     .ok (longResult r.1 th { id := 0, pc := th.pc, dest := .tget, res := (List.range 8).map fun i => (i, r.2.getD i 0) }
      (unitClass th (clusterArg th a)))) := Eq.trans (b := execTget w a k s) rfl rfl

/-- SBWR (R431): the word, of word 0 without the GEN field, is staged. -/
def staged (s : State) (th : Thread) (a b : BitVec 5) (n : BitVec 4) (k : BitVec 3) : State :=
  setThr (modSb s (clusterArg th b) (tidPart th.tid) k.toNat fun x =>
    { x with staged := vset x.staged n.toNat (if n = 0 then rg th a &&& 0x0000FFFFFFFFFFFF else rg th a) }) (nextPc th)

/-- SBRD (R431): the word that the combining node or the unit answers is on its way. -/
def sbRead (s : State) (th : Thread) (d a : BitVec 5) (n : BitVec 4) (k : BitVec 3) : State :=
  let r := combine s th [0, clusterArg th a, k.toNat, n.toNat, b2n ((rg th a).getLsbD 8)] fun s =>
    (s, sbReadWord (sbGet s (clusterArg th a) (tidPart th.tid) k.toNat) n.toNat ((rg th a).getLsbD 8))
  longG r.1 th d r.2 (unitClass th (clusterArg th a))

theorem toNat_field (x : DWord) (lo n : Nat) : (x.extractLsb' lo n).toNat = x.toNat / 2 ^ lo % 2 ^ n := by
  rw [BitVec.extractLsb'_toNat, Nat.shiftRight_eq_div_pow]

/-- A block of no dimension whose words leave the reserved bits zero is one to retire, and nothing else is asked of it (R432). -/
theorem sbCommit_of_retiring {c pn q : Nat} {tid : Word} (empty : (vget (sbGet s c pn q).staged 0).extractLsb' 0 4 = 0)
    (reserved : (vget (sbGet s c pn q).staged 0).extractLsb' 6 42 = 0) (policy : (vget (sbGet s c pn q).staged 0).extractLsb' 4 2 ≠ 3) :
    sbCommit s c pn q tid = some (retire s c pn q tid, 0) := by
  have low : sbWord (sbGet s c pn q).staged 0 / 2 ^ 0 % 2 ^ 4 = 0 := (toNat_field ..).symm.trans (congrArg BitVec.toNat empty)
  have high : bits (sbWord (sbGet s c pn q).staged 0) 47 6 = 0 := (toNat_field ..).symm.trans (congrArg BitVec.toNat reserved)
  have kind : sbPolicy (sbGet s c pn q).staged ≠ 3 := fun three => policy (BitVec.eq_of_toNat_eq ((toNat_field ..).trans three))
  have dims : sbNdim (sbGet s c pn q).staged = 0 := by
    simp only [sbNdim, bits]
    omega
  have third : bit (sbWord (sbGet s c pn q).staged 0) 3 = false := by
    simp only [bit, beq_eq_false_iff_ne]
    omega
  have legal : sbIllegal s c pn q (sbGet s c pn q).staged = false := by
    simp only [sbIllegal, dims, high, third, beq_eq_false_iff_ne.mpr kind]
    rfl
  rw [sbCommit, legal, dims]
  rfl

/-- The first ticket of the thread under a word's number is the one that TDONE and TRET end (R434). -/
theorem ticketEnd_of_held {pn : Nat} {tid : Word} {tw m : DWord} (fin : Bool) {x : Ticket} {pre post : List Ticket}
    (tickets : (sbGet s (bits tw.toNat 21 16) pn (tw.toNat / 2 ^ 22 % 8)).tickets = pre ++ x :: post)
    (num : x.num = tw.extractLsb' 0 16) (own : x.tid = tid) (first : ∀ y ∈ pre, y.num ≠ x.num ∨ y.tid ≠ tid)
    (covered : m &&& ~~~x.mask = 0) : ∃ t, ticketEnd s pn tid tw m fin =
      some (t, b2n x.handover + if x.mask &&& ~~~m = 0 then 2 else 0) := by
  have code : bits tw.toNat 15 0 = x.num.toNat := ((congrArg BitVec.toNat num).trans (toNat_field ..)).symm
  have named (y : Ticket) : (y.num.toNat == x.num.toNat && y.tid == tid) = true ↔ y.num = x.num ∧ y.tid = tid := by
    rw [Bool.and_eq_true, beq_iff_eq, beq_iff_eq, BitVec.toNat_inj]
  have before : pre.find? (fun t => t.num.toNat == x.num.toNat && t.tid == tid) = none :=
    List.find?_eq_none.mpr fun y hy same => not_and_or.mpr (first y hy) ((named y).mp same)
  have found : (sbGet s (bits tw.toNat 21 16) pn (bits tw.toNat 24 22)).tickets.find?
      (fun t => t.num.toNat == x.num.toNat && t.tid == tid) = some x := by
    refine (congrArg (List.find? _) tickets).trans ?_
    rw [List.find?_append, before, Option.none_or]
    exact List.find?_cons_of_pos ((named x).mpr ⟨rfl, own⟩)
  simp only [ticketEnd, code, found, covered, ne_eq, not_true_eq_false, if_false]
  refine ⟨_, congrArg some (Prod.ext rfl (congrArg (b2n x.handover + ·) ?_))⟩
  by_cases all : x.mask &&& ~~~m = 0 <;> simp [all, b2n]

theorem unitClass_pos (th : Thread) (c : Nat) : 0 < unitClass th c := by
  rw [unitClass, distClass]
  split <;> decide

section

variable {i : Instr} {fin : Bool} (h : Ready s w th) (hi : exec i s = ticketOp w d a b fin s)
  (mine : (part s (tidPart th.tid)).hasCluster (ticketCluster th a) = true)
include h hi mine

theorem answers_ticket {t : State} {v : Nat} (ended : ticketEnd s (tidPart th.tid) th.tid (rg th a) (rg th b) fin = some (t, v)) :
    Gives i s (answer t th d (BitVec.ofNat 64 v) (unitClass th (ticketCluster th a))) :=
  gives_mine h (hi.trans (ticketOp_eq fin)) mine (congrArg (unitRes th d (ticketCluster th a) 0x1A) ended)

/-- The end of a ticket that the thread holds parks it behind the instruction, for the unit's answer. -/
theorem parks_ticket {v : Nat}
    (held : ∃ t, ticketEnd s (tidPart th.tid) th.tid (rg th a) (rg th b) fin = some (t, v)) :
    ∃ t u o, exec i s = .next t ∧ getThr t th.tid = some u ∧ u.st = .parked .marker ∧ u.pc = th.pc + 4 ∧ o ∈ u.ops ∧ o.dest = .g d ∧
      kget o.res 0 = some (BitVec.ofNat 64 v) := by
  obtain ⟨t, ended⟩ := held
  obtain ⟨u, o, -, found, parked, pc, -, ops, dest, word, -⟩ := Parking.answersParkTheirThread t th d (BitVec.ofNat 64 v)
    (unitClass th (ticketCluster th a)) (unitClass_pos th _)
  exact ⟨_, u, o, answers_ticket h hi mine ended, found, parked, pc, ops ▸ List.mem_append_right _ (List.mem_singleton_self o), dest, word⟩

end

/-- Settles O43: a function of a unit traps outside the partition, and inside it answers what the unit does. -/
theorem ticketFunctions : Obligations.TicketFunctions := by
  intro s w th d a b n k h pn mine foreign answers ca cb ct ends
  have sbwr : exec (.sbwr w a b n k) s = issue w s fun s th => withCluster s th (clusterArg th b) (.ok (staged s th a b n k)) :=
    Eq.trans (b := execSbwr w a b n k s) rfl rfl
  have sbrd : exec (.sbrd w d a n k) s = issue w s fun s th => withCluster s th (clusterArg th a) (.ok (sbRead s th d a n k)) :=
    Eq.trans (b := execSbrd w d a n k s) rfl rfl
  have commit := exec_sbcommit (s := s) (w := w) (d := d) (a := a) (k := k)
  have commits (here : mine ca) t v (e : sbCommit s ca pn k.toNat th.tid = some (t, v)) : answers (.sbcommit w d a k) t v ca :=
    gives_mine h commit here (congrArg (unitRes th d ca 0x14) e)
  have tickets {i : Instr} {fin : Bool} (hi : exec i s = ticketOp w d a b fin s) : ends i fin :=
    ⟨fun away => traps_foreign h (hi.trans (ticketOp_eq fin)) away, fun here =>
      ⟨fun none => traps_mine h (hi.trans (ticketOp_eq fin)) here (congrArg (unitRes th d ct 0x1A) none),
        fun _ _ => answers_ticket h hi here, fun _ _ _ tickets num own first covered =>
          parks_ticket h hi here (ticketEnd_of_held fin tickets num own first covered)⟩⟩
  refine ⟨fun away => traps_foreign h sbwr away, fun away => traps_foreign h sbrd away, fun away => traps_foreign h commit away,
    fun away => traps_foreign h exec_tget away,
    fun here => gives_mine h sbwr here rfl,
    fun here => ⟨?_, fun none => traps_mine h commit here (congrArg (unitRes th d ca 0x14) none), commits here,
      fun empty reserved policy => commits here _ 0 (sbCommit_of_retiring empty reserved policy), fun t l e => ?_⟩,
    tickets (i := .tdone w d a b) (Eq.trans (b := execTdone w d a b s) rfl rfl),
    tickets (i := .tret w d a b) (Eq.trans (b := execTret w d a b s) rfl rfl)⟩
  · exact answers_combine s th _ (fun s => (s, sbReadWord (sbGet s ca pn k.toNat) n.toNat ((rg th a).getLsbD 8))) _
      (gives_mine h sbrd here rfl)
  · refine gives_mine h exec_tget here ?_
    rw [show tget s (clusterArg th a) (tidPart th.tid) k.toNat th.station th.tid = (t, l) from e]
    rfl

end Sys2Proof.Tickets

namespace Sys2Proof.Scheduling

open Sys2Proof Machine Laws Parking

variable {s : State} {w : Bool} {th : Thread} {d a : BitVec 5}

/-! ### YIELD and SETPRIO (R39, R407, R409) -/

theorem running_of_ready (h : Ready s w th) : ∃ sl, th.st = .running sl := by
  have found := h.1
  rw [focus] at found
  split at found
  · cases found
  · split at found
    · cases found
    · split at found
      · split at found
        · next slot => exact ⟨_, Option.some.inj found ▸ slot⟩
        · cases found
      · cases found

/-- A station in whose slots the thread t is no more. -/
def vacated (t : Word) (x : Station) : Station := { x with slots := x.slots.map fun o => if o = some t then none else o }

theorem leaveSlot_of_running {sl : Nat} (running : th.st = .running sl) :
    leaveSlot s th = (modStn s th.station (vacated th.tid), { th with prio := th.bprio }) := by
  rw [leaveSlot, running]
  rfl

theorem vget_vacated (t : Word) (x : Station) (n : Nat) : vget (vacated t x).slots n ≠ some t := by
  rw [vget]
  split
  · simp only [vacated, Vector.getElem_map]
    split
    · nofun
    · assumption
  · nofun

/-- A thread that runs becomes READY at the tail of its run queue, out of its slot and at BPRIO. -/
theorem makeReady_of_running {sl : Nat} (running : th.st = .running sl) :
    getThr (makeReady s th) th.tid = some { th with prio := th.bprio, st := .ready, wait := none, readySince := s.time } ∧
    stn (makeReady s th) th.station = { vacated th.tid (stn s th.station) with runq := (stn s th.station).runq ++ [th.tid] } := by
  simp only [makeReady, leaveSlot_of_running running]
  refine ⟨getThr_setThr (modStn s th.station (vacated th.tid)) _, (stn_modStn _ _ _).trans ?_⟩
  have queue : stn (modStn s th.station (vacated th.tid)) th.station = vacated th.tid (stn s th.station) := stn_modStn ..
  exact congrArg (fun x : Station => { x with runq := x.runq ++ [th.tid] }) queue

theorem yields (h : Ready s true th) : ∃ t u, exec (.yield w) s = .next t ∧ getThr t th.tid = some u ∧ u.st = .ready ∧ u.pc = th.pc + 4 ∧
    u.prio = th.bprio ∧ u.g = th.g ∧ (stn t th.station).runq = (stn s th.station).runq ++ [th.tid] ∧
    ∀ n, n < 16 → vget (stn t th.station).slots n ≠ some th.tid := by
  obtain ⟨sl, running⟩ := running_of_ready h
  obtain ⟨found, station⟩ := makeReady_of_running (s := s) (th := nextPc th) running
  refine ⟨_, _, Eq.trans (b := execYield w s) rfl (issue_ok h rfl), found, rfl, rfl, rfl, rfl, congrArg Station.runq station, ?_⟩
  intro n _
  exact congrArg (fun x : Station => vget x.slots n) station ▸ vget_vacated th.tid (stn s th.station) n

theorem yieldAndPriority : YieldAndPriority := by
  intro s w th a h p
  have setprio : exec (.setprio w a) s = execSetprio w a s := rfl
  refine ⟨fun ops => yields (ready_strengthen h ops), fun allowed => setprio.trans (issue_ok h (if_neg ?_)),
    fun user above => setprio.trans (issue_err (t := trapOp th 0x02) h (if_pos ?_))⟩
  · rw [Bool.and_eq_true, Bool.not_eq_true', decide_eq_true_iff]
    rintro ⟨user, above⟩
    rcases allowed with sup | below
    · exact Bool.false_ne_true (user.symm.trans sup)
    · exact BitVec.not_le.mpr above below
  · rw [Bool.and_eq_true, Bool.not_eq_true', decide_eq_true_iff]
    exact ⟨user, above⟩

/-! ### EXIT and JALR to 0 (R52, R180, R406) -/

theorem exits (h : Ready s true th) : Gives (.exit w a) s (beginEnd s th .exited 0 (rg th a)) :=
  Eq.trans (b := execExit w a s) rfl (issue_ok h rfl)

theorem jumps_to_zero {i : BitVec 15} (h : Ready s w th) (ops : th.ops = []) (zero : rg th a + i.signExtend 64 = 0) :
    Gives (.jalr w d a i) s (beginEnd s th .exited 0 (rg th 1)) := by
  have unmarked : threadEnd s th (rg th 1) = beginEnd s th .exited 0 (rg th 1) := by
    rw [threadEnd, atMarker, outstanding, ops]
    rfl
  exact unmarked ▸ Eq.trans (b := execJalr w d a i s) rfl (issue_ok h (if_pos zero))

/-! ### JOIN (R408) -/

/-- The thread that a JOIN names. -/
def joined (th : Thread) (a : BitVec 5) : Word := (rg th a).extractLsb' 0 32

/-- The class of a JOIN's answer. -/
def joinClass (th : Thread) (a : BitVec 5) : Nat := classOf th.station (tidHome (joined th a))

/-- A state without the record of thread c. -/
def reap (s : State) (c : Word) : State := { s with threads := kdel s.threads c.toNat }

/-- The state behind a JOIN of a child that has ended: its record is gone, but a LOST one stays for a user's JOIN (log 64). -/
def joinedEnd (s : State) (th : Thread) (d a : BitVec 5) (ch : Thread) : State :=
  let s := answer s th d (joinWord ch) (joinClass th a)
  if reaps ch th.sup then reap s (joined th a) else s

/-- What a JOIN comes to, by the record under the number that it names. -/
def joinRes (s : State) (th : Thread) (d a : BitVec 5) : Option Thread → Res
  | none => .ok (answer s th d 0 (joinClass th a))
  | some ch =>
    if (stn s (tidHome (joined th a))).dead then .ok (answer s th d (BitVec.ofNat 64 (4 * 2 ^ 60)) (joinClass th a))
    else if ch.st.live then .ok (startWait s th (.join (joined th a) d) .join false)
    else .ok (joinedEnd s th d a ch)

theorem exec_join : exec (.join w d a) s = issue w s fun s th =>
    if joined th a = th.tid then .ok (answer s th d (BitVec.ofNat 64 (5 * 2 ^ 60)) (joinClass th a))
    else if joined th a = 0 ∨ tidPart (joined th a) ≠ tidPart th.tid then .ok (answer s th d 0 (joinClass th a))
    else joinRes s th d a (getThr s (joined th a)) := by
  refine Eq.trans (b := execJoin w d a s) rfl (congrArg (issue w s) ?_)
  funext s th
  refine congrArg (ite _ _) (congrArg (ite _ _) ?_)
  change _ = joinRes s th d a (getThr s ((rg th a).truncate 32))
  cases getThr s ((rg th a).truncate 32) <;> rfl

/-- A JOIN of a number under which no other thread of the partition stands (R408). -/
theorem join_unknown (h : Ready s w th) (other : joined th a ≠ th.tid)
    (unknown : joined th a = 0 ∨ tidPart (joined th a) ≠ tidPart th.tid ∨ getThr s (joined th a) = none) :
    Gives (.join w d a) s (answer s th d 0 (joinClass th a)) := by
  refine gives_ok h exec_join ((if_neg other).trans ?_)
  by_cases outside : joined th a = 0 ∨ tidPart (joined th a) ≠ tidPart th.tid
  · exact if_pos outside
  · have missing : getThr s (joined th a) = none := by tauto
    rw [if_neg outside, missing]
    rfl

/-- A JOIN names another thread of its partition, of a station that is not dead. -/
structure NamesChild (s : State) (th : Thread) (a : BitVec 5) (ch : Thread) : Prop where
  other : joined th a ≠ th.tid
  named : joined th a ≠ 0
  same : tidPart (joined th a) = tidPart th.tid
  found : getThr s (joined th a) = some ch
  alive : (stn s (tidHome (joined th a))).dead = false

section

variable {ch : Thread} (h : Ready s w th) (hc : NamesChild s th a ch)
include h hc

theorem join_child {u : State} (res : joinRes s th d a (some ch) = .ok u) : Gives (.join w d a) s u := by
  refine gives_ok h exec_join ((if_neg hc.other).trans ((if_neg (not_or.mpr ⟨hc.named, not_not_intro hc.same⟩)).trans ?_))
  rw [hc.found]
  exact res

theorem join_live (live : ch.st.live = true) : Gives (.join w d a) s (startWait s th (.join (joined th a) d) .join false) := by
  refine join_child h hc ?_
  rw [joinRes, hc.alive, live]
  rfl

theorem join_ended (ended : ch.st.live = false) : Gives (.join w d a) s (joinedEnd s th d a ch) := by
  refine join_child h hc ?_
  rw [joinRes, hc.alive, ended]
  rfl

/-- The answer tells the end, and the record is reaped. -/
theorem join_reaps {v : DWord} (ended : ch.st.live = false) (word : joinWord ch = v) (gone : reaps ch th.sup = true) :
    Gives (.join w d a) s (reap (answer s th d v (joinClass th a)) (joined th a)) := by
  have told : joinedEnd s th d a ch = reap (answer s th d v (joinClass th a)) (joined th a) := by rw [joinedEnd, word, if_pos gone]
  exact told ▸ join_ended h hc ended

theorem join_lost (lost : ch.st = .lost) (user : th.sup = false) :
    Gives (.join w d a) s (answer s th d (BitVec.ofNat 64 (4 * 2 ^ 60)) (joinClass th a)) := by
  have word : joinWord ch = BitVec.ofNat 64 (4 * 2 ^ 60) := by rw [joinWord, lost]
  have kept : reaps ch th.sup = false := by rw [reaps, lost, user]; rfl
  have told : joinedEnd s th d a ch = answer s th d (BitVec.ofNat 64 (4 * 2 ^ 60)) (joinClass th a) := by
    rw [joinedEnd, word, kept]
    rfl
  exact told ▸ join_ended h hc (by rw [lost]; rfl)

end

theorem exitAndJoin : ExitAndJoin := by
  intro s w th d a i h c n known reaped
  refine ⟨fun ops => ⟨exits (ready_strengthen h ops), jumps_to_zero h ops⟩, fun self => gives_ok h exec_join (if_pos self),
    join_unknown h, fun ch other named same found alive => ?_⟩
  have hc : NamesChild s th a ch := ⟨other, named, same, found, alive⟩
  refine ⟨join_live h hc, fun st => ?_, fun st => ?_, fun st => ?_, fun st sup => ?_, join_lost h hc⟩
  · exact join_reaps h hc (by rw [st]; rfl) (by simp only [joinWord, st, Nat.one_mul]) (by simp [reaps, st])
  · exact join_reaps h hc (by rw [st]; rfl) (by rw [joinWord, st]) (by simp [reaps, st])
  · exact join_reaps h hc (by rw [st]; rfl) (by rw [joinWord, st]) (by simp [reaps, st])
  · exact join_reaps h hc (by rw [st]; rfl) (by rw [joinWord, st]) (by simp [reaps, sup])

/-- Settles O36: a thread that yields leaves its slot for the tail of its queue, and a JOIN answers by the record under its number. -/
theorem threadScheduling : Obligations.ThreadScheduling := ⟨yieldAndPriority, exitAndJoin⟩

end Sys2Proof.Scheduling

namespace Sys2Proof.Packets

open Sys2Proof Machine Laws Parking

variable (s : State)

/-! ### A packet on its way (R43, R400, R462) -/

@[simp] theorem foldEvent_time (pn st b kind addr : Nat) (data : List Byte) : (foldEvent s pn st b kind addr data).time = s.time := by
  rw [foldEvent]; split <;> rfl
@[simp] theorem foldEvent_threads (pn st b kind addr : Nat) (data : List Byte) :
    (foldEvent s pn st b kind addr data).threads = s.threads := by rw [foldEvent]; split <;> rfl
@[simp] theorem foldEvent_pkts (pn st b kind addr : Nat) (data : List Byte) : (foldEvent s pn st b kind addr data).pkts = s.pkts := by
  rw [foldEvent]; split <;> rfl

theorem record_foldEvent (pn st b kind addr : Nat) (data : List Byte) :
    (part (foldEvent s pn st b kind addr data) pn).record = (part s pn).record := by
  rw [foldEvent]
  split
  · rw [part_modPart]
  · rfl

/-- A slot of a timed partition is open by the partition's own record. -/
theorem slotWait_of_record {s t : State} {pn : Nat} (time : t.time = s.time) (record : (part t pn).record = (part s pn).record)
    (timed : (part s pn).timed = true) : slotWait t pn false = slotWait s pn false := by
  have field (lo n : Nat) : pfield (part t pn) lo n = pfield (part s pn) lo n := by rw [pfield, pfield, record]
  have timed_ : (part t pn).timed = true := by rw [Partition.timed, field]; exact timed
  have slot (k : Nat) : slotOpen t pn k false = slotOpen s pn k false := by
    rw [slotOpen, slotOpen, timed, timed_, field]
    rfl
  simp only [slotWait, time, slot]

/-- A packet's arrival is due behind a wait of its partition, within its class (R462). -/
theorem startWithin_due (pn n : Nat) (e : Event) : ∃ due, (due, e) ∈ (startWithin s pn n e).agenda ∧ s.time < due ∧
    due ≤ s.time + max n ((if (part s pn).timed then slotWait s pn false else 0) + 1) := by
  generalize wait : (if (part s pn).timed then slotWait s pn false else 0) = w
  have drawn := draw_lt s (n - w)
  refine ⟨s.time + (w + 1 + (draw s (n - w)).1), ?_, by omega, by omega⟩
  simp only [startWithin, wait]
  exact List.mem_append_right _ (List.mem_singleton_self _)

/-- The state in which a packet is on its way. -/
def packed (s : State) (a b pn : Nat) (k : Packet) : State :=
  let t := { s with fresh := s.fresh + 1, pkts := kput s.pkts s.fresh { k with source := a } }
  if a = b then t else foldEvent t pn a b 1 (ownDev t * 2 ^ 56 + b) (natLe 8 k.pcsw.toNat ++ natLe 8 k.pw.toNat ++
    k.g.flatMap (fun x => natLe 8 x.toNat) ++ natLe 4 k.tid.toNat)

theorem sendPacket_eq (a b pn : Nat) (k : Packet) (e : Nat → Event) :
    sendPacket s a b pn k e = startWithin (packed s a b pn k) pn (distClass a b) (e s.fresh) := rfl

theorem packed_frame (a b pn : Nat) (k : Packet) : (packed s a b pn k).time = s.time ∧ (packed s a b pn k).threads = s.threads ∧
    (packed s a b pn k).pkts = kput s.pkts s.fresh { k with source := a } ∧
    (part (packed s a b pn k) pn).record = (part s pn).record := by
  rw [packed]
  split
  · exact ⟨rfl, rfl, rfl, rfl⟩
  · exact ⟨foldEvent_time .., foldEvent_threads .., foldEvent_pkts .., record_foldEvent ..⟩

/-- What a packet sent comes to: it is under its number, its arrival is due within its class or behind the wait for its own slot, and the
threads are as before. -/
theorem sendPacket_sends (a b pn : Nat) (k : Packet) (e : Nat → Event) :
    (sendPacket s a b pn k e).threads = s.threads ∧ kget (sendPacket s a b pn k e).pkts s.fresh = some { k with source := a } ∧
    ∃ due, (due, e s.fresh) ∈ (sendPacket s a b pn k e).agenda ∧ s.time < due ∧
      due ≤ s.time + max (distClass a b) (slotWait s pn false + 1) := by
  obtain ⟨time, threads, pkts, record⟩ := packed_frame s a b pn k
  obtain ⟨due, planned, after, before⟩ := startWithin_due (packed s a b pn k) pn (distClass a b) (e s.fresh)
  rw [time] at after before
  have sent : kget (packed s a b pn k).pkts s.fresh = some { k with source := a } := by rw [pkts, kget_kput_same]
  refine ⟨threads, sent, due, planned, after, before.trans ?_⟩
  have same : (part (packed s a b pn k) pn).timed = (part s pn).timed := by rw [Partition.timed, Partition.timed, pfield, pfield, record]
  split
  · next timed => rw [slotWait_of_record time record (same ▸ timed)]
  · omega

end Sys2Proof.Packets

namespace Sys2Proof.Migration

open Sys2Proof Machine Laws Scheduling Packets

variable {s : State} {w : Bool} {th : Thread} {a : BitVec 5} {g : BitVec 3}

/-! ### MIGR (R43, R405) -/

/-- What MIGR comes to at an offset of a segment. -/
def migrRes (s : State) (th : Thread) (q : Seg) (off : DWord) : Res :=
  if !q.translated || !q.read then .error (trapAt th 0x04 (vaOf q off))
  else if q.limit ≤ off.toNat then .error (trapAt th 0x03 (vaOf q off))
  else if th.inh then .error (trapOp th 0x01)
  else
    let home := homeOf s (tidPart th.tid) (vaOf q off).toNat q.hashed
    let r := leaveSlot s (nextPc th)
    let m := disarmAll (unbindThread r.1 th.station th.tid) r.2
    .ok (pumpArrivals (sendPacket (setThr m.1 { m.2 with st := .migrating, station := home }) th.station home (tidPart th.tid)
      (packetOf m.2 home) .migrationArrival) th.station)

theorem exec_migr : exec (.migr w a g) s = issue true s fun s th => migrRes s th (rseg th g) (rg th a) :=
  Eq.trans (b := execMigr w a g s) rfl rfl

/-- The thread behind its MIGR, as its packet has it, without monitors. -/
def departing (th : Thread) : Thread := { th with pc := th.pc + 4, prio := th.bprio, mon := Vector.replicate 4 {} }

/-- The state that the thread leaves behind: its slot is free, and its ports and monitors are gone. -/
def departed (s : State) (th : Thread) (home : Nat) : State :=
  setThr (disarmAll (unbindThread (modStn s th.station (vacated th.tid)) th.station th.tid) th).1
    { departing th with st := .migrating, station := home }

/-- The state behind a MIGR to a home. -/
def migrated (s : State) (th : Thread) (home : Nat) : State :=
  pumpArrivals (sendPacket (departed s th home) th.station home (tidPart th.tid) (packetOf (departing th) home) .migrationArrival) th.station

section

variable {q : Seg} {off : DWord}

theorem migrRes_rights (h : q.translated = false ∨ q.read = false) : migrRes s th q off = .error (trapAt th 0x04 (vaOf q off)) :=
  if_pos (by simpa only [Bool.or_eq_true, Bool.not_eq_true'] using h)

variable (translated : q.translated = true) (read : q.read = true)
include translated read

theorem migrRes_beyond (beyond : q.limit ≤ off.toNat) : migrRes s th q off = .error (trapAt th 0x03 (vaOf q off)) :=
  (if_neg (by rw [translated, read]; decide)).trans (if_pos beyond)

variable (inside : off.toNat < q.limit)
include inside

theorem migrRes_handler (inh : th.inh = true) : migrRes s th q off = .error (trapOp th 0x01) :=
  (if_neg (by rw [translated, read]; decide)).trans ((if_neg (Nat.not_le.mpr inside)).trans (if_pos inh))

theorem migrRes_leaves {sl : Nat} (running : th.st = .running sl) (inh : th.inh = false) : migrRes s th q off =
    .ok (migrated s th (homeOf s (tidPart th.tid) (vaOf q off).toNat q.hashed)) := by
  have left := leaveSlot_of_running (s := s) (th := nextPc th) running
  refine (if_neg (by rw [translated, read]; decide)).trans ((if_neg (Nat.not_le.mpr inside)).trans ((if_neg (by simp [inh])).trans ?_))
  simp only [left]
  rfl

end

theorem pumpArrivals_frame (s : State) (st : Nat) : (pumpArrivals s st).threads = s.threads ∧ (pumpArrivals s st).pkts = s.pkts ∧
    ∀ x ∈ s.agenda, x ∈ (pumpArrivals s st).agenda := by
  rw [pumpArrivals]
  split
  · exact ⟨rfl, rfl, fun _ hx => hx⟩
  · exact ⟨rfl, rfl, fun _ hx => List.mem_append_left _ hx⟩

theorem disarmAll_frame (s : State) (th : Thread) : (disarmAll s th).1.time = s.time ∧ (disarmAll s th).1.fresh = s.fresh ∧
    (disarmAll s th).1.parts = s.parts := ⟨rfl, rfl, rfl⟩

theorem departed_frame (s : State) (th : Thread) (home : Nat) : (departed s th home).time = s.time ∧
    (departed s th home).fresh = s.fresh ∧ (departed s th home).parts = s.parts := by
  obtain ⟨time, fresh, parts⟩ := disarmAll_frame (unbindThread (modStn s th.station (vacated th.tid)) th.station th.tid) th
  rw [departed, setThr_time, setThr_fresh, setThr_parts, time, fresh, parts]
  exact ⟨rfl, rfl, rfl⟩

theorem slotWait_departed (s : State) (th : Thread) (home pn : Nat) : slotWait (departed s th home) pn false = slotWait s pn false := by
  obtain ⟨time, -, parts⟩ := departed_frame s th home
  have slot (k : Nat) : slotOpen (departed s th home) pn k false = slotOpen s pn k false := by
    rw [slotOpen, slotOpen, part, part, parts]
  simp only [slotWait, time, slot]

/-- The monitors are no part of a packet. -/
theorem packetOf_departing (th : Thread) (home : Nat) :
    { packetOf (departing th) home with source := th.station } = packetOf { th with pc := th.pc + 4, prio := th.bprio } home := rfl

/-- The packet of the thread is under way, and its record says so. -/
theorem migrated_departs (s : State) (th : Thread) (home : Nat) :
    getThr (migrated s th home) th.tid = some { departing th with st := .migrating, station := home } ∧
    kget (migrated s th home).pkts s.fresh = some (packetOf { th with pc := th.pc + 4, prio := th.bprio } home) ∧
    ∃ n, (n, Event.migrationArrival s.fresh) ∈ (migrated s th home).agenda ∧ s.time < n ∧
      n ≤ s.time + max (distClass th.station home) (slotWait s (tidPart th.tid) false + 1) := by
  obtain ⟨threads, sent, due, planned, after, before⟩ := sendPacket_sends (departed s th home) th.station home (tidPart th.tid)
    (packetOf (departing th) home) .migrationArrival
  obtain ⟨keptThreads, keptPkts, keptAgenda⟩ := pumpArrivals_frame (sendPacket (departed s th home) th.station home (tidPart th.tid)
    (packetOf (departing th) home) .migrationArrival) th.station
  obtain ⟨time, fresh, -⟩ := departed_frame s th home
  rw [fresh, packetOf_departing] at sent
  rw [fresh] at planned
  rw [time] at after before
  rw [slotWait_departed] at before
  refine ⟨?_, (congrArg (kget · s.fresh) keptPkts).trans sent, due, keptAgenda _ planned, after, before⟩
  rw [migrated, getThr, keptThreads, threads]
  exact getThr_setThr _ { departing th with st := .migrating, station := home }

theorem migrationLeavesTheCore : MigrationLeavesTheCore := by
  intro s w th a g h q off va
  obtain ⟨sl, running⟩ := running_of_ready h
  refine ⟨fun missing => gives_err (t := trapAt th 0x04 va) h exec_migr (migrRes_rights missing),
    fun translated read beyond => gives_err (t := trapAt th 0x03 va) h exec_migr (migrRes_beyond translated read beyond),
    fun translated read inside inh => gives_err (t := trapOp th 0x01) h exec_migr (migrRes_handler translated read inside inh),
    fun translated read inside inh => ?_⟩
  obtain ⟨found, sent, due⟩ := migrated_departs s th (homeOf s (tidPart th.tid) va.toNat q.hashed)
  exact ⟨_, _, _, gives_ok h exec_migr (migrRes_leaves translated read inside running inh), found, rfl, rfl, sent, rfl, due⟩

end Sys2Proof.Migration
namespace Sys2Proof.Spawning

open Sys2Proof Machine Laws Parking Packets JumpsAndPointers

variable {s : State} {w : Bool} {th : Thread} {d a b : BitVec 5} {t : Bool} {g : BitVec 3}

/-! ### The block of a SPAWN (R401, R402) -/

/-- The station that a block names: 0xFFFF is the thread's own. -/
def spawnTarget (th : Thread) (blk : List Byte) : Nat := if field blk 96 2 = 0xFFFF then th.station else field blk 96 2

/-- What R402 asks of a block. -/
structure BlockAdmitted (s : State) (th : Thread) (blk : List Byte) : Prop where
  prio : field blk 98 1 < 4
  reserved : field blk 99 29 = 0
  ranges : ∀ i, i < 4 → field blk (133 + 16 * i) 1 < 8 ∧ field blk (134 + 16 * i) 2 = 0 ∧ field blk (140 + 16 * i) 4 = 0
  priority : th.sup = true ∨ field blk 98 1 ≤ th.bprio.toNat
  target : field blk 96 2 = 0xFFFF ∨ (part s (tidPart th.tid)).hasStation (field blk 96 2) = true
  footprint : ∀ i, i < 4 → field blk (136 + 16 * i) 4 ≠ 0 →
    (vget th.seg (field blk (133 + 16 * i) 1)).read = true ∧ (vget th.seg (field blk (133 + 16 * i) 1)).translated = true ∧
    field blk (128 + 16 * i) 5 + field blk (136 + 16 * i) 4 ≤ (vget th.seg (field blk (133 + 16 * i) 1)).limit

/-- A range of the footprint is one of the four, its length not 0. -/
theorem mem_footEntries {blk : List Byte} {e : Nat × Nat × Nat} (he : e ∈ footEntries blk) : ∃ i, i < 4 ∧
    field blk (136 + 16 * i) 4 ≠ 0 ∧ e = (field blk (128 + 16 * i) 5, field blk (133 + 16 * i) 1 % 8, field blk (136 + 16 * i) 4) := by
  rw [footEntries, List.mem_filterMap] at he
  obtain ⟨i, hi, some_⟩ := he
  refine ⟨i, List.mem_range.mp hi, ?_⟩
  simp only at some_
  split at some_
  · cases some_
  · next length => exact ⟨length, (Option.some.inj some_).symm⟩

/-- What R402 admits meets none of its checks. -/
theorem blockTrap_of_admitted {blk : List Byte} (h : BlockAdmitted s th blk) : blockTrap s th blk = none := by
  simp only [blockTrap]
  rw [if_neg, if_neg, if_neg, List.findSome?_eq_none_iff]
  · intro e he
    obtain ⟨i, hi, length, rfl⟩ := mem_footEntries he
    obtain ⟨read, translated, inside⟩ := h.footprint i hi length
    obtain ⟨segment, -⟩ := h.ranges i hi
    simp only [Nat.mod_eq_of_lt segment, read, translated]
    exact if_neg (Nat.not_lt.mpr inside)
  · rintro ⟨named, outside⟩
    rcases h.target with own | inside
    · exact named own
    · rw [inside] at outside
      cases outside
  · rw [Bool.and_eq_true, Bool.not_eq_true', decide_eq_true_iff]
    rintro ⟨user, above⟩
    rcases h.priority with sup | below
    · exact Bool.false_ne_true (user.symm.trans sup)
    · omega
  · rintro (high | reserved | range)
    · exact high (Nat.div_eq_of_lt h.prio)
    · exact reserved h.reserved
    · obtain ⟨i, hi, spoilt⟩ := List.any_eq_true.mp range
      obtain ⟨segment, mid, high⟩ := h.ranges i (List.mem_range.mp hi)
      rw [Nat.div_eq_of_lt segment, mid, high] at spoilt
      cases spoilt

/-! ### SPAWN (R400 to R404) -/

/-- The thread behind its SPAWN, which waits for the target core's answer. -/
def spawning (th : Thread) (d : BitVec 5) : Thread :=
  (addOp (nextPc th) { id := 0, pc := th.pc, dest := .g d, left := 1, hold := true }).2

/-- The state with the packet of a new thread on its way. -/
def spawned (s : State) (th : Thread) (d : BitVec 5) (fp : DWord) (t : Bool) (blk : List Byte) : State :=
  let p := parkThr s (spawning th d) .marker
  sendPacket p th.station (spawnTarget th blk) (tidPart th.tid) (spawnPacket p th fp blk t th.nextOp (spawnTarget th blk)) .spawnDelivery

/-- What a SPAWN comes to whose block is read. -/
def blockRes (th : Thread) (d : BitVec 5) (fp : DWord) (t : Bool) : State × Except DFault (List Byte) → Res
  | (s, .error f) => .ok (takeTrap s th (trapMem th f))
  | (s, .ok blk) => match blockTrap s th blk with
    | some p => .ok (takeTrap s th p)
    | none => .ok (spawned s th d fp t blk)

/-- What a SPAWN comes to with the place that its pointer enters. -/
def entryRes (s : State) (th : Thread) (d : BitVec 5) (fp : DWord) (t : Bool) (q : Seg) (off : DWord) : Except Byte DWord → Res
  | .error c => .error (trapAt th c (BitVec.ofNat 64 (bits fp.toNat 55 0)))
  | .ok _ =>
    if !q.read || q.type == 3 then .error (trapAt th 0x04 (vaOf q off))
    else if q.limit < off.toNat + 192 then .error (trapAt th 0x03 (vaOf q off))
    else if off.toNat % 64 ≠ 0 then .error (trapAt th 0x05 (vaOf q off))
    else blockRes th d fp t (segRead s th q off.toNat 192)

/-- What a SPAWN comes to with a pointer, and a block at an offset of a segment. -/
def spawnRes (s : State) (th : Thread) (d : BitVec 5) (fp : DWord) (t : Bool) (q : Seg) (off : DWord) : Res :=
  if badTag fp then .error (trapAt th 0x1D (BitVec.ofNat 64 (bits fp.toNat 55 0)))
  else if bits fp.toNat 63 62 = 1 then .error (trapAt th 0x04 (BitVec.ofNat 64 (bits fp.toNat 55 0)))
  else entryRes s th d fp t q off (porlekEntry (rseg th 0) fp)

theorem exec_spawn : exec (.spawn w d a b t g) s = issue true s fun s th => spawnRes s th d (rg th a) t (rseg th g) (rg th b) := by
  refine Eq.trans (b := execSpawn w d a b t g s) rfl (congrArg (issue true s) ?_)
  funext s th
  refine congrArg (ite _ _) (congrArg (ite _ _) ?_)
  cases porlekEntry (rseg th 0) (rg th a) with
  | error c => rfl
  | ok pc =>
    refine congrArg (ite _ _) (congrArg (ite _ _) (congrArg (ite _ _) ?_))
    obtain ⟨s', r⟩ := segRead s th (rseg th g) (rg th b).toNat 192
    cases r with
    | error f => rfl
    | ok blk =>
      simp only [blockRes]
      cases blockTrap s' th blk <;> rfl

section

variable {fp off : DWord} {q : Seg}

theorem spawnRes_tag (bad : badTag fp = true) :
    spawnRes s th d fp t q off = .error (trapAt th 0x1D (BitVec.ofNat 64 (fp.toNat % 2 ^ 56))) :=
  bits_entry fp.toNat ▸ if_pos bad

variable (good : badTag fp = false)
include good

theorem spawnRes_graph (code : bits fp.toNat 63 62 = 1) :
    spawnRes s th d fp t q off = .error (trapAt th 0x04 (BitVec.ofNat 64 (fp.toNat % 2 ^ 56))) :=
  bits_entry fp.toNat ▸ (if_neg (by rw [good]; decide)).trans (if_pos code)

variable (code : bits fp.toNat 63 62 = 0)
include code

theorem spawnRes_porlek : spawnRes s th d fp t q off = entryRes s th d fp t q off (porlekEntry (rseg th 0) fp) :=
  (if_neg (by rw [good]; decide)).trans (if_neg (by rw [code]; decide))

theorem spawnRes_entry {c : Byte} (refused : porlekEntry (rseg th 0) fp = .error c) :
    spawnRes s th d fp t q off = .error (trapAt th c (BitVec.ofNat 64 (fp.toNat % 2 ^ 56))) := by
  rw [spawnRes_porlek good code, refused, entryRes, bits_entry]

/-- Where the pointer and the place of the block pass their checks, the block is read. -/
theorem spawnRes_reads {pc : DWord} (entered : porlekEntry (rseg th 0) fp = .ok pc) (read : q.read = true) (kind : q.type ≠ 3)
    (inside : off.toNat + 192 ≤ q.limit) (aligned : off.toNat % 64 = 0) :
    spawnRes s th d fp t q off = blockRes th d fp t (segRead s th q off.toNat 192) := by
  rw [spawnRes_porlek good code, entered, entryRes, if_neg, if_neg (Nat.not_lt.mpr inside), if_neg (not_not_intro aligned)]
  rw [read, beq_eq_false_iff_ne.mpr kind]
  decide

end

theorem blockRes_trap {fp : DWord} {blk : List Byte} {p : PendTrap} (refused : blockTrap s th blk = some p) :
    blockRes th d fp t (s, .ok blk) = .ok (takeTrap s th p) := by
  rw [blockRes, refused]

theorem blockRes_admitted {fp : DWord} {blk : List Byte} (h : BlockAdmitted s th blk) :
    blockRes th d fp t (s, .ok blk) = .ok (spawned s th d fp t blk) := by
  rw [blockRes, blockTrap_of_admitted h]

/-- The packet of the new thread is under way, and its parent is parked for the answer. -/
theorem spawned_sends (fp : DWord) (blk : List Byte) (ops : th.ops = []) : ∃ u o id k due,
    getThr (spawned s th d fp t blk) th.tid = some u ∧ u.st = .parked .marker ∧ u.pc = th.pc + 4 ∧ u.g = th.g ∧ u.ops = [o] ∧
    o.dest = .g d ∧ o.done = false ∧ kget (spawned s th d fp t blk).pkts id = some k ∧ k.target = BitVec.ofNat 16 (spawnTarget th blk) ∧
    k.parent = th.tid ∧ k.answer = o.id ∧ k.g = (List.range 10).map (fun i => BitVec.ofNat 64 (field blk (8 * i) 8)) ∧
    (due, Event.spawnDelivery id) ∈ (spawned s th d fp t blk).agenda ∧ s.time < due := by
  obtain ⟨p, parked⟩ := getThr_parkThr s (spawning th d) .marker
  obtain ⟨threads, sent, due, planned, after, -⟩ := sendPacket_sends (parkThr s (spawning th d) .marker) th.station (spawnTarget th blk)
    (tidPart th.tid) (spawnPacket (parkThr s (spawning th d) .marker) th fp blk t th.nextOp (spawnTarget th blk)) .spawnDelivery
  have found : getThr (spawned s th d fp t blk) th.tid = some { spawning th d with prio := p, st := .parked .marker } :=
    (congrArg (kget · th.tid.toNat) threads).trans parked
  have alone : (spawning th d).ops = [{ id := th.nextOp, pc := th.pc, dest := .g d, left := 1, hold := true }] :=
    congrArg (· ++ [_]) ops
  rw [parkThr_time] at after
  exact ⟨_, _, _, _, due, found, rfl, rfl, rfl, alone, rfl, rfl, sent, rfl, rfl, rfl, rfl, planned, after⟩

/-- A read through a LOCAL segment finds the station's own store. -/
theorem segRead_of_local {q : Seg} (store : q.isLocal = true) (off n : Nat) :
    segRead s th q off n = (s, .ok (rdL s (localKey (tidPart th.tid) th.station (q.base + off)) n)) := by
  rw [segRead, placeOf, if_pos store]

theorem spawnSendsAPacket : SpawnSendsAPacket := by
  intro s w th d a b t g h fp q off e to_ admitted
  have block {u : State} {l : List Byte} (adm : admitted u l) : BlockAdmitted u th l := by
    obtain ⟨prio, reserved, ranges, priority, target, footprint⟩ := adm
    exact ⟨prio, reserved, ranges, priority, target, footprint⟩
  refine ⟨fun bad => gives_err (t := trapAt th 0x1D e) h exec_spawn (spawnRes_tag bad),
    fun good code => gives_err (t := trapAt th 0x04 e) h exec_spawn (spawnRes_graph good code),
    fun good code c refused => gives_err (t := trapAt th c e) h exec_spawn (spawnRes_entry good code refused),
    fun pc s' blk good code entered read kind inside aligned got => ?_,
    fun below multiple right low high read store kind aligned inside adm => ?_⟩
  · have reads := spawnRes_reads (s := s) (d := d) (t := t) good code entered read kind inside aligned
    rw [got] at reads
    exact ⟨fun p refused => gives_ok h exec_spawn (reads.trans (blockRes_trap refused)),
      fun adm => gives_ok h exec_spawn (reads.trans (blockRes_admitted (block adm)))⟩
  · obtain ⟨good, code⟩ := porlekTag below
    obtain ⟨-, -, -, enters⟩ := porlekEntry_checks (rseg th 0) fp
    rw [Nat.mod_eq_of_lt below] at enters
    have reads := spawnRes_reads (s := s) (d := d) (t := t) good code (enters multiple right low high) read
      (by rw [kind]; decide) inside aligned
    rw [segRead_of_local store, blockRes_admitted (block adm)] at reads
    obtain ⟨u, o, id, k, due, sends⟩ := spawned_sends (s := s) (d := d) (t := t) fp _ (h.2.2 rfl)
    exact ⟨_, u, o, id, k, due, gives_ok h exec_spawn reads, sends⟩

/-- Settles O38: past its checks, a SPAWN leaves a packet under way and its parent parked, and a MIGR the thread itself as a packet. -/
theorem threadsLeaveTheCore : Obligations.ThreadsLeaveTheCore := ⟨spawnSendsAPacket, Migration.migrationLeavesTheCore⟩

end Sys2Proof.Spawning

namespace Sys2Proof.StrayMonitors

open Sys2Proof Machine StrayThreads

/-- The MONARM of thread 1 leaves a thread under its number that is not parked. -/
theorem monarm_strayed : ∃ t, exec (.monarm false 0 0 0) strayed = .next t ∧ (getThr t loader.tid).map (·.st) = some .ready :=
  ⟨_, rfl, by decide +kernel⟩

/-- Refutes O40 in the clause of MONARM (R416), for the same reason as O31: the statement does not say that each thread stands under its own
number. The MONARM of thread 1 sends the combining sector of its line first (R327); the D bit that this sets triggers the monitor of the
thread under number 2, which calls itself 1 and is put back under number 1, over the one that the MONARM has just parked. -/
theorem not_monitorsAndMessages : ¬ Obligations.MonitorsAndMessages := by
  rintro ⟨monitors, -⟩
  obtain ⟨-, -, arms, -⟩ := monitors strayed false loader 0 0 0 false 0 ready_loader
  obtain ⟨t, u, -, next, found, parked, -⟩ := arms (by decide +kernel) (by decide +kernel) (by decide +kernel)
  obtain ⟨v, performed, ready⟩ := monarm_strayed
  obtain rfl := Host.Outcome.next.inj (performed.symm.trans next)
  rw [found, Option.map_some, Option.some_inj, parked] at ready
  cases ready

end Sys2Proof.StrayMonitors

namespace Sys2Proof.AgendaFirst

open Sys2Proof Machine

variable {s : State} {pre post : List (Nat × Event)} {d : Nat} {e : Event}

/-- Events that are not yet due, or held back by their tile, are passed over. -/
theorem dueEvent_first (later : ∀ x ∈ pre, s.time < x.1 ∨ heldBack s x.2 = true) (due : d ≤ s.time) (free : heldBack s e = false) :
    dueEvent s (pre ++ (d, e) :: post) = some (e, pre ++ post) := by
  induction pre with
  | nil => rw [List.nil_append, dueEvent, if_pos ⟨due, by rw [free]; rfl⟩]; rfl
  | cons x pre ih =>
    have passed : ¬ (x.1 ≤ s.time ∧ (!heldBack s x.2) = true) := by
      rintro ⟨now, loose⟩
      rcases later x List.mem_cons_self with ahead | held
      · exact Nat.not_le.mpr ahead now
      · rw [held] at loose
        cases loose
    rw [List.cons_append, dueEvent, if_neg passed, ih fun y hy => later y (List.mem_cons_of_mem x hy)]
    rfl

/-- The row of the event that is due first comes before any unit, and does not use the unit's turn. -/
theorem step_of_dueEvent {l : List (Nat × Event)} (live : s.live = true) (due : dueEvent s s.agenda = some (e, l)) :
    step s = afterExec s { s with agenda := l, hand := .event e } false e.instr
      (exec e.instr { s with agenda := l, hand := .event e }) := by
  have taken : turn s = (({ s with agenda := l, hand := .event e }, some e.instr), false) := by rw [turn, if_pos live, due]
  rw [step, taken]

/-- Settles O7: the agenda's search stops at the event, and its row, which waits for nothing, only puts the event out of hand. -/
theorem stepPerformsTheFirstDueEvent : Obligations.StepPerformsTheFirstDueEvent := by
  intro s pre post d e live agenda later due free t performs calm
  rw [step_of_dueEvent live (agenda ▸ dueEvent_first later due free), performs, afterExec, calm]
  rfl

end Sys2Proof.AgendaFirst

namespace Sys2Proof.AtReset

open Sys2Proof Machine

theorem vget_replicate {α : Type} [Inhabited α] {n i : Nat} (x : α) (h : i < n) : vget (Vector.replicate n x) i = x := by
  rw [vget, dif_pos h, Vector.getElem_replicate]

theorem vget_set_zero_replicate {α : Type} [Inhabited α] {n i : Nat} (x y : α) (h : i < n) :
    vget ((Vector.replicate n x).set 0 y (Nat.zero_lt_of_lt h)) i = if i = 0 then y else x := by
  rw [vget, dif_pos h, Vector.getElem_set, Vector.getElem_replicate]
  exact if_congr eq_comm rfl rfl

/-- Settles O12: no map of the reset state lists an entry, so that each thread, station and partition has the values of its structure. -/
theorem resetState : Obligations.ResetState :=
  ⟨⟨rfl, rfl, rfl⟩, rfl, rfl, rfl, fun _ => rfl, fun _ => rfl,
    fun _ => ⟨rfl, rfl, fun _ => vget_replicate none,
      fun _ h => ⟨vget_replicate 0x00100000 h, congrArg Group.mode (vget_replicate ({} : Group) h)⟩,
      fun _ h => congrArg Igen.st (vget_replicate ({} : Igen) h)⟩,
    fun _ => vget_set_zero_replicate 0 3⟩

end Sys2Proof.AtReset

namespace Sys2Proof.TrapsAndReturns

open Sys2Proof Machine Laws

variable {s : State} {w : Bool} {th : Thread} {p : PendTrap}

/-! ### A trap that is not about an access (R483, R485) -/

/-- A thread with the fault registers of a trap that is not about an access. -/
def faulting (th : Thread) (p : PendTrap) : Thread :=
  { th with cause := BitVec.ofNat 64 (p.cause.toNat + b2n p.deferred * 256), epc := pcBits p.epc, mpc := pcBits p.mpc,
            faddr := p.faddr, finfo := p.finfo, pend := none, relDone := false, cur := none }

/-- A thread that is inside its handler, or has none, ends FAULTED. -/
theorem takeTrap_ends (acc : p.acc = none) (unhandled : th.inh = true ∨ th.tvec = 0) :
    takeTrap s th p = beginEnd s (faulting th p) .faulted p.cause 0 := by
  rw [takeTrap, acc, if_pos (by rwa [Bool.or_eq_true, beq_iff_eq])]
  rfl

/-- In its handler a thread has besides the fault registers the state that the trap saved. -/
theorem inHandler_eq (acc : p.acc = none) :
    IllegalWords.inHandler th p = { faulting th p with ps := th.sup, sup := true, inh := true, pc := th.tvec } := by
  rw [IllegalWords.inHandler, acc]
  rfl

/-! ### TRAP (R506) -/

/-- The trap that TRAP raises. -/
def trapOfCode (th : Thread) (c : BitVec 12) : PendTrap :=
  { cause := 0x1C, epc := th.pc, mpc := th.pc + 4, faddr := c.setWidth 64, finfo := 5 }

/-- A thread with the fault registers of its TRAP. -/
def called (th : Thread) (c : BitVec 12) : Thread :=
  { th with cause := 0x1C, epc := th.pc &&& 0x00FFFFFFFFFFFFFC, mpc := (th.pc + 4) &&& 0x00FFFFFFFFFFFFFC,
            faddr := c.setWidth 64, finfo := 5, pend := none, relDone := false, cur := none }

theorem faulting_trapOfCode (th : Thread) (c : BitVec 12) : faulting th (trapOfCode th c) = called th c := by
  simp [faulting, trapOfCode, called, pcBits, b2n]

theorem gives_trap (h : Ready s w th) (c : BitVec 12) : Gives (.trap w c) s (takeTrap s th (trapOfCode th c)) :=
  Eq.trans (b := execTrap w c s) rfl (issue_err h rfl)

theorem gives_trap_handled (h : Ready s w th) (c : BitVec 12) (outside : th.inh = false) (handler : th.tvec ≠ 0) :
    Gives (.trap w c) s (setThr s { called th c with ps := th.sup, sup := true, inh := true, pc := th.tvec }) := by
  rw [← faulting_trapOfCode, ← inHandler_eq rfl, ← IllegalWords.takeTrap_inHandler outside handler]
  exact gives_trap h c

theorem gives_trap_unhandled (h : Ready s w th) (c : BitVec 12) (unhandled : th.inh = true ∨ th.tvec = 0) :
    Gives (.trap w c) s (beginEnd s (called th c) .faulted 0x1C 0) := by
  have ends : takeTrap s th (trapOfCode th c) = beginEnd s (faulting th (trapOfCode th c)) .faulted 0x1C 0 := takeTrap_ends rfl unhandled
  rw [← faulting_trapOfCode, ← ends]
  exact gives_trap h c

/-! ### ERET (R484) -/

/-- What ERET comes to. -/
def eretRes (s : State) (th : Thread) : Res := if th.inh then .ok (eret s th) else .error (trapOp th 0x01)

theorem exec_eret : exec (.eret w) s = issue true s fun s th => supOnly th (eretRes s th) :=
  Eq.trans (b := execEret w s) rfl rfl

theorem supOnly_of_sup (sup : th.sup = true) (r : Res) : supOnly th r = r := if_pos sup

theorem gives_eret (h : Ready s true th) (sup : th.sup = true) (inside : th.inh = true) : Gives (.eret w) s (eret s th) :=
  gives_ok h exec_eret ((supOnly_of_sup sup _).trans (if_pos inside))

theorem gives_eret_outside (h : Ready s true th) (sup : th.sup = true) (outside : th.inh = false) :
    Gives (.eret w) s (trapState s th 0x01 0 2) :=
  gives_err (t := trapOp th 0x01) h exec_eret ((supOnly_of_sup sup _).trans (if_neg (by rw [outside]; decide)))

/-- With no frame, no access kept and no further trap, the return only leaves the handler. -/
theorem eret_of_plain (kept : th.kept = []) (frame : th.faultFrame = none) (pend : th.pend = none) (pends : th.pends = []) :
    eret s th = setThr s { th with sup := th.ps, inh := false, pc := th.mpc, cur := none } := by
  cases th
  subst kept frame pend pends
  rfl

/-- Settles O45: TRAP raises its trap in either mode; ERET asks for its mode first, and then for its place in a handler. -/
theorem trapsAndReturns : Obligations.TrapsAndReturns := by
  intro s w th c h e
  refine ⟨gives_trap_handled h c, gives_trap_unhandled h c, fun ops => ?_⟩
  have ready := ready_strengthen h ops
  refine ⟨fun user => exec_eret.trans (UserMode.issue_supOnly_user ready user), gives_eret_outside ready, ?_, gives_eret ready⟩
  intro sup inside kept frame pend pends
  rw [← eret_of_plain kept frame pend pends]
  exact gives_eret ready sup inside

end Sys2Proof.TrapsAndReturns

namespace Sys2Proof.Supervision

open Sys2Proof Machine Laws Parking TrapsAndReturns

variable {s : State} {w : Bool} {th x : Thread} {d a b : BitVec 5} {n : BitVec 3} {u : BitVec 2} {c : BitVec 9} {t : Word}

/-! ### A supervisor's instruction (R86) -/

section

variable {i : Instr} {r : State → Thread → Res} (h : Ready s true th) (sup : th.sup = true)
  (hi : exec i s = issue w s fun s th => supOnly th (r s th))
include h sup hi

/-- In supervisor mode a supervisor's instruction does what it computes. -/
theorem gives_sup {t : State} (goes : r s th = .ok t) : Gives i s t :=
  gives_ok (ready_weaken h w) hi ((supOnly_of_sup sup _).trans goes)

theorem traps_sup {p : PendTrap} (fails : r s th = .error p) : Gives i s (takeTrap s th p) :=
  gives_err (ready_weaken h w) hi ((supOnly_of_sup sup _).trans fails)

end

/-! ### TLBINV (R460, R508) -/

/-- The bits of an offset in a page of the size that TLBINV names. -/
def pageBits (u : BitVec 2) : Nat := if u = 0 then 12 else if u = 1 then 16 else if u = 2 then 21 else 30

/-- The first address behind the pages that TLBINV names. -/
def pagesEnd (th : Thread) (a : BitVec 5) (u : BitVec 2) (c : BitVec 9) : Nat := (rg th a).toNat + (c.toNat + 1) * 2 ^ pageBits u

/-- What TLBINV of a range comes to. -/
def tlbinvRes (a : BitVec 5) (u : BitVec 2) (c : BitVec 9) (s : State) (th : Thread) : Res :=
  if (rg th a).toNat % 2 ^ pageBits u ≠ 0 then .error (trapAt th 0x05 (rg th a))
  else if 2 ^ 56 ≤ (rg th a).toNat ∨ 2 ^ 56 < pagesEnd th a u c then .error (trapAt th 0x03 (rg th a))
  else .ok (tlbInval s th (rg th a).toNat (pagesEnd th a u c))

theorem pageSize_cases (u : BitVec 2) : u = 0 ∨ u = 1 ∨ u = 2 ∨ u = 3 := by
  revert u
  decide

theorem exec_tlbinv : exec (.tlbinv w a u c) s = issue true s fun s th => supOnly th (tlbinvRes a u c s th) := by
  refine Eq.trans (b := execTlbinv w a u c s) rfl ?_
  rcases pageSize_cases u with rfl | rfl | rfl | rfl <;> rfl

/-- TLBINV checks that its address is aligned to the page, then that its pages lie below 2^56. -/
theorem tlbinvResults (h : Ready s true th) (sup : th.sup = true) :
    ((rg th a).toNat % 2 ^ pageBits u ≠ 0 → Gives (.tlbinv w a u c) s (trapState s th 0x05 (rg th a) 2)) ∧
    ((rg th a).toNat % 2 ^ pageBits u = 0 → 2 ^ 56 ≤ (rg th a).toNat ∨ 2 ^ 56 < pagesEnd th a u c →
      Gives (.tlbinv w a u c) s (trapState s th 0x03 (rg th a) 2)) ∧
    ((rg th a).toNat % 2 ^ pageBits u = 0 → (rg th a).toNat < 2 ^ 56 → pagesEnd th a u c ≤ 2 ^ 56 →
      Gives (.tlbinv w a u c) s (tlbInval s th (rg th a).toNat (pagesEnd th a u c))) := by
  refine ⟨fun unaligned => ?_, fun aligned beyond => ?_, fun aligned low inside => ?_⟩
  · exact traps_sup (p := trapAt th 0x05 (rg th a)) h sup exec_tlbinv (if_pos unaligned)
  · exact traps_sup (p := trapAt th 0x03 (rg th a)) h sup exec_tlbinv ((if_neg (not_not_intro aligned)).trans (if_pos beyond))
  · refine gives_sup h sup exec_tlbinv ((if_neg (not_not_intro aligned)).trans (if_neg ?_))
    rintro (high | beyond)
    · exact Nat.not_le.mpr low high
    · exact Nat.not_le.mpr beyond inside

theorem gives_tlbinvAll (h : Ready s true th) (sup : th.sup = true) : Gives (.tlbinvAll w) s (tlbInval s th 0 (2 ^ 56)) :=
  gives_sup h sup (r := fun s th => .ok (tlbInval s th 0 (2 ^ 56))) (Eq.trans (b := execTlbinvAll w s) rfl rfl) rfl

/-! ### REPLAY (R487) -/

/-- The state behind a REPLAY of the access acc. -/
def replayed (s : State) (th : Thread) (d : BitVec 5) (acc : Access) : State :=
  let x := issueAccess s th th.pc acc (some d)
  let y := (getThr x th.tid).getD th
  drainFor (parkThr x y .marker) y

/-- No access can be replayed: outside a handler, or where the trap was not about one. -/
def unreplayable (th : Thread) : Bool := !th.inh || (bits th.finfo.toNat 7 0 != 0 && bits th.finfo.toNat 7 0 != 4)

/-- What REPLAY comes to. -/
def replayRes (d : BitVec 5) (s : State) (th : Thread) : Res :=
  match th.cur with
  | some q => if unreplayable th || q.replayed then .ok (setG s th d 0xFF) else .ok (replayed s th d q.acc)
  | none => .ok (setG s th d 0xFF)

theorem exec_replay : exec (.replay w d) s = issue true s fun s th => supOnly th (replayRes d s th) :=
  Eq.trans (b := execReplay w d s) rfl rfl

theorem replayResults (h : Ready s true th) (sup : th.sup = true) :
    (th.cur = none → Gives (.replay w d) s (setG s th d 0xFF)) ∧
    ∀ q, th.cur = some q →
      (unreplayable th = true ∨ q.replayed = true → Gives (.replay w d) s (setG s th d 0xFF)) ∧
      (unreplayable th = false → q.replayed = false → Gives (.replay w d) s (replayed s th d q.acc)) := by
  refine ⟨fun idle => ?_, fun q cur => ⟨fun refused => ?_, fun able fresh => ?_⟩⟩ <;> refine gives_sup h sup exec_replay ?_
  · simp only [replayRes, idle]
  · simp only [replayRes, cur]
    exact if_pos ((Bool.or_eq_true ..).mpr refused)
  · simp only [replayRes, cur, able, fresh, Bool.or_self, Bool.false_eq_true, if_false]

/-! ### Held threads and save areas (R490, R492) -/

/-- Thread x stands under t, held on the core and in the partition of th, and does not end. -/
def HeldWith (s : State) (th : Thread) (t : Word) (x : Thread) : Prop :=
  getThr s t = some x ∧ x.st = .parked .held ∧ x.station = th.station ∧ tidPart t = tidPart th.tid ∧ x.ending = none

theorem heldHere_eq_some_iff : heldHere s th t = some x ↔ HeldWith s th t x := by
  simp only [heldHere, HeldWith, Option.filter_eq_some_iff, Bool.and_eq_true, beq_iff_eq, Option.isNone_iff_eq_none, and_assoc]

theorem heldHere_eq_none (absent : ∀ x, ¬ HeldWith s th t x) : heldHere s th t = none :=
  Option.eq_none_iff_forall_ne_some.mpr fun x held => absent x (heldHere_eq_some_iff.mp held)

/-- The checks of a save area of 264 bytes pass, wr for one that is written. -/
def AreaAdmits (s : State) (th : Thread) (g : Seg) (off : DWord) (wr : Bool) : Prop :=
  g.pinned = true ∧ (wr = true → g.write = true ∧ (g.type = 1 → kget (part s (tidPart th.tid)).seals g.idx = none)) ∧
  (wr = false → g.read = true) ∧ off.toNat % 8 = 0 ∧ off.toNat + 264 ≤ g.limit

theorem areaTrap_of_admits {g : Seg} {off : DWord} {wr : Bool} (admits : AreaAdmits s th g off wr) : areaTrap s th g off wr = none := by
  obtain ⟨pinned, write, read, aligned, inside⟩ := admits
  have rights : (!g.pinned || (if wr then !g.write || sealedSeg s (tidPart th.tid) g else !g.read)) = false := by
    cases wr with
    | false => simp [pinned, read]
    | true =>
      obtain ⟨write, buffer⟩ := write rfl
      have unsealed : sealedSeg s (tidPart th.tid) g = false := by
        rw [sealedSeg, Bool.and_eq_false_imp]
        exact fun kind => by rw [buffer (beq_iff_eq.mp kind)]; rfl
      simp [pinned, write, unsealed]
  rw [areaTrap, rights, if_neg Bool.false_ne_true, if_neg (not_not_intro aligned), if_neg (Nat.not_lt.mpr inside)]

/-! ### The answer of CTXSV and CTXLD (R35, R493, R494) -/

/-- The operation by which a thread awaits the status of its CTXSV or CTXLD of thread x. -/
def statusOp (th : Thread) (d : BitVec 5) (v : DWord) (x : Word) : LongOp :=
  { id := th.nextOp, pc := th.pc, dest := .g d, res := [(0, v)], hold := true, ctx := some x }

/-- A thread that awaits the status v of its CTXSV or CTXLD of thread x. -/
def awaiting (th : Thread) (d : BitVec 5) (v : DWord) (x : Word) (p : BitVec 2) : Thread :=
  { th with pc := th.pc + 4, nextOp := th.nextOp + 1, ops := [statusOp th d v x], prio := p, st := .parked .marker }

/-- An answer whose operation carries the number of the thread worked on. -/
theorem answerCtx_eq (found : getThr s th.tid = some th) (ops : th.ops = []) (d : BitVec 5) (v : DWord) (x : Word) :
    ∃ p, answerCtx s th.tid d v x = setThr (answer s th d v pathTClass) (awaiting th d v x p) := by
  obtain ⟨p, parked⟩ := getThr_parkThr s (asking th d v) .marker
  have parked : getThr (answer s th d v pathTClass) th.tid = some { asking th d v with prio := p, st := .parked .marker } := parked
  refine ⟨p, ?_⟩
  rw [answerCtx, found, Option.getD_some, modThr, parked]
  refine congrArg (setThr (answer s th d v pathTClass)) ?_
  simp [asking, addOp, ops, awaiting, statusOp]

/-- A thread that parks moves no other. -/
theorem getThr_parkThr_other (why : Park) (other : th.tid ≠ t) : getThr (parkThr s th why) t = getThr s t := by
  have threads : (leaveSlot s th).1.threads = s.threads := by rw [leaveSlot]; split <;> rfl
  obtain ⟨p, left⟩ := leaveSlot_thread s th
  rw [parkThr, getThr_setThr_other _ _ (by rwa [left]), getThr, threads, getThr]

/-- The caller parks behind its instruction with the one operation that writes the status; no other thread moves. -/
theorem getThr_answerCtx (found : getThr s th.tid = some th) (ops : th.ops = []) (d : BitVec 5) (v : DWord) (x : Word) :
    (∃ p, getThr (answerCtx s th.tid d v x) th.tid = some (awaiting th d v x p)) ∧
    ∀ t, th.tid ≠ t → getThr (answerCtx s th.tid d v x) t = getThr s t := by
  obtain ⟨p, answered⟩ := answerCtx_eq found ops d v x
  rw [answered]
  exact ⟨⟨p, getThr_setThr _ _⟩, fun t other => 
    (getThr_setThr_other _ (awaiting th d v x p) other).trans (getThr_parkThr_other (th := asking th d v) .marker other)⟩

/-- The answer of a CTXSV or CTXLD touches no memory. -/
theorem memory_answerCtx (t : Word) (d : BitVec 5) (v : DWord) (x : Word) :
    (answerCtx s t d v x).mem = s.mem ∧ (answerCtx s t d v x).wbuf = s.wbuf := by
  have parks (th : Thread) : (parkThr s th .marker).mem = s.mem ∧ (parkThr s th .marker).wbuf = s.wbuf := by
    rw [parkThr, leaveSlot]
    split <;> exact ⟨rfl, rfl⟩
  rw [answerCtx, modThr]
  split <;> exact parks _

/-! ### LOCAL save areas (R22, R491) -/

/-- The bytes of a range that has just been written are the ones written, and the others stay. -/
theorem rdB_wrL (k : Nat) (l : List Byte) (m : Nat) :
    rdB (wrL s k l) m = if k ≤ m ∧ m < k + l.length then l.getD (m - k) 0 else rdB s m := by
  have written (j : Nat) : rdB ((List.range j).foldl (fun s i => wrB s (k + i) (l.getD i 0)) s) m =
      if k ≤ m ∧ m < k + j then l.getD (m - k) 0 else rdB s m := by
    induction j with
    | zero => exact (if_neg (by omega)).symm
    | succ j ih =>
      rw [List.range_succ, List.foldl_concat, rdB_wrB, ih]
      by_cases last : k + j = m
      · subst last
        rw [if_pos rfl, if_pos (by omega), Nat.add_sub_cancel_left]
      · rw [if_neg last]
        exact if_congr (by omega) rfl rfl
  exact written l.length

theorem length_natLe (n x : Nat) : (natLe n x).length = n := by
  induction n generalizing x with
  | zero => rfl
  | succ n ih => rw [natLe, List.length_cons, ih]

/-- The image of a context has 33 words (R491). -/
theorem length_saveImage (x : Thread) : (saveImage x).length = 264 := by
  simp [saveImage, length_natLe, List.length_flatMap]

/-- The place of an offset of a LOCAL segment. -/
def areaKey (th : Thread) (g : Seg) (off : DWord) : Nat := localKey (tidPart th.tid) th.station (g.base + off.toNat)

theorem segWrite_of_local {g : Seg} (store : g.isLocal = true) (off : DWord) (l : List Byte) :
    segWrite s th g off.toNat l = (localWrite s (tidPart th.tid) (areaKey th g off) l, none) := by
  rw [segWrite, placeOf, if_pos store, areaKey]

/-- What a row has to wait for is noted outside memory. -/
theorem rdB_localWrite (pn k : Nat) (l : List Byte) (m : Nat) :
    rdB (localWrite s pn k l) m = if k ≤ m ∧ m < k + l.length then l.getD (m - k) 0 else rdB s m := rdB_wrL k l m

/-- A write is gathered, and leaves threads and the memory that the step found. -/
theorem wrL_frame (k : Nat) (l : List Byte) : (wrL s k l).threads = s.threads ∧ (wrL s k l).mem = s.mem := by
  have step (l : List Nat) (f : Nat → Byte) (s : State) : (l.foldl (fun s i => wrB s (k + i) (f i)) s).threads = s.threads ∧
      (l.foldl (fun s i => wrB s (k + i) (f i)) s).mem = s.mem := by
    induction l generalizing s with
    | nil => exact ⟨rfl, rfl⟩
    | cons i l ih => exact ih _
  exact step _ _ s

theorem localWrite_frame (pn k : Nat) (l : List Byte) : (localWrite s pn k l).threads = s.threads ∧ (localWrite s pn k l).mem = s.mem :=
  wrL_frame k l

/-- A byte after a step is what the step saw last, on the memory that it found. -/
theorem rdB_settle_of_mem {u : State} (found : u.mem = s.mem) (k : Nat) : rdB (settle s u) k = rdB u k := by
  rw [rdB_settle, ← found, rdB]

/-- A context loaded into a thread leaves its number (R494). -/
theorem loadImage_tid (x : Thread) (l : Frame) : (loadImage x l).tid = x.tid := by
  have regs (l : List Nat) (f : Nat → DWord) (y : Thread) : (l.foldl (fun y i => wgN y (i + 1) (f i)) y).tid = y.tid := by
    induction l generalizing y with
    | nil => rfl
    | cons i l ih => exact (ih _).trans (wg_tid ..)
  exact regs _ _ _

/-! ### CTXSV and CTXLD (R493, R494) -/

section

variable (h : Ready s true th) (sup : th.sup = true)
include h sup

theorem ctxsv_area_traps {p : PendTrap} (fails : areaTrap s th (rseg th n) (rg th b) true = some p) :
    Gives (.ctxsv w d a b n) s (takeTrap s th p) := by
  refine traps_sup h sup (Eq.trans (b := execCtxsv w d a b n s) rfl rfl) ?_
  simp only [fails]

theorem ctxld_area_traps {p : PendTrap} (fails : areaTrap s th (rseg th n) (rg th b) false = some p) :
    Gives (.ctxld w d a b n) s (takeTrap s th p) := by
  refine traps_sup h sup (Eq.trans (b := execCtxld w d a b n s) rfl rfl) ?_
  simp only [fails]

theorem ctxsv_absent (area : AreaAdmits s th (rseg th n) (rg th b) true) (absent : ∀ x, ¬ HeldWith s th (tidArg th a) x) :
    Gives (.ctxsv w d a b n) s (answer s th d 1 1) := by
  refine gives_sup h sup (Eq.trans (b := execCtxsv w d a b n s) rfl rfl) ?_
  simp only [areaTrap_of_admits area, heldHere_eq_none absent]

theorem ctxld_absent (area : AreaAdmits s th (rseg th n) (rg th b) false) (absent : ∀ x, ¬ HeldWith s th (tidArg th a) x) :
    Gives (.ctxld w d a b n) s (answer s th d 1 1) := by
  refine gives_sup h sup (Eq.trans (b := execCtxld w d a b n s) rfl rfl) ?_
  simp only [areaTrap_of_admits area, heldHere_eq_none absent]

theorem ctxld_loads {y : State} {l : List Byte} (area : AreaAdmits s th (rseg th n) (rg th b) false)
    (held : HeldWith s th (tidArg th a) x) (read : segRead s th (rseg th n) (rg th b).toNat 264 = (y, .ok l)) :
    Gives (.ctxld w d a b n) s (answerCtx (setThr y (loadImage x l)) th.tid d 0 x.tid) := by
  refine gives_sup h sup (Eq.trans (b := execCtxld w d a b n s) rfl rfl) ?_
  simp only [areaTrap_of_admits area, heldHere_eq_some_iff.mpr held, read]

theorem ctxld_fails {y : State} {e : DFault} (area : AreaAdmits s th (rseg th n) (rg th b) false)
    (held : HeldWith s th (tidArg th a) x) (read : segRead s th (rseg th n) (rg th b).toNat 264 = (y, .error e)) :
    Gives (.ctxld w d a b n) s (answerCtx y th.tid d 3 x.tid) := by
  refine gives_sup h sup (Eq.trans (b := execCtxld w d a b n s) rfl rfl) ?_
  simp only [areaTrap_of_admits area, heldHere_eq_some_iff.mpr held, read]

theorem ctxsv_saves {y : State} (area : AreaAdmits s th (rseg th n) (rg th b) true) (held : HeldWith s th (tidArg th a) x)
    (idle : x.ops = []) (written : segWrite s th (rseg th n) (rg th b).toNat (saveImage x) = (y, none)) :
    Gives (.ctxsv w d a b n) s (answerCtx y th.tid d 0 x.tid) := by
  refine gives_sup h sup (Eq.trans (b := execCtxsv w d a b n s) rfl rfl) ?_
  simp only [areaTrap_of_admits area, heldHere_eq_some_iff.mpr held, written, idle, List.countP_nil, if_true]

/-- A context loaded from a LOCAL area has the words that stand there. -/
theorem ctxld_local (area : AreaAdmits s th (rseg th n) (rg th b) false) (held : HeldWith s th (tidArg th a) x)
    (store : (rseg th n).isLocal = true) (other : x.tid ≠ th.tid) :
    ∃ y u o, exec (.ctxld w d a b n) s = .next y ∧
      getThr y x.tid = some (loadImage x (rdL s (areaKey th (rseg th n) (rg th b)) 264)) ∧
      getThr y th.tid = some u ∧ u.pc = th.pc + 4 ∧ u.st = .parked .marker ∧ o ∈ u.ops ∧ o.dest = .g d ∧
      kget o.res 0 = some 0 ∧ o.ctx = some x.tid := by
  have loads := ctxld_loads (w := w) (d := d) h sup area held (Spawning.segRead_of_local store (rg th b).toNat 264)
  have tid := loadImage_tid x (rdL s (areaKey th (rseg th n) (rg th b)) 264)
  have found := (getThr_setThr_other s (loadImage x _) (by rw [tid]; exact other)).trans h.2.1
  obtain ⟨⟨p, parked⟩, others⟩ := getThr_answerCtx found (h.2.2 rfl) d 0 x.tid
  exact ⟨_, _, _, loads, (others x.tid other.symm).trans (tid ▸ getThr_setThr s (loadImage x _)), parked, rfl, rfl,
    List.mem_singleton_self _, rfl, rfl, rfl⟩

/-- A context saved in a LOCAL area is there in its 33 words, and every other byte stays. -/
theorem ctxsv_local (area : AreaAdmits s th (rseg th n) (rg th b) true) (held : HeldWith s th (tidArg th a) x) (idle : x.ops = [])
    (store : (rseg th n).isLocal = true) :
    ∃ y u o, exec (.ctxsv w d a b n) s = .next y ∧ getThr y th.tid = some u ∧ u.pc = th.pc + 4 ∧ u.st = .parked .marker ∧
      o ∈ u.ops ∧ o.dest = .g d ∧ kget o.res 0 = some 0 ∧ o.ctx = some x.tid ∧
      ∀ k, rdB y k = if areaKey th (rseg th n) (rg th b) ≤ k ∧ k < areaKey th (rseg th n) (rg th b) + 264
        then (saveImage x).getD (k - areaKey th (rseg th n) (rg th b)) 0 else rdB s k := by
  have saves := ctxsv_saves (w := w) (d := d) h sup area held idle (segWrite_of_local store (rg th b) (saveImage x))
  generalize areaKey th (rseg th n) (rg th b) = key at saves ⊢
  obtain ⟨answer_mem, answer_wbuf⟩ := memory_answerCtx (s := localWrite s (tidPart th.tid) key (saveImage x)) th.tid d 0 x.tid
  obtain ⟨threads, mem⟩ := localWrite_frame (s := s) (tidPart th.tid) key (saveImage x)
  have found := (congrArg (kget · th.tid.toNat) threads).trans h.2.1
  obtain ⟨⟨p, parked⟩, -⟩ := getThr_answerCtx found (h.2.2 rfl) d 0 x.tid
  refine ⟨_, _, _, saves, (getThr_settle ..).trans parked, rfl, rfl, List.mem_singleton_self _, rfl, rfl, rfl, fun k => ?_⟩
  rw [rdB_settle_of_mem (answer_mem.trans mem), rdB, answer_wbuf, answer_mem]
  exact (rdB_localWrite (s := s) (tidPart th.tid) key (saveImage x) k).trans (by rw [length_saveImage])

end

/-! ### The run queue (R490, R495 to R497) -/

section

variable (h : Ready s true th) (sup : th.sup = true)
include h sup

theorem rqpush_absent (absent : ∀ x, ¬ HeldWith s th (tidArg th a) x) : Gives (.rqpush w d a b) s (answer s th d 1 1) := by
  refine gives_sup h sup (Eq.trans (b := execRqpush w d a b s) rfl rfl) ?_
  simp only [heldHere_eq_none absent]

theorem rqpush_releases (held : HeldWith s th (tidArg th a) x) :
    Gives (.rqpush w d a b) s (answer (makeReady s { x with prio := (rg th b).setWidth 2 }) th d 0 1) := by
  refine gives_sup h sup (Eq.trans (b := execRqpush w d a b s) rfl rfl) ?_
  simp only [heldHere_eq_some_iff.mpr held]

theorem rqpop_empty (empty : readyAt s th ((rg th a).setWidth 2) = []) : Gives (.rqpop w d a) s (answer s th d 0 1) := by
  refine gives_sup h sup (Eq.trans (b := execRqpop w d a s) rfl rfl) ?_
  simp only [BitVec.truncate_eq_setWidth, empty]

theorem rqpop_holds {l : List Thread} (head : readyAt s th ((rg th a).setWidth 2) = x :: l) :
    Gives (.rqpop w d a) s (answer (holdThr s x) th d (BitVec.ofNat 64 x.tid.toNat) 1) := by
  refine gives_sup h sup (Eq.trans (b := execRqpop w d a s) rfl rfl) ?_
  simp only [BitVec.truncate_eq_setWidth, head, BitVec.ofNat_toNat]

theorem rqpopId_absent (absent : popTarget s th (tidArg th a) = none) : Gives (.rqpopId w d a) s (answer s th d 0 1) := by
  refine gives_sup h sup (Eq.trans (b := execRqpopId w d a s) rfl rfl) ?_
  simp only [absent]

theorem rqpopId_self (target : popTarget s th (tidArg th a) = some x) (self : tidArg th a = th.tid) :
    Gives (.rqpopId w d a) s (holdThr s (nextPc (wg th d ((tidArg th a).setWidth 64)))) := by
  refine gives_sup h sup (Eq.trans (b := execRqpopId w d a s) rfl rfl) ?_
  simp only [target, if_pos self]

/-- A thread with no trap pending is held as it stands. -/
theorem rqpopId_holds (target : popTarget s th (tidArg th a) = some x) (other : tidArg th a ≠ th.tid) (calm : x.pend = none) :
    Gives (.rqpopId w d a) s (answer (holdThr s x) th d ((tidArg th a).setWidth 64) 64) := by
  refine gives_sup h sup (Eq.trans (b := execRqpopId w d a s) rfl rfl) ?_
  simp only [target, if_neg other, calm]
  cases x.st <;> simp only [target]

theorem rqpopKill_self (self : tidArg th a = th.tid) : Gives (.rqpopKill w d a) s (killThr s (tidArg th a)) :=
  gives_sup h sup (Eq.trans (b := execRqpopKill w d a s) rfl rfl) (if_pos self)

theorem rqpopKill_absent (other : tidArg th a ≠ th.tid) (absent : getThr s (tidArg th a) = none) :
    Gives (.rqpopKill w d a) s (answer s th d 0 360) := by
  refine gives_sup h sup (Eq.trans (b := execRqpopKill w d a s) rfl rfl) ?_
  simp only [absent, if_neg other]

/-- A thread of the partition that has not begun to end is killed. -/
theorem rqpopKill_kills (other : tidArg th a ≠ th.tid) (target : getThr s (tidArg th a) = some x) (live : x.st.live = true)
    (going : x.ending = none) (own : tidPart (tidArg th a) = tidPart th.tid) {o : Thread}
    (caller : getThr (killThr s (tidArg th a)) th.tid = some o) :
    Gives (.rqpopKill w d a) s (answer (killThr s (tidArg th a)) o d ((tidArg th a).setWidth 64) 360) := by
  refine gives_sup h sup (Eq.trans (b := execRqpopKill w d a s) rfl rfl) ?_
  have mortal : ¬ ((!x.st.live || x.ending.isSome || decide (tidPart (tidArg th a) ≠ tidPart th.tid)) = true) := by
    simp [live, going, own]
  simp only [target, if_neg other, if_neg mortal, caller, Option.getD_some]

theorem gives_rqpeek : Gives (.rqpeek w d a) s (setG s th d (BitVec.ofNat 64
    ((((readyAt s th ((rg th a).setWidth 2)).head?).map (·.tid.toNat)).getD 0 +
      (readyAt s th ((rg th a).setWidth 2)).length * 2 ^ 32 +
      (s.threads.countP fun e => e.2.st == .parked .held && e.2.station == th.station) * 2 ^ 48))) :=
  gives_sup h sup (Eq.trans (b := execRqpeek w d a s) rfl rfl) rfl

end

/-- Settles O47: TLBINV and REPLAY by their checks; the functions of CTX by the save area's checks and the thread that is named. -/
theorem supervisorFunctions : Obligations.SupervisorFunctions := by
  intro s w th d a b n u c h sup v z hi t g off k held mine area ready ansd foe
  obtain ⟨unaligned, beyond, invalidates⟩ := tlbinvResults (w := w) (a := a) (u := u) (c := c) h sup
  obtain ⟨idle, current⟩ := replayResults (w := w) (d := d) h sup
  refine ⟨unaligned, beyond, invalidates, gives_tlbinvAll h sup, idle, current, fun p => ctxsv_area_traps h sup,
    fun p => ctxld_area_traps h sup, ctxsv_absent h sup, ctxld_absent h sup, rqpush_absent h sup, fun x here => ?_,
    rqpop_empty h sup, fun x l => rqpop_holds h sup, rqpopId_absent h sup,
    fun x target => ⟨rqpopId_self h sup target, rqpopId_holds h sup target⟩, rqpopKill_self h sup, rqpopKill_absent h sup,
    fun x other target live going own o => rqpopKill_kills h sup other target live going own, gives_rqpeek h sup⟩
  refine ⟨fun admits => ⟨fun y l => ctxld_loads h sup admits here, fun y e => ctxld_fails h sup admits here⟩,
    fun admits still y => ctxsv_saves h sup admits here still, fun store _ other => ?_, rqpush_releases h sup here⟩
  exact ⟨fun admits => ctxld_local h sup admits here store other, fun admits still => ctxsv_local h sup admits here still store⟩

end Sys2Proof.Supervision
